-- ==== Sys2Proof/Word.lean ====
section
/-! DEFINITION. Word.lean: the words the spec treats as bits, and the shape of a sparse table. -/

namespace Sys2Proof

/-- One byte of memory (R10: little-endian everywhere in module memory). -/
abbrev Byte := BitVec 8

/-- A half word. -/
abbrev Half := BitVec 16

/-- A 32-bit register or block word. -/
abbrev Word := BitVec 32

/-- A 64-bit counter or address. -/
abbrev Long := BitVec 64

/-- A table by number that lists only what differs from a default: keys strictly rising.
Memory is such a table of bytes (Host.Cell), with default 0. -/
abbrev Sparse (α : Type) := List (Nat × α)

end Sys2Proof
end

