-- ==== Sys2Proof/Syntax.lean ====
section
/-! DEFINITION. Syntax.lean: the commands of the block, one constructor of Instr per row of
spec/opcode_table.json, and the packets, frames and reports that they carry. The table gives no row any
bits, so an operand is what the rule of the row names: a core, a partition, a port, a packet. -/

namespace Sys2Proof

/-- A request, reply or maintenance packet: the full header of R270 and its payload. owner is the model's own: the
partition of this module that a packet of its own belongs to while it waits (R442); no packet on a link carries it. -/
structure Pkt where
  cls : BitVec 2
  channel : BitVec 2
  last : Bool
  esc : Bool
  hops : BitVec 6
  kind : BitVec 4
  part : BitVec 4
  skein : BitVec 12
  dest : BitVec 13
  src : BitVec 13
  status : Half
  tbytes : Word
  addr : Long
  tpackets : BitVec 24
  tno : Byte
  payload : List Byte
  check : Word
  owner : Option Nat := none
  deriving DecidableEq, Repr

/-- A scheduled packet: the short header of R272 and its payload. -/
structure SPkt where
  channel : BitVec 2
  last : Bool
  hops : BitVec 6
  kind : BitVec 4
  resv : Half
  offset : Word
  dest : BitVec 13
  src : BitVec 13
  payload : List Byte
  check : Word
  deriving DecidableEq, Repr

/-- A packet of a Yepecy port: the header of R499, the payload and its check. -/
structure HPkt where
  kind : BitVec 4
  len : Nat
  tag : BitVec 12
  status : Half
  addr : Long
  payload : List Byte
  check : Word
  deriving DecidableEq, Repr

/-- A slice entry of a stitch marker (R479). -/
structure SliceMark where
  tag : Word
  state : Byte
  pstitch : Long
  deriving DecidableEq, Repr

/-- A hold entry of a stitch marker (R479). -/
structure HoldMark where
  tag : Word
  cause : Half
  target : Long
  deriving DecidableEq, Repr

/-- A stitch marker (R479). -/
structure Marker where
  count : Long
  slices : List SliceMark
  holds : List HoldMark
  crc : Word
  deriving DecidableEq, Repr

/-- An Ethernet frame that carries an IPv6 packet (R535, R538, R539): the MAC address it came from, whether it is
tagged, its length, the FCS it carries and the one its bytes give, the packet's addresses, and whether the packet
carries an extension header. -/
structure Frame where
  ether : BitVec 48
  tagged : Bool
  length : Nat
  fcs : Word
  crc : Word
  source : List Byte
  dest : List Byte
  extended : Bool
  deriving DecidableEq, Repr

/-- A neighbour advertisement (R538, R561): its frame, and the address it is for. -/
structure Advert where
  frame : Frame
  target : List Byte
  deriving DecidableEq, Repr

/-- A UDP datagram in a frame: its ports, the checksum it carries and the one its bytes give (R539). -/
structure Dgram where
  frame : Frame
  sport : Half
  dport : Half
  checksum : Half
  computed : Half
  deriving DecidableEq, Repr

/-- The path an Asrel request takes: a datagram of the network, or the mailbox of a Yepecy port (R541). -/
inductive Path where
  | net (d : Dgram)
  | mailbox (port : Fin 2)
  deriving DecidableEq, Repr

/-- The fields of an Asrel request (R541), without its opcode. -/
structure AReq where
  magic : Half
  version : Byte
  reqId : Word
  index : Half
  sub : Byte
  flags : Byte
  status : Half
  reason : Byte
  typ : Byte
  dataBytes : Half
  reserved : Half
  offset : Word
  total : Word
  data : List Byte
  deriving DecidableEq, Repr

/-- What the memories report on the reads of one command: cellar words corrected (R101) and lines found
uncorrectable (R102), HBM bursts reported corrected and uncorrected (R109), parity retries and transfers
failed four times (R110). The numbers are local byte addresses. -/
structure Ecc where
  cellarCorrected : List Nat
  cellarBad : List Nat
  hbmCorrected : List Nat
  hbmBad : List Nat
  retries : Nat
  parityBad : List Nat
  deriving DecidableEq, Repr

/-- Reads on which the memories report nothing. -/
def Ecc.clean : Ecc := ⟨[], [], [], [], 0, []⟩

/-- A temperature sensor of R617. -/
inductive Sensor where
  | compute (die : Fin 8)
  | hub (h : Fin 4)
  | hbm (stack : Fin 12)
  | optical (position : Fin 16)
  deriving DecidableEq, Repr

/-- An engine of a core, as the place where an issued command runs (R132). -/
inductive Engine where
  | tensor
  | vector
  | row
  | mover
  | hubColl (resv : Half)
  deriving DecidableEq, Repr

/-- The unit in which a parity error is found (R194, R481); for an accumulator bank, its core and the engine, of
which core, whose read found it. -/
inductive ParityUnit where
  | accumulator (core : Fin 512) (reader : Fin 512) (engine : Engine)
  | core (core : Fin 512)
  | reduction (unit : Fin 56)
  | hub (h : Fin 4)
  deriving DecidableEq, Repr

/-- What a scrub read of one cellar line finds (R103). -/
inductive Scrub where
  | clean
  | corrected
  | uncorrectable
  deriving DecidableEq, Repr

/-- The measurements of one history record (R623). -/
structure Meas where
  minute : Word
  lowMv : Word
  highW : Half
  meanW : Half
  temps : List Half
  deriving DecidableEq, Repr

/-- The cells of the boundary register (R493): the pins it covers. How wide the management bus is there, and the order
of the cells, the spec does not give. -/
structure Pins where
  resetN : Bool
  modid : BitVec 13
  segpos : BitVec 3
  recoveryN : Bool
  bus : List Bool
  tdo : Bool
  deriving DecidableEq, Repr

/-- Every pin low. -/
def Pins.low : Pins := { resetN := false, modid := 0, segpos := 0, recoveryN := false, bus := [], tdo := false }

/-- How a request frame differs from one of its row (R543): the opcode it carries, where that is another one, and
whether it is shorter than 28 bytes. -/
structure ReqForm where
  opcode : Option Byte
  short : Bool
  deriving DecidableEq, Repr

/-- A frame of at least 28 bytes with its row's opcode. -/
def ReqForm.whole : ReqForm := { opcode := none, short := false }

/-- The opcode of a frame of a row. -/
def ReqForm.opcodeOr (f : ReqForm) (op : Nat) : Nat := (f.opcode.map (·.toNat)).getD op

/-- A command of the block: one constructor per row of spec/opcode_table.json, in the table's order. -/
inductive Instr where
  | reset (lowNs : Nat) (modid : BitVec 13) (segpos : BitVec 3) (recoveryN : Bool) (torn : Bool := false)
  | railBringUp
  | hbmTraining
  | moduleReady
  | inputRise
  | powerLoss (m : Meas)
  | overvoltage
  | powerInputFault
  | inputSettled
  | powerLimitExceeded (watts : Nat)
  | thermalTrip (sensor : Sensor)
  | thermalWarning (sensor : Sensor)
  | historyRecord (m : Meas)
  | domainLockLoss (domain : Fin 40)
  | parityError (unit : ParityUnit)
  | stitchBoundary (ecc : Ecc := .clean) (symbols : List (Nat × Nat × Nat) := [])
  | drainEnd (part : Fin 16)
  | drainTimeout (part : Fin 16)
  | spanEndShort (part : Fin 16) (resv : Half)
  | atticHoldEnd (part : Fin 16) (handle : BitVec 10)
  | patternStart (part : Fin 16) (ecc : Ecc := .clean)
  | stitchMarker (port : Fin 6) (m : Marker) (offsetCycles : Int)
  | timebaseLock
  | holdover
  | waitCycle (part : Fin 16)
  | start (port : Fin 2) (core : Fin 512) (value : Word)
  | streamEnqueue (core : Fin 512)
  | gate (core : Fin 512)
  | gateOpen (core : Fin 512)
  | segment (core : Fin 512)
  | body (core : Fin 512)
  | endStep (core : Fin 512)
  | issueChecks (core : Fin 512)
  | matmul (core : Fin 512)
  | tileStart (core : Fin 512) (ecc : Ecc)
  | accumulatorDrain (core : Fin 512) (ecc : Ecc)
  | vector (core : Fin 512) (ecc : Ecc)
  | fnTableCheck (core : Fin 512)
  | layernormFwd (core : Fin 512) (ecc : Ecc)
  | rmsnormFwd (core : Fin 512) (ecc : Ecc)
  | softmaxFwd (core : Fin 512) (ecc : Ecc)
  | layernormBwd (core : Fin 512) (ecc : Ecc)
  | rmsnormBwd (core : Fin 512) (ecc : Ecc)
  | softmaxBwd (core : Fin 512) (ecc : Ecc)
  | copy (core : Fin 512) (ecc : Ecc)
  | larderPush (core : Fin 512) (ecc : Ecc)
  | larderRead (core : Fin 512) (ecc : Ecc)
  | larderRelease (core : Fin 512)
  | wait (core : Fin 512)
  | fence (core : Fin 512)
  | tallyAdd (core : Fin 512)
  | tallySet (core : Fin 512)
  | publish (core : Fin 512)
  | rsSum (core : Fin 512)
  | rsSumCont (core : Fin 512)
  | rsMean (core : Fin 512)
  | rsMeanCont (core : Fin 512)
  | arSum (core : Fin 512)
  | arSumCont (core : Fin 512)
  | arMean (core : Fin 512)
  | arMeanCont (core : Fin 512)
  | allGather (core : Fin 512)
  | scalarSum (core : Fin 512)
  | scalarMax (core : Fin 512)
  | normReduce (core : Fin 512)
  | quarantineScan (core : Fin 512) (resv : Half) (ecc : Ecc := .clean)
  | collectiveDeadline (core : Fin 512) (resv : Half) (ecc : Ecc := .clean)
  | commandComplete (core : Fin 512) (engine : Engine) (landing : Half := 0)
  | queueResume (port : Fin 2) (core : Fin 512)
  | queueFlush (port : Fin 2) (core : Fin 512)
  | queueClearSticky (port : Fin 2) (core : Fin 512)
  | descCommit (port : Fin 2) (core : Fin 512) (handle : BitVec 10)
  | descCopyDone (core : Fin 512)
  | descRead (port : Fin 2) (core : Fin 512) (handle : BitVec 10)
  | cplCommit (port : Fin 2) (core : Fin 512)
  | tallyValueWrite (port : Fin 2) (core : Fin 512) (tally : BitVec 8) (value : Word)
  | tallyAddRegister (port : Fin 2) (core : Fin 512) (tally : BitVec 8) (value : Word)
  | registerWrite (port : Fin 2) (offset : BitVec 27) (value : Word)
  | cellarScrub (line : BitVec 26) (found : Scrub)
  | cellarLineSpare (line : BitVec 26)
  | hbmRowRepair (row : Nat)
  | spareCoreSubstitution (core : Fin 512)
  | unitSpareSubstitution (unit : Fin 56)
  | windowCommit (part : Fin 16)
  | larderCommit (part : Fin 16)
  | zeroingComplete (part : Fin 16)
  | patCommit (port : Fin 2) (part : Fin 16)
  | patternLoadDone (part : Fin 16)
  | startCommit (port : Fin 2) (part : Fin 16)
  | manCommit (port : Fin 2) (part : Fin 16)
  | partStart (port : Fin 2) (part : Fin 16)
  | partStop (port : Fin 2) (part : Fin 16)
  | partDrain (port : Fin 2) (part : Fin 16)
  | layoutCommit (part : Fin 16)
  | guaranteeCommit (part : Fin 16)
  | placementCommit (part : Fin 16)
  | ledgerClear (part : Fin 16)
  | statsClear (part : Fin 16)
  | routeHold
  | routeCommit
  | peakClear (port : Fin 6)
  | write (port : Fin 6) (p : Pkt) (ecc : Ecc := .clean)
  | read (port : Fin 6) (p : Pkt) (ecc : Ecc := .clean)
  | tally (port : Fin 6) (p : Pkt)
  | fabOpen (port : Fin 6) (p : Pkt)
  | fabClose (port : Fin 6) (p : Pkt)
  | readData (port : Fin 6) (p : Pkt) (ecc : Ecc := .clean)
  | ack (port : Fin 6) (p : Pkt)
  | grant (port : Fin 6) (p : Pkt)
  | nack (port : Fin 6) (p : Pkt)
  | openRetry (skein : BitVec 12)
  | openTimeout (skein : BitVec 12)
  | transferTimeout (skein : BitVec 12) (tno : Byte)
  | receiveContextExpiry (src : BitVec 13) (skein : BitVec 12) (tno : Byte)
  | skeinIdleClose (skein : BitVec 12)
  | packetRoute (port : Option (Fin 6)) (p : Pkt) (credits : List Nat) (waited : Nat) (ecc : Ecc := .clean)
  | escape (port : Option (Fin 6)) (p : Pkt)
  | schedMove (port : Fin 6) (p : SPkt) (landing : Nat) (ecc : Ecc := .clean)
  | collective (port : Fin 6) (p : SPkt) (ecc : Ecc := .clean)
  | maint (port : Fin 6) (p : Pkt)
  | portLight (port : Fin 6) (farIdle : Bool := true) (host : Option (Fin 2) := none)
  | training (port : Fin 6) (failed : List Nat) (host : Option (Fin 2) := none)
  | stageTimeout (port : Fin 6) (lost : Nat)
  | identity (port : Fin 6) (frame : List Byte)
  | identitySend (port : Fin 6)
  | echoRequest (port : Fin 6) (arrival : Long)
  | echoReply (port : Fin 6) (roundTrip : Nat) (turnaround : Nat)
  | codewordUncorrectable (port : Fin 6) (strand : Byte)
  | lightLoss (port : Fin 6) (strand : Byte)
  | retrain (port : Fin 6)
  | extest
  | idcode
  | samplePreload (pins : Pins := .low) (preload : Pins := .low)
  | bypass
  | hello (port : Fin 2) (version : Word) (check : Option Word := none)
  | helloSend (port : Fin 2)
  | rd (port : Fin 2) (p : HPkt) (ecc : Ecc)
  | rdShared (port : Fin 2) (p : HPkt) (ecc : Ecc)
  | rdOwn (port : Fin 2) (p : HPkt) (ecc : Ecc)
  | wr (port : Fin 2) (p : HPkt) (ecc : Ecc := .clean)
  | wb (port : Fin 2) (p : HPkt) (ecc : Ecc := .clean)
  | ylFence (port : Fin 2) (p : HPkt)
  | hAck (port : Fin 2) (p : HPkt)
  | hResp (port : Fin 2) (p : HPkt) (ecc : Ecc := .clean)
  | recall (port : Fin 2) (line : Nat)
  | recallTimeout (port : Fin 2) (line : Nat)
  | hostTimeout (port : Fin 2) (tag : BitVec 12)
  | hostLinkFault (port : Fin 2)
  | doorbell (port : Fin 2) (n : BitVec 6) (value : Word)
  | dbBind (port : Fin 2) (n : BitVec 6) (value : Word)
  | interrupt (part : Fin 16) (cause : Fin 6)
  | coalesceExpiry (port : Fin 2) (vec : Fin 32)
  | hqCommit (port : Fin 2) (queue : Fin 32)
  | hqFlush (port : Fin 2) (queue : Fin 32)
  | hqIdleTimeout (port : Fin 2) (queue : Fin 32)
  | apertureCommit (part : Fin 16)
  | asrelRead (path : Path) (r : AReq) (form : ReqForm := .whole)
  | asrelWrite (path : Path) (r : AReq) (form : ReqForm := .whole)
  | describe (path : Path) (r : AReq) (form : ReqForm := .whole)
  | asrelAbort (path : Path) (r : AReq) (form : ReqForm := .whole)
  | snapshotExpiry (n : Fin 4)
  | sessionExpiry (n : Fin 4)
  | mbSubmit (port : Fin 2) (value : Word)
  | mbClearReady (port : Fin 2)
  | mbClearRefused (port : Fin 2)
  | netCommit (path : Path)
  | neighborSolicitation (f : Frame) (target : List Byte)
  | neighborAdvertisement (a : Advert)
  | icmpEchoRequest (f : Frame) (ident : Word) (data : List Byte)
  | dadTimeout
  | activateLive
  | activateAtReset
  | handover (ok : Bool) (begins : Bool := false)
  | erase (which : Fin 3)
  | imageStoreWrite (store : Fin 3) (offset : Nat) (total : Nat) (data : List Byte)
  | reconstruct
  | offer (port : Fin 6) (frame : List Byte)
  | offerSend
  | need (port : Fin 6) (frame : List Byte)
  | needProgressTimeout
  | part (port : Fin 6) (frame : List Byte)
  | abort (port : Fin 6) (frame : List Byte)
  | upstreamSilence
  | attestNonce (part : Fin 16) (nonce : List Byte)
  | attestReportDone (part : Fin 16)
  | thermalHoldEnd (port : Option (Fin 8))
  | inputFallsBelow54v
  | testLogicReset
  deriving DecidableEq, Repr

end Sys2Proof
end

