-- ==== Sys2Proof/Decode.lean ====
section
/-! DEFINITION. Decode.lean: the command that a word of the opcode table spells. No row of the table
carries bits (its rows are commands from outside, not encodings), so no word spells one. -/

namespace Sys2Proof

/-- The command spelled by a word of the table: none, since the table gives no row any bits. -/
def decodeTableWord (_nbits _w : Nat) : Option Instr := none

/-- The command of a code in the test port's instruction register (R493). -/
def jtagCommand (code : BitVec 8) : Instr :=
  if code = 0x00 then .extest else if code = 0x01 then .idcode else if code = 0x02 then .samplePreload else .bypass

end Sys2Proof
end

