-- ==== Sys2Proof/Config.lean ====
section
/-! DEFINITION. Config.lean: what one part fixes at manufacture and the spec does not give, and the free
values of the spec. None of them has a body: nothing can be proved about its value. -/

namespace Sys2Proof.Config

/-- A free byte: what a byte the spec calls undefined holds (R485, R100). The first argument is the
model's own counter State.freeCtr, the second the address. -/
opaque freeByte : Nat → Nat → BitVec 8

/-- A free choice of one bit (R603: a RESET_N pulse between 250 ns and 1 us may or may not reset). -/
opaque freeBool : Nat → Bool

/-- The value of an MX element code that R43's table gives none (an E5M2 code of the top exponent, the E4M3
codes 0x7F and 0xFF: the format has no infinity, and NaN only by its scale), as the place of another code's
magnitude in the format: format code, element code. -/
opaque mxOpenCode : Nat → Nat → Nat

/-- The serial number (0x1000:05, factory). -/
opaque serial : BitVec 64

/-- The build date (0x1000:06, factory). -/
opaque buildDate : BitVec 32

/-- The six bytes of the EUI-48 of the management port (0x1000:07, factory). -/
opaque mac : Nat → BitVec 8

/-- The manufacturer code of the identification register (R493, given in a file outside the manual). -/
opaque jtagManufacturer : BitVec 11

/-- The 1793 bytes of the identity public key (R594, generated at manufacture). -/
opaque identityKey : Nat → BitVec 8

/-- The vendor identity key id of the certificate (R595). -/
opaque vendorKeyId : BitVec 32

/-- The 1280 bytes of the vendor signature of the certificate (R595). -/
opaque certificateSignature : Nat → BitVec 8

/-- The 1793 bytes of the vendor key of a key slot (R568, R569). -/
opaque vendorKey : Nat → Nat → BitVec 8

/-- Falcon-1024 verification of a signature in the padded format (R568, R572 check 5): public key, digest, signature.
The scheme stands in a specification outside the manual, and the keys are the vendor's. -/
opaque falconVerify : List (BitVec 8) → List (BitVec 8) → List (BitVec 8) → Bool

/-- Falcon-1024 signing with the identity key (R594, R596): the digest signed, and the byte of the signature. -/
opaque falconSign : List (BitVec 8) → Nat → BitVec 8

/-- The bytes of the image that the factory put in slot A (R569), and how many there are. -/
opaque factoryImage : Nat → BitVec 8
opaque factoryBytes : Nat

/-- The idle power of the module in mW (R611: the estimate adds it; the manual gives no figure). -/
opaque idleMw : Nat

end Sys2Proof.Config
end

