-- ==== Sys2Proof/Machine/Bits.lean ====
section
/-! DEFINITION. Machine/Bits.lean: sparse tables, bit fields, byte order and the two CRCs. -/

namespace Sys2Proof

/-- The value a table lists for a key. -/
def Sparse.find {α : Type} : Sparse α → Nat → Option α
  | [], _ => none
  | (k', v) :: m, k => if k' = k then some v else Sparse.find m k

/-- The value of a key, the default d where the table lists none. -/
def Sparse.get {α : Type} (d : α) (m : Sparse α) (k : Nat) : α := (Sparse.find m k).getD d

/-- The table with k listed as v, keys kept rising. -/
def Sparse.put {α : Type} : Sparse α → Nat → α → Sparse α
  | [], k, v => [(k, v)]
  | (k', v') :: m, k, v =>
    if k < k' then (k, v) :: (k', v') :: m
    else if k' = k then (k, v) :: m
    else (k', v') :: Sparse.put m k v

/-- The table with no entry for k. -/
def Sparse.del {α : Type} : Sparse α → Nat → Sparse α
  | [], _ => []
  | (k', v') :: m, k => if k' = k then Sparse.del m k else (k', v') :: Sparse.del m k

/-- Writing v at k in canonical form: the default is not listed. -/
def Sparse.set {α : Type} [DecidableEq α] (d : α) (m : Sparse α) (k : Nat) (v : α) : Sparse α :=
  if v = d then Sparse.del m k else Sparse.put m k v

/-- The table without the keys from lo up to lo + n - 1: those read the default again. -/
def Sparse.erase {α : Type} (m : Sparse α) (lo n : Nat) : Sparse α :=
  m.filter fun kv => !(decide (lo ≤ kv.1) && decide (kv.1 < lo + n))

/-- Every key of the table is above k. -/
def Sparse.above {α : Type} (k : Nat) : Sparse α → Bool
  | [] => true
  | (k', _) :: m => decide (k < k') && Sparse.above k m

/-- The canonical form: keys strictly rising, no entry equal to the default. -/
def Sparse.wf {α : Type} [DecidableEq α] (d : α) : Sparse α → Bool
  | [] => true
  | (k, v) :: m => decide (v ≠ d) && Sparse.above k m && Sparse.wf d m

namespace Machine

/-- The field of len bits from bit lo (R9). -/
def fld {n : Nat} (w : BitVec n) (lo len : Nat) : Nat := (w.toNat >>> lo) % 2 ^ len

/-- Bit i of a word. -/
def bit {n : Nat} (w : BitVec n) (i : Nat) : Bool := w.toNat.testBit i

/-- The n low bytes of v, least significant first (R10). -/
def leBytes : Nat → Nat → List Byte
  | 0, _ => []
  | n + 1, v => BitVec.ofNat 8 v :: leBytes n (v >>> 8)

/-- The number a little-endian run of bytes spells. -/
def ofLe : List Byte → Nat
  | [] => 0
  | b :: bs => b.toNat + ofLe bs <<< 8

/-- n bytes from offset o of a byte list, zeros beyond its end. -/
def takeAt (bs : List Byte) (o n : Nat) : List Byte :=
  let t := (bs.drop o).take n
  t ++ List.replicate (n - t.length) 0

/-- The little-endian number in n bytes at offset o. -/
def leAt (bs : List Byte) (o n : Nat) : Nat := ofLe (takeAt bs o n)

/-- Two's complement of the w low bits of v. -/
def signed (w v : Nat) : Int :=
  let u := v % 2 ^ w
  if 2 * u < 2 ^ w then (u : Int) else (u : Int) - (2 ^ w : Nat)

/-- The w-bit pattern of an integer, two's complement. -/
def unsigned (w : Nat) (i : Int) : Nat := (i % ((2 ^ w : Nat) : Int)).toNat

/-- Number of bits of n: the least k with n < 2^k. -/
def bitLen (n : Nat) : Nat := if n = 0 then 0 else Nat.log2 n + 1

/-- Division rounded up. -/
def ceilDiv (a b : Nat) : Nat := (a + b - 1) / b

/-- One bit of CRC-32C, reflected (R567). -/
def crc32cBit (c : BitVec 32) : BitVec 32 :=
  if bit c 0 then (c >>> 1) ^^^ 0x82F63B78#32 else c >>> 1

/-- One byte of CRC-32C. -/
def crc32cByte (c : BitVec 32) (b : Byte) : BitVec 32 :=
  (List.range 8).foldl (fun c _ => crc32cBit c) (c ^^^ b.setWidth 32)

/-- CRC-32C of bytes (R567). -/
def crc32c (bs : List Byte) : Word := (bs.foldl crc32cByte 0xFFFFFFFF#32) ^^^ 0xFFFFFFFF#32

/-- One byte of CRC-64/ECMA-182 (R345). -/
def crc64Byte (c : BitVec 64) (b : Byte) : BitVec 64 :=
  (List.range 8).foldl
    (fun c _ => if bit c 63 then (c <<< 1) ^^^ 0x42F0E1EBA9EA3693#64 else c <<< 1)
    (c ^^^ (b.setWidth 64 <<< 56))

/-- CRC-64/ECMA-182 of bytes (R345). -/
def crc64 (bs : List Byte) : Long := bs.foldl crc64Byte 0

/-- A ring of n records: the oldest is overwritten first. -/
def pushRing {α : Type} (n : Nat) (ring : List α) (r : α) : List α :=
  (ring ++ [r]).drop ((ring.length + 1) - n)

/-- Insert into a list of numbers kept rising without repeats. -/
def insertNat : List Nat → Nat → List Nat
  | [], k => [k]
  | a :: as, k => if k < a then k :: a :: as else if k = a then a :: as else a :: insertNat as k

end Machine
end Sys2Proof
end

