-- ==== Sys2Proof/Machine/Shake.lean ====
section
/-! DEFINITION. Machine/Shake.lean: SHAKE256 of FIPS 202 with an output of 512 bits (R568). The tables of
FIPS 202 are computed from the rules that define them: the offsets of rho along its walk, the round
constants from its shift register. -/

namespace Sys2Proof.Machine

/-- The state of the permutation: lane x of plane y stands at place 5 * y + x of the sponge. -/
structure Sponge where
  planes : List (List Long)
  deriving DecidableEq, Repr

/-- A sponge with a value for each lane. -/
def Sponge.ofLanes (f : Nat → Nat → Long) : Sponge :=
  ⟨(List.range 5).map fun y => (List.range 5).map fun x => f x y⟩

/-- The lane in column x of plane y, both taken modulo 5. -/
def Sponge.lane (a : Sponge) (x y : Nat) : Long := (a.planes.getD (y % 5) []).getD (x % 5) 0

/-- The exclusive or of a column's five lanes. -/
def Sponge.parity (a : Sponge) (x : Nat) : Long := a.planes.foldl (fun p r => p ^^^ r.getD (x % 5) 0) 0

/-- The parities beside each column, mixed into its lanes. -/
def Sponge.mixColumns (a : Sponge) : Sponge :=
  let beside := (List.range 5).map fun x => a.parity (x + 4) ^^^ (a.parity (x + 1)).rotateLeft 1
  .ofLanes fun x y => a.lane x y ^^^ beside.getD x 0

/-- The step of the walk over the 24 lanes other than (0, 0): where a lane goes to. -/
def lanePlace (at' : Nat × Nat) : Nat × Nat := (at'.2, (2 * at'.1 + 3 * at'.2) % 5)

/-- The walk from (1, 0): step t turns its lane by (t + 1)(t + 2)/2 bits and sets it down one place on.
Each entry is a place and the lane it then holds. -/
def Sponge.walk (a : Sponge) : Nat → Nat → Nat × Nat → List ((Nat × Nat) × Long)
  | 0, _, _ => []
  | n + 1, t, p =>
    (lanePlace p, (a.lane p.1 p.2).rotateLeft ((t + 1) * (t + 2) / 2 % 64)) :: a.walk n (t + 1) (lanePlace p)

/-- The lanes turned and moved. -/
def Sponge.scatter (a : Sponge) : Sponge :=
  let moved := a.walk 24 0 (1, 0)
  .ofLanes fun x y => ((moved.find? fun m => m.1 == (x, y)).map (·.2)).getD (a.lane x y)

/-- Each plane with its one non-linear step. -/
def Sponge.bend (a : Sponge) : Sponge :=
  ⟨a.planes.map fun r => r.zipIdx.map fun v =>
    v.1 ^^^ (r.getD ((v.2 + 2) % 5) 0 &&& ~~~(r.getD ((v.2 + 1) % 5) 0))⟩

/-- The shift register of the round constants, x^8 + x^6 + x^5 + x^4 + 1, after t steps from 1. -/
def roundRegister : Nat → Nat
  | 0 => 1
  | t + 1 =>
    let r := 2 * roundRegister t
    if r < 256 then r else r ^^^ 0x171

/-- The constant of a round: its bit 2^j - 1 is the register's low bit after 7 * round + j steps. -/
def roundConstant (round : Nat) : Long :=
  BitVec.ofNat 64 ((List.range 7).foldl
    (fun c j => c + roundRegister (7 * round + j) % 2 * 2 ^ (2 ^ j - 1)) 0)

/-- One round. -/
def Sponge.round (a : Sponge) (n : Nat) : Sponge :=
  let b := a.mixColumns.scatter.bend
  .ofLanes fun x y => if x = 0 ∧ y = 0 then b.lane 0 0 ^^^ roundConstant n else b.lane x y

/-- The permutation: 24 rounds. -/
def Sponge.permute (a : Sponge) : Sponge := (List.range 24).foldl Sponge.round a

/-- Bytes of a block: 17 lanes. -/
def spongeRate : Nat := 136

/-- One block taken in. -/
def Sponge.absorb (a : Sponge) (block : List Byte) : Sponge :=
  Sponge.permute <| .ofLanes fun x y =>
    let i := 5 * y + x
    if i < 17 then a.lane x y ^^^ BitVec.ofNat 64 (leAt block (8 * i) 8) else a.lane x y

/-- The bytes that follow a message of n bytes up to a whole block: SHAKE's suffix 1111, the first and the
last bit of the padding. -/
def spongePad (n : Nat) : List Byte :=
  let room := spongeRate - n % spongeRate
  (List.range room).map fun i =>
    (if i = 0 then 0x1F else 0) ||| (if i + 1 = room then 0x80 else 0)

/-- SHAKE256 of a message, 64 bytes. -/
def shake256 (m : List Byte) : List Byte :=
  let padded := m ++ spongePad m.length
  let a := (List.range (padded.length / spongeRate)).foldl
    (fun (a : Sponge) i => a.absorb ((padded.drop (spongeRate * i)).take spongeRate)) (.ofLanes fun _ _ => 0)
  (List.range 8).flatMap fun i => leBytes 8 (a.lane i (i / 5)).toNat

end Sys2Proof.Machine
end

