-- ==== Sys2Proof/Machine/State.lean ====
section
/-! DEFINITION. Machine/State.lean: everything the spec gives the module, as plain data, and the state
right after reset. Counters the spec lets wrap are bit vectors of their width; numbers, lists and
names that no software sees as a word are Nat, List and inductive types. -/

namespace Sys2Proof.Machine

/-- Why a command stops the machine. -/
inductive Fault where
  /-- Raised by the commands that carry a packet or frame longer than its wire format can hold
  (a command no agent can send). Safe: the model stops where nothing can happen on the hardware. -/
  | malformedCommand
  deriving DecidableEq, Repr

/-- Why a command has no meaning. -/
inductive Refusal where
  /-- Raised in exec's arm for a row with no meaning yet. Safe. -/
  | notModelled (mnemonic : String)
  deriving DecidableEq, Repr

/-- The grade (R1). -/
inductive Grade where
  | da512
  | da448
  deriving DecidableEq, Repr

/-- The stepping (R4). -/
inductive Stepping where
  | b1
  | b0
  deriving DecidableEq, Repr

/-- What manufacture fixed, the die maps that substitution changes (R38, R39) and the fuses (R573). -/
structure Hw where
  grade : Grade
  stepping : Stepping
  dieMap : List (List Nat)
  securityCounter : Word
  keyRevoked : Byte
  deriving DecidableEq, Repr

/-- A value written into a shadow and the live value (R174). -/
structure Shadowed (α : Type) where
  sh : α
  live : α
  deriving DecidableEq, Repr

/-- Memory reliability: the entries of 0x2100, the poison of cellar lines and the wear counts
(R101 to R104, R109 to R113). A cellar line is named by its number core * 131072 + line in the slice. -/
structure MemStat where
  poison : List Nat
  lineErrors : Sparse Nat
  spareLines : Sparse Nat
  linesPending : List Nat
  eccCorrected : Long
  eccUncorrected : Long
  scrubPeriod : Word
  hbmCorrected : Long
  hbmUncorrected : Long
  parityRetries : Long
  repairsFree : List Nat
  repairsPending : List Nat
  rowErrors : Sparse Nat
  deriving DecidableEq, Repr

/-- The steps of start-up (R619). -/
inductive Boot where
  | off
  | waitReset
  | booting
  | railsUp
  | hbmTrained
  | ready
  | recovery
  deriving DecidableEq, Repr

/-- Power, thermal state and straps (0x1300 to 0x1302, R601 to R624). What the entries call measured is no
state: each read measures anew. limitWas was the limit in force when limit was written, in the averaging window
limitAt (R624). stitchStartMw and stitchStartScale are the engines' weights and governor_scale, in units of 2^-24, at the start
of the stitch, ballastTaken the ballast that issues have taken over since (R611, R612). minuteEvents counts warnings and faults since the last history record. -/
structure Power where
  boot : Boot
  overvolt : Bool
  settling : Bool
  thermalHold : Bool
  stitchStartMw : Nat
  stitchStartScale : Nat
  limit : Word
  limitWas : Word
  limitAt : Nat
  ballastMw : Nat
  ballastTaken : Nat
  ballastStitches : Long
  limiterStalls : Long
  warnings : Long
  faults : Long
  trips : Long
  minuteEvents : Half
  historyTaken : Word
  history : List (List Byte)
  lifetime : List Byte
  powerLoss : List Byte
  strapId : BitVec 13
  strapSeg : BitVec 3
  strapRecovery : Bool
  ticks : Nat
  deriving DecidableEq, Repr

/-- A tensor descriptor (R139), fields decoded. Reserved fields read zero (R11). -/
structure Desc where
  loc : Nat
  fmt : Nat
  rank : Nat
  versioned : Bool
  part : Nat
  key : Word
  version : Word
  base : Long
  twin : Long
  scale : Long
  dims : List Nat
  strides : List Int
  deriving DecidableEq, Repr

/-- An entry of a command queue: the block's words and how it entered (R130, R131, R155). -/
structure Entry where
  words : List Word
  startWords : Nat
  badMagic : Bool
  fromStream : Bool
  segClass : Nat
  deriving DecidableEq, Repr

/-- An entry that has passed its issue checks, with the descriptors it read (R146, R156). -/
structure Checked where
  entry : Entry
  descs : Sparse Desc
  deriving DecidableEq, Repr

/-- A running MATMUL: tiles in all, the next tile, the tiles that wait for their drain (R179 to R191), those that
get none and keep their banks busy until the command completes (R199), and the address of the read that stopped it (R196); stale: a hold refused a drain of it (R414). -/
structure TensorRun where
  chk : Checked
  tiles : Nat
  next : Nat
  undrained : List Nat
  kept : List Nat
  flags : Half
  bad : Option Nat
  stale : Bool
  deriving DecidableEq, Repr

/-- A running VECTOR or ROW command, its flags, its status at completion, and the image a FNLOAD puts into
table 0 or 1 when it completes (R224). -/
structure EngineRun where
  chk : Checked
  flags : Half
  status : Half
  image : Option (Nat × List Word)
  deriving DecidableEq, Repr

/-- One contiguous run of bytes of a transfer: where it lies, its length, its data, and for a read the
landing address (R286, R288). -/
structure Run where
  addr : Nat
  len : Nat
  data : List Byte
  land : Nat
  deriving DecidableEq, Repr

/-- A request-class transfer (R286): its destination module, its runs, and the first word of its TALLY. -/
structure Xfer where
  dest : Nat
  isRead : Bool
  runs : List Run
  tally : Option Word
  deriving DecidableEq, Repr

/-- What a mover command waits for: bytes it reads elsewhere, its occurrence in the pattern (R385), answers
to its writes, or only its completion. -/
inductive MovePhase where
  | reading
  | scheduled
  | writing
  | done
  deriving DecidableEq, Repr

/-- A host request that waits for a tag (R499, R510): address, length and data of a write. -/
structure HostJob where
  isRead : Bool
  addr : Nat
  len : Nat
  data : List Byte
  deriving DecidableEq, Repr

/-- A running MOVE (R132, R286, R510): the transfers and host requests not yet answered, bytes that arrived
for it by the global address they were read from, the descriptors it uses (of the attic twin in a gather
from the attic), its larder record as context and place in the stack, the gather record's key (destination,
context, gather id, phase), and the buffer a gather holds (R414). -/
structure MoverRun where
  chk : Checked
  phase : MovePhase
  flags : Half
  status : Half
  live : Nat
  hostLive : Nat
  hostTodo : List HostJob
  staging : Sparse Byte
  src : Option Desc
  dst : Option Desc
  record : Option (Nat × Nat)
  gatherKey : Option (Nat × Nat × Nat × Nat)
  held : List (Nat × Nat)
  deriving DecidableEq, Repr

/-- Why a stream fetcher stands still (R368). -/
inductive FetchWait where
  | go
  | gate
  | endStep
  | finished
  deriving DecidableEq, Repr

/-- An iteration context of a vector engine (R203): the vector registers and masks that hold something other
than the zeros every iteration starts with, each lane as its bit pattern (FP32, in wide mode BF16). -/
structure VecCtx where
  regs : Sparse (List Nat)
  masks : Sparse (List Bool)
  deriving DecidableEq, Repr

/-- The stream fetcher of a core (R131, R368): position in words, the word after BODY, the step it
fetches, and the segment it is in (end position, class, micro-batch). -/
structure Fetcher where
  base : Nat
  len : Nat
  pos : Nat
  body : Option Nat
  step : Nat
  seg : Option (Nat × Nat × Nat)
  wait : FetchWait
  governed : Option Nat
  deriving DecidableEq, Repr

/-- The state field of QUEUE_STATUS (R171). -/
inductive QState where
  | running
  | stopped
  | partStopped
  deriving DecidableEq, Repr

/-- The completion-ring commit group (R170). -/
structure Cpl where
  base : Long
  entries : Word
  deriving DecidableEq, Repr

/-- A logical core: its control block (R170), its engines and the private state no address names. limited:
its head has stalled under R611; worked: it has taken a command off its queue in this stitch (R164). -/
structure Core where
  stage : Sparse Word
  queue : List Entry
  head : Option Checked
  qstate : QState
  overflow : Bool
  refused : Bool
  stopInfo : Word
  cpl : Shadowed Cpl
  cplStatus : Half
  producer : Word
  consumer : Word
  lost : Word
  descStage : Sparse Word
  descBusy : Option (Nat × Desc)
  busy : Bool
  busyRefused : Bool
  descStatus : Half
  tallies : Sparse Word
  fn0 : Option (List Word)
  fn1 : Option (List Word)
  fnChecked : Bool
  tags : Sparse Nat
  contexts : Sparse VecCtx
  tensor : Option TensorRun
  vector : Option EngineRun
  row : Option EngineRun
  mover : Option MoverRun
  fetch : Option Fetcher
  coreFaults : Nat
  marked : Bool
  limited : Bool
  worked : Bool
  deriving DecidableEq, Repr

/-- The layout group of a partition (0x2600, R465). -/
structure Layout where
  first : Byte
  count : Byte
  hostPort : Byte
  tenant : Half
  excl : Byte
  cls : Byte
  ctxMask : Long
  unitMask : Word
  deriving DecidableEq, Repr

/-- The minima of a partition (0x2601, R465). -/
structure Guar where
  inject : Word
  hbm : Byte
  skein : Half
  rxctx : Half
  ledger : Half
  gather : Half
  deriving DecidableEq, Repr

/-- The placement of a partition (0x2602, R465). -/
structure Place where
  tag : Word
  lo : Half
  size : Half
  peers : List Byte
  deriving DecidableEq, Repr

/-- The host aperture group of a partition (0x2800, R532). -/
structure Aper where
  base : Long
  len : Long
  cacheable : Byte
  deriving DecidableEq, Repr

/-- The larder area of a partition, in units of 256 KiB (0x2102). -/
structure LarderArea where
  base : Word
  len : Word
  deriving DecidableEq, Repr

/-- The states of a partition (R427). -/
inductive PState where
  | absent
  | zeroing
  | stopped
  | running
  | draining
  deriving DecidableEq, Repr

/-- The state field of PAT_STATE (R403). -/
inductive PatState where
  | empty
  | checking
  | loaded
  | armed
  | running
  | faulted
  deriving DecidableEq, Repr

/-- An entry of the reservations section (R369). -/
structure Resv where
  number : Nat
  kind : Nat
  cond : Nat
  m : Nat
  queue : Nat
  t : Nat
  o : Nat
  span : Nat
  input : Nat
  output : Nat
  chIn : Nat
  chOut : Nat
  core : Nat
  flits : Nat
  bytes : Nat
  deriving DecidableEq, Repr

/-- A stage queue entry (R372). -/
structure StageQ where
  queue : Nat
  slots : Nat
  consumer : Bool
  peerId : Nat
  localCore : Nat
  peerCore : Nat
  peerTally : Nat
  localTally : Nat
  deriving DecidableEq, Repr

/-- A version plan entry (R255). -/
structure VPlan where
  handle : Nat
  writeOpen : Nat
  publish : Nat
  release : Nat
  deriving DecidableEq, Repr

/-- A power-profile entry (R367). -/
structure PowerEnt where
  t : Nat
  o : Nat
  rise : Nat
  cond : Nat
  m : Nat
  deriving DecidableEq, Repr

/-- A larder quota entry (R367). -/
structure Quota where
  ctx : Nat
  cls : Nat
  joined : Bool
  quota : Nat
  deriving DecidableEq, Repr

/-- A loaded pattern: the header of R366 and the sections of R367. Streams are (core, address, words). -/
structure Pattern where
  base : Nat
  bytes : Nat
  iface : Word
  patternId : Long
  tag : Word
  stages : Nat
  stageIndex : Nat
  shelves : Nat
  micro : Nat
  maxLong : Nat
  prologue : Nat
  stepStitches : Nat
  bubble : Nat
  slipLag : Nat
  class0 : Nat
  class1 : Nat
  streams : List (Nat × Nat × Nat)
  resvs : List Resv
  queues : List StageQ
  plan : List VPlan
  points : List (Nat × Nat)
  power : List PowerEnt
  quotas : List Quota
  deriving DecidableEq, Repr

/-- The pattern registers of a partition (R402). -/
structure PatRegs where
  base : Shadowed Long
  bytes : Shadowed Word
  commitStatus : Half
  start : Shadowed Long
  startStatus : Half
  man : Shadowed Long
  manStatus : Half
  deriving DecidableEq, Repr

/-- A committed step manifest: step, and one length for each micro-batch (R394). -/
structure Manifest where
  step : Nat
  lens : List Nat
  deriving DecidableEq, Repr

/-- A hold known for one stitch count (R387). -/
structure HoldAt where
  target : Nat
  cause : Half
  isLocal : Bool
  resv : Nat
  core : Nat
  deriving DecidableEq, Repr

/-- An injected occurrence that has started: its reservation, the pattern stitch at which it started, bytes
sent, flits it may still send in this stitch; and for a SCHED_MOVE its data, destination module and core
(R369, R383). awaits: its MOVE had issued and still read what it needs when it started (R390). -/
structure Occ where
  resv : Resv
  start : Nat
  sent : Nat
  credit : Int
  data : List Byte
  dest : Nat
  core : Nat
  awaits : Bool
  deriving DecidableEq, Repr

/-- The run of a pattern in a partition (R381 to R399): the pattern stitch and the one that comes next, the
step and how many have begun, every manifest committed since the load, the holds known, the stitches the
governor has examined, each with the stitches it takes, and its slips before the next stitch, the history of R381 (count, pattern stitch),
occurrences under way, occurrences started by stage queue, PUBLISH commands taken by handle, reservations
whose MOVE waits for its occurrence, and the pair extents that drains of the last two steps have accumulated into,
each with its step (R245). -/
structure Sched where
  pstitch : Nat
  next : Nat
  step : Nat
  begun : Nat
  slips : Word
  slipTotal : Long
  stepSlips : Nat
  slipNow : Bool
  manifests : List Manifest
  nextStep : Nat
  holds : List HoldAt
  governed : List (Nat × Nat)
  govSlips : Nat
  past : List (Nat × Nat)
  occs : List Occ
  started : Sparse Nat
  published : Sparse Nat
  issued : List Nat
  accum : List (Nat × Nat × Nat)
  deriving DecidableEq, Repr

/-- The attic of a handle held until a pattern stitch (R256): the base stitch of a step that gives it, and the twin's
extents. -/
structure Attic where
  handle : Nat
  step : Nat
  base : Nat
  release : Nat
  exts : List (Nat × Nat)
  deriving DecidableEq, Repr

/-- The arithmetic defaults a partition latches when it starts (R84). -/
structure Latched where
  round : Nat
  subnormal : Nat
  fp8 : Nat
  comp : Nat
  seed : Long
  deriving DecidableEq, Repr

/-- A norm accumulator pair of FP32 bit patterns (R347 to R349). -/
structure Pair where
  s : Word
  c : Word
  deriving DecidableEq, Repr

/-- The place of a bucket in the order of R349: due stitch, unit, and for the local and the reduced norm
whether a value is still to come (1) and the value that waits (2). -/
structure NormWait where
  due : Nat
  unit : Nat
  core : Nat
  localState : Nat
  localSq : Pair
  reducedState : Nat
  reducedSq : Pair
  deriving DecidableEq, Repr

/-- A partition: its commit groups, its state, its pattern and its tables. waitingAper is an aperture group whose commit
waits for lines to come back (R507); loadFrom an image, and waitingMan a manifest, that wait to be read for the same
reason (R505). -/
structure Part where
  layout : Shadowed Layout
  windows : Shadowed (List (Word × Word))
  larder : Shadowed LarderArea
  guar : Shadowed Guar
  place : Shadowed Place
  aper : Shadowed Aper
  axisModes : Byte
  injectNow : Word
  hbmNow : Byte
  state : PState
  clearing : Bool
  waitingWindows : Option (List (Word × Word))
  waitingAper : Option Aper
  drainReg : Word
  drainStep : Option Nat
  drainAt : Option Nat
  stopCause : Half
  ctrlStatus : Half
  idleTicks : Nat
  changed : Bool
  seed : Long
  latched : Latched
  descs : Sparse Desc
  regs : PatRegs
  patState : PatState
  loadStatus : Half
  loadResult : Option (Half × Option Pattern)
  loadFrom : Option (Nat × Nat)
  waitingMan : Option Long
  pattern : Option Pattern
  armed : Option Nat
  sched : Sched
  attic : List Attic
  localNorm : Pair
  reducedNorm : Pair
  norms : List NormWait
  clip : Word
  replay : List Byte
  stats : List (List Byte)
  statsTaken : Word
  normRecord : Option (List Byte)
  excluded : Nat
  nonce : List Byte
  attestState : Nat
  report : List Byte
  deriving DecidableEq, Repr

/-- A larder record (R115, R118): its id, its offset in the region of its context, its rounded length, and
whether its push has completed. -/
structure LRecord where
  id : Nat
  offset : Nat
  len : Nat
  readable : Bool
  deriving DecidableEq, Repr

/-- A sequence context of the larder (R115 to R122, R398): records oldest first. -/
structure Ctx where
  records : List LRecord
  fill : Nat
  peak : Nat
  quota : Nat
  joined : Bool
  joinedTo : Bool
  deriving DecidableEq, Repr

/-- The arithmetic defaults of 0x2200 (R84). -/
structure ArithRegs where
  round : Byte
  subnormal : Byte
  fp8 : Byte
  comp : Byte
  deriving DecidableEq, Repr

/-- The route group (0x2300:01 to 09, R307). -/
structure RouteGroup where
  moduleId : Half
  sizeX : Byte
  sizeY : Byte
  sizeZ : Byte
  seamX : Byte
  seamY : Byte
  seamZ : Byte
  axisMode : Byte
  portEnable : Byte
  deriving DecidableEq, Repr

/-- The counters of one fabric port (0x2301, R303). -/
structure PortCtr where
  txPackets : Long
  txFlits : Long
  rxPackets : Long
  rxFlits : Long
  stallRequest : Long
  stallReply : Long
  stallMaint : Long
  escapes : Long
  seams : Long
  depthNow : List Half
  depthPeak : List Half
  deriving DecidableEq, Repr

/-- A live transfer of a skein: its number, the core that issued it (none for the hub), its packets that have not left
yet, the stitch in which one last left (R292), and the transfer. -/
structure LiveX where
  tno : Byte
  core : Option Nat
  left : Nat
  sentAt : Nat
  xfer : Xfer
  deriving DecidableEq, Repr

/-- A skein of this module (R283 to R287): its partition, destination, state, contexts granted, the
destination's core_count, the next transfer number and its live transfers. -/
structure Skein where
  num : Nat
  part : Nat
  dest : Nat
  isOpen : Bool
  granted : Nat
  cores : Nat
  nextTno : Byte
  openSentAt : Nat
  retry : Bool
  idleSince : Nat
  live : List LiveX
  deriving DecidableEq, Repr

/-- A transfer that waits for its skein (R284, R285): its partition, and the core that issued it. -/
structure WaitX where
  part : Nat
  core : Option Nat
  xfer : Xfer
  deriving DecidableEq, Repr

/-- A receive context (R289 to R295); isReply: the one a READ of this module allocated (R288). -/
structure RxCtx where
  src : Nat
  skein : Nat
  tno : Nat
  part : Nat
  packets : Nat
  bytes : Nat
  totPackets : Nat
  totBytes : Nat
  heldTally : Option Word
  fail : Half
  seenAt : Nat
  isReply : Bool
  deriving DecidableEq, Repr

/-- Contexts granted to a skein of another module (R285), the numbers of its finished transfers that the sender
has not used again (R295), and the number of the newest transfer of it seen. -/
structure Granted where
  src : Nat
  skein : Nat
  part : Nat
  count : Nat
  done : List Nat
  newest : Nat
  deriving DecidableEq, Repr

/-- How the module takes the management segment (R536): by CSMA/CD, in the transmit opportunity of its PLCA node, or
as the coordinator that sends the BEACON, with its node count and timers. -/
inductive Medium where
  | csmaCd
  | node (id : Byte)
  | coordinator (count to_ burst timer : Byte)
  deriving DecidableEq, Repr

/-- Where an Asrel response goes and comes from (R540). -/
structure Sent where
  ether : BitVec 48
  source : List Byte
  dest : List Byte
  sport : Half
  dport : Half
  hops : Nat
  access : Medium
  deriving DecidableEq, Repr

/-- What the module sends. -/
inductive Out where
  | sched (port : Nat) (p : SPkt)
  | fabric (port : Nat) (p : Pkt)
  | marker (port : Nat) (m : Marker)
  | echo (port : Nat) (isReply : Bool) (arrival leaving : Long)
  | host (port : Nat) (p : HPkt)
  | asrel (to_ : Sent) (frame : List Byte)
  | advertise (access : Medium) (target : List Byte)
  | solicit (access : Medium) (target : List Byte)
  | echoIcmp (access : Medium) (dest : List Byte) (ident : Word) (data : List Byte)
  deriving DecidableEq, Repr

/-- The fabric: route group, skeins, receive contexts, counters and sampler (0x2300 to 0x2303). creditUsed lists
for each port the flits of the next input port's buffers that this module's packets take up, by channel from
request E0 in the order of R303 (R266, R267), received the flits that have come into each port's own buffers, by
channel in that order from S0; held are replies and CLOSEs that route_hold keeps back (R299),
maintWaiting maintenance packets that wait for credits or for the hold, and injected the flits each partition
has injected in this stitch (R442). -/
structure Fabric where
  route : Shadowed RouteGroup
  hold : Bool
  commitStatus : Half
  patience : Half
  timeout : Word
  ports : Sparse PortCtr
  delivered : Long
  completed : Long
  earlyLast : Long
  checkDiscards : Long
  countOverruns : Long
  timeouts : Long
  hopDiscards : Long
  schedUnmatched : Long
  stray : Long
  skeins : List Skein
  waiting : List WaitX
  retired : List (Nat × Nat)
  contexts : List RxCtx
  grants : List Granted
  transit : List (Option Nat × Pkt)
  creditUsed : Sparse (List Nat)
  received : Sparse (List Nat)
  held : List Pkt
  maintWaiting : List Out
  injected : Sparse Nat
  samplePoint : Byte
  sampleClasses : Byte
  sampleParts : Half
  sampleEvery : Word
  sampleSeen : Nat
  sampleTaken : Word
  sampleRing : List (List Byte)
  deriving DecidableEq, Repr

/-- A segment of a collective stream (R321 to R323). -/
structure Seg where
  chunk : Nat
  half : Nat
  mask : Nat
  weight : Nat
  quar : Nat
  nf : Option (Nat × Nat)
  data : List Byte
  deriving DecidableEq, Repr

/-- A stream a member receives: link direction (0 travelling +), phase, the chunk-halves in the order in which
they come, the pieces that have arrived by offset, the bytes consumed, and whether it has ended. -/
structure RxStream where
  dir : Nat
  phase : Nat
  turns : List (Nat × Nat)
  pieces : List (Nat × List Byte)
  used : Nat
  ended : Bool
  deriving DecidableEq, Repr

/-- A stream a member sends: the turns left, segments that wait for their turn, its bytes, how many have
left, and whether its trailer stands at their end. -/
structure TxStream where
  dir : Nat
  phase : Nat
  turns : List (Nat × Nat)
  waiting : List Seg
  bytes : List Byte
  sent : Nat
  ended : Bool
  deriving DecidableEq, Repr

/-- A COLLECTIVE handed to the hub (R310 to R346): its place in the axis, the pattern stitch at which its
occurrence started, the scan (0 not asked, 1 not done, 2 clean, 3 found), what was decided about its
contribution, its streams with the flits they may still send in this stitch by direction, the own chunk's
left and right streams of a line, the parts of it still to be finalised, its final values and what its
segments told. started: the hub needs its source no more (R35); stale: a hold refused a write of it (R414); miss: it found no ledger
entry (R338); wrong: the stream that brought a lead which differs from its command (R315); judged: what was decided
about its part while lines of its source come back from a host (R505). -/
structure CollRun where
  core : Nat
  part : Nat
  chk : Checked
  resv : Nat
  n : Nat
  pos : Nat
  ring : Bool
  due : Option Nat
  forced : Option Nat
  weight : Nat
  scan : Nat
  nfElem : Nat
  begun : Bool
  started : Bool
  included : Bool
  late : Bool
  own : List Pair
  raw : List Byte
  rx : List RxStream
  tx : List TxStream
  credit : List Int
  left : Option Seg
  right : Option Seg
  todo : Nat
  finals : List (Nat × List Word)
  nfOwn : Option Nat
  nfSeen : Option (Nat × Nat)
  dropSeen : Bool
  mask : Nat
  quar : Nat
  total : Nat
  flags : Half
  record : Option (List Byte)
  stale : Bool
  miss : Bool
  wrong : Option Nat
  judged : Option (Bool × Bool)
  deriving DecidableEq, Repr

/-- A bucket ledger entry (R336). -/
structure Ledger where
  part : Nat
  bucket : Nat
  weight : Nat
  axes : Nat
  masks : List Nat
  quars : List Nat
  deriving DecidableEq, Repr

/-- Collective state (0x2400 to 0x2402). -/
structure Coll where
  runs : List CollRun
  ledger : List Ledger
  events : List (List Byte)
  eventTaken : Word
  digests : List (List Byte)
  digestTaken : Word
  unitSpares : List Nat
  markedUnits : List Nat
  done : Long
  lateExclusions : Long
  quarantines : Long
  digestMismatches : Long
  deriving DecidableEq, Repr

/-- The state of the timebase (0x2500:03). -/
inductive TbState where
  | free
  | acquiring
  | locked
  | holdover
  | master
  deriving DecidableEq, Repr

/-- The timebase and the schedule entries (0x2500, 0x2501, 0x2503). -/
structure Timebase where
  role : Byte
  parent : Byte
  state : TbState
  count : Long
  offsetPs : BitVec 32
  good : Nat
  missed : Nat
  latency : List Word
  faults : Long
  governorScale : Word
  slipsTotal : Long
  governorStitches : Long
  holdsLate : Long
  slipTaken : Word
  slipLog : List (List Byte)
  deriving DecidableEq, Repr

/-- A fabric port (0x2701, R472 to R478). farSlices are the tags of the slices that the far end's last marker names
(R478); corrected counts the corrected symbols of each physical strand (R470), strandErrors lists those of the last
2^30 codewords: stitch, strand and count (R487). -/
structure Link where
  state : Byte
  neighbourId : Half
  neighbourPort : Byte
  neighbourSerial : Long
  version : Word
  expected : Long
  spares : Nat
  strandMap : List Nat
  marked : List Nat
  corrected : Sparse Long
  uncorrectable : Long
  frames : Nat
  good : Nat
  echoes : List Nat
  hot : Bool
  farSlices : List Word
  strandErrors : List (Nat × Nat × Nat)
  deriving DecidableEq, Repr

/-- A fault record that waits in hardware while a handover pauses the controller (R592): the record, and the partitions
that it names. -/
structure HeldFault where
  record : List Byte
  parts : List Nat
  deriving DecidableEq, Repr

/-- Links, faults and wear (0x2700, 0x2701). held are the fault records that wait for a handover to end, 32 at most;
sampled and preloaded are what the boundary cells of the test port hold
(R493). -/
structure Links where
  ports : Sparse Link
  faultTaken : Word
  faultRing : List (List Byte)
  held : List HeldFault
  shelvesOut : Long
  pairsOut : Word
  wearStrand : Word
  wearLine : Half
  wearRow : Half
  wearCore : Byte
  moduleFaults : Long
  testMode : Byte
  dark : Bool
  mgmtLost : Bool
  sampled : Pins
  preloaded : Pins
  deriving DecidableEq, Repr

/-- A host queue (R515 to R527): its commit group, registers and item accounting. -/
structure HQueue where
  base : Shadowed Long
  size : Shadowed Word
  bind : Shadowed Word
  commitStatus : Half
  state : Nat
  lastStatus : Half
  delivered : Word
  released : Word
  fill : Nat
  items : List (Nat × Nat)
  counts : Sparse Nat
  slots : List Nat
  early : Bool
  discards : Word
  relBase : Word
  lastWr : Nat
  deriving DecidableEq, Repr

/-- An interrupt vector (R513, R514). owed: an interrupt is due and waits for a free tag. -/
structure IVec where
  addr : Long
  data : Word
  causes : Word
  coalesce : Word
  pending : Word
  sentAt : Option Nat
  fresh : Word
  owed : Bool
  deriving DecidableEq, Repr

/-- A host request outstanding (R510): tag, kind, and the core whose MOVE sent it (none: an interrupt). -/
structure HostReq where
  tag : Nat
  isRead : Bool
  addr : Nat
  len : Nat
  core : Option Nat
  deriving DecidableEq, Repr

/-- The mailbox of a Yepecy port (R557, R558). -/
structure MBox where
  request : Sparse Word
  response : List Byte
  busy : Bool
  ready : Bool
  refused : Bool
  deriving DecidableEq, Repr

/-- A Yepecy port (R497 to R533). The directory lists (line, owned), least recently granted first; recalled
lists (line, tag) of RECALLs not yet answered, owed the lines whose RECALL waits for a free tag, overlay the module's writes that follow them (R505), and waiting
the grants that wait for a line of the directory or for a writeback (R504). -/
structure HostPort where
  state : Nat
  version : Word
  hellos : Nat
  dbBind : Sparse Word
  vecs : Sparse IVec
  queues : Sparse HQueue
  directory : List (Nat × Bool)
  recalled : List (Nat × Nat)
  owed : List Nat
  overlay : List (Nat × List Byte)
  waiting : List (HPkt × Ecc)
  requests : List HostReq
  nextTag : BitVec 12
  mbox : MBox
  hot : Bool
  deriving DecidableEq, Repr

/-- The host link entries (0x2800). -/
structure HostLink where
  ports : Sparse HostPort
  timeout : Word
  hqIdle : Word
  refusals : Long
  recalls : Long
  earlyLength : Long
  deriving DecidableEq, Repr

/-- The network group (0x1100:01 to 0D). -/
structure NetGroup where
  plcaEnable : Byte
  plcaNode : Byte
  plcaCount : Byte
  plcaTo : Byte
  burstCount : Byte
  burstTimer : Byte
  unicast : List Byte
  plen : Byte
  port : Half
  managers : List (List Byte)
  deriving DecidableEq, Repr

/-- A snapshot of R552: its key, its value. -/
structure Snapshot where
  path : Path
  index : Half
  sub : Byte
  shadow : Bool
  value : List Byte
  deriving DecidableEq, Repr

/-- A write session of R553: its key, what has arrived and the total. -/
structure Session where
  path : Path
  index : Half
  sub : Byte
  data : List Byte
  total : Nat
  deriving DecidableEq, Repr

/-- A response kept under R555. -/
structure Kept where
  reqId : Word
  opcode : Nat
  index : Half
  sub : Byte
  answer : List Byte
  deriving DecidableEq, Repr

/-- A commit that waits before its answer (R551, R554): of windows for zeroing, or, aper, of an aperture group for lines
of a host (R507). -/
structure WaitAnswer where
  path : Path
  req : AReq
  part : Nat
  aper : Bool
  deriving DecidableEq, Repr

/-- A request that waits to be served (R543, R554). -/
structure WaitReq where
  path : Path
  opcode : Nat
  req : AReq
  deriving DecidableEq, Repr

/-- Management: the network entries, sessions, snapshots and the identity label (0x1000, 0x1100). kept lists the
sources whose responses are kept, most recent first; snapshots the least recently used first; queue the requests that
wait for a handover to end, oldest first (R543, R591). -/
structure Mgmt where
  net : Shadowed NetGroup
  netStatus : Half
  addrState : Byte
  detecting : Bool
  framesRx : Long
  framesTx : Long
  frameErrors : Long
  dropped : Long
  refusedCount : Long
  label : List Byte
  snapshots : List Snapshot
  sessions : List Session
  kept : List (List Byte × List Kept)
  waiting : List WaitAnswer
  queue : List WaitReq
  layoutStatus : Half
  deriving DecidableEq, Repr

/-- A flash region (R569, R577, R581): state, who fills it (0 none, 1 a store, 2 distribution), the total
of its image and the bytes that have arrived by offset. status is what its image last completed with, or what discarded a
block of it (R572, R575, R581, R598): no entry holds it. factory: it holds the image put there at manufacture,
whose bytes Config gives. -/
structure Slot where
  factory : Bool
  state : Nat
  filling : Nat
  total : Nat
  data : Sparse Byte
  fixed : List Nat
  digest : List Byte
  status : Half
  deriving DecidableEq, Repr

/-- A copy of the boot record (R577): its sequence number, the states of slots A and B, the active slot, the trial count
and its CRC-32C. -/
structure BootRec where
  seq : Nat
  stateA : Nat
  stateB : Nat
  active : Nat
  trials : Nat
  crc : Word
  deriving DecidableEq, Repr

/-- Firmware, boot record and distribution (0x1200 to 0x1202). slots 0 A, 1 B, 2 staging; first and second are the two
copies of the boot record; paused: a handover is under way (R590, R592). wanted is the bitmap
of the last NEED by port, window its window, sent the blocks sent since that port last made progress;
attestQueue the partitions whose reports are being produced, in order. -/
structure Firmware where
  slots : Sparse Slot
  first : BootRec
  second : BootRec
  paused : Bool
  running : Nat
  runVersion : Word
  active : Nat
  trials : Nat
  recovery : Nat
  activateStatus : Half
  handoverTo : Option Nat
  laidOut : Bool
  handovers : Word
  rolledBack : Word
  distEnable : Byte
  distUp : Byte
  distDown : Byte
  distState : Nat
  offer : List Byte
  blocksRx : Half
  blocksTx : Word
  crcErrors : Word
  wanted : Sparse (List Nat)
  window : Sparse Nat
  sent : Sparse (List Nat)
  attestQueue : List Nat
  deriving DecidableEq, Repr

/-- A gather record (R410). -/
structure Gather where
  part : Nat
  dest : Nat
  ctx : Nat
  gid : Nat
  tag : Word
  deriving DecidableEq, Repr

/-- Training statistics (0x2900). -/
structure Train where
  records : List Gather
  forward : Long
  backward : Long
  attic : Long
  stale : Long
  full : Long
  deriving DecidableEq, Repr

/-- Tenancy entries shared by the partitions (0x2603), and the shelves cleared since reset (R432). -/
structure Tenancy where
  otherShare : Byte
  drainLimit : Word
  reduced : Long
  taken : Word
  ring : List (List Byte)
  refusals : Long
  cleanShelves : List Nat
  clearing : List (Nat × Nat)
  deriving DecidableEq, Repr

/-- The test port (R493): the selected register and whether EXTEST drives the cells. -/
inductive Jtag where
  | idcode
  | bypass
  | sample
  | extest
  deriving DecidableEq, Repr

/-- The whole module, and the queue of commands that wait (first in, first out). freeCtr numbers the uses
of free values and out is what the module has sent, oldest first: both are the model's own. -/
structure State where
  hw : Hw
  mem : List Host.Cell
  memStat : MemStat
  power : Power
  locked : BitVec 40
  cores : Sparse Core
  parts : Sparse Part
  ctxs : Sparse Ctx
  arith : ArithRegs
  fabric : Fabric
  coll : Coll
  tb : Timebase
  links : Links
  host : HostLink
  mgmt : Mgmt
  fw : Firmware
  train : Train
  tenancy : Tenancy
  jtag : Jtag
  out : List Out
  freeCtr : Nat
  pending : List Instr
  deriving DecidableEq, Repr

/-- A core after reset. -/
def Core.reset : Core :=
  { stage := [], queue := [], head := none, qstate := .running, overflow := false, refused := false,
    stopInfo := 0, cpl := ⟨⟨0, 0⟩, ⟨0, 0⟩⟩, cplStatus := 0, producer := 0, consumer := 0, lost := 0,
    descStage := [], descBusy := none, busy := false, busyRefused := false, descStatus := 0,
    tallies := [], fn0 := none, fn1 := none, fnChecked := false, tags := [], contexts := [],
    tensor := none,
    vector := none, row := none, mover := none, fetch := none, coreFaults := 0, marked := false, limited := false,
    worked := false }

/-- The layout group after reset (0x2600: class_p is 2, the rest 0). -/
def Layout.reset : Layout :=
  { first := 0, count := 0, hostPort := 0, tenant := 0, excl := 0, cls := 2, ctxMask := 0, unitMask := 0 }

/-- The run of a pattern before any has started. -/
def Sched.reset : Sched :=
  { pstitch := 0, next := 0, step := 0, begun := 0, slips := 0, slipTotal := 0, stepSlips := 0,
    slipNow := false, manifests := [], nextStep := 0, holds := [], governed := [], govSlips := 0, past := [],
    occs := [], started := [], published := [], issued := [], accum := [] }

/-- A partition after reset (R465, R402: absent, everything at its default). -/
def Part.reset : Part :=
  { layout := ⟨Layout.reset, Layout.reset⟩,
    windows := ⟨[(0, 0), (0, 0), (0, 0), (0, 0)], [(0, 0), (0, 0), (0, 0), (0, 0)]⟩,
    larder := ⟨⟨0, 0⟩, ⟨0, 0⟩⟩,
    guar := ⟨⟨0, 0, 0, 0, 0, 0⟩, ⟨0, 0, 0, 0, 0, 0⟩⟩,
    place := ⟨⟨0, 0, 0, List.replicate 32 0⟩, ⟨0, 0, 0, List.replicate 32 0⟩⟩,
    aper := ⟨⟨0, 0, 0⟩, ⟨0, 0, 0⟩⟩,
    axisModes := 0, injectNow := 0, hbmNow := 0, state := .absent, clearing := false,
    waitingWindows := none, waitingAper := none,
    drainReg := 0, drainStep := none,
    drainAt := none, stopCause := 0, ctrlStatus := 0, idleTicks := 0, changed := false, seed := 0,
    latched := ⟨0, 0, 1, 1, 0⟩, descs := [],
    regs := ⟨⟨0, 0⟩, ⟨0, 0⟩, 0, ⟨0, 0⟩, 0, ⟨0, 0⟩, 0⟩,
    patState := .empty, loadStatus := 0, loadResult := none, loadFrom := none, waitingMan := none, pattern := none, armed := none,
    sched := Sched.reset, attic := [], localNorm := ⟨0, 0⟩, reducedNorm := ⟨0, 0⟩, norms := [], clip := 0,
    replay := [], stats := [], statsTaken := 0, normRecord := none, excluded := 0,
    nonce := List.replicate 32 0, attestState := 0, report := [] }

/-- An empty sequence context. -/
def Ctx.reset : Ctx :=
  { records := [], fill := 0, peak := 0, quota := 0, joined := false, joinedTo := false }

/-- The counters of a fabric port after reset. -/
def PortCtr.reset : PortCtr :=
  { txPackets := 0, txFlits := 0, rxPackets := 0, rxFlits := 0, stallRequest := 0, stallReply := 0,
    stallMaint := 0, escapes := 0, seams := 0, depthNow := List.replicate 10 0,
    depthPeak := List.replicate 10 0 }

/-- The payload strands of a fabric port (R262). -/
def strandsOf (port : Nat) : Nat := if port < 2 then 64 else if port < 4 then 32 else 16

/-- A fabric port after reset: enabled and dark (R472; port_state 1 once the port may come up). -/
def Link.reset (port : Nat) : Link :=
  { state := 0, neighbourId := 0, neighbourPort := 0xFF, neighbourSerial := 0, version := 0,
    expected := 0, spares := strandsOf port / 8, strandMap := List.range (strandsOf port), marked := [],
    corrected := [], uncorrectable := 0,
    frames := 0, good := 0, echoes := [], hot := false, farSlices := [], strandErrors := [] }

/-- A host queue after reset. -/
def HQueue.reset : HQueue :=
  { base := ⟨0, 0⟩, size := ⟨0, 0⟩, bind := ⟨0, 0⟩, commitStatus := 0, state := 0, lastStatus := 0,
    delivered := 0, released := 0, fill := 0, items := [], counts := [], slots := [], early := false,
    discards := 0, relBase := 0, lastWr := 0 }

/-- An interrupt vector after reset. -/
def IVec.reset : IVec :=
  { addr := 0, data := 0, causes := 0, coalesce := 0, pending := 0, sentAt := none, fresh := 0, owed := false }

/-- A mailbox after reset. -/
def MBox.reset : MBox := { request := [], response := [], busy := false, ready := false, refused := false }

/-- A Yepecy port after reset. -/
def HostPort.reset : HostPort :=
  { state := 0, version := 0, hellos := 0, dbBind := [], vecs := [], queues := [], directory := [],
    recalled := [], owed := [], overlay := [], waiting := [], requests := [], nextTag := 0, mbox := MBox.reset, hot := false }

/-- The network group after reset with a segment strap (R565). -/
def NetGroup.reset (seg : BitVec 3) : NetGroup :=
  { plcaEnable := 1, plcaNode := BitVec.ofNat 8 (seg.toNat + 1), plcaCount := 9, plcaTo := 32,
    burstCount := 0, burstTimer := 128, unicast := List.replicate 16 0, plen := 64, port := 49710,
    managers := List.replicate 4 (List.replicate 16 0) }

/-- The route group after reset with a module id strap (R307). -/
def RouteGroup.reset (id : BitVec 13) : RouteGroup :=
  { moduleId := BitVec.ofNat 16 id.toNat, sizeX := 16, sizeY := 16, sizeZ := 32, seamX := 0, seamY := 0,
    seamZ := 0, axisMode := 0, portEnable := 0x3F }

/-- An erased flash region. -/
def Slot.reset : Slot :=
  { factory := false, state := 0, filling := 0, total := 0, data := [], fixed := [],
    digest := List.replicate 64 0, status := 0 }

/-- The digest of the image that the factory put in slot A (R571). -/
def factoryDigest : List Byte :=
  shake256 ((List.range Config.factoryBytes).map fun o => if 2048 ≤ o ∧ o < 3328 then 0 else Config.factoryImage o)

/-- The version in its header (R569). -/
def factoryVersion : Nat := ofLe ((List.range 4).map fun i => Config.factoryImage (12 + i))

/-- The CRC-32C of a copy of the boot record, taken over its fields in their order (R577 gives no layout: PRESUMED, log
entry 142). -/
def BootRec.sum (r : BootRec) : Word :=
  crc32c (leBytes 4 r.seq ++ leBytes 1 r.stateA ++ leBytes 1 r.stateB ++ leBytes 1 r.active ++ leBytes 1 r.trials)

/-- A copy with its CRC-32C. -/
def BootRec.sealed (r : BootRec) : BootRec := { r with crc := r.sum }

/-- The die map of one compute die as the factory leaves it (R39; which positions are fused or spare is a
DESIGN CHOICE, entry 3). -/
def factoryDie : Grade → List Nat
  | .da512 => List.range 64 ++ List.replicate 4 0xFD
  | .da448 => List.range 56 ++ List.replicate 8 0xFE ++ List.replicate 4 0xFD

/-- The module right after reset: RESET_N has risen, straps are latched and the boot ROM has chosen slot A
(R602, R603, R578); start-up step 3 (R619). Each HBM stack starts with 32 repairs: the spec gives the factory count
no number (DESIGN CHOICE, log entry 118). -/
def State.reset : State :=
  { hw := { grade := .da512, stepping := .b1, dieMap := List.replicate 8 (factoryDie .da512),
            securityCounter := 0, keyRevoked := 0 },
    mem := [],
    memStat := { poison := [], lineErrors := [], spareLines := [], linesPending := [], eccCorrected := 0,
                 eccUncorrected := 0, scrubPeriod := 60, hbmCorrected := 0, hbmUncorrected := 0,
                 parityRetries := 0, repairsFree := List.replicate 12 32, repairsPending := [], rowErrors := [] },
    power := { boot := .booting, overvolt := false, settling := false, thermalHold := false,
               stitchStartMw := 0, stitchStartScale := 2 ^ 24,
               limit := 2600, limitWas := 2600, limitAt := 0, ballastMw := 0, ballastTaken := 0, ballastStitches := 0, limiterStalls := 0,
               warnings := 0, faults := 0, trips := 0, minuteEvents := 0, historyTaken := 0, history := [],
               lifetime := List.replicate 32 0, powerLoss := List.replicate 32 0, strapId := 0,
               strapSeg := 0, strapRecovery := false, ticks := 0 },
    locked := 0x8000000000,
    cores := [],
    parts := [],
    ctxs := [],
    arith := { round := 0, subnormal := 0, fp8 := 1, comp := 1 },
    fabric := { route := ⟨RouteGroup.reset 0, RouteGroup.reset 0⟩, hold := false, commitStatus := 0,
                patience := 64, timeout := 2000, ports := [], delivered := 0, completed := 0,
                earlyLast := 0, checkDiscards := 0, countOverruns := 0, timeouts := 0, hopDiscards := 0,
                schedUnmatched := 0, stray := 0, skeins := [], waiting := [], retired := [], contexts := [],
                grants := [], transit := [], creditUsed := [], received := [], held := [], maintWaiting := [], injected := [],
                samplePoint := 0, sampleClasses := 0x0F,
                sampleParts := 0xFFFF, sampleEvery := 0, sampleSeen := 0, sampleTaken := 0,
                sampleRing := [] },
    coll := { runs := [], ledger := [], events := [], eventTaken := 0, digests := [], digestTaken := 0,
              unitSpares := [2, 2, 1, 1, 1, 1], markedUnits := [], done := 0, lateExclusions := 0, quarantines := 0,
              digestMismatches := 0 },
    tb := { role := 0, parent := 0, state := .free, count := 0, offsetPs := 0, good := 0, missed := 0,
            latency := List.replicate 6 0, faults := 0, governorScale := 0x3F800000, slipsTotal := 0,
            governorStitches := 0, holdsLate := 0, slipTaken := 0, slipLog := [] },
    links := { ports := [], faultTaken := 0, faultRing := [], held := [], shelvesOut := 0, pairsOut := 0,
               wearStrand := 4096, wearLine := 8, wearRow := 32, wearCore := 1, moduleFaults := 0,
               testMode := 0, dark := false, mgmtLost := false, sampled := Pins.low, preloaded := Pins.low },
    host := { ports := [], timeout := 100, hqIdle := 10000, refusals := 0, recalls := 0,
              earlyLength := 0 },
    mgmt := { net := ⟨NetGroup.reset 0, NetGroup.reset 0⟩, netStatus := 0, addrState := 1,
              detecting := false, framesRx := 0, framesTx := 0, frameErrors := 0, dropped := 0,
              refusedCount := 0, label := [], snapshots := [], sessions := [], kept := [],
              waiting := [], queue := [], layoutStatus := 0 },
    fw := { slots := [(0, { Slot.reset with factory := true, state := 4,
                                            digest := factoryDigest })],
            first := BootRec.sealed { seq := 1, stateA := 4, stateB := 0, active := 0, trials := 0, crc := 0 },
            second := BootRec.sealed { seq := 2, stateA := 4, stateB := 0, active := 0, trials := 0, crc := 0 },
            paused := false, running := 0,
            runVersion := BitVec.ofNat 32 factoryVersion,
            active := 0, trials := 0, recovery := 0, activateStatus := 0, handoverTo := none,
            laidOut := false, handovers := 0, rolledBack := 0, distEnable := 0, distUp := 0xFF,
            distDown := 0, distState := 0, offer := [], blocksRx := 0, blocksTx := 0, crcErrors := 0,
            wanted := [], window := [], sent := [], attestQueue := [] },
    train := { records := [], forward := 0, backward := 0, attic := 0, stale := 0, full := 0 },
    tenancy := { otherShare := 2, drainLimit := 100000, reduced := 0, taken := 0, ring := [],
                 refusals := 0, cleanShelves := [], clearing := [] },
    jtag := .idcode,
    out := [],
    freeCtr := 0,
    pending := [] }

end Sys2Proof.Machine
end

