-- ==== Sys2Proof/Machine/Wire.lean ====
section
/-! DEFINITION. Machine/Wire.lean: packets as bytes (R269 to R273, R479, R499) and their checks. -/

namespace Sys2Proof

open Machine

/-- Flits of n bytes. -/
def Machine.flitsOf (n : Nat) : Nat := ceilDiv n 16

/-- The full header of R270. -/
def Pkt.header (p : Pkt) (channel : Nat) (esc : Bool) (hops : Nat) (check : Word) : List Byte :=
  leBytes 4 (p.cls.toNat <<< 30 ||| channel <<< 28 ||| (if p.last then 1 <<< 27 else 0)
      ||| (if esc then 1 <<< 26 else 0) ||| hops <<< 20 ||| p.kind.toNat <<< 16 ||| p.part.toNat <<< 12
      ||| p.skein.toNat)
  ++ leBytes 4 (p.dest.toNat <<< 16 ||| p.src.toNat)
  ++ leBytes 4 (p.payload.length <<< 23 ||| p.status.toNat)
  ++ leBytes 4 p.tbytes.toNat ++ leBytes 8 p.addr.toNat
  ++ leBytes 4 (p.tpackets.toNat <<< 8 ||| p.tno.toNat) ++ leBytes 4 check.toNat

/-- The check of a full packet (R273): fields that change at each hop, and the check itself, as zero. -/
def Pkt.crc (p : Pkt) : Word := crc32c (p.header 0 false 0 0 ++ p.payload)

/-- The header as it stands. -/
def Pkt.bytes (p : Pkt) : List Byte := p.header p.channel.toNat p.esc p.hops.toNat p.check

/-- The place of a channel in the order of R303. -/
def Machine.channelIndex (cls channel : Nat) : Nat :=
  match cls with
  | 0 => channel
  | 1 => 2 + channel
  | 2 => 5 + channel
  | _ => 8 + channel

/-- The place of a packet's channel among those that take credits, in the order of R303 from request E0. -/
def Pkt.lane (p : Pkt) : Nat := channelIndex p.cls.toNat p.channel.toNat - 2

/-- Flits of a full packet. -/
def Pkt.flits (p : Pkt) : Nat := 2 + flitsOf p.payload.length

/-- The short header of R272. -/
def SPkt.header (p : SPkt) (channel : Nat) (hops : Nat) (check : Word) : List Byte :=
  leBytes 4 (channel <<< 28 ||| (if p.last then 1 <<< 27 else 0) ||| hops <<< 20
      ||| p.kind.toNat <<< 16 ||| p.resv.toNat)
  ++ leBytes 4 p.offset.toNat ++ leBytes 4 (p.dest.toNat <<< 16 ||| p.src.toNat) ++ leBytes 4 check.toNat

/-- The check of a scheduled packet. -/
def SPkt.crc (p : SPkt) : Word := crc32c (p.header 0 0 0 ++ p.payload)

/-- The header as it stands, followed by 16 zero bytes (R304). -/
def SPkt.bytes (p : SPkt) : List Byte :=
  p.header p.channel.toNat p.hops.toNat p.check ++ List.replicate 16 0

/-- Flits of a scheduled packet. -/
def SPkt.flits (p : SPkt) : Nat := 1 + flitsOf p.payload.length

/-- A scheduled packet with its check. -/
def SPkt.sealed (p : SPkt) : SPkt := { p with check := p.crc }

/-- The check of a Yepecy packet (R499). -/
def HPkt.crc (p : HPkt) : Word :=
  crc32c (leBytes 4 (p.kind.toNat <<< 28 ||| p.len <<< 19 ||| p.tag.toNat)
    ++ leBytes 4 (p.status.toNat <<< 16) ++ leBytes 8 p.addr.toNat ++ p.payload)

/-- A Yepecy packet of the module. -/
def Machine.hostPacket (kind len tag : Nat) (status : Half) (addr : Nat) (payload : List Byte) : HPkt :=
  let p : HPkt := { kind := BitVec.ofNat 4 kind, len := len, tag := BitVec.ofNat 12 tag, status := status,
                    addr := BitVec.ofNat 64 addr, payload := payload, check := 0 }
  { p with check := p.crc }

/-- The bytes of a stitch marker, with a check given (R479). -/
def Marker.bytes (m : Marker) (crc : Word) : List Byte :=
  leBytes 2 0x4D4B ++ leBytes 1 m.slices.length ++ leBytes 1 m.holds.length ++ leBytes 8 m.count.toNat
  ++ leBytes 4 crc.toNat
  ++ m.slices.flatMap (fun e => leBytes 4 e.tag.toNat ++ [e.state, 0, 0, 0] ++ leBytes 8 e.pstitch.toNat)
  ++ m.holds.flatMap (fun h => leBytes 4 h.tag.toNat ++ leBytes 2 h.cause.toNat ++ [0, 0]
      ++ leBytes 8 h.target.toNat)

/-- The CRC-32C of a marker. -/
def Marker.sum (m : Marker) : Word := crc32c (m.bytes 0)

/-- A full packet as this module builds it: channel A, no hop made, its check filled in. -/
def Machine.buildPacket (cls kind part skein dest src tbytes addr tpackets tno : Nat) (status : Half)
    (last : Bool) (payload : List Byte) : Pkt :=
  let p : Pkt :=
    { cls := BitVec.ofNat 2 cls, channel := 2, last := last, esc := false, hops := 0,
      kind := BitVec.ofNat 4 kind, part := BitVec.ofNat 4 part, skein := BitVec.ofNat 12 skein,
      dest := BitVec.ofNat 13 dest, src := BitVec.ofNat 13 src, status := status,
      tbytes := BitVec.ofNat 32 tbytes, addr := BitVec.ofNat 64 addr,
      tpackets := BitVec.ofNat 24 tpackets, tno := BitVec.ofNat 8 tno, payload := payload, check := 0 }
  { p with check := p.crc }

/-- Whether a packet is one of a class and kind, within its format (R270, R271). -/
def Pkt.isKind (p : Pkt) (cls kind : Nat) : Bool :=
  p.cls.toNat == cls && p.kind.toNat == kind && decide (p.payload.length ≤ 256)

/-- Whether a packet's kind is a request or reply kind of its class, and its channel code is legal (R265,
R271). -/
def Pkt.legal (p : Pkt) : Bool :=
  p.channel != 3 && ((p.cls == 1 && decide (p.kind.toNat ≤ 4))
    || (p.cls == 2 && decide (8 ≤ p.kind.toNat) && decide (p.kind.toNat ≤ 0xB)))

/-- Whether a packet can be one of its kind: at most 256 bytes, and where it carries data, as many as its header
says; kinds that the format reserves go to every row. -/
def HPkt.isKind (p : HPkt) (kind : Nat) : Bool :=
  (p.kind.toNat == kind || p.kind == 0xD || p.kind == 0xE)
    && decide (p.payload.length ≤ 256) && decide (p.len < 512)
    && (decide (p.kind.toNat ≤ 2) && p.payload.isEmpty || decide (2 < p.kind.toNat) && p.len == p.payload.length)

end Sys2Proof
end

