-- ==== Sys2Proof/Machine/Ops.lean ====
section
/-! DEFINITION. Machine/Ops.lean: status codes, the named reads and updates of the state, and memory. -/

namespace Sys2Proof.Machine

/-! ### Status codes (R492, R529, R598, R616) -/

def stDONE : Half := 0x0000
def stENGINE_ABSENT : Half := 0x0101
def stHANDLE_INVALID : Half := 0x0102
def stCONFIG : Half := 0x0103
def stZERO : Half := 0x0104
def stPRIVILEGE : Half := 0x0105
def stWAIT_CYCLE : Half := 0x0201
def stSTALE_SHARD : Half := 0x0202
def stATTIC_OVERRUN : Half := 0x0203
def stSIDE_TAG : Half := 0x0204
def stGATHER_FULL : Half := 0x0205
def stNONFINITE : Half := 0x0301
def stDEADLINE : Half := 0x0302
def stDIGEST : Half := 0x0303
def stLEDGER_MISS : Half := 0x0304
def stMISWIRED : Half := 0x0401
def stLINK_VERSION : Half := 0x0402
def stSPARES : Half := 0x0403
def stTIMEOUT : Half := 0x0404
def stOVERRUN : Half := 0x0405
def stPORT_LOST : Half := 0x0406
def stSLIP : Half := 0x0501
def stBACKPRESSURE : Half := 0x0502
def stOUT_OF_STEP : Half := 0x0503
def stUNALIGNED : Half := 0x0504
def stREDUCED : Half := 0x0601
def stECC : Half := 0x0701
def stLARDER_FULL : Half := 0x0702
def stLARDER_ORDER : Half := 0x0703
def stSLEW : Half := 0x0801
def stPOWER_INPUT : Half := 0x0802
def stPOWER_LIMIT : Half := 0x0803
def stTHERMAL : Half := 0x0804
def stUNIT_FAULT : Half := 0x0901
def stTEST_MODE : Half := 0x0902
def stHOST_LOST : Half := 0x0A01
def stTAIL : Half := 0x0A02
def stQUEUE_OVERRUN : Half := 0x0A03
def stIMAGE_INVALID : Half := 0x0B01
def stSIGNATURE : Half := 0x0B02
def stROLLBACK : Half := 0x0B03
def stBASE_MISMATCH : Half := 0x0B04
def stHANDOVER : Half := 0x0B05

/-! ### Reads and updates by number -/

/-- Core c. -/
def State.core (s : State) (c : Nat) : Core := Sparse.get Core.reset s.cores c

/-- Core c replaced. -/
def State.setCore (s : State) (c : Nat) (k : Core) : State :=
  { s with cores := Sparse.set Core.reset s.cores c k }

/-- Core c updated. -/
def State.updCore (s : State) (c : Nat) (f : Core → Core) : State := s.setCore c (f (s.core c))

/-- Partition p. -/
def State.part (s : State) (p : Nat) : Part := Sparse.get Part.reset s.parts p

/-- Partition p replaced. -/
def State.setPart (s : State) (p : Nat) (k : Part) : State :=
  { s with parts := Sparse.set Part.reset s.parts p k }

/-- Partition p updated. -/
def State.updPart (s : State) (p : Nat) (f : Part → Part) : State := s.setPart p (f (s.part p))

/-- Sequence context n. -/
def State.ctx (s : State) (n : Nat) : Ctx := Sparse.get Ctx.reset s.ctxs n

/-- Sequence context n replaced. -/
def State.setCtx (s : State) (n : Nat) (k : Ctx) : State :=
  { s with ctxs := Sparse.set Ctx.reset s.ctxs n k }

/-- Fabric port k. -/
def State.link (s : State) (k : Nat) : Link := (Sparse.find s.links.ports k).getD (Link.reset k)

/-- Fabric port k updated. -/
def State.updLink (s : State) (k : Nat) (f : Link → Link) : State :=
  { s with links := { s.links with ports := Sparse.put s.links.ports k (f (s.link k)) } }

/-- The corrected symbols of a port (R470): the sum over its physical strands. -/
def Link.correctedSum (l : Link) : Long := (l.corrected.map (·.2)).foldl (· + ·) 0

/-- Yepecy port k. -/
def State.hport (s : State) (k : Nat) : HostPort := Sparse.get HostPort.reset s.host.ports k

/-- Yepecy port k updated. -/
def State.updHport (s : State) (k : Nat) (f : HostPort → HostPort) : State :=
  { s with host := { s.host with ports := Sparse.set HostPort.reset s.host.ports k (f (s.hport k)) } }

/-- The counters of fabric port k updated. -/
def State.updCtr (s : State) (k : Nat) (f : PortCtr → PortCtr) : State :=
  { s with fabric := { s.fabric with
      ports := Sparse.set PortCtr.reset s.fabric.ports k (f (Sparse.get PortCtr.reset s.fabric.ports k)) } }

/-- Flash region i. -/
def State.slot (s : State) (i : Nat) : Slot := Sparse.get Slot.reset s.fw.slots i

/-- Flash region i updated. -/
def State.updSlot (s : State) (i : Nat) (f : Slot → Slot) : State :=
  { s with fw := { s.fw with slots := Sparse.set Slot.reset s.fw.slots i (f (s.slot i)) } }

/-- Something sent. -/
def State.send (s : State) (o : Out) : State := { s with out := s.out ++ [o] }

/-- Several things sent, in order. -/
def State.sendAll (s : State) (os : List Out) : State := { s with out := s.out ++ os }

/-- A command that carries more than its format holds is no command any agent can send. -/
def guarded (ok : Bool) (t : State) : Host.Outcome State Fault Refusal :=
  if ok then .next t else .fault .malformedCommand

/-! ### Grade, partitions and cores (R1 to R3, R424) -/

/-- Logical shelves in service. -/
def Grade.shelves : Grade → Nat
  | .da512 => 64
  | .da448 => 56

/-- Logical shelves on each die. -/
def Grade.perDie : Grade → Nat
  | .da512 => 8
  | .da448 => 7

/-- Logical cores in service. -/
def State.coreCount (s : State) : Nat := 8 * s.hw.grade.shelves

/-- This module's id. -/
def State.myId (s : State) : Nat := fld s.fabric.route.live.moduleId 0 13

/-- Whether a shelf lies in partition p (R424). -/
def State.hasShelf (s : State) (p shelf : Nat) : Bool :=
  let l := (s.part p).layout.live
  decide (l.first.toNat ≤ shelf) && decide (shelf < l.first.toNat + l.count.toNat)

/-- The partition that owns a shelf. -/
def State.partOfShelf (s : State) (shelf : Nat) : Option Nat :=
  (List.range 16).find? fun p => s.hasShelf p shelf

/-- The partition that owns a core. -/
def State.partOf (s : State) (c : Nat) : Option Nat := s.partOfShelf (c / 8)

/-- The cores of partition p. -/
def State.coresOf (s : State) (p : Nat) : List Nat :=
  let l := (s.part p).layout.live
  (List.range (8 * l.count.toNat)).map (8 * l.first.toNat + ·)

/-- Whether partition p answers to Yepecy port k (R436). -/
def State.boundTo (s : State) (p k : Nat) : Bool :=
  let l := (s.part p).layout.live
  l.count != 0 && decide (l.hostPort.toNat = k)

/-- Whether a partition runs or drains. -/
def Part.active (p : Part) : Bool := p.state == .running || p.state == .draining

/-- Whether a partition has a pattern armed or running (R449, R453). -/
def Part.patterned (p : Part) : Bool := p.patState == .armed || p.patState == .running

/-- Whether the firmware has reached ready (R619, R621). -/
def State.isReady (s : State) : Bool := s.power.boot == .ready

/-- Whether management is served: from step 4 of R619, and not after the Momond domain lost lock (R481). -/
def State.served (s : State) : Bool :=
  (s.power.boot == .railsUp || s.power.boot == .hbmTrained || s.power.boot == .ready
    || s.power.boot == .recovery) && !s.links.mgmtLost

/-! ### Clock domains (R25, R29) -/

/-- Whether a clock domain is locked and its crossings are open; a closed one carries nothing (DEDUCED, log entry
120). -/
def State.crosses (s : State) (d : Nat) : Bool := s.locked.toNat.testBit d

/-- Whether the crossings into logical core c are open: those of its die's core array and of its die fabric. -/
def State.coreOpen (s : State) (c : Nat) : Bool :=
  let die := c / (8 * s.hw.grade.perDie)
  s.crosses die && s.crosses (8 + die)

/-- Whether the crossings between HBM stack n and its hub are open. -/
def State.stackOpen (s : State) (n : Nat) : Bool := s.crosses (16 + n) && s.crosses (34 + n / 3)

/-- Whether the crossings between the host ports and their hub are open (R22). -/
def State.yepecyOpen (s : State) : Bool := s.crosses 38 && s.crosses 36

/-! ### Addresses (R87 to R91) -/

/-- The module id of a global address. -/
def addrModule (a : Nat) : Nat := a / 2 ^ 51 % 2 ^ 13

/-- The local part of a global address. -/
def addrLocal (a : Nat) : Nat := a % 2 ^ 51

/-- The region code of an address. -/
def addrRegion (a : Nat) : Nat := a / 2 ^ 47 % 16

/-- The offset in the region. -/
def addrOffset (a : Nat) : Nat := a % 2 ^ 47

/-- The region bases of R89. -/
def cellarBase : Nat := 0x800000000000
def privBase : Nat := 0x1000000000000
def controlBase : Nat := 0x1800000000000
def hostBase : Nat := 0x2000000000000

/-- The end of populated HBM. -/
def hbmEnd : Nat := 1536000000000

/-- The number of the cellar line that holds a local cellar address. -/
def lineOf (a : Nat) : Nat := (a - cellarBase) / 256

/-- The core of a cellar address. -/
def cellarCore (a : Nat) : Nat := addrOffset a / 2 ^ 25

/-- The core of a core-private address. -/
def privCore (a : Nat) : Nat := addrOffset a / 2 ^ 23

/-- The row of the R91 table that a window offset lies in: its first offset and its end. -/
def privRow (o : Nat) : Option (Nat × Nat) :=
  if o < 0x600000 then some (0, 0x600000)
  else if o < 0x640000 then some (0x600000, 0x640000)
  else if o < 0x644000 then some (0x640000, 0x644000)
  else if o < 0x648000 then some (0x644000, 0x648000)
  else if o < 0x64C000 then some (0x648000, 0x64C000)
  else if o < 0x650000 then some (0x64C000, 0x650000)
  else none

/-- The local address of a byte of a core's private window. -/
def privAddr (c o : Nat) : Nat := privBase + c * 2 ^ 23 + o

/-- The local address of element (i, j) of a bank's value plane (R91, R92); compensation lies 0x4000 above. -/
def bankAddr (c bank i j : Nat) : Nat := privAddr c (0x640000 + 0x8000 * bank + 4 * (64 * i + j))

/-- The address of entry n of a core's side memory (R230). -/
def sideAddr (c n : Nat) : Nat := privAddr c (0x600000 + 8 * n)

/-! ### Memory (R10, R87): one space keyed by local address; unlisted bytes read 0 -/

abbrev Mem := List Host.Cell

/-- One byte of memory. -/
def memRead (m : Mem) (a : Nat) : Byte := Sparse.get 0 m a

/-- One byte written. -/
def memWrite (m : Mem) (a : Nat) (b : Byte) : Mem := Sparse.set 0 m a b

/-- The canonical form of memory. -/
def memWf (m : Mem) : Bool := Sparse.wf (0 : Byte) m

/-- n bytes from a. -/
def memBytes (m : Mem) (a n : Nat) : List Byte := (List.range n).map fun i => memRead m (a + i)

/-- Bytes written from a. -/
def memPut (m : Mem) (a : Nat) : List Byte → Mem
  | [] => m
  | b :: bs => memPut (memWrite m a b) (a + 1) bs

/-- Single bytes written in order. -/
def memStore (m : Mem) (ws : List (Nat × Byte)) : Mem :=
  ws.foldl (fun m w => memWrite m w.1 w.2) m

/-- A little-endian word of memory. -/
def memWord (m : Mem) (a : Nat) : Word := BitVec.ofNat 32 (ofLe (memBytes m a 4))

/-- A range zeroed (R432, R433). -/
def memZero (m : Mem) (lo n : Nat) : Mem := Sparse.erase m lo n

/-- Whether [a, a+n) meets [b, b+k). -/
def overlaps (a n b k : Nat) : Bool := decide (a < b + k) && decide (b < a + n)

/-- The side-memory tags whose entries a write of n bytes at local address a touches become invalid (R233). -/
def State.dropTags (s : State) (a n : Nat) : State :=
  if addrRegion a = 2 ∧ n ≠ 0 then
    let c := privCore a
    let o := addrOffset a % 2 ^ 23
    if o < 0x640000 ∧ 0x600000 < o + n then
      let lo := (o - 0x600000) / 8
      let hi := (o + n - 0x600000 + 7) / 8
      s.updCore c fun k => { k with tags := k.tags.filter fun t => !(decide (lo ≤ t.1) && decide (t.1 < hi)) }
    else s
  else s

/-- Poison of the cellar lines that a write of n bytes at a covers whole is lifted (R102). -/
def State.liftPoison (s : State) (a n : Nat) : State :=
  if addrRegion a = 1 then
    let lo := ceilDiv (a - cellarBase) 256
    let hi := (a - cellarBase + n) / 256
    { s with memStat := { s.memStat with
        poison := s.memStat.poison.filter fun l => !(decide (lo ≤ l) && decide (l < hi)) } }
  else s

/-! ### Lines that a host holds (R504, R505) -/

/-- The module's tag for its next request on a port: one no outstanding request or recall has (R499). -/
def HostPort.freshTag (h : HostPort) : Option (BitVec 12) :=
  ((List.range 4096).map fun i => h.nextTag + BitVec.ofNat 12 i).find? fun t =>
    !(h.requests.any fun r => r.tag == t.toNat) && !(h.recalled.any fun r => r.2 == t.toNat)

/-- The held lines that an access to n bytes from a has to recall: any for a write, owned ones for a read. -/
def HostPort.heldIn (h : HostPort) (a n : Nat) (write : Bool) : List Nat :=
  (h.directory.filter fun l => (write || l.2) && overlaps (64 * l.1) 64 a n).map (·.1)

/-- Whether an access has to wait for a host's line. -/
def State.lineHeld (s : State) (a n : Nat) (write : Bool) : Bool :=
  [0, 1].any fun k => ((s.hport k).heldIn a n write) != []

/-- Whether a line is being recalled. -/
def HostPort.recalling (h : HostPort) (line : Nat) : Bool := h.recalled.any (·.1 == line) || h.owed.contains line

/-- RECALL sent for a line, once (R505); where no tag is free it is sent when one is. -/
def State.recallLine (s : State) (k line : Nat) : State :=
  let h := s.hport k
  if h.recalled.any (·.1 == line) then s
  else match h.freshTag with
    | none => s.updHport k fun h => { h with owed := insertNat h.owed line }
    | some t =>
      let s := s.updHport k fun h => { h with recalled := h.recalled ++ [(line, t.toNat)], nextTag := t + 1 }
      { s.send (.host k (hostPacket 9 0 t.toNat 0 (64 * line) [])) with
        host := { s.host with recalls := s.host.recalls + 1 } }

/-- Every RECALL an access needs. -/
def State.recallFor (s : State) (a n : Nat) (write : Bool) : State :=
  [0, 1].foldl (fun s k => ((s.hport k).heldIn a n write).foldl (fun s l => s.recallLine k l) s) s

/-- The part of a run of bytes that lies in line l. -/
def clipRun (a : Nat) (bs : List Byte) (l : Nat) : Nat × List Byte :=
  let lo := max a (64 * l)
  (lo, (bs.drop (lo - a)).take (64 * l + 64 - lo))

/-- A run of bytes stored at a local address, with what a store brings about besides: lines held by a host
are recalled and the store follows their writeback (R505), tags and poison (R102, R233). -/
def State.storeRun (s : State) (a : Nat) (bs : List Byte) : State :=
  let s := [0, 1].foldl (fun (s : State) k =>
    let held := (s.hport k).heldIn a bs.length true
    if held = [] then s
    else s.updHport k fun h => { h with overlay := h.overlay ++ held.map (clipRun a bs) }) (s.recallFor a bs.length true)
  (({ s with mem := memPut s.mem a bs }).dropTags a bs.length).liftPoison a bs.length

/-- A range zeroed, its lines recalled from the hosts first (R432, R433, R507): what a host held is gone. -/
def State.zeroRange (s : State) (a n : Nat) : State :=
  let s := [0, 1].foldl (fun (s : State) k =>
    let ls := (s.hport k).heldIn a n true
    if ls = [] then s
    else (ls.foldl (fun s l => s.recallLine k l) s).updHport k fun h =>
      { h with directory := h.directory.filter fun l => !ls.contains l.1 }) s
  { s with mem := memZero s.mem a n }

/-- Adjacent single-byte writes joined into runs. -/
def joinRuns (ws : List (Nat × Byte)) : List (Nat × List Byte) :=
  (ws.foldl (fun acc w => match acc with
    | (a, bs) :: rest => if w.1 = a + bs.length then (a, w.2 :: bs) :: rest
                         else (w.1, [w.2]) :: (a, bs) :: rest
    | [] => [(w.1, [w.2])]) ([] : List (Nat × List Byte))).reverse.map fun r => (r.1, r.2.reverse)

/-- Single-byte writes stored at local addresses. Adjacent ones are one write, also where the bytes that cover a line
come from several elements of a command: that such a write lifts a line's poison (R102) is DESIGN CHOICE (log entry
135). -/
def State.storeBytes (s : State) (ws : List (Nat × Byte)) : State :=
  (joinRuns ws).foldl (fun s r => s.storeRun r.1 r.2) s

/-- Bytes the spec calls undefined (R485): free values in n bytes from a. -/
def State.freeRange (s : State) (a n : Nat) : State :=
  let k := s.freeCtr
  { s.storeRun a ((List.range n).map fun i => Config.freeByte k (a + i)) with freeCtr := k + 1 }

/-- A tally of core c. -/
def State.tallyOf (s : State) (c t : Nat) : Word := Sparse.get 0 (s.core c).tallies t

/-- A tally written, and its partition marked as having had a tally change in this stitch (R164). -/
def State.putTally (s : State) (c t : Nat) (v : Word) : State :=
  let s' := s.updCore c fun k => { k with tallies := Sparse.set 0 k.tallies t v }
  match s.partOf c with
  | some p => s'.updPart p fun q => { q with changed := true }
  | none => s'

/-- A wait is satisfied once (value - target) mod 2^32 is below 2^31 (R160). -/
def waitMet (value target : Word) : Bool := decide ((value - target).toNat < 2 ^ 31)

end Sys2Proof.Machine
end

