-- ==== Sys2Proof/Machine/Notify.lean ====
section
/-! DEFINITION. Machine/Notify.lean: requests to a host, interrupts (R513, R514), fault records (R491). -/

namespace Sys2Proof.Machine

/-- The low 32 bits of the stitch count. -/
def State.stitch32 (s : State) : Nat := s.tb.count.toNat % 2 ^ 32

/-- A host request sent on port k under a fresh tag (R499, R510). len is the length an HRD asks for. -/
def State.hostRequest (s : State) (k : Nat) (isRead : Bool) (addr len : Nat) (payload : List Byte)
    (core : Option Nat) : State :=
  match (s.hport k).freshTag with
  | none => s
  | some t =>
    (s.updHport k fun h => { h with
      nextTag := t + 1,
      requests := h.requests ++
        [{ tag := t.toNat, isRead := isRead, addr := addr, len := len, core := core }] }).send
      (.host k (hostPacket (if isRead then 0xA else 0xB) len t.toNat 0 addr payload))

/-- The interrupt of vector v of port k: one HWR of IV_DATA to IV_ADDR (R513). Only a port in service sends; where
no tag is free the interrupt is sent when one is. -/
def State.sendInterrupt (s : State) (k v : Nat) : State :=
  let x := Sparse.get IVec.reset (s.hport k).vecs v
  if (s.hport k).state ≠ 3 then s
  else if (s.hport k).freshTag = none then
    s.updHport k fun h => { h with vecs := Sparse.put h.vecs v { x with owed := true } }
  else
    (s.updHport k fun h => { h with
      vecs := Sparse.put h.vecs v { x with sentAt := some s.power.ticks, fresh := 0, owed := false } }).hostRequest
      k false (x.addr.toNat % 2 ^ 46) 4 (leBytes 4 x.data.toNat) none

/-- What waits for a tag of a port is sent as far as tags are free: RECALLs, then interrupts. -/
def State.sendOwed (s : State) (k : Nat) : State :=
  let h := s.hport k
  let s := h.owed.foldl (fun s l => s.recallLine k l) (s.updHport k fun h => { h with owed := [] })
  ((h.vecs.filter (·.2.owed)).map (·.1)).foldl (fun s v => s.sendInterrupt k v) s

/-- A cause raised on one vector (R514). -/
def State.raiseOn (s : State) (k v cause : Nat) : State :=
  let x := Sparse.get IVec.reset (s.hport k).vecs v
  let b : Word := 1 <<< cause
  let held := match x.sentAt with
    | some t => decide (s.power.ticks < t + x.coalesce.toNat)
    | none => false
  let s := s.updHport k fun h => { h with
    vecs := Sparse.put h.vecs v { x with pending := x.pending ||| b, fresh := x.fresh ||| b } }
  if held then s else s.sendInterrupt k v

/-- Cause bit `cause` of R513 raised for partition p: on the port it is bound to, on every vector whose
masks select it. -/
def State.raiseCause (s : State) (p cause : Nat) : State :=
  [0, 1].foldl (fun s k =>
    if s.boundTo p k then
      ((s.hport k).vecs.map (·.1)).foldl (fun s v =>
        let m := (Sparse.get IVec.reset (s.hport k).vecs v).causes
        if bit m (16 + p) && bit m cause then s.raiseOn k v cause else s) s
    else s) s

/-- A bitmap of partition numbers. -/
def maskOf (l : List Nat) : Nat := l.foldl (fun m p => m ||| 1 <<< p) 0

/-- A fault record written into the ring (R491), and cause 5 for the partitions it names. -/
def State.writeFault (s : State) (f : HeldFault) : State :=
  let s := { s with links := { s.links with
      faultTaken := s.links.faultTaken + 1, faultRing := pushRing 128 s.links.faultRing f.record } }
  f.parts.foldl (fun s p => s.raiseCause p 5) s

/-- A fault's record (R491): written, or, while a handover pauses the controller, queued in hardware, which holds 32
(R592). A fault of class 8 is counted as it happens. -/
def State.recordFault (s : State) (status : Half) (cls kind unit : Nat) (stopped : List Nat)
    (d0 d1 : Nat) : State :=
  let r := leBytes 2 status.toNat ++ leBytes 1 cls ++ leBytes 1 kind ++ leBytes 2 unit
    ++ leBytes 2 (maskOf stopped) ++ leBytes 4 s.stitch32 ++ leBytes 8 d0 ++ leBytes 8 d1 ++ leBytes 4 0
  let s := if cls = 8 then { s with links := { s.links with moduleFaults := s.links.moduleFaults + 1 } } else s
  if !s.fw.paused then s.writeFault ⟨r, stopped⟩
  else if s.links.held.length < 32 then { s with links := { s.links with held := s.links.held ++ [⟨r, stopped⟩] } }
  else s

end Sys2Proof.Machine
end

