-- ==== Sys2Proof/Machine/Answer.lean ====
section
/-! DEFINITION. Machine/Answer.lean: answers to Asrel requests (R540 to R544, R555, R559), those of commits that wait
(R551, R554), and the aperture commit, which waits for lines of a host to come back (R507). -/

namespace Sys2Proof.Machine

/-! ### The management port's addresses (R538) -/

/-- Byte i of mac_address. -/
def macByte (i : Nat) : Byte := Config.mac i

/-- link_local: fe80::/64 and the modified EUI-64 interface identifier (R538). -/
def linkLocal : List Byte :=
  [0xFE, 0x80, 0, 0, 0, 0, 0, 0, macByte 0 ^^^ 2, macByte 1, macByte 2, 0xFF, 0xFE, macByte 3, macByte 4, macByte 5]

/-- A management field updated. -/
def State.updMgmt (s : State) (f : Mgmt → Mgmt) : State := { s with mgmt := f s.mgmt }

/-- Whether an IPv6 address is multicast. -/
def multicast (a : List Byte) : Bool := a.head? == some 0xFF

/-- How frames leave for the segment, by the live PLCA settings (R536; DESIGN CHOICE, log entry 126). -/
def State.access (s : State) : Medium :=
  let g := s.mgmt.net.live
  if g.plcaEnable = 0 then .csmaCd
  else if g.plcaNode = 0 then .coordinator g.plcaCount g.plcaTo g.burstCount g.burstTimer
  else .node g.plcaNode

/-- Whether an address is in use: the link-local one always, unicast_addr once bit 1 of addr_state is set. -/
def State.addressInUse (s : State) (a : List Byte) : Bool :=
  a == linkLocal || (bit s.mgmt.addrState 1 && a == s.mgmt.net.live.unicast)

/-! ### Frames and answers (R540 to R544) -/

/-- The answer to a commit: its status and its reason of R544 (0 carried out, 5, 7 or 10). -/
abbrev Answer := Half × Nat

/-- What a response carries beyond what it echoes. -/
structure Reply where
  status : Half
  reason : Nat
  typ : Nat
  data : List Byte
  total : Option Nat
  deriving DecidableEq, Repr

/-- A reply with no data. -/
def Answer.reply (a : Answer) : Reply := { status := a.1, reason := a.2, typ := 0, data := [], total := none }

/-- The response frame. -/
def responseTo (r : AReq) (op : Nat) (x : Reply) : List Byte :=
  leBytes 2 r.magic.toNat ++ [r.version] ++ leBytes 1 (op ||| 0x80) ++ leBytes 4 r.reqId.toNat
    ++ leBytes 2 r.index.toNat ++ [r.sub, r.flags] ++ leBytes 2 x.status.toNat ++ leBytes 1 x.reason
    ++ leBytes 1 x.typ ++ leBytes 2 x.data.length ++ [0, 0] ++ leBytes 4 r.offset.toNat
    ++ leBytes 4 (x.total.getD r.total.toNat) ++ x.data

/-! ### Sending the answer (R540, R555, R559) -/

/-- A response kept for its source: the last eight. -/
def keepResponse (kept : List (List Byte × List Kept)) (a : List Byte) (x : Kept) : List (List Byte × List Kept) :=
  kept.map fun k => if k.1 = a then (a, pushRing 8 k.2 x) else k

/-- Whether an address is link-local. -/
def isLinkLocal (a : List Byte) : Bool := leAt a 0 1 == 0xFE && leAt a 1 1 / 64 == 2

/-- The address that an Asrel response comes from (R540). -/
def State.replySource (s : State) (f : Frame) : List Byte :=
  if !multicast f.dest then f.dest else if isLinkLocal f.source then linkLocal else s.mgmt.net.live.unicast

/-- The response frame of R540; none is sent from an address that is not in use (R561; DEDUCED,
log entry 121). -/
def State.asrelOut (s : State) (d : Dgram) (frame : List Byte) : Option Out :=
  let a := s.replySource d.frame
  if s.addressInUse a then some (.asrel
      { ether := d.frame.ether, source := a, dest := d.frame.source, sport := s.mgmt.net.live.port, dport := d.sport,
        hops := 64, access := s.access } frame)
  else none

/-- The response to a request that found the module in state s: it comes from the addresses and settings of s, and
leaves before what the request itself sends (R561). A status that is not DONE counts as refused. -/
def State.sendFrame (t s : State) (d : Dgram) (frame : List Byte) : State :=
  let t := t.updMgmt fun m => { m with
    refusedCount := if leAt frame 12 2 = 0 then m.refusedCount else m.refusedCount + 1 }
  match s.asrelOut d frame with
  | some o => { t.updMgmt fun m => { m with framesTx := m.framesTx + 1 } with
                out := s.out ++ o :: t.out.drop s.out.length }
  | none => t

/-- The answer to a request goes back on its path; s is the state that the request found. -/
def State.deliverAnswer (t s : State) (path : Path) (op : Nat) (r : AReq) (x : Reply) : State :=
  let frame := responseTo r op x
  match path with
  | .net d =>
    let a := d.frame.source
    let k : Kept := { reqId := r.reqId, opcode := op, index := r.index, sub := r.sub, answer := frame }
    (t.updMgmt fun m => { m with kept := keepResponse m.kept a k }).sendFrame s d frame
  | .mailbox k =>
    let t := t.updMgmt fun m => { m with
      refusedCount := if x.status = stDONE then m.refusedCount else m.refusedCount + 1 }
    if (t.hport k.val).mbox.busy then
      t.updHport k.val fun h => { h with mbox := { h.mbox with busy := false, ready := true, response := frame } }
    else t

/-! ### Commits that wait (R507, R551, R554) -/

/-- The windows of a partition that an aperture group makes cacheable no more, as local ranges (R507). -/
def Part.uncached (q : Part) (a : Aper) : List (Nat × Nat) :=
  ((List.range 4).filter fun w => q.aper.live.cacheable.toNat.testBit w && !(a.cacheable.toNat.testBit w)).map fun w =>
    let r := q.windows.live.getD w (0, 0)
    (r.1.toNat * 262144, r.2.toNat * 262144)

/-- The commit of a partition's windows, or of its aperture group, that waited has taken effect: it is answered. -/
def State.answerWaiting (s : State) (p : Nat) (aper : Bool) : State :=
  let mine := s.mgmt.waiting.filter fun w => w.part == p && w.aper == aper
  mine.foldl (fun s w => s.deliverAnswer s w.path 2 w.req (Answer.reply (stDONE, 0)))
    (s.updMgmt fun m => { m with waiting := m.waiting.filter fun w => !(w.part == p && w.aper == aper) })

/-- An aperture commit that waits takes effect, and is answered, once no host holds a line of a window that it clears
(R507, R551). -/
def State.settleAperture (s : State) (p : Nat) : State :=
  match (s.part p).waitingAper with
  | none => s
  | some a =>
    if ((s.part p).uncached a).any fun r => s.lineHeld r.1 r.2 true then s
    else (s.updPart p fun q => { q with aper := ⟨q.aper.sh, a⟩, waitingAper := none }).answerWaiting p true

/-- Every aperture commit that waits. -/
def State.settleApertures (s : State) : State := (List.range 16).foldl State.settleAperture s

/-- Whether an aperture commit that waits clears the window of an address. -/
def State.uncaching (s : State) (a : Nat) : Bool :=
  (List.range 16).any fun p => (s.part p).waitingAper.any fun x =>
    ((s.part p).uncached x).any fun r => overlaps a 1 r.1 r.2

end Sys2Proof.Machine
end

