-- ==== Sys2Proof/Machine/HostQueue.lean ====
section
/-! DEFINITION. Machine/HostQueue.lean: host queues: what is free, release, flush (R515 to R527). -/

namespace Sys2Proof.Machine

/-- Queue q of port k. -/
def State.hqueue (s : State) (k q : Nat) : HQueue := Sparse.get HQueue.reset (s.hport k).queues q

/-- Queue q of port k updated. -/
def State.updQueue (s : State) (k q : Nat) (f : HQueue → HQueue) : State :=
  s.updHport k fun h => { h with queues := Sparse.put h.queues q (f (Sparse.get HQueue.reset h.queues q)) }

def HQueue.core (q : HQueue) : Nat := fld q.bind.live 20 9
def HQueue.deliverTally (q : HQueue) : Nat := fld q.bind.live 12 8
def HQueue.releaseTally (q : HQueue) : Nat := fld q.bind.live 4 8
def HQueue.part (q : HQueue) : Nat := fld q.bind.live 0 4

/-- Bytes of the ring; 0 when disabled. -/
def HQueue.ring (q : HQueue) : Nat := if fld q.size.live 0 5 = 0 then 0 else 2 ^ fld q.size.live 0 5

/-- Bytes held by delivered items that are not yet released. -/
def HQueue.taken (q : HQueue) : Nat := (q.items.map (·.2)).sum

/-- HQ_FREE (R521). -/
def HQueue.free (q : HQueue) : Nat := q.ring - q.taken

/-- Items released in order while the release tally allows (R521). -/
def HQueue.release (q : HQueue) (tally : Word) : HQueue :=
  let due := (tally - q.relBase).toNat
  let n := min q.items.length (due - q.released.toNat)
  { q with released := q.released + BitVec.ofNat 32 n, items := q.items.drop n }

/-- Undelivered bytes discarded (R524). -/
def HQueue.discard (q : HQueue) : HQueue := { q with counts := [], slots := [], early := false }

/-- The flush of R524. -/
def HQueue.flush (q : HQueue) : HQueue :=
  let q := q.discard
  if q.state = 2 ∨ q.state = 3 then { q with state := 1 } else q

/-- The empty state of R527, with the release tally's value as base. -/
def HQueue.empty (q : HQueue) (tally : Word) : HQueue :=
  { q.discard with fill := 0, delivered := 0, released := 0, items := [], relBase := tally }

/-- Every queue of a partition updated. -/
def State.queuesOf (s : State) (p : Nat) (f : HQueue → HQueue) : State :=
  [0, 1].foldl (fun s k => ((s.hport k).queues.map (·.1)).foldl (fun s q =>
    if (s.hqueue k q).state ≠ 0 ∧ (s.hqueue k q).part = p then s.updQueue k q f else s) s) s

/-- The queues whose release tally is one of core c release what it allows, its tallies having changed together
(R521). -/
def State.releaseCore (s : State) (c : Nat) : State :=
  [0, 1].foldl (fun s k => ((s.hport k).queues.map (·.1)).foldl (fun s q =>
    let x := s.hqueue k q
    if x.state ≠ 0 ∧ x.core = c then s.updQueue k q fun x => x.release (s.tallyOf c x.releaseTally)
    else s) s) s

/-- The queues whose release tally is tally t of core c release what it allows. -/
def State.releaseQueues (s : State) (c t : Nat) : State :=
  [0, 1].foldl (fun s k => ((s.hport k).queues.map (·.1)).foldl (fun s q =>
    let x := s.hqueue k q
    if x.state ≠ 0 ∧ x.core = c ∧ x.releaseTally = t then
      s.updQueue k q fun x => x.release (s.tallyOf c t)
    else s) s) s

end Sys2Proof.Machine
end

