-- ==== Sys2Proof/Machine/Flags.lean ====
section
/-! DEFINITION. Machine/Flags.lean: the sticky flag word (R80 to R82). -/

namespace Sys2Proof.Machine

/-! The bits of R82, from INVALID at bit 0 to INT_SAT at bit 10. -/

def fINVALID : Half := 1
def fDIVZERO : Half := 2
def fOVERFLOW : Half := 4
def fUNDERFLOW : Half := 8
def fINEXACT : Half := 16
def fSATURATED : Half := 32
def fNANIN : Half := 64
def fINFIN : Half := 128
def fFLUSHED : Half := 256
def fSCALENAN : Half := 512
def fINTSAT : Half := 1024

/-- A flag raised when a condition holds. -/
def flagIf (c : Bool) (f : Half) : Half := if c then f else 0

end Sys2Proof.Machine
end

