-- ==== Sys2Proof/Machine/Arith.lean ====
section
/-! DEFINITION. Machine/Arith.lean: number formats and arithmetic (R43 to R79). A value is a Num, exact;
every rounding is explicit. -/

namespace Sys2Proof.Machine

/-- A value of a floating-point format, exact: m * 2^e with a sign, an infinity or NaN. -/
inductive Num where
  | nan
  | inf (neg : Bool)
  | fin (neg : Bool) (m : Nat) (e : Int)
  deriving DecidableEq, Repr

/-- Positive zero. -/
def Num.zero : Num := .fin false 0 0

/-- A natural number as a value. -/
def Num.ofNat (n : Nat) : Num := .fin false n 0

/-- An integer as a value. -/
def Num.ofInt (i : Int) : Num := .fin (decide (i < 0)) i.natAbs 0

/-- Whether a value is finite. -/
def Num.finite : Num → Bool
  | .fin _ _ _ => true
  | _ => false

/-- Whether a value is a zero of either sign. -/
def Num.isZero : Num → Bool
  | .fin _ m _ => m == 0
  | _ => false

/-- The sign flipped. -/
def Num.negate : Num → Num
  | .nan => .nan
  | .inf n => .inf !n
  | .fin n m e => .fin (!n) m e

/-- The rounding modes of R53; sr carries the random word of R57. -/
inductive Mode where
  | rne
  | rtz
  | up
  | down
  | sr (r : Nat)
  deriving DecidableEq, Repr

/-- A binary format: exponent bits, stored fraction bits, and whether it has infinities (R43). -/
structure Fmt where
  eb : Nat
  mb : Nat
  hasInf : Bool
  deriving DecidableEq, Repr

def fp32 : Fmt := ⟨8, 23, true⟩
def bf16 : Fmt := ⟨8, 7, true⟩
def fp16 : Fmt := ⟨5, 10, true⟩
def e4m3 : Fmt := ⟨4, 3, false⟩
def e5m2 : Fmt := ⟨5, 2, true⟩
def e2m3 : Fmt := ⟨2, 3, false⟩
def e3m2 : Fmt := ⟨3, 2, false⟩
def e2m1 : Fmt := ⟨2, 1, false⟩

/-- The exponent bias. -/
def Fmt.bias (f : Fmt) : Int := (2 ^ (f.eb - 1) : Nat) - 1

/-- The exponent of the smallest normal value. -/
def Fmt.emin (f : Fmt) : Int := 1 - f.bias

/-- The exponent of the subnormal quantum. -/
def Fmt.quantum (f : Fmt) : Int := f.emin - f.mb

/-- The largest finite magnitude as significand and exponent (R43). Formats with infinities keep the top
exponent for them; E4M3 gives up one encoding to NaN; the other element formats give up none. -/
def Fmt.maxFinite (f : Fmt) : Nat × Int :=
  let top : Int := (2 ^ f.eb : Nat) - 1 - f.bias - f.mb
  if f.hasInf then (2 ^ (f.mb + 1) - 1, top - 1)
  else if f = e4m3 then (2 ^ (f.mb + 1) - 2, top)
  else (2 ^ (f.mb + 1) - 1, top)

/-- a * 2^x compared with b * 2^y. -/
def cmpDyadic (a : Nat) (x : Int) (b : Nat) (y : Int) : Ordering :=
  let lo := min x y
  compare (a * 2 ^ (x - lo).toNat) (b * 2 ^ (y - lo).toNat)

/-- Whether the discarded part makes the magnitude step up: rem out of 2^k was cut from a magnitude whose
kept part is q. -/
def roundsUp (md : Mode) (neg : Bool) (q rem k : Nat) : Bool :=
  if rem = 0 then false
  else match md with
    | .rne => decide (2 * rem > 2 ^ k) || (decide (2 * rem = 2 ^ k) && q % 2 == 1)
    | .rtz => false
    | .up => !neg
    | .down => neg
    | .sr r => decide (r < rem * 2 ^ 32 / 2 ^ k)

/-- A magnitude m * 2^e rounded to p significant bits on quanta no finer than 2^q: the rounded magnitude
and whether anything was discarded (R53, R59). -/
def roundMag (md : Mode) (neg : Bool) (p : Nat) (q : Option Int) (m : Nat) (e : Int) :
    Nat × Int × Bool :=
  let want : Int := (bitLen m : Int) + e - p
  let lim : Int := match q with | some q => max want q | none => want
  if lim ≤ e then (m, e, false)
  else
    let k := (lim - e).toNat
    let kept := m / 2 ^ k
    let rem := m % 2 ^ k
    (if roundsUp md neg kept rem k then kept + 1 else kept, lim, decide (rem ≠ 0))

/-- What a rounding into an IEEE format answers beyond its range (R45, R59, R77). -/
def overflowed (md : Mode) (neg : Bool) (f : Fmt) : Num :=
  let big := Num.fin neg f.maxFinite.1 f.maxFinite.2
  match md with
  | .rne => .inf neg
  | .sr _ => .inf neg
  | .rtz => big
  | .up => if neg then big else .inf neg
  | .down => if neg then .inf neg else big

/-- How a final rounding treats subnormal results and values out of range (R61, R63). -/
structure Into where
  fmt : Fmt
  ftz : Bool
  fp8 : Bool
  sat : Bool
  deriving DecidableEq, Repr

/-- The rounding of a value into a format that is not an MX element or an integer (R53 to R63). INEXACT says that
a fraction was discarded (R82), out of range or not. -/
def roundInto (i : Into) (md : Mode) (x : Num) : Num × Half :=
  let big := i.fmt.maxFinite
  match x with
  | .nan => (.nan, 0)
  | .inf n =>
    if i.fp8 then
      if i.sat then (.fin n big.1 big.2, fSATURATED)
      else if i.fmt.hasInf then (.inf n, 0) else (.nan, fOVERFLOW)
    else (.inf n, 0)
  | .fin n m e =>
    if m = 0 then (.fin n 0 0, 0)
    else
      let r := roundMag md n (i.fmt.mb + 1) (some i.fmt.quantum) m e
      let u := roundMag md n (i.fmt.mb + 1) none m e
      let tiny := cmpDyadic u.1 u.2.1 1 i.fmt.emin == .lt
      let inex := flagIf r.2.2 fINEXACT
      if cmpDyadic r.1 r.2.1 big.1 big.2 == .gt then
        if i.fp8 then
          if i.sat then (.fin n big.1 big.2, fSATURATED ||| inex)
          else (if i.fmt.hasInf then .inf n else .nan, fOVERFLOW ||| inex)
        else (overflowed md n i.fmt, fOVERFLOW ||| inex)
      else
        let fl := inex ||| flagIf (tiny && r.2.2) fUNDERFLOW
        if i.ftz && r.1 != 0 && cmpDyadic r.1 r.2.1 1 i.fmt.emin == .lt
        then (.fin n 0 0, fl ||| fFLUSHED)
        else (.fin n r.1 r.2.1, fl)

/-- A rounding into FP32 with no flush. -/
def to32 (md : Mode) (x : Num) : Num × Half := roundInto ⟨fp32, false, false, false⟩ md x

/-- round_rne_fp32 (R70). -/
def rne32 (x : Num) : Num := (to32 .rne x).1

/-- The stored bits of a value the format holds. -/
def encode (f : Fmt) (x : Num) : Nat :=
  match x with
  | .nan =>
    if f = e4m3 then 0x7F else (2 ^ f.eb - 1) <<< f.mb ||| 2 ^ (f.mb - 1)
  | .inf n => (if n then 2 ^ (f.eb + f.mb) else 0) ||| (2 ^ f.eb - 1) <<< f.mb
  | .fin n m e =>
    let s := if n then 2 ^ (f.eb + f.mb) else 0
    if m = 0 then s
    else
      let units := if e < f.quantum then m / 2 ^ (f.quantum - e).toNat
                   else m * 2 ^ (e - f.quantum).toNat
      if units < 2 ^ f.mb then s ||| units
      else
        let sh := bitLen units - (f.mb + 1)
        s ||| ((sh + 1) <<< f.mb) ||| ((units >>> sh) % 2 ^ f.mb)

/-- The value of stored bits (R43). -/
def decodeFmt (f : Fmt) (b : Nat) : Num :=
  let n := b.testBit (f.eb + f.mb)
  let ex := (b >>> f.mb) % 2 ^ f.eb
  let fr := b % 2 ^ f.mb
  if f.hasInf && ex == 2 ^ f.eb - 1 then (if fr = 0 then .inf n else .nan)
  else if f = e4m3 && ex == 15 && fr == 7 then .nan
  else if ex = 0 then .fin n fr f.quantum
  else .fin n (2 ^ f.mb + fr) (f.quantum + (ex - 1))

/-- Whether stored bits spell a signalling NaN (R77). -/
def isSignalling (f : Fmt) (b : Nat) : Bool :=
  f.hasInf && (b >>> f.mb) % 2 ^ f.eb == 2 ^ f.eb - 1 && b % 2 ^ f.mb != 0 && !b.testBit (f.mb - 1)

/-- The FP32 value of a word. -/
def f32 (w : Word) : Num := decodeFmt fp32 w.toNat

/-- The word of an FP32 value. -/
def w32 (x : Num) : Word := BitVec.ofNat 32 (encode fp32 x)

/-! ### Exact operations (R45, R77) -/

/-- The sign of an exact zero sum (chapter 02, "When an exact zero sum has to take a sign"). The text names
RNE, RTZ and the two directed modes; under SR the model gives +0, the random word having no part in an exact
result (DESIGN CHOICE, log entry 98). -/
def zeroSign (md : Mode) (a b : Bool) : Bool := if a = b then a else decide (md = .down)

/-- Exact sum. -/
def addX (md : Mode) (x y : Num) : Num × Half :=
  match x, y with
  | .nan, _ => (.nan, 0)
  | _, .nan => (.nan, 0)
  | .inf a, .inf b => if a = b then (.inf a, 0) else (.nan, fINVALID)
  | .inf a, .fin _ _ _ => (.inf a, 0)
  | .fin _ _ _, .inf b => (.inf b, 0)
  | .fin a m e, .fin b k f =>
    if m = 0 ∧ k = 0 then (.fin (zeroSign md a b) 0 0, 0)
    else
      let lo := min e f
      let i : Int := (m * 2 ^ (e - lo).toNat : Nat)
      let j : Int := (k * 2 ^ (f - lo).toNat : Nat)
      let t := (if a then -i else i) + (if b then -j else j)
      if t = 0 then (.fin (decide (md = .down)) 0 0, 0)
      else (.fin (decide (t < 0)) t.natAbs lo, 0)

/-- Exact product. -/
def mulX (x y : Num) : Num × Half :=
  match x, y with
  | .nan, _ => (.nan, 0)
  | _, .nan => (.nan, 0)
  | .inf a, .inf b => (.inf (a != b), 0)
  | .inf a, .fin b k _ => if k = 0 then (.nan, fINVALID) else (.inf (a != b), 0)
  | .fin a m _, .inf b => if m = 0 then (.nan, fINVALID) else (.inf (a != b), 0)
  | .fin a m e, .fin b k f => (.fin (a != b) (m * k) (e + f), 0)

/-- Exact fused multiply-add. -/
def fmaX (md : Mode) (x y z : Num) : Num × Half :=
  let p := mulX x y
  let t := addX md p.1 z
  (t.1, p.2 ||| t.2)

/-- An exact sum rounded once, with its flags. -/
def addR (i : Into) (md : Mode) (x y : Num) : Num × Half :=
  let t := addX md x y
  let r := roundInto i md t.1
  (r.1, t.2 ||| r.2)

/-- An exact product rounded once. -/
def mulR (i : Into) (md : Mode) (x y : Num) : Num × Half :=
  let t := mulX x y
  let r := roundInto i md t.1
  (r.1, t.2 ||| r.2)

/-- A fused multiply-add rounded once. -/
def fmaR (i : Into) (md : Mode) (x y z : Num) : Num × Half :=
  let t := fmaX md x y z
  let r := roundInto i md t.1
  (r.1, t.2 ||| r.2)

/-- compareQuietLess for values that are not NaN: -1, 0 or 1. -/
def cmpNum (x y : Num) : Option Ordering :=
  match x, y with
  | .nan, _ => none
  | _, .nan => none
  | .inf a, .inf b => some (if a = b then .eq else if a then .lt else .gt)
  | .inf a, .fin _ _ _ => some (if a then .lt else .gt)
  | .fin _ _ _, .inf b => some (if b then .gt else .lt)
  | .fin a m e, .fin b k f =>
    if m = 0 ∧ k = 0 then some .eq
    else if m = 0 then some (if b then .gt else .lt)
    else if k = 0 then some (if a then .lt else .gt)
    else if a ≠ b then some (if a then .lt else .gt)
    else some (if a then cmpDyadic k f m e else cmpDyadic m e k f)

/-- Minimum and maximum of clause 9.6: NaN when either is NaN, -0 below +0 (R45). -/
def minNum (x y : Num) : Num :=
  match cmpNum x y with
  | none => .nan
  | some .lt => x
  | some .gt => y
  | some .eq => match x with | .fin true 0 _ => x | _ => y

/-- The maximum (R45). -/
def maxNum (x y : Num) : Num :=
  match cmpNum x y with
  | none => .nan
  | some .lt => y
  | some .gt => x
  | some .eq => match x with | .fin true 0 _ => y | _ => x

/-! ### Compensated summation (R70 to R74, R79) -/

/-- A pair (s, c). -/
structure PairN where
  s : Num
  c : Num
  deriving DecidableEq, Repr

/-- (+0, +0). -/
def PairN.zero : PairN := ⟨Num.zero, Num.zero⟩

/-- An RNE sum in FP32. -/
def add32 (x y : Num) : Num := rne32 (addX .rne x y).1

/-- An RNE difference in FP32. -/
def sub32 (x y : Num) : Num := add32 x y.negate

/-- two_sum of R70, and the flags of its first addition. -/
def twoSum (a b : Num) : Num × Num × Half :=
  let x := addX .rne a b
  let r := to32 .rne x.1
  let t := r.1
  let bp := sub32 t a
  let ap := sub32 t bp
  (t, add32 (sub32 a ap) (sub32 b bp), x.2 ||| (r.2 &&& fOVERFLOW))

/-- A pair whose s is not finite holds c at +0 (R79). -/
def settle (p : PairN) : PairN := if p.s.finite then p else ⟨p.s, Num.zero⟩

/-- Whether a group value lies below the smallest FP32 normal value in magnitude (R68, R69). -/
def belowNormal32 (g : Num) : Bool :=
  match g with
  | .fin _ m e => cmpDyadic m e 1 fp32.emin == .lt
  | _ => false

/-- add_term with compensation on or off (R69, R70, R73). A group value below the smallest FP32 normal value
that FP32 cannot hold is judged as it stands, before its rounding, and raises UNDERFLOW (R68, R69). -/
def addTerm (comp : Bool) (p : PairN) (g : Num) : PairN × Half :=
  let h := to32 .rne g
  let tiny := belowNormal32 g && (h.2 &&& fINEXACT) != 0
  let fl := (h.2 &&& fOVERFLOW) ||| flagIf tiny fUNDERFLOW
  let t := twoSum p.s h.1
  if !comp then (⟨t.1, Num.zero⟩, fl ||| t.2.2)
  else
    let lo := if tiny || !h.1.finite then Num.zero else rne32 (addX .rne g h.1.negate).1
    (settle ⟨t.1, add32 (add32 p.c t.2.1) lo⟩, fl ||| t.2.2)

/-- combine, the first pair first (R71, R73). The sum of the two s raises its flags (R77); the RNE steps on c,
here and in addTerm, raise none, an overflow or inf - inf among stored c's included: the compensation is no
result of the command (DESIGN CHOICE, log entry 99). -/
def combine (comp : Bool) (p q : PairN) : PairN × Half :=
  let t := twoSum p.s q.s
  if !comp then (⟨t.1, Num.zero⟩, t.2.2)
  else (settle ⟨t.1, add32 (add32 p.c q.c) t.2.1⟩, t.2.2)

/-- The exact final value of a pair, before its one rounding (R72, R79). -/
def pairExact (md : Mode) (p : PairN) : Num := if p.s.finite then (addX md p.s p.c).1 else p.s

/-- Terms added in order from a pair. -/
def addTerms (comp : Bool) (p : PairN) (gs : List Num) : PairN × Half :=
  gs.foldl (fun a g => let r := addTerm comp a.1 g; (r.1, a.2 ||| r.2)) (p, 0)

/-! ### The fixed functions (R219, R220) -/

/-- A positive real between dyadics, from its comparison with dyadics: E is the floor of its base-2
logarithm; the answer has 26 bits and a sticky bit, so every rounding of it is the rounding of the real. -/
def sticky (cmp : Nat → Int → Ordering) (top : Int) : Num :=
  let q := top - 26
  let m := (List.range 27).foldl
    (fun m i => let t := m + 2 ^ (26 - i); if cmp t q == .lt then m else t) 0
  .fin false (2 * m + (if cmp m q == .eq then 0 else 1)) (q - 1)

/-- The floor of the base-2 logarithm of a real, searched downwards from hi over n exponents. -/
def topOf (cmp : Nat → Int → Ordering) (hi : Int) (n : Nat) : Int :=
  (List.range n).foldr (fun (i : Nat) (acc : Int) => if cmp 1 (hi - i) == .lt then acc else hi - i)
    (hi - n)

/-- RECIP before its rounding. -/
def recipX (x : Num) : Num × Half :=
  match x with
  | .nan => (.nan, 0)
  | .inf n => (.fin n 0 0, 0)
  | .fin n m e =>
    if m = 0 then (.inf n, fDIVZERO)
    else
      let cmp := fun (a : Nat) (b : Int) => cmpDyadic 1 0 (m * a) (e + b)
      match sticky cmp (topOf cmp (1 - e) (bitLen m + 2)) with
      | .fin _ k f => (.fin n k f, 0)
      | y => (y, 0)

/-- RSQRT before its rounding. -/
def rsqrtX (x : Num) : Num × Half :=
  match x with
  | .nan => (.nan, 0)
  | .inf n => if n then (.nan, fINVALID) else (Num.zero, 0)
  | .fin n m e =>
    if m = 0 then (.inf n, fDIVZERO)
    else if n then (.nan, fINVALID)
    else
      let cmp := fun (a : Nat) (b : Int) => cmpDyadic 1 0 (m * a * a) (e + 2 * b)
      (sticky cmp (topOf cmp (90 : Int) 180), 0)

/-- A positive dyadic compared with 2^k. -/
def cmpPow2 (m : Nat) (e k : Int) : Ordering :=
  let top : Int := (bitLen m : Int) - 1 + e
  if top < k then .lt else if k < top then .gt else if m = 2 ^ (bitLen m - 1) then .eq else .gt

/-- A magnitude cut to 256 bits, downwards or upwards. -/
def cut256 (up : Bool) (m : Nat) (e : Int) : Nat × Int :=
  let k := bitLen m - 256
  let rem := m % 2 ^ k
  ((m / 2 ^ k) + (if up && rem != 0 then 1 else 0), e + k)

/-- A bound of x^(2^t), from below or from above. -/
def powBound (up : Bool) : Nat → Nat × Int → Nat × Int
  | 0, x => x
  | t + 1, x => powBound up t (cut256 up (x.1 * x.1) (2 * x.2))

/-- x^(2^t) compared with 2^k for a positive dyadic x: by its bounds where they agree, else exactly. -/
def powCmp (m : Nat) (e : Int) (t : Nat) (k : Int) : Ordering :=
  let lo := powBound false t (m, e)
  let hi := powBound true t (m, e)
  let c := cmpPow2 lo.1 lo.2 k
  if c = cmpPow2 hi.1 hi.2 k then c else cmpPow2 (m ^ 2 ^ t) (e * (2 ^ t : Nat)) k

/-- LOG2 before its rounding. -/
def log2X (x : Num) : Num × Half :=
  match x with
  | .nan => (.nan, 0)
  | .inf n => if n then (.nan, fINVALID) else (.inf false, 0)
  | .fin n m e =>
    if m = 0 then (.inf true, fDIVZERO)
    else if n then (.nan, fINVALID)
    else if m = 2 ^ (bitLen m - 1) then (Num.ofInt ((bitLen m : Int) - 1 + e), 0)
    else
      let below := cmpDyadic m e 1 0 == .lt
      let cmp := fun (a : Nat) (b : Int) =>
        let t := (-b).toNat
        let k : Int := (a : Int) * (2 ^ b.toNat : Nat)
        if below then (powCmp m e t (-k)).swap else powCmp m e t k
      match sticky cmp (topOf cmp 8 40) with
      | .fin _ k f => (.fin below k f, 0)
      | y => (y, 0)

/-- EXP2 before its rounding: +inf is an x of 128 or more (R219). -/
def exp2X (x : Num) : Num × Half :=
  match x with
  | .nan => (.nan, 0)
  | .inf n => if n then (Num.zero, 0) else (.inf false, fOVERFLOW)
  | .fin n m e =>
    if m = 0 then (Num.ofNat 1, 0)
    else if !n && cmpDyadic m e 128 0 != .lt then (.inf false, fOVERFLOW)
    else if n && cmpDyadic m e 256 0 != .lt then (.fin false 1 (-256), 0)
    else
      let j := (-e).toNat
      let k : Int := (if n then -1 else 1) * ((m * 2 ^ e.toNat : Nat) : Int)
      let whole := k / ((2 ^ j : Nat) : Int)
      if k % ((2 ^ j : Nat) : Int) = 0 then (.fin false 1 whole, flagIf (decide (whole < -126)) fUNDERFLOW)
      else
        let cmp := fun (a : Nat) (b : Int) => (powCmp a b j k).swap
        (sticky cmp whole, 0)

/-- A fixed function by its code of R219 (2 RECIP, 3 RSQRT, 4 LOG2, 5 EXP2), before rounding. -/
def fixedFn (code : Nat) (x : Num) : Num × Half :=
  match code with
  | 2 => recipX x
  | 3 => rsqrtX x
  | 4 => log2X x
  | _ => exp2X x

/-- A fixed function rounded into FP32 by RNE (R220, every use outside the vector engine). -/
def fn32 (code : Nat) (x : Num) : Num × Half :=
  let t := fixedFn code x
  let r := to32 .rne t.1
  (r.1, t.2 ||| r.2)

/-! ### Stochastic rounding words (R57) -/

/-- mix64 of R57. -/
def mix64 (z : Long) : Long :=
  let a := (z ^^^ (z >>> 30)) * 0xBF58476D1CE4E5B9#64
  let b := (a ^^^ (a >>> 27)) * 0x94D049BB133111EB#64
  b ^^^ (b >>> 31)

/-- random_word of R57. -/
def randomWord (seed : Long) (key : Word) (index : Nat) : Nat :=
  let h := mix64 (seed ^^^ BitVec.ofNat 64 index)
  let g := mix64 (h ^^^ (key.setWidth 64 * 0x9E3779B97F4A7C15#64))
  (g >>> 32).toNat

/-! ### Integers and MX elements (R52, R64 to R67) -/

/-- An integer clamped to w-bit two's complement, with INT_SAT. -/
def clampInt (w : Nat) (i : Int) : Int × Half :=
  let hi : Int := (2 ^ (w - 1) : Nat) - 1
  let lo : Int := -((2 ^ (w - 1) : Nat) : Int)
  if i > hi then (hi, fINTSAT) else if i < lo then (lo, fINTSAT) else (i, 0)

/-- A value rounded to an integer in a mode, exactly: the magnitude on quanta of 1. -/
def toInt (md : Mode) (n : Bool) (m : Nat) (e : Int) : Int × Bool :=
  if 0 ≤ e then
    let v : Int := (m * 2 ^ e.toNat : Nat)
    (if n then -v else v, false)
  else
    let k := (-e).toNat
    let kept := m / 2 ^ k
    let rem := m % 2 ^ k
    let v : Int := ((if roundsUp md n kept rem k then kept + 1 else kept : Nat) : Int)
    (if n then -v else v, decide (rem ≠ 0))

/-- Conversion into INT8 or INT32 (R66). -/
def intoInt (w : Nat) (md : Mode) (x : Num) : Int × Half :=
  match x with
  | .nan => (0, fINVALID)
  | .inf n => (if n then -((2 ^ (w - 1) : Nat) : Int) else (2 ^ (w - 1) : Nat) - 1, fINTSAT)
  | .fin n m e =>
    let r := toInt md n m e
    let c := clampInt w r.1
    (c.1, c.2 ||| flagIf r.2 fINEXACT)

/-- The element formats of MX codes 7 to 11. Code 12 is MXINT8. -/
def mxFmt (code : Nat) : Fmt :=
  match code with
  | 7 => e4m3
  | 8 => e5m2
  | 9 => e2m3
  | 10 => e3m2
  | _ => e2m1

/-- emax of R64. -/
def mxEmax (code : Nat) : Int :=
  match code with
  | 7 => 8
  | 8 => 15
  | 9 => 2
  | 10 => 4
  | 11 => 2
  | _ => 0

/-- The largest magnitude of an MX element format: E5M2 elements keep 57344, MXINT8 127/64. -/
def mxMax (code : Nat) : Nat × Int := if code = 12 then (127, -6) else (mxFmt code).maxFinite

/-- Whether an MX element code spells no value of R43's table: the MX formats have no infinity, and NaN only
by the scale, so the codes that OFP8 gives to them are left open. -/
def mxOpen (code b : Nat) : Bool :=
  (code == 7 && b % 128 == 127) || (code == 8 && decide (124 ≤ b % 128))

/-- The value of such a code: some value of the format with the code's sign, which one is free (R43, R49, R67; log
entry 100). -/
def mxOpenValue (code b : Nat) : Num :=
  decodeFmt (mxFmt code) (b / 128 * 128 + Config.mxOpenCode code b % (if code = 7 then 127 else 124))

/-- An MX element before its scale. MXINT8 is two's complement in units of 2^-6, so code 0x80 reads -2, one
step beyond the largest magnitude of R43 (DESIGN CHOICE, log entry 101). -/
def mxDecode (code : Nat) (b : Nat) : Num :=
  if code = 12 then
    let i := signed 8 b
    .fin (decide (i < 0)) i.natAbs (-6)
  else if mxOpen code b then mxOpenValue code b
  else decodeFmt (mxFmt code) b

/-- A scaled MX value; scale 0xFF is NaN (R46). -/
def scaled (scale : Nat) (x : Num) : Num :=
  if scale = 0xFF then .nan
  else match x with
    | .fin n m e => .fin n m (e + scale - 127)
    | y => y

/-- One element of an MX block rounded under shared exponent x (step 4 of R64), FTZ on the element. The section
does not say when an element is tiny: the model judges the element v / 2^x as it judges any result of R82,
after a rounding with an unbounded exponent, against the element format's smallest normal value (DESIGN
CHOICE, log entry 102). -/
def mxElement (code : Nat) (ftz : Bool) (md : Mode) (x : Int) (v : Num) : Nat × Half :=
  match v with
  | .fin n m e =>
    if m = 0 then (if code = 12 then 0 else encode (mxFmt code) (.fin n 0 0), 0)
    else if code = 12 then
      let r := toInt md n m (e - x + 6)
      let lim : Int := if r.1 > 127 then 127 else if r.1 < -127 then -127 else r.1
      (unsigned 8 lim, flagIf (lim != r.1) fSATURATED ||| flagIf r.2 fINEXACT)
    else
      let f := mxFmt code
      let r := roundMag md n (f.mb + 1) (some f.quantum) m (e - x)
      let big := f.maxFinite
      if cmpDyadic r.1 r.2.1 big.1 big.2 == .gt
      then (encode f (.fin n big.1 big.2), fSATURATED ||| flagIf r.2.2 fINEXACT)
      else
        let u := roundMag md n (f.mb + 1) none m (e - x)
        let tiny := cmpDyadic u.1 u.2.1 1 f.emin == .lt
        let fl := flagIf r.2.2 fINEXACT ||| flagIf (tiny && r.2.2) fUNDERFLOW
        if ftz && r.1 != 0 && cmpDyadic r.1 r.2.1 1 f.emin == .lt then (encode f (.fin n 0 0), fl ||| fFLUSHED)
        else (encode f (.fin n r.1 r.2.1), fl)
  | _ => (0, 0)

/-- The magnitude's base-2 floor of the largest value of a block (step 1 and 2 of R64). -/
def blockExp (vs : List Num) : Option Int :=
  vs.foldl (fun acc v => match v with
    | .fin _ m e =>
      if m = 0 then acc
      else
        let l : Int := (bitLen m : Int) - 1 + e
        some (match acc with | some a => max a l | none => l)
    | _ => acc) none

/-- A whole block into an MX format: scale, elements, flags (R64, R65). -/
def mxBlock (code : Nat) (ftz : Bool) (md : Nat → Mode) (vs : List Num) : Nat × List Nat × Half :=
  let nan := vs.any (· == .nan)
  let inf := vs.any (fun v => v == .inf true || v == .inf false)
  if nan || inf then
    (0xFF, vs.map (fun _ => 0), flagIf nan fNANIN ||| flagIf inf fINFIN)
  else match blockExp vs with
    | none => (0, vs.map (fun _ => 0), 0)
    | some l =>
      let x := max (-127) (min 127 (l - mxEmax code))
      let rs := vs.zipIdx.map (fun vi => mxElement code ftz (md vi.2) x vi.1)
      ((x + 127).toNat, rs.map (·.1), rs.foldl (fun a r => a ||| r.2) 0)

end Sys2Proof.Machine
end

