-- ==== Sys2Proof/Machine/Operands.lean ====
section
/-! DEFINITION. Machine/Operands.lean: descriptors, extents, and the reading and writing of elements
(R138 to R149, R46, R47, R58, R61, R628). -/

namespace Sys2Proof.Machine

/-! ### Descriptors (R139) -/

/-- A descriptor from its 32 words (R139): reserved fields and the written partition are ignored. -/
def Desc.ofWords (part : Nat) (w : Nat → Word) : Desc :=
  let l := fun (i : Nat) => (w (i + 1)).setWidth 64 <<< 32 ||| (w i).setWidth 64
  { loc := fld (w 0) 28 4, fmt := fld (w 0) 24 4, rank := fld (w 0) 21 3, versioned := bit (w 0) 20,
    part := part, key := w 1, version := w 2, base := l 4, twin := l 6, scale := l 8,
    dims := (List.range 6).map fun i => (w (10 + i)).toNat,
    strides := (List.range 6).map fun i => signed 64 (l (16 + 2 * i)).toNat }

/-- The 32 words of a descriptor (DESC_READ, R170). -/
def Desc.words (d : Desc) : List Word :=
  let lo := fun (x : Long) => x.setWidth 32
  let hi := fun (x : Long) => (x >>> 32).setWidth 32
  [BitVec.ofNat 32 (d.loc <<< 28 ||| d.fmt <<< 24 ||| d.rank <<< 21
      ||| (if d.versioned then 1 <<< 20 else 0) ||| d.part),
   d.key, d.version, 0, lo d.base, hi d.base, lo d.twin, hi d.twin, lo d.scale, hi d.scale]
  ++ (List.range 6).map (fun i => BitVec.ofNat 32 (d.dims.getD i 0))
  ++ (List.range 6).flatMap (fun i =>
      let x := BitVec.ofNat 64 (unsigned 64 (d.strides.getD i 0))
      [lo x, hi x])
  ++ [0, 0, 0, 0]

/-- Extent of dimension i: dimensions at or beyond rank are taken as 1. -/
def Desc.dim (d : Desc) (i : Nat) : Nat := if i < d.rank then d.dims.getD i 1 else 1

/-- Stride of dimension i in bytes: strides at or beyond rank are ignored. -/
def Desc.stride (d : Desc) (i : Nat) : Int := if i < d.rank then d.strides.getD i 0 else 0

/-- An MX format (codes 0x7 to 0xC). -/
def isMx (fmt : Nat) : Bool := decide (7 ≤ fmt) && decide (fmt ≤ 12)

/-- Element bits of a format code (R43). -/
def elemBits (fmt : Nat) : Nat :=
  match fmt with
  | 0 => 32 | 1 => 16 | 2 => 16 | 6 => 32 | 9 => 6 | 10 => 6 | 11 => 4 | _ => 8

/-- Bytes of one packed row of dimension 0 (R141). -/
def Desc.rowBytes (d : Desc) : Nat := ceilDiv (d.dim 0 * elemBits d.fmt) 8

/-- Rows over dimensions 1 to 5. -/
def Desc.rows (d : Desc) : Nat := d.dim 1 * d.dim 2 * d.dim 3 * d.dim 4 * d.dim 5

/-- Elements of the tensor. -/
def Desc.count (d : Desc) : Nat := d.dim 0 * d.rows

/-- Bytes an element takes in the address arithmetic of R94: a packed row counts as one element. -/
def Desc.elemBytes (d : Desc) : Nat := if isMx d.fmt then d.rowBytes else elemBits d.fmt / 8

/-- A pair slot: FP32 with stride0 8 (R213, R317). -/
def Desc.isPair (d : Desc) : Bool := d.fmt == 0 && d.stride 0 == 8

/-- What the dimensions add to the lowest and to the highest address (R94): the first is not above 0, the
second not below. -/
def Desc.reach (d : Desc) : Int × Int :=
  let first := if isMx d.fmt then 1 else 0
  (List.range 6).foldl (fun (a : Int × Int) i =>
    if i < first then a
    else
      let t := ((d.dim i : Int) - 1) * d.stride i
      if t < 0 then (a.1 + t, a.2) else (a.1, a.2 + t)) (0, 0)

/-- The extent of a descriptor with elements of n bytes from a base (R94): lowest address and length, none
when it is empty. -/
def Desc.spanFrom (d : Desc) (base n : Nat) : Option (Int × Nat) :=
  if d.count = 0 then none
  else some ((base : Int) + d.reach.1, (d.reach.2 - d.reach.1).toNat + n)

/-- The extent as addresses. No descriptor committed on this module reaches below the region of its base:
descStatus judges that by spanStatus, on integers. -/
def Desc.extentFrom (d : Desc) (base n : Nat) : Option (Nat × Nat) :=
  (d.spanFrom base n).map fun x => (x.1.toNat, x.2)

/-- The element extent (R94). -/
def Desc.extent (d : Desc) (n : Nat) : Option (Nat × Nat) := d.extentFrom d.base.toNat n

/-- The extent of the scale array at a base (R142). -/
def Desc.scaleExtent (d : Desc) (base : Nat) : Option (Nat × Nat) :=
  if isMx d.fmt && d.count != 0 then some (base, d.rows * ceilDiv (d.dim 0) 32) else none

/-- The base of the attic twin's scales (R142). -/
def Desc.twinScale (d : Desc) : Long := d.scale + (d.twin - d.base)

/-- The descriptor of the attic twin of a versioned descriptor. -/
def Desc.atTwin (d : Desc) : Desc := { d with base := d.twin, scale := d.twinScale, twin := d.base }

/-- A list of extents, empty ones left out. -/
def extents (l : List (Option (Nat × Nat))) : List (Nat × Nat) := l.filterMap id

/-- The extents of elements and scales, with elements of n bytes. -/
def Desc.allExtents (d : Desc) (n : Nat) : List (Nat × Nat) :=
  extents [d.extent n, d.scaleExtent d.scale.toNat]

/-! ### Where an extent may lie (R89, R90, R95, R143) -/

/-- The windows of partition p as byte ranges (R127). -/
def State.windowsOf (s : State) (p : Nat) : List (Nat × Nat) :=
  ((s.part p).windows.live.filter fun w => w.2 != 0).map fun w => (w.1.toNat * 262144, w.2.toNat * 262144)

/-- Whether [a, a+n) lies in [b, b+k). -/
def inside (a n b k : Nat) : Bool := decide (b ≤ a) && decide (a + n ≤ b + k)

/-- Whether a local range lies inside one HBM window of partition p. -/
def State.inWindow (s : State) (p a n : Nat) : Bool := (s.windowsOf p).any fun w => inside a n w.1 w.2

/-- Whether a local range lies inside the host aperture of partition p, on its port (R438, R509). -/
def State.inAperture (s : State) (p a n : Nat) : Bool :=
  let q := s.part p
  let o := addrOffset a
  decide (o / 2 ^ 46 = q.layout.live.hostPort.toNat) &&
    q.aper.live.len != 0 && inside (o % 2 ^ 46) n q.aper.live.base.toNat q.aper.live.len.toNat

/-- Whether the cores c0 to c1 take in an absent one (R90): 448 to 511 of a DA-448. What lies past core 511 is no
core at all, and so in no shelf of any partition (R95). -/
def State.absentCore (s : State) (c0 c1 : Nat) : Bool :=
  decide (s.coreCount < 512) && decide (s.coreCount ≤ c1) && decide (c0 < 512)

/-- The first status of R143's order 2 to 4 that a range of region reg breaks for partition p: n bytes from
offset lo of the region, which may lie below the region's start. Bytes below it are in no window, shelf or
aperture of any partition. The form of accumulator planes is judged apart (R197). -/
def State.spanStatus (s : State) (p reg : Nat) (lo : Int) (n : Nat) : Half :=
  let o := lo.toNat
  let last := (lo + n - 1).toNat
  match reg with
  | 0 => if lo < 0 ∨ !s.inWindow p o n then stPRIVILEGE else if o + n > hbmEnd then stCONFIG else stDONE
  | 1 =>
    let c0 := o / 2 ^ 25
    let c1 := last / 2 ^ 25
    if s.absentCore c0 c1 then stENGINE_ABSENT
    else if lo < 0 ∨ !((List.range (c1 / 8 - c0 / 8 + 1)).all fun i => s.hasShelf p (c0 / 8 + i)) then stPRIVILEGE
    else if c0 / 8 ≠ c1 / 8 then stCONFIG else stDONE
  | 2 =>
    let c0 := o / 2 ^ 23
    let c1 := last / 2 ^ 23
    if s.absentCore c0 c1 then stENGINE_ABSENT
    else if lo < 0 ∨ !((List.range (c1 / 8 - c0 / 8 + 1)).all fun i => s.hasShelf p (c0 / 8 + i)) then stPRIVILEGE
    else
      match privRow (o % 2 ^ 23) with
      | some r => if c0 = c1 ∧ o % 2 ^ 23 + n ≤ r.2 then stDONE else stCONFIG
      | none => stCONFIG
  | 4 => if 0 ≤ lo ∧ s.inAperture p (hostBase + o) n then stDONE else stPRIVILEGE
  | _ => stCONFIG

/-- The same for n bytes from a local address. -/
def State.rangeStatus (s : State) (p a n : Nat) : Half := s.spanStatus p (addrRegion a) (addrOffset a) n

/-- The rank of a status in R143's order: absent, privilege, other limits, none. -/
def statusRank (st : Half) : Nat :=
  if st = stENGINE_ABSENT then 0 else if st = stPRIVILEGE then 1 else if st = stDONE then 3 else 2

/-- The first in R143's order of several statuses. -/
def firstStatus (l : List Half) : Half :=
  l.foldl (fun a b => if statusRank b < statusRank a then b else a) stDONE

/-- Whether the offset bits that R89 marks zero are zero, and the region is not reserved. -/
def offsetFormOk (a : Nat) : Bool :=
  match addrRegion a with
  | 0 => true
  | 1 => decide (addrOffset a < 2 ^ 34)
  | 2 => decide (addrOffset a < 2 ^ 32)
  | 3 => decide (addrOffset a < 2 ^ 27)
  | 4 => true
  | _ => false

/-- R140 for one base field. -/
def State.baseAgrees (s : State) (loc : Nat) (a : Nat) : Bool :=
  offsetFormOk a &&
    (if loc = 8 then decide (addrModule a ≠ s.myId) && decide (addrRegion a ≤ 1)
     else decide (addrModule a = s.myId) && decide (addrRegion a = loc))

/-- The bases a descriptor uses (R140). -/
def Desc.bases (d : Desc) : List Nat :=
  [d.base.toNat] ++ (if d.versioned then [d.twin.toNat] else [])
    ++ (if isMx d.fmt then [d.scale.toNat] else [])

/-- The status of what a descriptor names on this module, elements, scales and the twin's (R94, R95, R142):
each extent is judged from its base's offset in the region of its base. -/
def Desc.spans (d : Desc) : List (Nat × Int × Nat) :=
  if d.count = 0 then []
  else
    let elems := fun (b : Nat) =>
      (addrRegion b, (addrOffset b : Int) + d.reach.1, (d.reach.2 - d.reach.1).toNat + d.elemBytes)
    let scales := fun (b : Nat) => (addrRegion b, (addrOffset b : Int), d.rows * ceilDiv (d.dim 0) 32)
    [elems d.base.toNat] ++ (if d.versioned then [elems d.twin.toNat] else [])
      ++ (if isMx d.fmt then
            [scales d.scale.toNat] ++ (if d.versioned then [scales d.twinScale.toNat] else []) else [])

/-- Whether a base field names a core absent in the grade, whatever the dimensions (R90, R143 step 2, R158). -/
def State.baseAbsent (s : State) (d : Desc) : Bool :=
  d.bases.any fun a => (d.loc == 1 && decide (s.coreCount ≤ cellarCore a))
    || (d.loc == 2 && decide (s.coreCount ≤ privCore a))

/-- Whether two addresses name one module and one region. -/
def samePlace (a b : Nat) : Bool := addrModule a == addrModule b && addrRegion a == addrRegion b

/-- R123 on location 0x8: twin and current buffer on one module, in one region of it, and so the two scale
arrays. On a local location R140 says as much of the bases. -/
def Desc.twinPlaceOk (d : Desc) : Bool :=
  !d.versioned || (samePlace d.base.toNat d.twin.toNat
    && (!isMx d.fmt || samePlace d.scale.toNat d.twinScale.toNat))

/-- The extents a descriptor names: elements, scales, and the twin's. -/
def Desc.named (d : Desc) : List (Nat × Nat) :=
  d.allExtents d.elemBytes ++ (if d.versioned then d.atTwin.allExtents d.elemBytes else [])

/-- Whether an extent touches an accumulator plane (R91). -/
def touchesPlane (x : Nat × Nat) : Bool :=
  let a := addrLocal x.1
  addrRegion a == 2 && decide (addrOffset a % 2 ^ 23 + x.2 > 0x640000)
    && decide (addrOffset a % 2 ^ 23 < 0x650000)

/-- The form in which a descriptor may name an accumulator plane (R197), in an exclusive partition for any
command, in a shared one for the COPY of R198. -/
def Desc.planeFormOk (d : Desc) : Bool :=
  if d.named.any touchesPlane then
    d.fmt == 0 && d.rank == 2 && decide (d.dim 0 ≤ 64)
      && decide (d.dim 1 ≤ 64) && d.stride 0 == 4 && d.stride 1 == 256
  else true

/-- Whether two extents meet. -/
def meet (x y : Nat × Nat) : Bool := overlaps x.1 x.2 y.1 y.2

/-- R123: twin and current buffer, and their scales, do not overlap. -/
def Desc.twinOk (d : Desc) : Bool :=
  if d.versioned then
    let cur := (d.spanFrom d.base.toNat d.elemBytes).toList
    let tw := (d.spanFrom d.twin.toNat d.elemBytes).toList
    let arr := fun (b : Nat) => ((d.scaleExtent b).map fun x => ((x.1 : Int), x.2)).toList
    let sc := arr d.scale.toNat
    let ts := arr d.twinScale.toNat
    let disj := fun (a b : List (Int × Nat)) => a.all fun x => b.all fun y =>
      !(decide (x.1 < y.1 + y.2) && decide (y.1 < x.1 + x.2))
    disj cur tw && disj sc cur && disj sc tw && disj ts cur && disj ts tw && disj sc ts
  else true

/-- Whether a base of a host-window descriptor of partition p names the port that p is not bound to (R438), the
descriptor being empty or not. -/
def State.otherPort (s : State) (p : Nat) (d : Desc) : Bool :=
  d.loc == 4 && d.bases.any fun a => addrOffset a / 2 ^ 46 != (s.part p).layout.live.hostPort.toNat

/-- The checks of a descriptor commit, in the order of R143. -/
def State.descStatus (s : State) (p : Nat) (d : Desc) : Half :=
  let locOk := d.loc == 0 || d.loc == 1 || d.loc == 2 || d.loc == 4 || d.loc == 8
  if d.rank = 0 ∨ d.rank = 7 ∨ !locOk ∨ d.fmt > 12 then stCONFIG
  else if !(d.bases.all fun a => s.baseAgrees d.loc a) then stCONFIG
  else if isMx d.fmt && d.strides.getD 0 0 != 0 then stCONFIG
  else if d.loc = 8 then (if d.twinOk && d.twinPlaceOk then stDONE else stCONFIG)
  else if s.baseAbsent d then stENGINE_ABSENT
  else
    let st := firstStatus ((if s.otherPort p d then [stPRIVILEGE] else [])
      ++ d.spans.map fun x => s.spanStatus p x.1 x.2.1 x.2.2)
    if st ≠ stDONE then st
    else if !d.twinOk ∨ !d.twinPlaceOk ∨ !d.planeFormOk then stCONFIG
    else if d.versioned && isMx d.fmt && !(s.baseAgrees d.loc d.twinScale.toNat) then stCONFIG
    else stDONE

/-! ### The command's arithmetic mode (R54, R61, R63, R84) -/

/-- How one command rounds: code of R53, compensation, FP8 saturation, flushes, the partition's seed. -/
structure Env where
  round : Nat
  comp : Bool
  sat : Bool
  ftz : Bool
  daz : Bool
  seed : Long
  deriving DecidableEq, Repr

/-- The mode of an element: under SR the word of R57 from the destination's key and the logical index. -/
def Env.mode (e : Env) (key : Word) (index : Nat) : Mode :=
  match e.round with
  | 0 => .rne
  | 1 => .rtz
  | 2 => .up
  | 3 => .down
  | _ => .sr (randomWord e.seed key index)

/-- The mode of a vector operation whose result stays in a register: directed, else RNE (R55, R209). -/
def Env.regMode (e : Env) : Mode :=
  match e.round with
  | 1 => .rtz
  | 2 => .up
  | 3 => .down
  | _ => .rne

/-! ### Elements -/

/-- A position in a tensor: six indices. -/
abbrev Pos := List Nat

/-- Whether a position lies inside every dimension (R148). -/
def Desc.inBounds (d : Desc) (i : Pos) : Bool := (List.range 6).all fun k => decide (i.getD k 0 < d.dim k)

/-- The logical index of a position (R58). -/
def Desc.logical (d : Desc) (i : Pos) : Nat :=
  i.getD 0 0 + d.dim 0 * (i.getD 1 0 + d.dim 1 * (i.getD 2 0 + d.dim 2 * (i.getD 3 0
    + d.dim 3 * (i.getD 4 0 + d.dim 4 * i.getD 5 0))))

/-- The position of a logical index. -/
def Desc.posOf (d : Desc) (n : Nat) : Pos :=
  let q0 := n / d.dim 0
  let q1 := q0 / d.dim 1
  let q2 := q1 / d.dim 2
  let q3 := q2 / d.dim 3
  let q4 := q3 / d.dim 4
  [n % d.dim 0, q0 % d.dim 1, q1 % d.dim 2, q2 % d.dim 3, q3 % d.dim 4, q4]

/-- The dense row number over dimensions 1 to 5 (R142). -/
def Desc.rowOf (d : Desc) (i : Pos) : Nat := d.logical i / (if d.dim 0 = 0 then 1 else d.dim 0)

/-- An address d bytes from a base, never wrapped into another region or module (R96): what would leave the
region of its base lies in the reserved region 0xF of the module, where every access is refused (R89, R145).
On this module R95 lets no descriptor reach so far. -/
def addrFrom (base : Nat) (d : Int) : Nat :=
  let o : Int := (addrOffset base : Int) + d
  if 0 ≤ o ∧ o < 2 ^ 47 then base - addrOffset base + o.toNat
  else addrModule base * 2 ^ 51 + 15 * 2 ^ 47 + (o % 2 ^ 47).toNat

/-- The address of a row (packed formats) or of an element (the others). -/
def Desc.addrOf (d : Desc) (i : Pos) : Nat :=
  let first := if isMx d.fmt then 1 else 0
  addrFrom d.base.toNat ((List.range 6).foldl (fun (a : Int) k =>
    if k < first then a else a + (i.getD k 0 : Int) * d.stride k) 0)

/-- The reader of bytes that an engine uses: by global address. -/
abbrev Reader := Nat → Byte

/-- Bytes read in order. -/
def readN (rd : Reader) (a n : Nat) : List Byte := (List.range n).map fun i => rd (a + i)

/-- The raw bits of a stored element inside its dimensions. -/
def Desc.rawBits (d : Desc) (rd : Reader) (i : Pos) : Nat :=
  if isMx d.fmt then
    let b := elemBits d.fmt
    let lo := i.getD 0 0 * b
    let a := d.addrOf i + lo / 8
    (ofLe (readN rd a (ceilDiv (lo % 8 + b) 8)) >>> (lo % 8)) % 2 ^ b
  else ofLe (readN rd (d.addrOf i) (elemBits d.fmt / 8))

/-- The address of the scale of a position's block (R142). -/
def Desc.scaleAddr (d : Desc) (i : Pos) : Nat :=
  addrFrom d.scale.toNat (d.rowOf i * ceilDiv (d.dim 0) 32 + i.getD 0 0 / 32 : Nat)

/-- The stored scale of a position's block. -/
def Desc.scaleOf (d : Desc) (rd : Reader) (i : Pos) : Nat := (rd (d.scaleAddr i)).toNat

/-- The floating-point format of a code that is neither an MX format nor an integer. -/
def plainFmt (code : Nat) : Fmt :=
  match code with
  | 1 => bf16
  | 2 => fp16
  | 3 => e4m3
  | 4 => e5m2
  | _ => fp32

/-- Whether a code is an integer format. -/
def isInt (code : Nat) : Bool := code == 5 || code == 6

/-- The exact value of an element's bits under its scale. -/
def valueOf (fmt scale raw : Nat) : Num :=
  if isMx fmt then scaled scale (mxDecode fmt raw)
  else if fmt = 5 then Num.ofInt (signed 8 raw)
  else if fmt = 6 then Num.ofInt (signed 32 raw)
  else decodeFmt (plainFmt fmt) raw

/-- The flags of reading stored bits of a floating-point format (R77, R79). -/
def bitFlags (f : Fmt) (raw : Nat) : Half :=
  let v := decodeFmt f raw
  flagIf (v == .nan) fNANIN ||| flagIf (v == .inf true || v == .inf false) fINFIN
    ||| flagIf (isSignalling f raw) fINVALID

/-- The flags of reading an operand (R77, R79, R82). An MX element is NaN by its scale alone (R43, R46): it
raises SCALE_NAN and, a NaN operand, NAN_IN. -/
def readFlags (fmt scale raw : Nat) : Half :=
  if isMx fmt then (if scale = 0xFF then fSCALENAN ||| fNANIN else 0)
  else if isInt fmt then 0
  else bitFlags (plainFmt fmt) raw

/-- DAZ on a value judged in a format (R61). -/
def applyDaz (daz : Bool) (f : Fmt) (x : Num) : Num × Half :=
  match x with
  | .fin n m e => if daz && m != 0 && cmpDyadic m e 1 f.emin == .lt then (.fin n 0 0, fFLUSHED) else (x, 0)
  | y => (y, 0)

/-- An element as an operand: its value and flags; a position outside reads zero without a flag (R148). -/
def Desc.operand (d : Desc) (rd : Reader) (daz : Bool) (i : Pos) : Num × Half :=
  if d.inBounds i then
    let raw := d.rawBits rd i
    let sc := if isMx d.fmt then d.scaleOf rd i else 0
    let v := valueOf d.fmt sc raw
    let z := if isMx d.fmt || isInt d.fmt then (v, 0) else applyDaz daz (plainFmt d.fmt) v
    (z.1, readFlags d.fmt sc raw ||| z.2)
  else (Num.zero, 0)

/-- The pair at a position as stored: FP32 value and compensation 4 bytes above (R188, R213); outside,
(+0, +0). -/
def Desc.pairAt (d : Desc) (rd : Reader) (i : Pos) : PairN :=
  if d.inBounds i then
    let a := d.addrOf i
    ⟨decodeFmt fp32 (ofLe (readN rd a 4)), decodeFmt fp32 (ofLe (readN rd (a + 4) 4))⟩
  else PairN.zero

/-- The read flags of a stored pair (R77, R79): of its s and of its c. -/
def Desc.pairFlags (d : Desc) (rd : Reader) (i : Pos) : Half :=
  if d.inBounds i then
    let a := d.addrOf i
    readFlags 0 0 (ofLe (readN rd a 4)) ||| readFlags 0 0 (ofLe (readN rd (a + 4) 4))
  else 0

/-- A final value rounded into a format that is not MX: stored bits and flags (R54, R61 to R66). -/
def finalBits (fmt : Nat) (e : Env) (md : Mode) (x : Num) : Nat × Half :=
  if fmt = 5 then let r := intoInt 8 md x; (unsigned 8 r.1, r.2)
  else if fmt = 6 then let r := intoInt 32 md x; (unsigned 32 r.1, r.2)
  else
    let f := plainFmt fmt
    let r := roundInto ⟨f, e.ftz, fmt == 3 || fmt == 4, e.sat⟩ md x
    (encode f r.1, r.2 ||| flagIf ((fmt == 3 || fmt == 4) && (x == .inf true || x == .inf false)) fINFIN)

/-- The bytes of a packed run of elements, low bits first (R141). -/
def packBits (b : Nat) (es : List Nat) : List Byte :=
  leBytes (ceilDiv (es.length * b) 8) (es.zipIdx.foldl (fun a ei => a ||| ei.1 <<< (ei.2 * b)) 0)

/-- One block of an MX row written: new values by position in the row, the others as stored (R628). -/
def Desc.storeBlock (d : Desc) (rd : Reader) (e : Env) (row : Pos) (blk : Nat)
    (new : List (Nat × Num)) : List (Nat × Byte) × Half :=
  let lo := blk * 32
  let n := min 32 (d.dim 0 - lo)
  let at' := fun k => row.set 0 (lo + k)
  let vs := (List.range n).map fun k =>
    match new.reverse.find? (·.1 == lo + k) with
    | some v => v.2
    | none => valueOf d.fmt (d.scaleOf rd (at' k)) (d.rawBits rd (at' k))
  let r := mxBlock d.fmt e.ftz (fun k => e.mode d.key (d.logical (at' k))) vs
  let a := d.addrOf row + lo * elemBits d.fmt / 8
  let bytes := packBits (elemBits d.fmt) r.2.1
  ((d.scaleAddr (at' 0), BitVec.ofNat 8 r.1) :: bytes.zipIdx.map (fun b => (a + b.2, b.1)), r.2.2)

/-- The blocks of an MX tensor that stores at positions touch, as row and block number, each once. -/
def Desc.blocksOf (d : Desc) (ps : List Pos) : List (Pos × Nat) :=
  ((ps.filter d.inBounds).map fun i => (i.set 0 0, i.getD 0 0 / 32)).foldl
    (fun acc k => if acc.contains k then acc else acc ++ [k]) []

/-- What stores at positions read of an MX tensor: the elements and the scale of each block that they cover only
in part (R628). -/
def Desc.blockReads (d : Desc) (ps : List Pos) : List (Nat × Nat) :=
  if isMx d.fmt then
    (d.blocksOf ps).flatMap fun k =>
      let lo := k.2 * 32
      let n := min 32 (d.dim 0 - lo)
      if (List.range n).all fun j => ps.contains (k.1.set 0 (lo + j)) then []
      else [(d.addrOf k.1 + lo * elemBits d.fmt / 8, ceilDiv (n * elemBits d.fmt) 8),
            (d.scaleAddr (k.1.set 0 lo), 1)]
  else []

/-- A batch of element stores into a tensor: byte writes by global address, and flags. Positions outside
are discarded (R148); blocks of an MX tensor are encoded whole (R628). -/
def Desc.storeBatch (d : Desc) (rd : Reader) (e : Env) (batch : List (Pos × Num)) :
    List (Nat × Byte) × Half :=
  let inb := batch.filter fun b => d.inBounds b.1
  if isMx d.fmt then
    (d.blocksOf (batch.map (·.1))).foldl (fun acc k =>
      let new := inb.filterMap fun b =>
        if b.1.set 0 0 = k.1 ∧ b.1.getD 0 0 / 32 = k.2 then some (b.1.getD 0 0, b.2) else none
      let r := d.storeBlock rd e k.1 k.2 new
      (acc.1 ++ r.1, acc.2 ||| r.2)) ([], 0)
  else
    inb.foldl (fun acc b =>
      let r := finalBits d.fmt e (e.mode d.key (d.logical b.1)) b.2
      let bytes := leBytes (elemBits d.fmt / 8) r.1
      (acc.1 ++ bytes.zipIdx.map (fun x => (d.addrOf b.1 + x.2, x.1)), acc.2 ||| r.2)) ([], 0)

/-- A pair stored at a position (R188). -/
def Desc.storePair (d : Desc) (i : Pos) (p : PairN) : List (Nat × Byte) :=
  if d.inBounds i then
    let bytes := leBytes 4 (encode fp32 p.s) ++ leBytes 4 (encode fp32 p.c)
    bytes.zipIdx.map fun x => (d.addrOf i + x.2, x.1)
  else []

/-- The reader of this module's own memory, by global or local address. -/
def memReader (m : Mem) : Reader := fun a => memRead m (addrLocal a)

/-- Byte writes by global address, as local ones. -/
def toLocal (ws : List (Nat × Byte)) : List (Nat × Byte) := ws.map fun w => (addrLocal w.1, w.2)

/-! ### Loops (R147) -/

/-- The index vectors of trip counts, level 0 fastest. -/
def indexVectors (ts : List Nat) : List (List Nat) :=
  ts.reverse.foldl (fun acc t => acc.flatMap fun v => (List.range t).map fun i => i :: v) [[]]

/-- The origin of an operand with level entries (dimension, step) at an index vector (R147). -/
def originOf (levels : List (Nat × Nat)) (iv : List Nat) : Pos :=
  (List.range 6).map fun d =>
    (levels.zip iv).foldl (fun a li => if li.1.1 = d then a + li.2 * li.1.2 else a) 0

/-- A position moved by k along dimension d. -/
def shiftPos (i : Pos) (d k : Nat) : Pos := i.set d (i.getD d 0 + k)

end Sys2Proof.Machine
end

