-- ==== Sys2Proof/Machine/Block.lean ====
section
/-! DEFINITION. Machine/Block.lean: the fields of command blocks (R150 to R153) and the checks at issue
(R156). -/

namespace Sys2Proof.Machine

/-! ### Fields -/

/-- Word i of the block. -/
def Entry.w (e : Entry) (i : Nat) : Word := e.words.getD i 0

def Entry.kind (e : Entry) : Nat := fld (e.w 0) 28 4
def Entry.length (e : Entry) : Nat := fld (e.w 0) 21 7
def Entry.record (e : Entry) : Bool := bit (e.w 0) 20
def Entry.tag (e : Entry) : Nat := fld (e.w 0) 0 16
def Entry.waitEnable (e : Entry) : Bool := bit (e.w 1) 31
def Entry.waitExternal (e : Entry) : Bool := bit (e.w 1) 30
def Entry.waitTally (e : Entry) : Nat := fld (e.w 1) 0 8
def Entry.waitTarget (e : Entry) : Word := e.w 2
def Entry.sigEnable (e : Entry) : Bool := bit (e.w 3) 31
def Entry.sigIncrement (e : Entry) : Nat := fld (e.w 3) 8 8
def Entry.sigTally (e : Entry) : Nat := fld (e.w 3) 0 8
def Entry.compCode (e : Entry) : Nat := fld (e.w 4) 9 2
def Entry.fp8Code (e : Entry) : Nat := fld (e.w 4) 7 2
def Entry.subCode (e : Entry) : Nat := fld (e.w 4) 4 3
def Entry.roundCode (e : Entry) : Nat := fld (e.w 4) 0 3

/-- signal_core: blocks a fetcher enqueued count from the partition's first core (R426). -/
def Entry.sigCore (e : Entry) (first : Nat) : Nat :=
  fld (e.w 3) 22 9 + if e.fromStream then 8 * first else 0

/-- The six trip counts (R151). -/
def Entry.trips (e : Entry) : List Nat :=
  [fld (e.w 5) 0 16, fld (e.w 5) 16 16, fld (e.w 6) 0 16, fld (e.w 6) 16 16, fld (e.w 7) 0 16,
   fld (e.w 7) 16 16]

/-- An operand slot (R152). -/
structure Slot4 where
  used : Bool
  transpose : Bool
  handle : Nat
  levels : List (Nat × Nat)
  deriving DecidableEq, Repr

/-- The slot at word i. -/
def Entry.slot (e : Entry) (i : Nat) : Slot4 :=
  let half := fun (w : Word) (k : Nat) => (fld w (16 * k + 13) 3, fld w (16 * k) 13)
  { used := bit (e.w i) 31, transpose := bit (e.w i) 30, handle := fld (e.w i) 0 10,
    levels := [half (e.w (i + 1)) 0, half (e.w (i + 1)) 1, half (e.w (i + 2)) 0, half (e.w (i + 2)) 1,
               half (e.w (i + 3)) 0, half (e.w (i + 3)) 1] }

/-! MATMUL fields (R153). -/
def Entry.kChunk (e : Entry) : Nat := fld (e.w 20) 8 12
def Entry.cLevels (e : Entry) : Nat := fld (e.w 20) 4 3
def Entry.drain (e : Entry) : Nat := fld (e.w 20) 2 2
def Entry.firstBank (e : Entry) : Nat := fld (e.w 20) 1 1
def Entry.accumulate (e : Entry) : Bool := bit (e.w 20) 0

/-! VECTOR fields. -/
def Entry.vecN (e : Entry) : Nat := fld (e.w 24) 0 7
def Entry.instrs (e : Entry) : List Word := (List.range e.vecN).map fun i => e.w (25 + i)

/-! ROW fields. -/
def Entry.rowCtx (e : Entry) : Nat := fld (e.w 20) 4 6
def Entry.rowOp (e : Entry) : Nat := fld (e.w 20) 0 4
def Entry.rowBase (e : Entry) : Nat := (e.w 21).toNat
def Entry.epsilon (e : Entry) : Word := e.w 22

/-! MOVE fields. -/
def Entry.recordId (e : Entry) : Nat := fld (e.w 16) 16 16
def Entry.moveCtx (e : Entry) : Nat := fld (e.w 16) 4 6
def Entry.moveOp (e : Entry) : Nat := fld (e.w 16) 0 3
def Entry.runLength (e : Entry) : Nat := (e.w 17).toNat
def Entry.remoteCore (e : Entry) : Nat := fld (e.w 18) 17 9
def Entry.remoteSignal (e : Entry) : Bool := bit (e.w 18) 16
def Entry.moveResv (e : Entry) : Nat := fld (e.w 18) 0 16
def Entry.remoteIncrement (e : Entry) : Nat := fld (e.w 19) 8 8
def Entry.remoteTally (e : Entry) : Nat := fld (e.w 19) 0 8

/-! SYNC fields. -/
def Entry.syncOp (e : Entry) : Nat := fld (e.w 5) 0 4
def Entry.syncOperand (e : Entry) : Nat := fld (e.w 6) 0 10

/-! COLLECTIVE fields. -/
def Entry.collResv (e : Entry) : Nat := fld (e.w 5) 16 16
def Entry.unit (e : Entry) : Nat := fld (e.w 5) 8 6
def Entry.quarantine (e : Entry) : Bool := bit (e.w 5) 7
def Entry.deadlineMode (e : Entry) : Bool := bit (e.w 5) 6
def Entry.axis (e : Entry) : Nat := fld (e.w 5) 4 2
def Entry.collOp (e : Entry) : Nat := fld (e.w 5) 0 4
def Entry.deadline (e : Entry) : Nat := fld (e.w 6) 0 16
def Entry.count (e : Entry) : Nat := (e.w 7).toNat
def Entry.trigEnable (e : Entry) : Bool := bit (e.w 16) 31
def Entry.trigTally (e : Entry) : Nat := fld (e.w 16) 0 8
def Entry.trigTarget (e : Entry) : Word := e.w 17
def Entry.bucket (e : Entry) : Nat := (e.w 18).toNat

/-- The operand slots of a kind, by their word. -/
def slotWords (kind : Nat) : List Nat :=
  match kind with
  | 1 => [8, 12, 16]
  | 2 => [8, 12, 16, 20]
  | 3 => [8, 12, 16]
  | 4 => [8, 12]
  | 6 => [8, 12]
  | _ => []

/-- Whether a slot takes part: larder operations leave one or both MOVE slots unused (R153). -/
def Entry.slotTaken (e : Entry) (i : Nat) : Bool :=
  (e.slot i).used &&
    !(e.kind == 4 && ((i == 8 && (e.moveOp == 2 || e.moveOp == 3))
      || (i == 12 && (e.moveOp == 1 || e.moveOp == 3))))

/-- The words of slots that name an operand. -/
def Entry.takenSlots (e : Entry) : List Nat := (slotWords e.kind).filter e.slotTaken

/-- The length a kind must have. -/
def Entry.kindLength (e : Entry) : Option Nat :=
  match e.kind with
  | 1 => some 21
  | 2 => some (25 + e.vecN)
  | 3 => some 23
  | 4 => some 20
  | 5 => some 8
  | 6 => some 19
  | _ => none

/-- The mode of a command in a partition (R54, R61, R63, R84). -/
def Entry.env (e : Entry) (l : Latched) : Env :=
  let sub := if e.subCode = 7 then l.subnormal else e.subCode
  { round := if e.roundCode = 7 then l.round else e.roundCode,
    comp := if e.compCode = 3 then l.comp == 1 else e.compCode == 1,
    sat := if e.fp8Code = 3 then l.fp8 == 1 else e.fp8Code == 1,
    ftz := sub == 1 || sub == 3, daz := sub == 2 || sub == 3, seed := l.seed }

/-! ### Descriptors of a command -/

/-- The descriptor a slot reads, from what the command keeps. -/
def Checked.desc (k : Checked) (i : Nat) : Option Desc :=
  if k.entry.slotTaken i then Sparse.find k.descs (k.entry.slot i).handle else none

/-- The handles a command names. -/
def Entry.handles (e : Entry) : List Nat :=
  e.takenSlots.map (fun i => (e.slot i).handle) ++
    (if e.kind = 5 ∧ e.syncOp = 4 then [e.syncOperand] else [])

/-- The descriptors read at the checks (R146). -/
def State.readDescs (s : State) (p : Nat) (e : Entry) : Sparse Desc :=
  e.handles.foldl (fun m h => match Sparse.find (s.part p).descs h with
    | some d => Sparse.put m h d
    | none => m) []

/-- Whether a transfer reads or writes whole pairs of the operand at slot i: drains of 2 and 3, LDP and LDS. -/
def Entry.pairBytes (e : Entry) (i : Nat) : Bool :=
  match e.kind with
  | 1 => i == 16 && decide (2 ≤ e.drain)
  | 2 => e.instrs.any fun w => (fld w 26 6 == 3 || fld w 26 6 == 4) && fld w 15 2 == (i - 8) / 4
  | _ => false

/-- Element bytes of the operand at slot i in R94's arithmetic. -/
def Checked.opBytes (k : Checked) (i : Nat) (d : Desc) : Nat :=
  if k.entry.pairBytes i || (k.entry.kind == 6 && d.isPair) then 8 else d.elemBytes

/-- The extents of the operand at slot i, elements and scales. -/
def Checked.opExtents (k : Checked) (i : Nat) : List (Nat × Nat) :=
  match k.desc i with
  | some d => d.allExtents (k.opBytes i d)
  | none => []

/-- Whether two operands meet. -/
def Checked.slotsMeet (k : Checked) (i j : Nat) : Bool :=
  (k.opExtents i).any fun x => (k.opExtents j).any fun y => meet x y

/-! ### Legal places (R153) -/

/-- The cellar of core c's shelf. -/
def inShelfCellar (c : Nat) (d : Desc) : Bool :=
  d.loc == 1 && cellarCore d.base.toNat / 8 == c / 8

/-- The core-private window of core c. -/
def inPrivate (c : Nat) (d : Desc) : Bool := d.loc == 2 && privCore d.base.toNat == c

/-- The gradient buffer of a core's window. -/
def inGradient (d : Desc) : Bool := d.loc == 2 && decide (addrOffset d.base.toNat % 2 ^ 23 < 0x600000)

/-- The MX alignment of level entries that name dimension 0 (R186). -/
def stepsAligned (sl : Slot4) : Bool := sl.levels.all fun l => l.1 != 0 || l.2 % 32 == 0

/-- The operand pairs of R48. -/
def pairLegal (a b : Nat) : Bool :=
  let fp8 := fun n => n == 3 || n == 4
  let mx8 := fun n => n == 7 || n == 8 || n == 12
  let mx4 := fun n => n == 9 || n == 10 || n == 11
  (a == 1 && b == 1) || (a == 2 && b == 2) || (fp8 a && fp8 b) || (a == 5 && b == 5)
    || (mx8 a && mx8 b) || (mx4 a && mx4 b)

/-- Check 6 for MATMUL (R48, R153, R183, R186 to R188). D's own scale array counts as part of its extent in R187
(DESIGN CHOICE, log entry 138). -/
def matmulOk (c : Nat) (k : Checked) : Bool :=
  let e := k.entry
  match k.desc 8, k.desc 12 with
  | some a, some b =>
    let mx := isMx a.fmt
    inShelfCellar c a && inShelfCellar c b && pairLegal a.fmt b.fmt
      && decide (1 ≤ e.cLevels) && decide (e.cLevels ≤ 6) && !((e.slot 16).used && (e.slot 16).transpose)
      && (!mx || (!(e.slot 8).transpose && (e.slot 12).transpose && e.kChunk % 32 == 0
            && stepsAligned (e.slot 8) && stepsAligned (e.slot 12)))
      && match k.desc 16 with
        | none => e.drain == 0 && (e.trips.drop e.cLevels).all (· == 1)
        | some d =>
          e.drain != 0 && (inShelfCellar c d || (inPrivate c d && inGradient d && e.drain != 1))
            && (decide (e.drain < 2) || (d.fmt == 0 && decide (8 ≤ (d.stride 0).natAbs)))
            && (a.fmt != 5 || decide (e.drain < 2))
            && (!isMx d.fmt || stepsAligned (e.slot 16))
            && !k.slotsMeet 16 8 && !k.slotsMeet 16 12
  | _, _ => false

/-! Vector instruction fields (R207). -/
def vOp (w : Word) : Nat := fld w 26 6
def vWide (w : Word) : Bool := bit w 25
def vD (w : Word) : Nat := fld w 20 5
def vA (w : Word) : Nat := fld w 15 5
def vSlot (w : Word) : Nat := fld w 15 2
def vB (w : Word) : Nat := fld w 10 5
def vC (w : Word) : Nat := fld w 5 5
def vMask (w : Word) : Nat := fld w 2 3

/-- Whether a code is in the table of R208. -/
def vOpKnown (n : Nat) : Bool :=
  decide (n ≤ 6) || (decide (8 ≤ n) && decide (n ≤ 14)) || (decide (16 ≤ n) && decide (n ≤ 18))
    || (decide (20 ≤ n) && decide (n ≤ 22)) || n == 24 || n == 25

/-- Whether an instruction reads a slot, and whether it writes one. -/
def vReads (w : Word) : Bool := decide (1 ≤ vOp w) && decide (vOp w ≤ 4) || vOp w == 25
def vWrites (w : Word) : Bool := vOp w == 5 || vOp w == 6

/-- Formats a wide LD or LDB takes (R210). -/
def wideFmt (f : Nat) : Bool := f == 1 || f == 3 || f == 4 || f == 5 || isMx f

/-- One instruction against R208, R210, R213, R215, R223. -/
def vInstrOk (k : Checked) (w : Word) : Bool :=
  let e := k.entry
  let slotOk := match k.desc (8 + 4 * vSlot w) with
    | none => false
    | some d =>
      match vOp w with
      | 1 => !vWide w || wideFmt d.fmt
      | 2 => !vWide w || wideFmt d.fmt
      | 3 => !vWide w && vD w % 2 == 0 && d.fmt == 0 && d.stride 0 == 8
      | 4 => !vWide w && d.fmt == 0 && d.stride 0 == 8
      | 6 => !vWide w && vB w % 2 == 0
      | 25 => e.vecN == 1 && e.trips.all (· == 1) && d.rank == 1 && d.fmt == 0 && d.dim 0 == 2056
      | _ => true
  vOpKnown (vOp w) && (!(vReads w || vWrites w) || slotOk) && (vOp w != 24 || decide (vB w ≤ 5))

/-- Check 6 for VECTOR (R205, R208 to R216). -/
def vectorOk (c : Nat) (k : Checked) : Bool :=
  let e := k.entry
  let is := e.instrs
  decide (e.vecN ≤ 71)
    && [8, 12, 16, 20].all (fun i => !(e.slot i).used || (!(e.slot i).transpose
        && match k.desc i with | some d => inShelfCellar c d || inPrivate c d | none => false))
    && (is.all (fun w => vWide w) || is.all (fun w => !vWide w))
    && (e.vecN == 0 || (e.slot 8).used)
    && is.all (vInstrOk k)
    && is.all (fun w => !vWrites w || is.all (fun r => !vReads r ||
        (let i := 8 + 4 * vSlot w
         let j := 8 + 4 * vSlot r
         !k.slotsMeet i j || ((e.slot i).handle == (e.slot j).handle
           && decide ((e.slot i).levels = (e.slot j).levels)))))

/-- Whether an F32 word is finite and not negative (-0 is not negative). -/
def epsOk (w : Word) : Bool :=
  match f32 w with
  | .fin n m _ => !n || m == 0
  | _ => false

/-- Check 6 for ROW (R226, R228, R231, R235, R248). A P that is used has to lie where X and Y may, in every operation
(R153 and R235 give it no place: DESIGN CHOICE, log entry 139). -/
def rowOk (c : Nat) (k : Checked) : Bool :=
  let e := k.entry
  let op := e.rowOp
  let back := decide (8 ≤ op)
  let place := fun (i : Nat) (d : Desc) => !(e.slot i).transpose && (inShelfCellar c d || inPrivate c d)
  let xy := fun (f : Nat) => decide (f ≤ 4)
  let iters := e.trips.foldl (· * ·) 1
  (op ≤ 2 || (8 ≤ op && op ≤ 10))
    && match k.desc 8, k.desc 12 with
      | some x, some y =>
        place 8 x && place 12 y && xy x.fmt && xy y.fmt && y.dim 0 == x.dim 0
          && decide (x.dim 0 ≤ 16384) && decide (e.rowCtx ≤ 47)
          && decide (e.rowBase + iters ≤ 32768)
          && (!k.slotsMeet 8 12 || ((e.slot 8).handle == (e.slot 12).handle
                && decide ((e.slot 8).levels = (e.slot 12).levels)))
          && (back || op == 2 || epsOk e.epsilon)
          && (match k.desc 16 with
              | none => true
              | some q => place 16 q && (q.fmt == 0 || q.fmt == 1)
                  && q.dim 0 == x.dim 0 && (op == 2 || op == 10 || q.rank == 2))
          && (!back || (decide (3 ≤ x.rank) && x.dim 1 == 2
                && (decide (y.rank < 3) || y.dim 1 == 1 || y.dim 1 == 2)
                && !(op == 10 && decide (3 ≤ y.rank) && y.dim 1 == 2)
                && ((e.slot 8).levels.all fun l => l.1 == 7 || decide (2 ≤ l.1) || l.2 == 0)))
      | _, _ => false

/-- The injection entry of a reservation for core c in the loaded pattern (R385, R426). -/
def State.injection (s : State) (p c resv : Nat) : Option Resv :=
  match (s.part p).pattern with
  | none => none
  | some pat => pat.resvs.find? fun r => r.number == resv && r.input == 6
      && decide (r.core + 8 * (s.part p).layout.live.first.toNat = c)

/-- Check 6 for MOVE (R153, R385, R409, R626, R627). A larder operation may name an injection entry of its core
as any MOVE may; the spec gives it no effect there, and the pattern carries no byte of it (DESIGN CHOICE, log
entry 108). A reservation with a source in the host window is refused as one with a source on another module is (R627
names the second alone: DESIGN CHOICE, log entry 128). -/
def State.moveOk (s : State) (p c : Nat) (k : Checked) : Bool :=
  let e := k.entry
  let src := k.desc 8
  let dst := k.desc 12
  decide (e.moveOp ≤ 3) && (e.moveResv == 0 || (s.injection p c e.moveResv).isSome)
    && (e.moveOp == 0 || decide (e.moveCtx ≤ 47))
    && !((e.slot 8).transpose && e.slotTaken 8) && !((e.slot 12).transpose && e.slotTaken 12)
    && match e.moveOp with
      | 0 => match src, dst with
        | some a, some b =>
          !(a.loc == 8 && b.loc == 8) && !(a.versioned && a.loc == 8)
            && (e.moveResv == 0 || (a.loc != 8 && a.loc != 4))
        | _, _ => false
      | 1 => src.any fun a => e.moveResv == 0 || (a.loc != 8 && a.loc != 4)
      | 2 => dst.isSome
      | _ => true

/-- Check 6 for SYNC (R153, R154). -/
def syncOk (k : Checked) : Bool :=
  let e := k.entry
  match e.syncOp with
  | 0 => true
  | 1 => true
  | 2 => e.sigEnable
  | 3 => true
  | 4 => match Sparse.find k.descs e.syncOperand with | some d => d.versioned | none => false
  | _ => false

/-- The bit of unit_mask_p for a unit of a + group (R465). -/
def unitBit (u : Nat) : Nat := if u < 16 then u else if u < 48 then 16 + (u - 32) else 24 + (u - 48)

/-- Whether a unit is of the + group of an axis (R312). -/
def unitLegal (axis u : Nat) : Bool :=
  match axis with
  | 0 => decide (u < 16)
  | 1 => decide (32 ≤ u) && decide (u < 40)
  | 2 => decide (48 ≤ u) && decide (u < 52)
  | _ => false

/-- Check 6 for COLLECTIVE (R153, R312, R316, R317, R319, R385). -/
def State.collOk (s : State) (p c : Nat) (k : Checked) : Bool :=
  let e := k.entry
  let op := e.collOp
  let place := fun (d : Desc) => d.loc == 0 || d.loc == 1 || (d.loc == 2 && inGradient d)
  let fpFmt := fun (d : Desc) => d.isPair || decide (d.fmt ≤ 2)
  decide (op ≤ 11) && e.collResv != 0 && unitLegal e.axis e.unit && decide (e.axis ≤ 2)
    && (op < 8 || (!e.deadlineMode && !e.quarantine))
    && (op != 9 && op != 10 || decide (e.count ≤ 56)) && (op != 11 || e.count == 8)
    && (s.injection p c e.collResv).isSome
    && e.takenSlots.all (fun i => !(e.slot i).transpose)
    && match k.desc 12 with
      | none => false
      | some d =>
        place d && decide (e.count ≤ d.count)
          && (match k.desc 8 with
            | none => op == 11
            | some a =>
              place a && decide (e.count ≤ a.count)
                && (!k.slotsMeet 8 12 || (e.slot 8).handle == (e.slot 12).handle)
                && (if op < 8 then fpFmt a
                    else if op = 8 then fpFmt a && a.fmt == d.fmt && a.isPair == d.isPair
                    else a.fmt == 0 && a.stride 0 == 4))
          && (if op < 8 then fpFmt d && (!d.isPair || !(e.collOp / 2 % 2 == 1))
              else if op = 8 then fpFmt d
              else d.fmt == 0 && d.stride 0 == 4)

/-- Check 6 of R156 for any kind. -/
def State.formOk (s : State) (p c : Nat) (k : Checked) : Bool :=
  let e := k.entry
  e.compCode != 2 && e.fp8Code != 2 && (decide (e.subCode < 4) || e.subCode == 7)
    && e.roundCode != 5 && e.roundCode != 6
    && (e.kind == 6 || e.takenSlots.all fun i => (e.slot i).levels.all fun l => l.1 != 6)
    && match e.kind with
      | 1 => matmulOk c k
      | 2 => vectorOk c k
      | 3 => rowOk c k
      | 4 => s.moveOk p c k
      | 5 => syncOk k
      | _ => s.collOk p c k

/-- Whether a core is served: in the grade and on no shelf out of service (R2, R488). -/
def State.coreServed (s : State) (c : Nat) : Bool :=
  decide (c < s.coreCount) && !(s.links.shelvesOut.toNat.testBit (c / 8))

/-- The cores a command names: the signal core, a local remote_core, the cores its operands lie in. -/
def State.namedCores (s : State) (p : Nat) (k : Checked) : List Nat :=
  let e := k.entry
  (if e.sigEnable then [e.sigCore (s.part p).layout.live.first.toNat] else [])
    ++ (if e.kind = 4 ∧ e.remoteSignal then
          match k.desc 12 with
          | some d => if d.loc = 8 then [] else [e.remoteCore]
          | none => [e.remoteCore]
        else [])
    ++ e.takenSlots.filterMap fun i => match k.desc i with
        | some d => if d.loc = 1 then some (cellarCore d.base.toNat)
                    else if d.loc = 2 then some (privCore d.base.toNat) else none
        | none => none

/-- The extent of a box along an axis (R465). -/
def boxExtent (size : Half) (axis : Nat) : Nat :=
  match axis with
  | 0 => fld size 0 4 + 1
  | 1 => fld size 4 4 + 1
  | _ => fld size 8 5 + 1

/-- A coordinate of a module id (R260). -/
def coordOf (id axis : Nat) : Nat :=
  match axis with
  | 0 => id % 16
  | 1 => id / 16 % 16
  | _ => id / 256 % 32

/-- The size of an axis in a route group. -/
def RouteGroup.size (g : RouteGroup) (axis : Nat) : Nat :=
  match axis with
  | 0 => g.sizeX.toNat
  | 1 => g.sizeY.toNat
  | _ => g.sizeZ.toNat

/-- Whether a module lies in a box, on the live sizes (R445). -/
def State.inBox (s : State) (lo size : Half) (id : Nat) : Bool :=
  (List.range 3).all fun a =>
    let n := s.fabric.route.live.size a
    decide (coordOf id a < n) && decide ((coordOf id a + n - coordOf (fld lo 0 13) a % n) % n < boxExtent size a)

/-- A peer box (R465): partition, low corner, size, where its entry is valid. -/
def Place.peer (q : Place) (i : Nat) : Option (Nat × Half × Half) :=
  let b := takeAt q.peers (8 * i) 8
  if leAt b 0 1 = 1 then some (leAt b 1 1, BitVec.ofNat 16 (leAt b 2 2), BitVec.ofNat 16 (leAt b 4 2))
  else none

/-- The partition that packets of partition p for a module carry: p in its box, a peer box's partition in
that box, none elsewhere (R447). -/
def State.destPart (s : State) (p id : Nat) : Option Nat :=
  let q := (s.part p).place.live
  if q.tag = 0 then none
  else if s.inBox q.lo q.size id then some p
  else ((List.range 4).filterMap q.peer).findSome? fun b =>
    if s.inBox b.2.1 b.2.2 id then some b.1 else none

/-- The skein of a partition to a module (R283). -/
def State.skeinTo (s : State) (p d : Nat) : Option Skein :=
  s.fabric.skeins.find? fun k => k.part == p && k.dest == d

/-- The modules a MOVE names. -/
def remoteModules (k : Checked) : List Nat :=
  if k.entry.kind = 4 then
    [8, 12].filterMap fun i => match k.desc i with
      | some d => if d.loc = 8 then some (addrModule d.base.toNat) else none
      | none => none
  else []

/-- The module that a MOVE's remote signal goes to, where its destination is another one (R157). -/
def Checked.signalModule (k : Checked) : Option Nat :=
  match k.desc 12 with
  | some d => if k.entry.kind = 4 ∧ k.entry.remoteSignal ∧ d.loc = 8 then some (addrModule d.base.toNat) else none
  | none => none

/-- Whether the skein to that module is open and records fewer cores than remote_core names (R157, R284). -/
def State.remoteCoreAbsent (s : State) (p : Nat) (k : Checked) : Bool :=
  match k.signalModule.bind (s.skeinTo p) with
  | some sk => sk.isOpen && decide (sk.cores ≤ k.entry.remoteCore)
  | none => false

/-- The elements a COPY moves: iteration, source position, destination position; those outside the
destination are left out (R148). -/
def copyElems (k : Checked) (dd : Desc) : List (Nat × Pos × Pos) :=
  (indexVectors k.entry.trips).zipIdx.flatMap fun iv =>
    (List.range k.entry.runLength).filterMap fun j =>
      let dp := shiftPos (originOf (k.entry.slot 12).levels iv.1) 0 j
      if dd.inBounds dp then some (iv.2, shiftPos (originOf (k.entry.slot 8).levels iv.1) 0 j, dp) else none

/-- What a COPY reads of an MX destination: the blocks that it writes in part (R628). -/
def Checked.destReads (k : Checked) : List (Nat × Nat) :=
  match k.desc 12 with
  | some d => if isMx d.fmt then d.blockReads ((copyElems k d).map fun e => e.2.2) else []
  | none => []

/-- Whether a MOVE sends request-class traffic (R385, R447): every one but a scheduled COPY without a remote signal,
whose bytes the pattern carries and which reads nothing of a destination on another module. -/
def Checked.requestClass (k : Checked) : Bool :=
  k.entry.kind == 4 && (k.entry.moveOp != 0 || k.entry.moveResv == 0 || k.entry.remoteSignal
    || ((k.desc 12).any (·.loc == 8) && k.destReads != []))

/-- Check 3 of R156: ENGINE_ABSENT (R157, R488, R489). -/
def State.absent (s : State) (p : Nat) (k : Checked) : Bool :=
  let e := k.entry
  s.remoteCoreAbsent p k || (s.namedCores p k).any (fun c => !s.coreServed c)
    || (e.kind == 6 && (decide (56 ≤ e.unit)
        || (unitLegal e.axis e.unit && s.links.pairsOut.toNat.testBit (unitBit e.unit))))

/-- Check 4 of R156: PRIVILEGE (R95, R161, R198, R440, R447). A context number above 47 names no context: check 6
refuses it (R235). -/
def State.forbidden (s : State) (p : Nat) (k : Checked) : Bool :=
  let e := k.entry
  let l := (s.part p).layout.live
  let mine := fun c => s.partOf c == some p
  let local' := fun i => match k.desc i with | some d => d.loc != 8 | none => false
  (e.sigEnable && !mine (e.sigCore l.first.toNat))
    || (e.kind == 4 && e.remoteSignal
        && (match k.desc 12 with | some d => d.loc != 8 | none => true) && !mine e.remoteCore)
    || (e.takenSlots.any fun i => local' i &&
        (k.opExtents i).any fun x => s.rangeStatus p (addrLocal x.1) x.2 == stPRIVILEGE)
    || (l.excl == 0 && (e.takenSlots.any fun i => (k.opExtents i).any touchesPlane)
        && !(e.kind == 4 && e.moveOp == 0 && !e.fromStream && (k.opExtents 8).any touchesPlane))
    || (e.kind == 3 && decide (e.rowCtx ≤ 47) && !l.ctxMask.toNat.testBit e.rowCtx)
    || (e.kind == 4 && e.moveOp != 0 && decide (e.moveCtx ≤ 47) && !l.ctxMask.toNat.testBit e.moveCtx)
    || (e.kind == 6 && unitLegal e.axis e.unit && !l.unitMask.toNat.testBit (unitBit e.unit))
    || (k.requestClass && (remoteModules k).any fun m => (s.destPart p m).isNone)

/-- Check 5 of R156: zero fields that are refused (R176). -/
def zeroField (e : Entry) : Bool :=
  (e.sigEnable && e.sigIncrement == 0)
    || (e.kind == 4 && e.remoteSignal && e.remoteIncrement == 0)
    || (e.kind == 6 && e.deadlineMode && e.deadline == 0)

/-- Whether every module a MOVE names lies in the route group's sizes (R281). -/
def State.routable (s : State) (k : Checked) : Bool :=
  (remoteModules k).all fun m =>
    (List.range 3).all fun a => decide (coordOf m a < s.fabric.route.live.size a)

/-- Check 2 of R156: the form of the block. -/
def Entry.formBad (e : Entry) : Bool :=
  e.badMagic || decide (e.kindLength ≠ some e.length) || e.startWords != e.length

/-- The module whose skein the checks of a command wait for (R157, R284): its remote_core check needs the
core_count that the open skein records, and checks 1, 2 and the rest of check 3 pass. A module that no packet
may be sent to is left to checks 4 and 6. -/
def State.checkWaits (s : State) (p : Nat) (k : Checked) : Option Nat :=
  match k.signalModule with
  | none => none
  | some d =>
    if k.entry.startWords ≠ 0 ∧ !k.entry.formBad ∧ !s.absent p k ∧ (s.destPart p d).isSome ∧ s.routable k
        ∧ !((s.skeinTo p d).any (·.isOpen)) then some d
    else none

/-- The checks at issue, in the order of R156. Within check 6 a handle that no commit has written is reported
before any other of its failures: R169 says that it is judged with check 6 and not where in it (DESIGN CHOICE,
log entry 110). -/
def State.issueStatus (s : State) (p c : Nat) (k : Checked) : Half :=
  let e := k.entry
  if e.startWords = 0 then stZERO
  else if e.formBad then stCONFIG
  else if s.absent p k then stENGINE_ABSENT
  else if s.forbidden p k then stPRIVILEGE
  else if zeroField e then stZERO
  else if !(e.handles.all fun h => (Sparse.find k.descs h).isSome) then stHANDLE_INVALID
  else if (e.takenSlots.any fun i => match k.desc i with
      | some d => d.loc != 8 && (k.opExtents i).any fun x => s.rangeStatus p (addrLocal x.1) x.2 != stDONE
      | none => false) then stCONFIG
  else if !s.routable k then stCONFIG
  else if !s.formOk p c k then stCONFIG
  else stDONE

/-- Whether a zero makes the command a no-op (R176, R236, R626). -/
def Checked.noop (k : Checked) : Bool :=
  let e := k.entry
  let trip := e.trips.any (· == 0)
  match e.kind with
  | 1 => trip || e.kChunk == 0
  | 2 => trip || e.vecN == 0
  | 3 => trip || (match k.desc 8 with | some x => x.dim 0 == 0 | none => false)
  | 4 => trip || (e.moveOp == 0 && e.runLength == 0)
  | _ => false

end Sys2Proof.Machine
end

