-- ==== Sys2Proof/Machine/Skein.lean ====
section
/-! DEFINITION. Machine/Skein.lean: what this module sends: skeins, transfers and their packets (R283 to
R288, R292, R441). A packet of this module waits in fabric.transit, with no port, until it is routed. -/

namespace Sys2Proof.Machine

/-- The condition of R441: n more items of a pool of total for partition p. -/
def poolOk (total : Nat) (held least : Nat → Nat) (p n : Nat) : Bool :=
  let ps := List.range 16
  let used := (ps.map held).sum
  decide (used + n ≤ total) &&
    (decide (held p + n ≤ least p) ||
      decide (((ps.filter (· ≠ p)).map fun q => least q - held q).sum ≤ total - used - n))

/-- Skeins that partition q holds. -/
def State.skeinsHeld (s : State) (q : Nat) : Nat := (s.fabric.skeins.filter (·.part == q)).length

/-- Receive contexts that partition q holds: granted ones and those of its own READs (R285, R288). -/
def State.contextsHeld (s : State) (q : Nat) : Nat :=
  ((s.fabric.grants.filter (·.part == q)).map (·.count)).sum
    + (s.fabric.contexts.filter fun x => x.isReply && x.part == q).length

/-- Contexts granted nowhere (contexts_free). -/
def State.contextsFree (s : State) : Nat := 16384 - ((List.range 16).map s.contextsHeld).sum

/-- A packet of this module handed to the fabric. -/
def State.inject (s : State) (p : Pkt) : State :=
  { s with fabric := { s.fabric with transit := s.fabric.transit ++ [(none, p)] } }

/-- A packet that route_hold keeps back: GRANT and CLOSE are none of those it lets through (R299). -/
def State.injectHeld (s : State) (p : Pkt) : State :=
  if s.fabric.hold then { s with fabric := { s.fabric with held := s.fabric.held ++ [p] } } else s.inject p

/-- The skein of a number. -/
def State.skein (s : State) (n : Nat) : Option Skein := s.fabric.skeins.find? fun k => k.num == n

/-- A skein updated. -/
def State.updSkein (s : State) (n : Nat) (f : Skein → Skein) : State :=
  { s with fabric := { s.fabric with skeins := s.fabric.skeins.map fun k => if k.num = n then f k else k } }

/-- The partition that a skein's packets name (R447). -/
def State.namedPart (s : State) (p d : Nat) : Nat := (s.destPart p d).getD p

/-- The OPEN packet of a skein. -/
def State.openPacket (s : State) (num p d : Nat) : Pkt :=
  { buildPacket 1 3 (s.namedPart p d) num d s.myId 0 0 1 0 0 false [] with owner := some p }

/-- A skein number no skein has and that has not been retired in the last 2 × transfer_timeout stitches
(R295). -/
def State.freeSkein (s : State) : Option Nat :=
  (List.range 4096).find? fun n => !(s.fabric.skeins.any fun k => k.num == n)
    && !(s.fabric.retired.any fun r => r.1 == n && decide (s.power.ticks < r.2))

/-- A skein opened: OPEN sent (R283), if the pool and route_hold allow it (R287, R299, R441). -/
def State.openSkein (s : State) (p d : Nat) : State :=
  if s.fabric.hold ∨ !poolOk 4096 s.skeinsHeld (fun q => (s.part q).guar.live.skein.toNat) p 1 then s
  else match s.freeSkein with
    | none => s
    | some n =>
      let k : Skein := { num := n, part := p, dest := d, isOpen := false, granted := 0, cores := 0,
                         nextTno := 0, openSentAt := s.power.ticks, retry := false,
                         idleSince := s.power.ticks, live := [] }
      let s := { s with fabric := { s.fabric with skeins := s.fabric.skeins ++ [k] } }
      s.inject (s.openPacket n p d)

/-- A skein taken away (R287, R295). -/
def State.dropSkein (s : State) (n : Nat) : State :=
  { s with fabric := { s.fabric with
      skeins := s.fabric.skeins.filter fun k => k.num != n,
      contexts := s.fabric.contexts.filter fun x => !(x.isReply && x.skein == n) } }

/-- A skein closed with CLOSE (R287). Under route_hold it is closed here at once, and its CLOSE leaves after
the hold (R299; DEDUCED, log entry 27). -/
def State.closeSkein (s : State) (k : Skein) : State :=
  (s.dropSkein k.num).injectHeld
    { buildPacket 1 4 (s.namedPart k.part k.dest) k.num k.dest s.myId 0 0 1 0 0 false [] with owner := some k.part }

/-- The pieces of a run: at most 256 bytes each (R269). -/
def Run.pieces (r : Run) : List (Nat × List Byte) :=
  (List.range (ceilDiv r.data.length 256)).map fun i =>
    (r.addr + 256 * i, (r.data.drop (256 * i)).take 256)

/-- The packets of a transfer (R286, R288, R289): data first, the TALLY last; a READ asks for one run, with
its length in transfer_bytes (DEDUCED) and its landing address as payload. -/
def Xfer.packets (x : Xfer) (part skein src tno : Nat) : List Pkt :=
  if x.isRead then
    x.runs.map fun r => buildPacket 1 1 part skein x.dest src r.len r.addr 1 tno 0 true (leBytes 8 r.land)
  else
    let data := x.runs.flatMap Run.pieces
    let total := (data.map (·.2.length)).sum + (if x.tally.isSome then 8 else 0)
    let count := data.length + (if x.tally.isSome then 1 else 0)
    let ds := data.zipIdx.map fun d =>
      buildPacket 1 0 part skein x.dest src total d.1.1 count tno 0
        (x.tally.isNone && d.2 + 1 == data.length) d.1.2
    match x.tally with
    | some w => ds ++ [buildPacket 1 2 part skein x.dest src total 0 count tno 0 true
                        (leBytes 4 w.toNat ++ leBytes 4 0)]
    | none => ds

/-- Whether a core has a transfer outstanding or waiting before this one (R286: a TALLY goes last). -/
def State.earlierOf (s : State) (core : Option Nat) (before : List WaitX) : Bool :=
  core.isSome && ((s.fabric.skeins.any fun k => k.live.any fun l => l.core == core)
    || before.any fun w => w.core == core)

/-- One waiting transfer sent, where its skein is open, a context is free and R286 lets it go. -/
def State.trySend (s : State) (before : List WaitX) (w : WaitX) : Option State :=
  match s.skeinTo w.part w.xfer.dest with
  | none => none
  | some k =>
    if !k.isOpen ∨ k.granted ≤ k.live.length ∨ (w.xfer.tally.isSome && s.earlierOf w.core before)
        ∨ (w.xfer.isRead && !poolOk 16384 s.contextsHeld
              (fun q => (s.part q).guar.live.rxctx.toNat) w.part 1) then none
    else
      let ps := (w.xfer.packets (s.namedPart k.part k.dest) k.num s.myId k.nextTno.toNat).map fun p =>
        { p with owner := some w.part }
      let l : LiveX := { tno := k.nextTno, core := w.core, left := ps.length, sentAt := s.power.ticks, xfer := w.xfer }
      let s' := s.updSkein k.num fun k => { k with nextTno := k.nextTno + 1, live := k.live ++ [l] }
      let s' := if w.xfer.isRead then
          { s' with fabric := { s'.fabric with contexts := s'.fabric.contexts ++
              [{ src := k.dest, skein := k.num, tno := k.nextTno.toNat, part := w.part, packets := 0,
                 bytes := 0, totPackets := 0, totBytes := 0, heldTally := none, fail := 0,
                 seenAt := s.power.ticks, isReply := true }] } }
        else s'
      some (ps.foldl (fun s p => s.inject p) s')

/-- A skein opened for every waiting transfer that has none (R283). -/
def State.openWaiting (s : State) : State :=
  s.fabric.waiting.foldl (fun s w =>
    if (s.skeinTo w.part w.xfer.dest).isSome then s else s.openSkein w.part w.xfer.dest) s

/-- Everything that may be sent is sent, in the order in which it waits (R285, R299). -/
def State.pump (s : State) : State :=
  if s.fabric.hold then s
  else
    let s := s.openWaiting
    let r := s.fabric.waiting.foldl (fun (a : State × List WaitX) w =>
      match a.1.trySend a.2 w with
      | some s' => (s', a.2)
      | none => (a.1, a.2 ++ [w])) (s, [])
    { r.1 with fabric := { r.1.fabric with waiting := r.2 } }

/-- Transfers handed over for a partition, by a core or by the hub. -/
def State.enqueueX (s : State) (p : Nat) (core : Option Nat) (xs : List Xfer) : State :=
  if xs.isEmpty then s
  else { s with fabric := { s.fabric with
      waiting := s.fabric.waiting ++ xs.map fun x => ({ part := p, core := core, xfer := x } : WaitX) } }.pump

/-- The first word of a TALLY packet (R271). -/
def tallyWord (core tally inc : Nat) : Word := BitVec.ofNat 32 (core ||| tally <<< 16 ||| inc <<< 24)

end Sys2Proof.Machine
end

