-- ==== Sys2Proof/Machine/Tally.lean ====
section
/-! DEFINITION. Machine/Tally.lean: a tally's change and what it brings about (R36, R159 to R163, R373,
R521). -/

namespace Sys2Proof.Machine

/-- The TALLY transfers that carry an increase, 255 at most in each (R373). -/
def tallyXfers (dest core tally inc : Nat) : List Xfer :=
  (List.range (ceilDiv inc 255)).map fun i =>
    { dest := dest, isRead := false, runs := [],
      tally := some (tallyWord core tally (min 255 (inc - 255 * i))) }

/-- The consumer entries of core c's running pattern whose release tally is t (R372). -/
def State.consumers (s : State) (p c t : Nat) : List StageQ :=
  match (s.part p).pattern with
  | some pat => if (s.part p).active then
      pat.queues.filter fun q => q.consumer && q.localTally == t
        && q.localCore + 8 * (s.part p).layout.live.first.toNat == c
    else []
  | none => []

/-- A tally set to a value: host queues release on it, stage queues report its rise to their producer. -/
def State.setTally (s : State) (c t : Nat) (v : Word) : State :=
  let inc := (v - s.tallyOf c t).toNat
  let s := (s.putTally c t v).releaseQueues c t
  match s.partOf c with
  | none => s
  | some p =>
    if inc = 0 ∨ 2 ^ 31 ≤ inc then s
    else (s.consumers p c t).foldl (fun s q =>
      if (s.destPart p q.peerId).isSome then
        s.enqueueX p none (tallyXfers q.peerId q.peerCore q.peerTally inc)
      else s) s

/-- A tally incremented, modulo 2^32 (R36, R159). -/
def State.addTally (s : State) (c t : Nat) (v : Word) : State := s.setTally c t (s.tallyOf c t + v)

end Sys2Proof.Machine
end

