-- ==== Sys2Proof/Machine/Stop.lean ====
section
/-! DEFINITION. Machine/Stop.lean: completing a command, stopping a partition, faults (R135, R136, R166 to
R168, R429, R481 to R485). -/

namespace Sys2Proof.Machine

/-! ### Completion (R135, R166 to R168) -/

/-- Whether a status stops the issuing queue (R136, R343, R344). -/
def stopsQueue (st : Half) : Bool := st != stDONE && st != stNONFINITE && st != stDEADLINE

/-- A completion record (R166). -/
def recordOf (c kind tag stitch : Nat) (st flags : Half) : List Byte :=
  leBytes 4 (st.toNat <<< 16 ||| tag) ++ leBytes 4 flags.toNat ++ leBytes 4 (kind <<< 28 ||| c)
    ++ leBytes 4 stitch

/-- Free slots of a core's completion ring (R167, R168): none while the ring is disabled. -/
def Core.ringFree (k : Core) : Nat :=
  let n := fld k.cpl.live.entries 0 5
  if n = 0 then 0 else 2 ^ n - (k.producer - k.consumer).toNat

/-- A record written, or counted in CPL_LOST (R167, R168, R173). -/
def State.writeRecord (s : State) (c kind tag : Nat) (st flags : Half) : State :=
  let k := s.core c
  if k.ringFree < (if stopsQueue st then 1 else 2) then
    s.updCore c fun k => { k with lost := k.lost + 1 }
  else
    let n := fld k.cpl.live.entries 0 5
    let a := addrLocal k.cpl.live.base.toNat + 16 * (k.producer.toNat % 2 ^ n)
    let s := (s.storeRun a (recordOf c kind tag s.stitch32 st flags)).updCore c fun k =>
      { k with producer := k.producer + 1 }
    match s.partOf c with
    | some p => s.raiseCause p 0
    | none => s

/-- The queue of core c stops with a status (R136, R170); where it was running, cause 1 is raised (R513). -/
def State.stopQueue (s : State) (c tag : Nat) (st : Half) : State :=
  let was := (s.core c).qstate
  let s := s.updCore c fun k => { k with
    qstate := if k.qstate = .partStopped then .partStopped else .stopped,
    stopInfo := BitVec.ofNat 32 (st.toNat <<< 16 ||| tag) }
  match s.partOf c with
  | some p => if was = .running then s.raiseCause p 1 else s
  | none => s

/-- A COLLECTIVE that completes is counted, whatever its status (R312, R353). -/
def State.collDone (s : State) (kind : Nat) : State :=
  if kind = 6 then { s with coll := { s.coll with done := s.coll.done + 1 } } else s

/-- A command completes: its header signal when it has one to apply, then its record, then the queue stops
where the status stops it (R135 to R137). -/
def State.complete (s : State) (p c : Nat) (e : Entry) (st flags : Half) (signal : Bool) : State :=
  let s := if signal && e.sigEnable then
      s.addTally (e.sigCore (s.part p).layout.live.first.toNat) e.sigTally (BitVec.ofNat 32 e.sigIncrement)
    else s
  let s := s.collDone e.kind
  let s := if st ≠ stDONE ∨ e.record then s.writeRecord c e.kind e.tag st flags else s
  if stopsQueue st then s.stopQueue c e.tag st else s

/-! ### Regions of the larder (R115) -/

/-- The contexts of a partition, rising. -/
def Part.contexts (q : Part) : List Nat := (List.range 48).filter fun n => q.layout.live.ctxMask.toNat.testBit n

/-- The quota of a context for a class in a pattern; 0 where it gives none. -/
def Pattern.quota (pat : Pattern) (n cls : Nat) : Nat :=
  match pat.quotas.find? fun q => q.ctx == n && q.cls == cls with
  | some q => q.quota
  | none => 0

/-- The larder area of a partition in bytes. -/
def Part.larderBytes (q : Part) : Nat := q.larder.live.len.toNat * 262144

/-- The length of the region of context n (R115). -/
def Part.regionLen (q : Part) (n : Nat) : Nat :=
  match q.pattern with
  | some pat => max (pat.quota n 0) (pat.quota n 1)
  | none => q.larderBytes / q.contexts.length / 256 * 256

/-- The local address at which the region of context n starts. -/
def Part.regionBase (q : Part) (n : Nat) : Nat :=
  q.larder.live.base.toNat * 262144 + ((q.contexts.filter (· < n)).map q.regionLen).sum

/-- The local address of record i of context n. -/
def State.recordAddr (s : State) (p n i : Nat) : Nat :=
  (s.part p).regionBase n + (((s.ctx n).records[i]?).map (·.offset)).getD 0

/-! ### Discarding in-flight work (R483, R485) -/

/-- The slots a command writes. -/
def Entry.writeSlots (e : Entry) : List Nat :=
  match e.kind with
  | 1 => if e.drain = 0 then [] else [16]
  | 2 => [8, 12, 16, 20].filter fun i => e.instrs.any fun w => vWrites w && 8 + 4 * vSlot w == i
  | 3 => [12]
  | 4 => if e.moveOp = 0 ∨ e.moveOp = 2 then [12] else []
  | 6 => [12]
  | _ => []

/-- The local extents a command writes. -/
def Checked.writeExtents (k : Checked) : List (Nat × Nat) :=
  k.entry.writeSlots.flatMap fun i => match k.desc i with
    | some d => if d.loc = 8 ∨ d.loc = 4 then []
                else (k.opExtents i).map fun x => (addrLocal x.1, x.2)
    | none => []

/-- The banks of core c and the entries of its side memory that a command writes (R193, R230): those of a MATMUL of one
tile are the first bank's. -/
def Checked.sideExtents (k : Checked) (c tiles : Nat) : List (Nat × Nat) :=
  let e := k.entry
  match e.kind with
  | 1 => if e.drain = 0 ∨ tiles ≤ 1 then [(bankAddr c e.firstBank 0 0, 0x8000)] else [(bankAddr c 0 0 0, 0x10000)]
  | 3 => if e.rowOp ≤ 2 then [(sideAddr c e.rowBase, 8 * e.trips.foldl (· * ·) 1)] else []
  | _ => []

/-- The bytes of the record that the mover's LARDER_PUSH of core c writes. -/
def State.pushExtents (s : State) (p c : Nat) : List (Nat × Nat) :=
  match (s.core c).mover with
  | some m => match m.record with
    | some (n, i) => if m.chk.entry.moveOp = 1 then
        [(s.recordAddr p n i, (((s.ctx n).records[i]?).map (·.len)).getD 0)] else []
    | none => []
  | none => []

/-- The commands a core has issued to its engines. -/
def Core.issued (k : Core) : List Checked :=
  (k.tensor.toList.map (·.chk)) ++ (k.vector.toList.map (·.chk)) ++ (k.row.toList.map (·.chk))
    ++ (k.mover.toList.map (·.chk))

/-- Whether a head waits on its header wait. -/
def Core.blocked (k : Core) : Bool :=
  match k.head with
  | some h => h.entry.waitEnable
      && !waitMet (Sparse.get 0 k.tallies h.entry.waitTally) h.entry.waitTarget
  | none => false

/-- What the commands a core has issued could still write here (R485). -/
def State.openExtents (s : State) (p c : Nat) : List (Nat × Nat) :=
  let k := s.core c
  k.issued.flatMap Checked.writeExtents
    ++ (match k.tensor with | some r => r.chk.sideExtents c r.tiles | none => [])
    ++ (match k.row with | some r => r.chk.sideExtents c 0 | none => [])
    ++ s.pushExtents p c

/-- n free bytes as a number: a value the spec leaves undefined. -/
def freeNat (k i n : Nat) : Nat :=
  ofLe ((List.range n).map fun j => Config.freeByte k (i + j))

/-- The ledger entries of a partition's buckets hold undefined values after a discard (R485). -/
def State.freeLedger (s : State) (p : Nat) : State :=
  let k := s.freeCtr
  { s with
    coll := { s.coll with ledger := s.coll.ledger.zipIdx.map fun li =>
      if li.1.part = p then
        let b := 40 * li.2
        { li.1 with weight := freeNat k b 4, axes := freeNat k (b + 4) 1 % 8,
                    masks := (List.range 3).map fun a => freeNat k (b + 8 + 4 * a) 4,
                    quars := (List.range 3).map fun a => freeNat k (b + 20 + 4 * a) 4 }
      else li.1 },
    freeCtr := k + 1 }

/-- What every core of a partition drops at a stop (R483). -/
def Core.stopped (k : Core) : Core :=
  { k with queue := [], head := none, qstate := .partStopped, fnChecked := false, limited := false,
           tensor := none,
           vector := none, row := none, mover := none, fetch := none }

/-- A core's state that a shared partition also clears at its stop (R193, R233, R241). -/
def State.clearCore (s : State) (c : Nat) : State :=
  ((s.updCore c fun k => { k with tags := [] }).zeroRange (privAddr c 0) 0x600000).zeroRange
    (privAddr c 0x640000) 0x10000

/-- The contexts of a partition emptied (R122). -/
def State.emptyContexts (s : State) (p : Nat) : State :=
  (List.range 48).foldl (fun s n =>
    if (s.part p).layout.live.ctxMask.toNat.testBit n then
      s.setCtx n { s.ctx n with records := [], fill := 0, joinedTo := false }
    else s) s

/-- The run of a pattern forgotten: the manifests, the timeline and what it has started. The registers that
report it keep their values. -/
def Sched.cleared (d : Sched) : Sched :=
  { Sched.reset with pstitch := d.pstitch, step := d.step, slips := d.slips, slipTotal := d.slipTotal }

/-- In-flight work of partition p discarded (R483, R485). -/
def State.discard (s : State) (p : Nat) : State :=
  let cores := s.coresOf p
  let exts := cores.flatMap (s.openExtents p) ++ (s.part p).sched.accum.map (fun x => (x.1, x.2.1))
    ++ (s.coll.runs.filter (·.part == p)).flatMap fun r => r.chk.writeExtents
  let s := (exts.foldl (fun s x => s.freeRange x.1 x.2) s).freeLedger p
  let s := cores.foldl (fun s c => s.updCore c Core.stopped) s
  let s := { s with
    coll := { s.coll with runs := s.coll.runs.filter (·.part != p) },
    fabric := { s.fabric with
      waiting := s.fabric.waiting.filter (·.part != p),
      transit := s.fabric.transit.filter fun t => !(t.1.isNone && t.2.owner == some p),
      held := s.fabric.held.filter fun t => t.owner != some p } }
  let s := (s.fabric.skeins.filter (·.part == p)).foldl (fun s k => s.closeSkein k) s
  let s := [0, 1].foldl (fun s k => s.updHport k fun h => { h with
      requests := h.requests.map fun r =>
        if r.core.any fun c => cores.contains c then { r with core := none } else r }) s
  { s with train := { s.train with records := s.train.records.filter (·.part != p) } }

/-! ### Stopping a partition (R429) -/

/-- A partition as a stop leaves it (R429, R483): its cause, its pattern disarmed unless keep (R430), faulted where
it ran and the cause is a fault. -/
def Part.stop (q : Part) (cause : Half) (keep : Bool) : Part :=
  { q with
    state := .stopped, stopCause := cause, drainStep := none, drainAt := none, idleTicks := 0,
    attic := [], armed := if keep then q.armed else none,
    patState := match q.patState with
      | .armed => if keep then .armed else .loaded
      | .running => if cause = stDONE then .loaded else .faulted
      | x => x,
    sched := if keep then q.sched else q.sched.cleared }

/-- The stop of partition p: cause, the pattern's state after it, and the discard. keep: R430, the armed
pattern stays armed. -/
def State.stopPart (s : State) (p : Nat) (cause : Half) (keep : Bool) : State :=
  if !(s.part p).active then s
  else
    let s := s.discard p
    let s := if (s.part p).layout.live.excl = 0 then (s.coresOf p).foldl State.clearCore s else s
    (((s.emptyContexts p).queuesOf p HQueue.discard).updPart p fun q => q.stop cause keep).raiseCause p 2

/-- A stopped partition disarmed. -/
def Part.disarm (q : Part) : Part :=
  if q.patState = .armed then { q with patState := .loaded, armed := none, sched := q.sched.cleared } else q

/-- A partition that a fault names and that is stopped with its pattern armed is disarmed (R378, R481). -/
def State.disarm (s : State) (p : Nat) : State := s.updPart p Part.disarm

/-- A fault (R481, R482, R491): the named partitions that run stop with the status, and one record is
written. -/
def State.fault (s : State) (status : Half) (cls kind unit : Nat) (parts : List Nat) (d0 d1 : Nat) :
    State :=
  let stopped := parts.filter fun p => (s.part p).active
  let s := parts.foldl (fun s p => if (s.part p).active then s.stopPart p status false else s.disarm p) s
  s.recordFault status cls kind unit stopped d0 d1

/-- A command fails and its failure is a fault of its partition: it completes with its status and record,
with no signal, before the discard (R483). -/
def State.failCommand (s : State) (p c : Nat) (e : Entry) (st flags : Half) (cls kind unit : Nat)
    (d0 : Nat) : State :=
  (s.complete p c e st flags false).fault st cls kind unit [p] d0 0

end Sys2Proof.Machine
end

