-- ==== Sys2Proof/Machine/Reliability.lean ====
section
/-! DEFINITION. Machine/Reliability.lean: errors that reads of memory meet (R101, R102, R109, R110), rows
and lines marked for the wear programme (R104, R112, R487). -/

namespace Sys2Proof.Machine

/-- The stack of an HBM address (R106). -/
def hbmStack (a : Nat) : Nat := a / 256 % 12

/-- Whether the crossings to n bytes from a local address are open (R29): to the HBM stacks they lie in, to the die of
the cores. -/
def State.extOpen (s : State) (a n : Nat) : Bool :=
  match addrRegion a with
  | 0 => (List.range (min 12 (ceilDiv (a % 256 + n) 256))).all fun i => s.stackOpen (hbmStack (a + 256 * i))
  | 1 => s.coreOpen (cellarCore a)
  | 2 => s.coreOpen (privCore a)
  | _ => true

/-- The number of the row of an HBM address: pseudo-channel and stack, and which row of 1 KiB of it
(R106; the size of a row is PRESUMED). -/
def hbmRow (a : Nat) : Nat := (a / 256 / 384 * 256 + a % 256) / 1024 * 384 + a / 256 % 384

/-- The number of the bank that a cellar line lies in: 16 to a slice (R97). -/
def bankOf (line : Nat) : Nat := line / 131072 * 16 + line % 16

/-- Spare lines left in a bank (R104). -/
def State.sparesOf (s : State) (bank : Nat) : Nat := Sparse.get 32 s.memStat.spareLines bank

/-- A cellar line marked for a spare (R487). -/
def MemStat.markLine (m : MemStat) (line : Nat) : MemStat :=
  { m with linesPending := insertNat m.linesPending line }

/-- A corrected word of a cellar line (R101): counted, and the line marked at wear_line_limit errors. -/
def State.cellarCorrect (s : State) (a : Nat) : State :=
  let l := lineOf a
  let n := Sparse.get 0 s.memStat.lineErrors l + 1
  let m := { s.memStat with eccCorrected := s.memStat.eccCorrected + 1,
                            lineErrors := Sparse.put s.memStat.lineErrors l n }
  { s with memStat := if s.links.wearLine.toNat ≤ n then m.markLine l else m }

/-- An uncorrectable cellar read (R102): poisoned, counted, marked. -/
def State.cellarFail (s : State) (a : Nat) : State :=
  let l := lineOf a
  { s with memStat := { s.memStat with
      poison := insertNat s.memStat.poison l, eccUncorrected := s.memStat.eccUncorrected + 1,
      linesPending := insertNat s.memStat.linesPending l } }

/-- A burst reported corrected (R109, R112). -/
def State.hbmCorrect (s : State) (a : Nat) : State :=
  let r := hbmRow a
  let n := Sparse.get 0 s.memStat.rowErrors r + 1
  { s with memStat := { s.memStat with
      hbmCorrected := s.memStat.hbmCorrected + 1, rowErrors := Sparse.put s.memStat.rowErrors r n,
      repairsPending := if s.links.wearRow.toNat < n then insertNat s.memStat.repairsPending r
                        else s.memStat.repairsPending } }

/-- An uncorrected HBM read (R109, R112). -/
def State.hbmFail (s : State) (a : Nat) : State :=
  { s with memStat := { s.memStat with
      hbmUncorrected := s.memStat.hbmUncorrected + 1,
      repairsPending := insertNat s.memStat.repairsPending (hbmRow a) } }

/-- Parity retries (R110). -/
def State.parityRetry (s : State) (n : Nat) : State :=
  { s with memStat := { s.memStat with parityRetries := s.memStat.parityRetries + BitVec.ofNat 64 n } }

/-- Whether an address lies in one of the ranges read. -/
def inRanges (rs : List (Nat × Nat)) (a : Nat) : Bool := rs.any fun r => inside a 1 r.1 r.2

/-- The addresses of cellar lines already poisoned that the ranges read. -/
def State.poisonRead (s : State) (rs : List (Nat × Nat)) : List Nat :=
  (s.memStat.poison.map fun l => cellarBase + 256 * l).filter fun a =>
    rs.any fun r => addrRegion r.1 == 1 && overlaps a 256 r.1 r.2

/-- Parity retries of the accesses of one step: only of HBM, three at most for each transfer, since the fourth
failure ends it (R110). A transfer is a burst of 32 bytes (PRESUMED, log entry 111). -/
def boundRetries (rs : List (Nat × Nat)) (n : Nat) : Nat :=
  min n (3 * ((rs.filter fun r => addrRegion r.1 == 0).map fun r => ceilDiv (r.1 % 32 + r.2) 32).sum)

/-- What the reads rs and writes ws of one step meet: counters and marks, and the first address that fails, if
one does. A write meets parity alone, whose fourth failure counts as an uncorrected read (R110). -/
def State.accessErrors (s : State) (rs ws : List (Nat × Nat)) (e : Ecc) : State × Option Nat :=
  let cellar := fun a => inRanges rs a && addrRegion a == 1
  let hbm := fun a => inRanges rs a && addrRegion a == 0
  let old := s.poisonRead rs
  let bad := (e.cellarBad.filter cellar).filter fun a => !(old.any fun b => lineOf b == lineOf a)
  let hb := e.hbmBad.filter hbm
  let pb := e.parityBad.filter fun a => inRanges (rs ++ ws) a && addrRegion a == 0
  let s := (e.cellarCorrected.filter cellar).foldl State.cellarCorrect s
  let s := (e.hbmCorrected.filter hbm).foldl State.hbmCorrect s
  let s := s.parityRetry (boundRetries (rs ++ ws) (e.retries + 3 * pb.length))
  let s := (bad ++ old).foldl State.cellarFail s
  let s := (hb ++ pb).foldl State.hbmFail s
  (s, (bad ++ old ++ hb ++ pb).head?)

/-- What the reads of one step meet. -/
def State.readErrors (s : State) (rs : List (Nat × Nat)) (e : Ecc) : State × Option Nat := s.accessErrors rs [] e

/-- The unit a memory fault names: the core of a cellar slice, or the HBM stack. -/
def memUnit (a : Nat) : Nat × Nat := if addrRegion a = 1 then (1, cellarCore a) else (3, hbmStack a)

/-- A command fails on a read: status, record, memory fault, discard (R102, R109, R483). -/
def State.failRead (s : State) (p c : Nat) (e : Entry) (flags : Half) (a : Nat) : State :=
  s.failCommand p c e stECC flags 1 (memUnit a).1 (memUnit a).2 a

end Sys2Proof.Machine
end

