-- ==== Sys2Proof/Machine/Issue.lean ====
section
/-! DEFINITION. Machine/Issue.lean: how an entry is checked, held and issued (R132, R156, R199, R256, R414),
and the commands of the issue stage (SYNC). -/

namespace Sys2Proof.Machine

/-! ### What holds a command back at issue -/

/-- The bank of tile t of a MATMUL (R153: banks alternate when drain is not 0). -/
def Entry.bank (e : Entry) (t : Nat) : Nat :=
  if e.drain = 0 then e.firstBank else (e.firstBank + t) % 2

/-- The banks a running MATMUL holds busy (R199): of every tile whose drain has not ended. -/
def TensorRun.busy (r : TensorRun) : List Nat :=
  let e := r.chk.entry
  if e.drain = 0 then (if r.next = 0 then [] else [e.firstBank]) else (r.undrained ++ r.kept).map e.bank

/-- The extents of busy banks: value and compensation planes. -/
def State.busyBanks (s : State) : List (Nat × Nat) :=
  s.cores.flatMap fun ck => match ck.2.tensor with
    | some r => r.busy.map fun b => (bankAddr ck.1 b 0 0, 0x8000)
    | none => []

/-- The gradient regions held busy (R35, R243): sources of triggered COLLECTIVE commands the hub has not
read yet; one of count 0 reads nothing (R176). -/
def State.busyRegions (s : State) : List (Nat × Nat) :=
  s.coll.runs.flatMap fun r =>
    let e := r.chk.entry
    if e.count != 0 && e.trigEnable && waitMet (s.tallyOf r.core e.trigTally) e.trigTarget && !r.started then
      match r.chk.desc 8 with
      | some d => if (d.loc = 2 ∧ inGradient d) ∨ (d.loc = 1 ∧ d.isPair) then
          (r.chk.opExtents 8).map fun x => (addrLocal x.1, x.2) else []
      | none => []
    else []

/-- The buffers that running versioned gathers hold (R414). -/
def State.gatherHolds (s : State) : List (Nat × Nat) :=
  s.cores.flatMap fun ck => match ck.2.mover with
    | some m => m.held
    | none => []

/-- The attics that partition p holds (R256). -/
def State.atticHolds (s : State) (p : Nat) : List (Nat × Nat) := (s.part p).attic.flatMap (·.exts)

/-- The buffers that running versioned gathers of other cores hold. -/
def State.gatherHoldsBut (s : State) (c : Nat) : List (Nat × Nat) :=
  s.cores.flatMap fun ck => match ck.2.mover with
    | some m => if ck.1 = c then [] else m.held
    | none => []

/-- A write that a hold refuses; counted where it is a gather's (R414, R422). -/
def State.noteStale (s : State) (counted : Bool) : State :=
  if counted then { s with train := { s.train with stale := s.train.stale + 1 } } else s

/-- The local extents of all operands. -/
def Checked.localExtents (k : Checked) : List (Nat × Nat) :=
  k.entry.takenSlots.flatMap fun i => match k.desc i with
    | some d => if d.loc = 8 ∨ d.loc = 4 then [] else (k.opExtents i).map fun x => (addrLocal x.1, x.2)
    | none => []

/-- Whether two lists of extents meet. -/
def meetAny (xs ys : List (Nat × Nat)) : Bool := xs.any fun x => ys.any fun y => meet x y

/-- What refuses a core's writes to local extents, begun since its command issued: a gather's hold (true: counted),
or else an attic of its partition (R125, R256, R414). -/
def State.heldAgainst (s : State) (c : Nat) (gathers xs : List (Nat × Nat)) : Option Bool :=
  if meetAny xs gathers then some true
  else if (s.partOf c).any fun p => meetAny xs (s.atticHolds p) then some false
  else none

/-- Whether a command running on another core touches bank b of core c (R199). -/
def State.bankTouched (s : State) (c b : Nat) : Bool :=
  s.cores.any fun ck => ck.1 != c && ck.2.issued.any fun k =>
    meetAny k.localExtents [(bankAddr c b 0 0, 0x8000)]

/-- The banks in which a MATMUL starts tiles: both, where banks alternate over more than one tile, and none where
it is a no-op (R176). -/
def Entry.tileBanks (e : Entry) : List Nat :=
  if e.trips.any (· == 0) || e.kChunk == 0 then []
  else if e.drain = 0 ∨ (e.trips.drop e.cLevels).foldl (· * ·) 1 ≤ 1 then [e.firstBank] else [0, 1]

/-- What stands between a command and its issue. stale: it is refused; counted says that a gather's hold
refuses it, whether or not an attic's does too (R414, R422). -/
inductive Hold where
  | go
  | stall
  | stale (counted : Bool)
  deriving DecidableEq, Repr

/-- The holds on a command of partition p; one whose operands lie behind a closed crossing waits (R29, log entry
120). -/
def State.holdOf (s : State) (p : Nat) (k : Checked) : Hold :=
  let w := k.writeExtents
  let vec := k.entry.kind == 2
  let attic := meetAny w (s.atticHolds p)
  let gather := meetAny w s.gatherHolds
  if meetAny k.localExtents s.busyBanks then .stall
  else if meetAny w s.busyRegions then .stall
  else if !(k.localExtents.all fun x => s.extOpen x.1 x.2) then .stall
  else if k.localExtents.any fun x => s.lineHeld x.1 x.2 false then .stall
  else if attic || gather then (if vec then .stall else .stale gather)
  else .go

/-- RECALLs for the owned lines that a stalled command needs (R505). A reader recalls where it starts to read; a line
that a host comes to own while it reads is not recalled again (DESIGN CHOICE, log entry 137). -/
def State.recallOperands (s : State) (k : Checked) : State :=
  k.localExtents.foldl (fun s x => s.recallFor x.1 x.2 false) s

/-- A MOVE that names a reservation has issued for the next occurrence of it (R385). -/
def State.noteIssued (s : State) (p : Nat) (e : Entry) : State :=
  if e.kind = 4 ∧ e.moveResv ≠ 0 then
    s.updPart p fun q => { q with sched := { q.sched with issued := q.sched.issued ++ [e.moveResv] } }
  else s

/-- The head of the queue taken off: the core has worked in this stitch (R164). -/
def State.popHead (s : State) (c : Nat) : State :=
  s.updCore c fun k => { k with
    queue := k.queue.drop 1, head := none, fnChecked := false, limited := false, worked := true }

/-- COLLECTIVE commands of a core that are outstanding. -/
def State.collsOf (s : State) (c : Nat) : Nat := (s.coll.runs.filter (·.core == c)).length

/-- Issued commands of a core that are not complete (R171). -/
def State.outstanding (s : State) (c : Nat) : Nat :=
  let k := s.core c
  (if k.tensor.isSome then 1 else 0) + (if k.vector.isSome then 1 else 0)
    + (if k.row.isSome then 1 else 0) + (if k.mover.isSome then 1 else 0) + s.collsOf c

/-- Whether the resource of R132 is available to a command; a MATMUL also waits for a bank that a command of
another core is using (R199). -/
def State.resourceFree (s : State) (c : Nat) (e : Entry) : Bool :=
  let k := s.core c
  match e.kind with
  | 1 => k.tensor.isNone && !(e.tileBanks.any fun b => s.bankTouched c b)
  | 2 => k.vector.isNone
  | 3 => k.row.isNone
  | 4 => k.mover.isNone
  | 5 => e.syncOp != 1 || s.outstanding c == 0
  | _ => decide (s.collsOf c < 16)

/-- The checked head of core c, when it may issue: its partition runs, its queue runs, its header wait is
satisfied and its resource is available (R132). -/
def State.ready (s : State) (c : Nat) : Option (Nat × Checked) :=
  match s.partOf c, (s.core c).head with
  | some p, some k =>
    if (s.part p).active && (s.core c).qstate == .running && !(s.core c).blocked
        && s.resourceFree c k.entry then some (p, k) else none
  | _, _ => none

/-- The weight of a running command in mW (R611, 0x1300:0A to 0D). -/
def kindMw (kind : Nat) : Nat :=
  match kind with
  | 1 => 3100
  | 2 => 600
  | 3 => 300
  | 4 => 200
  | _ => 0

/-- The weights of every engine command running, in mW. -/
def State.engineMw (s : State) : Nat :=
  (s.cores.map fun ck => (if ck.2.tensor.isSome then kindMw 1 else 0) + (if ck.2.vector.isSome then kindMw 2 else 0)
    + (if ck.2.row.isSome then kindMw 3 else 0) + (if ck.2.mover.isSome then kindMw 4 else 0)).sum

/-- governor_scale in units of 2^-24, exact: it lies from 0.5 to 2.0 (R405). -/
def State.scale24 (s : State) : Nat :=
  (2 ^ 23 + fld s.tb.governorScale 0 23) * 2 ^ (fld s.tb.governorScale 23 8 - 126)

/-- A power in mW, scaled. -/
def scaledMw (mw scale24 : Nat) : Nat := mw * scale24 / 2 ^ 24

/-- How far the estimate of R611, idle power and engines times governor_scale, lies above what it was with other
engines and another scale, in units of 2^-24 mW. -/
def riseOf (mw scale was wasScale : Nat) : Int :=
  (mw * scale : Nat) - (was * wasScale : Nat)
    + if scale = wasScale then 0 else (Config.idleMw : Int) * ((scale : Int) - wasScale)

/-- Whether an issue would raise the estimate more than 150 W above its value at the start of the stitch
(R611). -/
def State.overRise (s : State) (kind : Nat) : Bool :=
  kindMw kind != 0 && decide (150000 * 2 ^ 24 <
    riseOf (s.engineMw + kindMw kind) s.scale24 s.power.stitchStartMw s.power.stitchStartScale)

/-- A command that issues on a ballasted array takes its ballast over at once (R612). -/
def State.takeBallast (s : State) : State :=
  let n := min s.power.ballastMw (scaledMw (kindMw 1) s.scale24)
  { s with power := { s.power with ballastMw := s.power.ballastMw - n, ballastTaken := s.power.ballastTaken + n } }

/-- A command stalled by the limiter is counted once. -/
def State.limit (s : State) (c : Nat) : State :=
  if (s.core c).limited then s
  else { s.updCore c fun k => { k with limited := true } with
    power := { s.power with limiterStalls := s.power.limiterStalls + 1 } }

/-- A record freed. -/
def State.dropGather (s : State) (p dest ctx gid : Nat) : State :=
  { s with train := { s.train with records := s.train.records.filter fun g =>
      !(g.part == p && g.dest == dest && g.ctx == ctx && g.gid == gid) } }

/-- Where a gather goes: the module of its destination. -/
def State.gatherDest (s : State) (k : Checked) : Nat :=
  match k.desc 12 with
  | some d => if d.loc = 8 then addrModule d.base.toNat else s.myId
  | none => s.myId

/-- The record of a command that is a backward gather freed (R412). -/
def State.dropBackward (s : State) (p : Nat) (k : Checked) : State :=
  if k.entry.kind = 4 ∧ k.entry.moveOp = 0 ∧ 2 ^ 15 ≤ k.entry.recordId ∧ (k.desc 8).any (·.versioned) then
    s.dropGather p (s.gatherDest k) k.entry.moveCtx (k.entry.recordId % 2 ^ 15)
  else s

/-- The head of core c issues when it may and is a command of the kind asked for; a no-op completes (R176),
a refused write completes with STALE_SHARD (R125, R414), which frees the record of a backward gather (R412), and a command held back, or one that R611 stalls,
stays where it is. A no-op MOVE has no write to make visible, and applies its header signal alone: R176 names no other
(DESIGN CHOICE, log entry 141). -/
def State.issue (s : State) (c : Nat) (want : Entry → Bool)
    (run : State → Nat → Checked → State) : State :=
  match s.ready c with
  | none => s
  | some (p, k) =>
    if !want k.entry then s
    else if k.noop then ((s.popHead c).noteIssued p k.entry).complete p c k.entry stDONE 0 true
    else match s.holdOf p k with
      | .stall => s.recallOperands k
      | .stale counted =>
        (((s.noteStale counted).dropBackward p k).popHead c).complete p c k.entry stSTALE_SHARD 0 false
      | .go => if s.overRise k.entry.kind then s.limit c else run s p k

/-- ISSUE_CHECKS (R146, R156): the entry at the head has its descriptors read and its checks applied; a
failure completes it with its status, without its signal (R137). A command whose remote_core check needs a skein
that is not open waits here, unchecked, until the OPEN is answered (R284). -/
def execIssueChecks (core : Fin 512) (s : State) : Host.Outcome State Fault Refusal :=
  let c := core.val
  let k := s.core c
  .next <| match s.partOf c, k.queue, k.head with
  | some p, e :: _, none =>
    if (s.part p).active && k.qstate == .running then
      let chk : Checked := { entry := e, descs := s.readDescs p e }
      match s.checkWaits p chk with
      | some d => if (s.skeinTo p d).isSome then s else s.openSkein p d
      | none =>
        let st := s.issueStatus p c chk
        if st = stDONE then s.updCore c fun k => { k with head := some chk }
        else (s.popHead c).complete p c e st 0 false
    else s
  | _, _, _ => s

/-! ### SYNC (R153) -/

/-- A SYNC command of one operation: it acts, completes, and its signal follows. -/
def State.sync (s : State) (c op : Nat) (act : State → Checked → State) : State :=
  s.issue c (fun e => e.kind == 5 && e.syncOp == op) fun s p k =>
    (act (s.popHead c) k).complete p c k.entry stDONE 0 true

/-- WAIT does nothing beyond its header wait. -/
def execWait (core : Fin 512) (s : State) : Host.Outcome State Fault Refusal :=
  .next (s.sync core 0 fun s _ => s)

/-- FENCE issues once every earlier command of the queue has completed. -/
def execFence (core : Fin 512) (s : State) : Host.Outcome State Fault Refusal :=
  .next (s.sync core 1 fun s _ => s)

/-- TALLY_ADD is its header signal alone. -/
def execTallyAdd (core : Fin 512) (s : State) : Host.Outcome State Fault Refusal :=
  .next (s.sync core 2 fun s _ => s)

/-- TALLY_SET writes a tally of the issuing core (R163: before increments of the same cycle). -/
def execTallySet (core : Fin 512) (s : State) : Host.Outcome State Fault Refusal :=
  .next (s.sync core 3 fun s k => s.setTally core (k.entry.syncOperand % 256) (k.entry.w 7))

/-! ### PUBLISH (R124, R154, R255 to R258) -/

/-- The exchange of R124 on a table entry. -/
def Desc.exchange (d : Desc) : Desc :=
  { d with base := d.twin, twin := d.base,
           scale := if isMx d.fmt then d.scale + (d.twin - d.base) else d.scale,
           version := d.version + 1 }

/-- A base stitch of step-relative time on the pattern's timeline (R393), with the active insertion points. -/
def activeBelow (active : List Nat) (t : Nat) : Nat := (active.filter (· < t)).length
def activeUpTo (active : List Nat) (t : Nat) : Nat := (active.filter (· ≤ t)).length

/-- Length class of micro-batch m in a manifest (R394). -/
def Pattern.classOf (pat : Pattern) (man : Manifest) (m : Nat) : Nat :=
  if man.lens.getD m 0 ≤ pat.class0 then 0 else 1

/-- The base stitches of the insertion points active under a manifest (R392). -/
def Pattern.active (pat : Pattern) (man : Manifest) : List Nat :=
  (pat.points.filter fun pt => pat.classOf man pt.2 == 1).map (·.1)

/-- Length of a step (R392). -/
def Pattern.stepLength (pat : Pattern) (man : Manifest) : Nat :=
  pat.stepStitches + pat.bubble * (pat.active man).length

/-- Step-relative stitch of (t, o) (R393): variant for condition-2 entries and gates in class-1 segments. -/
def Pattern.actual (pat : Pattern) (man : Manifest) (t o : Nat) (variant : Bool) : Nat :=
  let a := pat.active man
  if variant then t + pat.bubble * activeBelow a t + o else t + pat.bubble * activeUpTo a t

/-- The manifest of a step; a step with none maps as one in which every micro-batch is of class 0. -/
def Sched.manifestOf (d : Sched) (step : Nat) : Manifest :=
  (d.manifests.find? (·.step == step)).getD ⟨step, []⟩

/-- The pattern stitch of (t, o) given relative to a step that starts at base: a stitch of step_stitches or
more belongs to the following step (R393). The count of steps walked is bounded by t. -/
def Pattern.place (pat : Pattern) (d : Sched) (fuel step base t o : Nat) (variant : Bool) : Nat :=
  match fuel with
  | 0 => base + t
  | n + 1 =>
    let man := d.manifestOf step
    if t < pat.stepStitches then base + pat.actual man t o variant
    else pat.place d n (step + 1) (base + pat.stepLength man) (t - pat.stepStitches) o variant

/-- The pattern stitch at which a step starts (R392). -/
def Pattern.startOf (pat : Pattern) (d : Sched) : Nat → Nat
  | 0 => pat.prologue
  | n + 1 => pat.startOf d n + pat.stepLength (d.manifestOf n)

/-- The pattern stitch of a stitch relative to a step. -/
def Pattern.stitchOf (pat : Pattern) (d : Sched) (step t o : Nat) (variant : Bool) : Nat :=
  pat.place d (t / pat.stepStitches + 1) step (pat.startOf d step) t o variant

/-- The step and base stitch at which the hold of the next PUBLISH of a handle ends (R255, R256): the plan's
entries of the handle are taken in order, all of them in each step. -/
def Pattern.releaseOf (pat : Pattern) (d : Sched) (handle : Nat) : Option (Nat × Nat) :=
  let es := pat.plan.filter (·.handle == handle)
  let n := Sparse.get 0 d.published handle
  match es[n % es.length]? with
  | some v => some (n / es.length, v.release)
  | none => none

/-- The pattern stitch at which a hold ends, on the timeline of the manifests known. -/
def Pattern.replace (pat : Pattern) (d : Sched) (a : Attic) : Attic :=
  { a with release := pat.stitchOf d a.step a.base 0 false }

/-- The hold that a PUBLISH starts on the twin of the handle as exchanged (R256). -/
def heldAttic (d : Desc) (h : Nat) (at_ : Nat × Nat) : Attic :=
  { handle := h, step := at_.1, base := at_.2, release := 0,
    exts := (d.atTwin.allExtents d.elemBytes).map fun x => (addrLocal x.1, x.2) }

/-- PUBLISH: the exchange acts on the table as it stands (R124), which a commit may have changed since its checks:
then it is refused as R154 says, with no side effect; while a pattern runs a hold starts (R256),
and while the attic of the handle is held it stalls. -/
def State.publish (s : State) (p c : Nat) (k : Checked) : State :=
  let h := k.entry.syncOperand
  let q := s.part p
  if q.patState == .running && q.attic.any (·.handle == h) then s
  else match Sparse.find q.descs h with
    | none => (s.popHead c).complete p c k.entry stHANDLE_INVALID 0 false
    | some d =>
      if !d.versioned then (s.popHead c).complete p c k.entry stCONFIG 0 false
      else
        let d' := d.exchange
        let hold : Option Attic := match q.pattern with
          | some pat => if q.patState == .running then
              ((pat.releaseOf q.sched h).map fun r => pat.replace q.sched (heldAttic d' h r)).filter
                fun a => decide (q.sched.pstitch < a.release)
            else none
          | none => none
        let pub := Sparse.put q.sched.published h (Sparse.get 0 q.sched.published h + 1)
        let s := (s.popHead c).updPart p fun q => { q with
          descs := Sparse.put q.descs h d',
          sched := if q.patState = .running then { q.sched with published := pub } else q.sched,
          attic := q.attic ++ hold.toList }
        s.complete p c k.entry stDONE 0 true

/-- SYNC PUBLISH. -/
def execPublish (core : Fin 512) (s : State) : Host.Outcome State Fault Refusal :=
  .next (s.issue core (fun e => e.kind == 5 && e.syncOp == 4) fun s p k => s.publish p core k)

end Sys2Proof.Machine
end

