-- ==== Sys2Proof/Machine/Queue.lean ====
section
/-! DEFINITION. Machine/Queue.lean: the per-core control block (R155, R170 to R175): START, QUEUE_CTRL, the
descriptor registers, the completion-ring commit and the tally registers. -/

namespace Sys2Proof.Machine

/-- A host access through port k to the control block of core c: it reaches the block only where the core's
shelf lies in a partition bound to the port; else it is ignored and counted (R436). Over a closed crossing
nothing comes (R29). -/
def State.viaCore (s : State) (k c : Nat) (f : State → State) : State :=
  match s.partOf c with
  | some p => if s.boundTo p k then (if s.coreOpen c then f s else s)
              else { s with tenancy := { s.tenancy with refusals := s.tenancy.refusals + 1 } }
  | none => { s with tenancy := { s.tenancy with refusals := s.tenancy.refusals + 1 } }

/-- A host access through port k to the blocks of partition p (R436). -/
def State.viaPart (s : State) (k p : Nat) (f : State → State) : State :=
  if s.boundTo p k then f s
  else { s with tenancy := { s.tenancy with refusals := s.tenancy.refusals + 1 } }

/-- The pattern state of the partition of core c. -/
def State.patternRuns (s : State) (c : Nat) : Bool :=
  match s.partOf c with
  | some p => (s.part p).patState == .running
  | none => false

/-- The words staged for the next block. -/
def Core.staged (k : Core) (n : Nat) : List Word := (List.range n).map fun i => Sparse.get 0 k.stage i

/-- What refuses a START word, apart from a full queue: its form, or a pattern that runs (R155). -/
def State.startRefused (s : State) (c : Nat) (v : Word) : Bool :=
  fld v 16 16 != 0x5354 || decide (96 < fld v 0 7) || s.patternRuns c

/-- A write of START (R155): each case that keeps it from the queue sets its flag. -/
def State.startWrite (s : State) (c : Nat) (v : Word) : State :=
  let n := fld v 0 7
  let full := decide (64 ≤ (s.core c).queue.length)
  if full || s.startRefused c v then s.updCore c fun k => { k with
    refused := k.refused || s.startRefused c v, overflow := k.overflow || full }
  else s.updCore c fun k => { k with
    queue := k.queue ++ [{ words := k.staged n, startWords := n, badMagic := false,
                           fromStream := false, segClass := 0 }] }

/-- START. -/
def execStart (port : Fin 2) (core : Fin 512) (value : Word) (s : State) :
    Host.Outcome State Fault Refusal :=
  .next (s.viaCore port core fun s => s.startWrite core value)

/-- Whether the partition of core c runs or drains. -/
def State.coreActive (s : State) (c : Nat) : Bool :=
  match s.partOf c with
  | some p => (s.part p).active
  | none => false

/-- resume: leaves state 1; ignored in states 0 and 2 (R172). -/
def State.queueResume (s : State) (c : Nat) : State :=
  if s.coreActive c && (s.core c).qstate == .stopped then s.updCore c fun k => { k with qstate := .running } else s

/-- QUEUE_RESUME. -/
def execQueueResume (port : Fin 2) (core : Fin 512) (s : State) : Host.Outcome State Fault Refusal :=
  .next (s.viaCore port core fun s => s.queueResume core)

/-- flush: every entry not yet issued is discarded, without a record (R172), and a queue that a status had
stopped issues again, as after resume (R136; DEDUCED, log entry 109). -/
def State.queueFlush (s : State) (c : Nat) : State :=
  (s.updCore c fun k => { k with queue := [], head := none, fnChecked := false, limited := false }).queueResume c

/-- QUEUE_FLUSH. -/
def execQueueFlush (port : Fin 2) (core : Fin 512) (s : State) : Host.Outcome State Fault Refusal :=
  .next (s.viaCore port core fun s => s.queueFlush core)

/-- clear_sticky: start_overflow and start_refused clear (R172). -/
def State.queueClearSticky (s : State) (c : Nat) : State :=
  s.updCore c fun k => { k with overflow := false, refused := false }

/-- QUEUE_CLEAR_STICKY. -/
def execQueueClearSticky (port : Fin 2) (core : Fin 512) (s : State) :
    Host.Outcome State Fault Refusal :=
  .next (s.viaCore port core fun s => s.queueClearSticky core)

/-! ### Descriptors (R143, R144, R170) -/

/-- A write of DESC_COMMIT: ignored while busy (R144); a descriptor that passes its checks begins its copy. -/
def State.descCommit (s : State) (c h : Nat) : State :=
  let k := s.core c
  if k.busy then s.updCore c fun k => { k with busyRefused := true }
  else match s.partOf c with
    | none => s
    | some p =>
      let d := Desc.ofWords p fun i => Sparse.get 0 k.descStage i
      let st := s.descStatus p d
      s.updCore c fun k => { k with
        busyRefused := false, descStatus := st,
        busy := st == stDONE, descBusy := if st = stDONE then some (h, d) else none }

/-- DESC_COMMIT. -/
def execDescCommit (port : Fin 2) (core : Fin 512) (handle : BitVec 10) (s : State) :
    Host.Outcome State Fault Refusal :=
  .next (s.viaCore port core fun s => s.descCommit core handle.toNat)

/-- DESC_COPY_DONE: the descriptor stands in every core of its partition and busy clears (R143). -/
def execDescCopyDone (core : Fin 512) (s : State) : Host.Outcome State Fault Refusal :=
  let c := core.val
  .next <| match (s.core c).descBusy with
  | none => s
  | some (h, d) =>
    let s := s.updCore c fun k => { k with busy := false, descBusy := none }
    if s.partOf c = some d.part then
      s.updPart d.part fun q => { q with descs := Sparse.put q.descs h d }
    else s

/-- A write of DESC_READ (R170): the table entry into DESC_STAGE, or HANDLE_INVALID. -/
def State.descRead (s : State) (c h : Nat) : State :=
  let k := s.core c
  if k.busy then s.updCore c fun k => { k with busyRefused := true }
  else match (s.partOf c).bind fun p => Sparse.find (s.part p).descs h with
    | some d => s.updCore c fun k => { k with
        busyRefused := false, descStatus := stDONE,
        descStage := d.words.zipIdx.foldl (fun m wi => Sparse.set 0 m wi.2 wi.1) [] }
    | none => s.updCore c fun k => { k with busyRefused := false, descStatus := stHANDLE_INVALID }

/-- DESC_READ. -/
def execDescRead (port : Fin 2) (core : Fin 512) (handle : BitVec 10) (s : State) :
    Host.Outcome State Fault Refusal :=
  .next (s.viaCore port core fun s => s.descRead core handle.toNat)

/-! ### The completion ring (R173, R175, R625) -/

/-- Whether a base names a place of this module that a ring may lie in: an HBM window or the cellar (R625). -/
def State.namesPlace (s : State) (a : Nat) : Bool := addrModule a == s.myId && decide (addrRegion a ≤ 1)

/-- Whether a global range lies wholly in an HBM window or a cellar shelf of partition p on this module
(R175, R395, R515, R625). -/
def State.inPlaces (s : State) (p a n : Nat) : Bool :=
  s.namesPlace a && s.rangeStatus p (addrLocal a) n == stDONE

/-- The status of a completion-ring commit. A ring of no entries takes no bytes of any place, yet its base
may name no other module or region (R625). -/
def State.cplCommitStatus (s : State) (p c : Nat) : Half :=
  let sh := (s.core c).cpl.sh
  let n := fld sh.entries 0 5
  if (n ≠ 0 ∧ n < 4) ∨ 16 < n ∨ sh.base.toNat % (16 * 2 ^ n) ≠ 0 ∨ s.outstanding c ≠ 0 then stCONFIG
  else if !s.namesPlace sh.base.toNat ∨ (n ≠ 0 ∧ !s.inPlaces p sh.base.toNat (16 * 2 ^ n)) then stPRIVILEGE
  else stDONE

/-- A write of CPL_COMMIT. -/
def State.cplCommit (s : State) (c : Nat) : State :=
  match s.partOf c with
  | none => s
  | some p =>
    let st := s.cplCommitStatus p c
    s.updCore c fun k =>
      if st = stDONE then
        { k with cplStatus := st, cpl := ⟨k.cpl.sh, k.cpl.sh⟩, producer := 0, consumer := 0 }
      else { k with cplStatus := st }

/-- CPL_COMMIT. -/
def execCplCommit (port : Fin 2) (core : Fin 512) (s : State) : Host.Outcome State Fault Refusal :=
  .next (s.viaCore port core fun s => s.cplCommit core)

/-! ### Tally registers (R161, R170) -/

/-- TALLY_VALUE: a write sets the tally while the partition is stopped and is ignored while it runs. -/
def State.tallyValueWrite (s : State) (c t : Nat) (v : Word) : State :=
  if s.coreActive c then s else s.setTally c t v

/-- TALLY_VALUE_WRITE. -/
def execTallyValueWrite (port : Fin 2) (core : Fin 512) (tally : BitVec 8) (value : Word) (s : State) :
    Host.Outcome State Fault Refusal :=
  .next (s.viaCore port core fun s => s.tallyValueWrite core tally.toNat value)

/-- TALLY_ADD adds the value written; 0 has no effect. -/
def State.tallyAddWrite (s : State) (c t : Nat) (v : Word) : State :=
  if v = 0 then s else s.addTally c t v

/-- TALLY_ADD_REGISTER. -/
def execTallyAddRegister (port : Fin 2) (core : Fin 512) (tally : BitVec 8) (value : Word) (s : State) :
    Host.Outcome State Fault Refusal :=
  .next (s.viaCore port core fun s => s.tallyAddWrite core tally.toNat value)

end Sys2Proof.Machine
end

