-- ==== Sys2Proof/Machine/Partition.lean ====
section
/-! DEFINITION. Machine/Partition.lean: starting, stopping and draining a partition (R428 to R430, R457 to
R459, R463), and the commits of its groups (R128, R431 to R435, R446, R449, R455, R456, R466, R533). -/

namespace Sys2Proof.Machine

/-! ### Start (R428) -/

/-- A core's state that a load and a start set to zero: gradient buffer, banks, tags, tables (R193, R224,
R233, R241). -/
def State.freshCore (s : State) (c : Nat) : State :=
  (s.clearCore c).updCore c fun k => { k with fn0 := none, fn1 := none, fnChecked := false }

/-- Ledger entries of partition p freed and its norm accumulators zeroed (R336, R349). -/
def State.freshNorm (s : State) (p : Nat) : State :=
  { s with coll := { s.coll with ledger := s.coll.ledger.filter (·.part != p) } }.updPart p fun q =>
    { q with localNorm := ⟨0, 0⟩, reducedNorm := ⟨0, 0⟩, norms := [] }

/-- The start of partition p: defaults latched (R84), cores as R193, R224, R233 and R241 leave them, ledger
and accumulators (R336, R349), host queues emptied (R527), queues running. A core behind a closed crossing does
not start (R29). -/
def State.startPart (s : State) (p : Nat) : State :=
  let cs := (s.coresOf p).filter s.coreOpen
  let s := (cs.foldl State.freshCore s).freshNorm p
  let s := cs.foldl (fun s c => s.updCore c fun k => { k with qstate := .running }) s
  let s := [0, 1].foldl (fun (s : State) k => ((s.hport k).queues.map (·.1)).foldl (fun s i =>
      let x := s.hqueue k i
      if x.state ≠ 0 ∧ x.part = p then s.updQueue k i fun x => x.empty (s.tallyOf x.core x.releaseTally)
      else s) s) s
  s.updPart p fun q => { q with
    state := .running, idleTicks := 0, drainStep := none, drainAt := none,
    latched := ⟨s.arith.round.toNat, s.arith.subnormal.toNat, s.arith.fp8.toNat, s.arith.comp.toNat, q.seed⟩ }

/-- Whether power and thermal state let partitions start (R615). -/
def State.mayStart (s : State) : Bool := !s.power.settling && !s.power.thermalHold

/-! ### PART_CTRL (R429, R457, R458, R463) -/

/-- Whether a drain may be armed after the step in DRAIN_STEP (R458, R463). -/
def Part.drainOk (q : Part) : Bool :=
  q.state == .running && q.patState == .running
    && !(q.sched.manifests.any fun m => decide (q.drainReg.toNat < m.step))
    && decide (q.sched.step ≤ q.drainReg.toNat)

/-- A write of PART_CTRL: stop first, alone; an illegal bit refuses the write. -/
def State.partCtrl (s : State) (p : Nat) (start stop drain : Bool) : State :=
  let note := fun (s : State) (st : Half) => s.updPart p fun q => { q with ctrlStatus := st }
  if stop then note (s.stopPart p stDONE false) stDONE
  else
    let q := s.part p
    let startOk := q.state == .stopped && q.patState != .armed && q.layout.live.count != 0 && s.mayStart
    if (drain && !q.drainOk) || (start && !startOk) then note s stCONFIG
    else
      let s := if drain then s.updPart p fun q => { q with drainStep := some q.drainReg.toNat } else s
      note (if start then s.startPart p else s) stDONE

/-- PART_START. -/
def execPartStart (port : Fin 2) (part : Fin 16) (s : State) : Host.Outcome State Fault Refusal :=
  .next (s.viaPart port part fun s => s.partCtrl part true false false)

/-- PART_STOP. -/
def execPartStop (port : Fin 2) (part : Fin 16) (s : State) : Host.Outcome State Fault Refusal :=
  .next (s.viaPart port part fun s => s.partCtrl part false true false)

/-- PART_DRAIN. -/
def execPartDrain (port : Fin 2) (part : Fin 16) (s : State) : Host.Outcome State Fault Refusal :=
  .next (s.viaPart port part fun s => s.partCtrl part false false true)

/-- DRAIN_TIMEOUT: a drain not stopped within drain_limit stitches of its drain point (R459). -/
def execDrainTimeout (part : Fin 16) (s : State) : Host.Outcome State Fault Refusal :=
  let p := part.val
  .next <| match (s.part p).state, (s.part p).drainAt with
  | .draining, some t =>
    if t + s.tenancy.drainLimit.toNat ≤ s.power.ticks then s.fault stOUT_OF_STEP 5 0 0 [p] 0 0 else s
  | _, _ => s

/-! ### Zeroing (R432 to R435) -/

/-- A core's registers that zeroing returns to their reset state (R432). -/
def Core.zeroed (k : Core) : Core :=
  { k with queue := [], head := none, qstate := .running, overflow := false, refused := false,
           stopInfo := 0, cpl := ⟨⟨0, 0⟩, ⟨0, 0⟩⟩, cplStatus := 0, producer := 0, consumer := 0, lost := 0,
           busy := false, descBusy := none, tallies := [], fn0 := none, fn1 := none, tags := [] }

/-- A shelf zeroed: slices, gradient buffers, side memories and banks, and its cores' registers. -/
def State.zeroShelf (s : State) (shelf : Nat) : State :=
  (List.range 8).foldl (fun s i =>
    let c := 8 * shelf + i
    let s := (s.zeroRange (cellarBase + c * 2 ^ 25) (2 ^ 25)).zeroRange (privAddr c 0) 0x650000
    { (s.updCore c Core.zeroed).releaseCore c with memStat := { s.memStat with
        poison := s.memStat.poison.filter fun l => l / 131072 != c } }) s

/-- The module's shelves of a layout. -/
def Layout.shelves (l : Layout) : List Nat := (List.range l.count.toNat).map (l.first.toNat + ·)

/-- The parts of [a, b) that lie in no range of a list. -/
def minusRanges (x : Nat × Nat) (cuts : List (Nat × Nat)) : List (Nat × Nat) :=
  cuts.foldl (fun acc c => acc.flatMap fun r =>
    if r.2 ≤ c.1 ∨ c.2 ≤ r.1 then [r]
    else (if r.1 < c.1 then [(r.1, c.1)] else []) ++ (if c.2 < r.2 then [(c.2, r.2)] else [])) [x]

/-- Window ranges in units of 256 KiB. -/
def unitRanges (ws : List (Word × Word)) : List (Nat × Nat) :=
  (ws.filter (·.2 != 0)).map fun w => (w.1.toNat, w.1.toNat + w.2.toNat)

/-- The units a change of windows removes (R433). -/
def removedUnits (old new : List (Word × Word)) : List (Nat × Nat) :=
  (unitRanges old).flatMap fun r => minusRanges r (unitRanges new)

/-- ZEROING_COMPLETE: the clearing ends, and windows that waited for it take effect (R433, R434). The answer
to the commit that waited follows in the management chapter's own step. -/
def State.zeroingDone (s : State) (p : Nat) : State :=
  let q := s.part p
  if !q.clearing then s
  else
    let removed := match q.waitingWindows with
      | some ws => removedUnits q.windows.live ws
      | none => []
    let s := removed.foldl (fun (s : State) r => s.zeroRange (r.1 * 262144) ((r.2 - r.1) * 262144)) s
    let s := s.updPart p fun q => { q with
      clearing := false, waitingWindows := none,
      windows := ⟨q.windows.sh, q.waitingWindows.getD q.windows.live⟩,
      state := if q.layout.live.count = 0 then PState.absent
               else if q.state = PState.zeroing then PState.stopped else q.state }
    State.settleApertures
      { s with tenancy := { s.tenancy with clearing := s.tenancy.clearing.filter (·.1 != p) } }

/-! ### Layout (R431, R432, R466, R488, R489) -/

/-- Whether two shelf ranges meet. -/
def Layout.meets (l m : Layout) : Bool :=
  l.count != 0 && m.count != 0 &&
    overlaps l.first.toNat l.count.toNat m.first.toNat m.count.toNat

/-- The layouts of the other partitions, the absent ones included. -/
def State.otherLayouts (s : State) (p : Nat) : List Layout :=
  ((List.range 16).filter (· ≠ p)).map fun q => (s.part q).layout.live

/-- R431: an exclusive partition, absent or not, only where every partition with shelves has one tenant and one
port. -/
def exclusiveOk (ls : List Layout) : Bool :=
  !(ls.any (·.excl == 1)) ||
    (ls.filter (·.count != 0)).all fun l => (ls.filter (·.count != 0)).all fun m =>
      l.tenant == m.tenant && l.hostPort == m.hostPort

/-- The status of a layout commit. -/
def State.layoutStatus (s : State) (p : Nat) : Half :=
  let l := (s.part p).layout.sh
  let old := (s.part p).layout.live.shelves
  let others := s.otherLayouts p
  if s.hw.grade.shelves < l.first.toNat + l.count.toNat then stENGINE_ABSENT
  else if l.shelves.any (fun x => s.links.shelvesOut.toNat.testBit x)
      ∨ (l.unitMask &&& s.links.pairsOut) ≠ 0 then stENGINE_ABSENT
  else if others.any l.meets then stCONFIG
  else if 1 < l.hostPort.toNat ∨ 1 < l.excl.toNat ∨ 2 < l.cls.toNat then stCONFIG
  else if 2 ^ 48 ≤ l.ctxMask.toNat ∨ 2 ^ 28 ≤ l.unitMask.toNat then stCONFIG
  else if others.any fun m => (l.ctxMask &&& m.ctxMask) != 0 || (l.unitMask &&& m.unitMask) != 0 then stCONFIG
  else if !exclusiveOk (l :: others) then stCONFIG
  else if l.shelves.any fun x => !old.contains x && s.tenancy.clearing.any fun y => y.2 == x then stCONFIG
  else stDONE

/-- The shelves that a layout commit zeros (R432). -/
def State.shelvesToZero (s : State) (p : Nat) : List Nat :=
  let o := (s.part p).layout.live
  let l := (s.part p).layout.sh
  let rehome := o.tenant ≠ l.tenant ∨ o.hostPort ≠ l.hostPort
  (o.shelves.filter fun x => rehome || !l.shelves.contains x)
    ++ l.shelves.filter fun x => !o.shelves.contains x && !s.tenancy.cleanShelves.contains x

/-- A layout that takes effect: shelves zeroed, the descriptor table cleared where every shelf of the
partition was zeroed or the partition is new (R432), and the partition zeroing until the clearing ends. -/
def State.applyLayout (s : State) (p : Nat) : State :=
  let q := s.part p
  let o := q.layout.live
  let l := q.layout.sh
  let z := s.shelvesToZero p
  let whole := o.count = 0 ∨ o.shelves.all z.contains
  let s := z.foldl State.zeroShelf s
  let s := { s with tenancy := { s.tenancy with
      cleanShelves := (z ++ l.shelves).foldl insertNat s.tenancy.cleanShelves,
      clearing := s.tenancy.clearing ++ z.map (fun x => (p, x)) } }
  let s := { s with fw := { s.fw with laidOut := s.fw.laidOut || l.count != 0 } }
  s.updPart p fun q => { q with
    layout := ⟨l, l⟩,
    descs := if whole then [] else q.descs,
    clearing := q.clearing || !z.isEmpty,
    state := if !z.isEmpty || q.clearing then .zeroing else if l.count = 0 then .absent else .stopped,
    patState := if o.count = 0 then .empty else q.patState,
    pattern := if o.count = 0 then none else q.pattern,
    armed := if o.count = 0 then none else q.armed }

/-- A commit of a group of partition p: refused with reason 5 while p runs (R551), else judged; the group's
status entry records the judgement. -/
def State.groupCommit (s : State) (p : Nat) (judge : State → Half) (apply : State → State)
    (note : State → Half → State) : State × Answer :=
  if (s.part p).active then (s, (stCONFIG, 5))
  else
    let st := judge s
    if st = stDONE then (note (apply s) st, (st, 0)) else (note s st, (st, 7))

/-- Before ready, a commit of 0x2101, 0x2102, 0x2300 or 0x2600 to 0x2602 is refused with reason 10 (R621). -/
def State.afterReady (s : State) (f : State → State × Answer) : State × Answer :=
  if s.isReady then f s else (s, (stCONFIG, 10))

/-- commit_status at 0x2603:08. -/
def State.noteLayout (s : State) (st : Half) : State :=
  { s with mgmt := { s.mgmt with layoutStatus := st } }

/-- layout_commit_p. -/
def State.commitLayout (s : State) (p : Nat) : State × Answer :=
  s.afterReady fun s => s.groupCommit p (fun s => s.layoutStatus p) (fun s => s.applyLayout p) State.noteLayout

/-- LAYOUT_COMMIT. -/
def execLayoutCommit (part : Fin 16) (s : State) : Host.Outcome State Fault Refusal :=
  .next (s.commitLayout part).1

/-! ### Guarantees (R451, R455, R456) -/

/-- Flits per stitch of one port of an axis (R370). -/
def axisCapacity (axis : Nat) : Nat := match axis with | 0 => 115571 | 1 => 57785 | _ => 28892

/-- sched_limit of an axis (R451). -/
def State.schedLimit (s : State) (axis : Nat) : Nat :=
  axisCapacity axis * (16 - s.tenancy.otherShare.toNat) / 16

/-- Whether a fabric port is enabled in the live route group. -/
def State.portEnabled (s : State) (k : Nat) : Bool := s.fabric.route.live.portEnable.toNat.testBit k

/-- inject_capacity: half of what R451 keeps, over the ports neither held nor out of service (R455). -/
def State.injectCapacity (s : State) : Nat :=
  (((List.range 6).filter fun k => s.portEnabled k && decide ((s.link k).state.toNat ≤ 5)).map fun k =>
    axisCapacity (k / 2) - s.schedLimit (k / 2)).sum / 2

/-- hbm_capacity. -/
def hbmCapacity : Nat := 64

/-- The reduction of R456 over (now) values by partition. -/
def reduceShares (cls : Nat → Nat) (least : Nat → Nat) (capacity : Nat) : List Nat × List Nat :=
  let now := (List.range 16).map least
  let order := [2, 1, 0].flatMap fun k => ((List.range 16).reverse).filter fun p => cls p = k
  let r := order.foldl (fun (a : List Nat × Nat × List Nat) p =>
    let cut := min (a.1.getD p 0) a.2.1
    if cut = 0 then a else (a.1.set p (a.1.getD p 0 - cut), a.2.1 - cut, a.2.2 ++ [p]))
    (now, now.sum - capacity, [])
  (r.1, r.2.2)

/-- A record in the tenancy ring (R465). -/
def State.recordReduced (s : State) (resource : Nat) (marked : List Nat) (capacity : Nat) : State :=
  let r := leBytes 2 stREDUCED.toNat ++ leBytes 1 resource ++ [0] ++ leBytes 2 (maskOf marked) ++ [0, 0]
    ++ leBytes 4 s.stitch32 ++ leBytes 4 capacity
  { s with tenancy := { s.tenancy with
      reduced := s.tenancy.reduced + 1, taken := s.tenancy.taken + 1,
      ring := pushRing 64 s.tenancy.ring r } }

/-- inject_now_p recomputed from the minima (R456). -/
def State.refreshInject (s : State) : State :=
  let cap := s.injectCapacity
  let r := reduceShares (fun p => (s.part p).layout.live.cls.toNat)
    (fun p => (s.part p).guar.live.inject.toNat) cap
  let s := (List.range 16).foldl (fun s p =>
    s.updPart p fun q => { q with injectNow := BitVec.ofNat 32 (r.1.getD p 0) }) s
  if r.2.isEmpty then s else s.recordReduced 0 r.2 cap

/-- A state t reached from s: inject_now_p is recomputed only where inject_capacity fell or came back (R456). -/
def State.afterCapacity (s t : State) : State :=
  if t.injectCapacity = s.injectCapacity then t else t.refreshInject

/-- hbm_now_p recomputed from the minima (R456). -/
def State.refreshHbm (s : State) : State :=
  let r := reduceShares (fun p => (s.part p).layout.live.cls.toNat)
    (fun p => (s.part p).guar.live.hbm.toNat) hbmCapacity
  let s := (List.range 16).foldl (fun s p =>
    s.updPart p fun q => { q with hbmNow := BitVec.ofNat 8 (r.1.getD p 0) }) s
  if r.2.isEmpty then s else s.recordReduced 1 r.2 hbmCapacity

/-- A sum over all partitions, with p's own minima taken from its shadow. -/
def State.sumMinima (s : State) (p : Nat) (f : Guar → Nat) : Nat :=
  ((List.range 16).map fun q => f (if q = p then (s.part q).guar.sh else (s.part q).guar.live)).sum

/-- The status of a guarantee commit (R455). -/
def State.guaranteeStatus (s : State) (p : Nat) : Half :=
  let t := s.sumMinima p
  if t (·.inject.toNat) ≤ s.injectCapacity ∧ t (·.hbm.toNat) ≤ hbmCapacity
      ∧ t (·.skein.toNat) ≤ 4096 ∧ t (·.rxctx.toNat) ≤ 16384 ∧ t (·.ledger.toNat) ≤ 4096
      ∧ t (·.gather.toNat) ≤ 8192 then stDONE else stCONFIG

/-- guarantee_commit_p: the new minima are in force. -/
def State.commitGuarantee (s : State) (p : Nat) : State × Answer :=
  s.afterReady fun s => s.groupCommit p (fun s => s.guaranteeStatus p)
    (fun s => ((s.updPart p fun q => { q with guar := ⟨q.guar.sh, q.guar.sh⟩ }).refreshInject).refreshHbm)
    State.noteLayout

/-- GUARANTEE_COMMIT. -/
def execGuaranteeCommit (part : Fin 16) (s : State) : Host.Outcome State Fault Refusal :=
  .next (s.commitGuarantee part).1

/-! ### Placement (R445, R446, R449) -/

/-- Whether the extents of a box fit the route group. -/
def State.boxFits (s : State) (size : Half) : Bool :=
  (List.range 3).all fun a => decide (boxExtent size a ≤ s.fabric.route.live.size a)

/-- Whether a peer box entry is well formed. R449 does not say what makes one malformed: here it is a valid field
above 1, or in an entry whose valid is 1 a partition above 15 or an extent above the route group's size; nothing
is judged in an entry whose valid is 0, nor where its box lies (DESIGN CHOICE, log entry 115). Its reserved field
is never set (R11). -/
def State.peerOk (s : State) (b : List Byte) : Bool :=
  leAt b 0 1 == 0 || (leAt b 0 1 == 1 && decide (leAt b 1 1 < 16)
    && s.boxFits (BitVec.ofNat 16 (leAt b 4 2)))

/-- The status of a placement commit (R449): its cases hold for a slice_tag of 0 too, which removes the
placement. -/
def State.placementStatus (s : State) (p : Nat) : Half :=
  let q := (s.part p).place.sh
  if (s.part p).patterned then stCONFIG
  else if s.boxFits q.size && s.inBox q.lo q.size s.myId
      && (List.range 4).all fun i => s.peerOk (takeAt q.peers (8 * i) 8) then stDONE
  else stCONFIG

/-- Whether a slice runs an axis as a line (R446). -/
def State.axisLine (s : State) (q : Place) (axis : Nat) : Bool :=
  !(boxExtent q.size axis == s.fabric.route.live.size axis
    && !(s.fabric.route.live.axisMode.toNat.testBit axis))

/-- axis_modes_p (R446). -/
def State.axisModes (s : State) (q : Place) : Byte :=
  if q.tag = 0 then 0
  else BitVec.ofNat 8 (((List.range 3).filter (s.axisLine q)).foldl (fun m a => m ||| 1 <<< a) 0)

/-- axis_modes_p recomputed for a partition. -/
def State.refreshModes (s : State) (p : Nat) : State :=
  s.updPart p fun q => { q with axisModes := s.axisModes q.place.live }

/-- The origin of an axis of a slice (R446). -/
def State.axisOrigin (s : State) (q : Place) (axis : Nat) : Nat :=
  if s.axisLine q axis && boxExtent q.size axis == s.fabric.route.live.size axis then
    match axis with
    | 0 => s.fabric.route.live.seamX.toNat
    | 1 => s.fabric.route.live.seamY.toNat
    | _ => s.fabric.route.live.seamZ.toNat
  else coordOf (fld q.lo 0 13) axis

/-- The position of this module on an axis of a slice: (coordinate − origin) mod size (R310, R446). -/
def State.positionIn (s : State) (q : Place) (axis : Nat) : Nat :=
  let n := s.fabric.route.live.size axis
  (coordOf s.myId axis + n - s.axisOrigin q axis % n) % n

/-- placement_commit_p. -/
def State.commitPlacement (s : State) (p : Nat) : State × Answer :=
  s.afterReady fun s => s.groupCommit p (fun s => s.placementStatus p)
    (fun s => (s.updPart p fun q => { q with place := ⟨q.place.sh, q.place.sh⟩ }).refreshModes p)
    State.noteLayout

/-- PLACEMENT_COMMIT. -/
def execPlacementCommit (part : Fin 16) (s : State) : Host.Outcome State Fault Refusal :=
  .next (s.commitPlacement part).1

/-! ### Windows and larder (R128, R433) -/

/-- End of populated HBM in units of 256 KiB. -/
def hbmUnits : Nat := 5859375

/-- Whether two unit ranges meet. -/
def unitsMeet (x y : Nat × Nat) : Bool := decide (x.1 < y.2) && decide (y.1 < x.2)

/-- Units still being zeroed (R433). -/
def State.unitsClearing (s : State) : List (Nat × Nat) :=
  (List.range 16).flatMap fun q => match (s.part q).waitingWindows with
    | some ws => removedUnits (s.part q).windows.live ws
    | none => []

/-- Whether a larder area lies inside one of a partition's windows. -/
def LarderArea.within (l : LarderArea) (ws : List (Word × Word)) : Bool :=
  (unitRanges ws).any fun r => decide (r.1 ≤ l.base.toNat) && decide (l.base.toNat + l.len.toNat ≤ r.2)

/-- The status of a window commit. Windows that wait for zeroing (R433) count as the windows of their partition
already: they take effect with no further check. -/
def State.windowStatus (s : State) (p : Nat) : Half :=
  let ws := (s.part p).windows.sh
  let rs := unitRanges ws
  let others := ((List.range 16).filter (· ≠ p)).flatMap fun q =>
    unitRanges (s.part q).windows.live ++ unitRanges ((s.part q).waitingWindows.getD [])
  let la := (s.part p).larder.live
  if rs.any fun r => decide (hbmUnits < r.2) then stCONFIG
  else if rs.zipIdx.any fun x => rs.zipIdx.any fun y => x.2 != y.2 && unitsMeet x.1 y.1 then stCONFIG
  else if rs.any fun x => others.any (unitsMeet x) then stCONFIG
  else if rs.any fun x => s.unitsClearing.any (unitsMeet x) then stCONFIG
  else if la.len ≠ 0 ∧ !la.within ws then stCONFIG
  else stDONE

/-- Windows that take effect at once, or wait while removed units are zeroed (R433, R434). -/
def State.applyWindows (s : State) (p : Nat) : State :=
  s.updPart p fun q =>
    if (removedUnits q.windows.live q.windows.sh).isEmpty then { q with windows := ⟨q.windows.sh, q.windows.sh⟩ }
    else { q with waitingWindows := some q.windows.sh, clearing := true,
                  state := if q.state = .absent ∨ q.state = .stopped then .zeroing else q.state }

/-- window_commit_p; a further commit while one waits is answered with reason 10 (R554). -/
def State.commitWindows (s : State) (p : Nat) : State × Answer :=
  if (s.part p).waitingWindows.isSome then (s, (stCONFIG, 10))
  else s.afterReady fun s => s.groupCommit p (fun s => s.windowStatus p) (fun s => s.applyWindows p) (fun s _ => s)

/-- WINDOW_COMMIT. -/
def execWindowCommit (part : Fin 16) (s : State) : Host.Outcome State Fault Refusal :=
  .next (s.commitWindows part).1

/-- The status of a larder commit: inside a window, and inside one of those that wait to take effect. -/
def State.larderStatus (s : State) (p : Nat) : Half :=
  let l := (s.part p).larder.sh
  if l.len = 0 then stDONE
  else if l.base.toNat + l.len.toNat ≤ hbmUnits ∧ l.within (s.part p).windows.live
      ∧ ((s.part p).waitingWindows.map l.within).getD true then stDONE
  else stCONFIG

/-- larder_commit_p. -/
def State.commitLarder (s : State) (p : Nat) : State × Answer :=
  s.afterReady fun s => s.groupCommit p (fun s => s.larderStatus p)
    (fun s => s.updPart p fun q => { q with larder := ⟨q.larder.sh, q.larder.sh⟩ }) (fun s _ => s)

/-- LARDER_COMMIT. -/
def execLarderCommit (part : Fin 16) (s : State) : Host.Outcome State Fault Refusal :=
  .next (s.commitLarder part).1

/-! ### Host aperture (R507, R533) -/

/-- The status of an aperture commit. -/
def State.apertureStatus (s : State) (p : Nat) : Half :=
  let a := (s.part p).aper.sh
  if a.base.toNat % 4096 = 0 ∧ a.len.toNat % 4096 = 0 ∧ a.base.toNat + a.len.toNat ≤ 2 ^ 46
      ∧ a.cacheable.toNat < 16 then stDONE else stCONFIG

/-- The group takes effect; lines held in windows that are cacheable no more are recalled first, and it waits for them
(R507). -/
def State.applyAperture (s : State) (p : Nat) : State :=
  let q := s.part p
  let s := (q.uncached q.aper.sh).foldl (fun s r => s.recallFor r.1 r.2 true) s
  (s.updPart p fun q => { q with waitingAper := some q.aper.sh }).settleAperture p

/-- aperture_commit_p; a further commit while one waits is answered with reason 10 (R554). -/
def State.commitAperture (s : State) (p : Nat) : State × Answer :=
  if (s.part p).waitingAper.isSome then (s, (stCONFIG, 10))
  else s.groupCommit p (fun s => s.apertureStatus p) (fun s => s.applyAperture p) (fun s _ => s)

/-- APERTURE_COMMIT. -/
def execApertureCommit (part : Fin 16) (s : State) : Host.Outcome State Fault Refusal :=
  .next (s.commitAperture part).1

/-! ### Small clears -/

/-- LEDGER_CLEAR: the partition's ledger entries are freed (R336). Refused while the partition runs, as the
rws entry it is. -/
def execLedgerClear (part : Fin 16) (s : State) : Host.Outcome State Fault Refusal :=
  .next (if (s.part part).active then s
    else { s with coll := { s.coll with ledger := s.coll.ledger.filter (·.part != part.val) } })

/-- STATS_CLEAR: the partition's statistics ring is emptied (R423). -/
def execStatsClear (part : Fin 16) (s : State) : Host.Outcome State Fault Refusal :=
  .next (if (s.part part).active then s else s.updPart part fun q => { q with stats := [] })

end Sys2Proof.Machine
end

