-- ==== Sys2Proof/Machine/Tensor.lean ====
section
/-! DEFINITION. Machine/Tensor.lean: MATMUL on the tensor array: issue, tiles, drains (R177 to R199, R48 to
R52, R68 to R74). -/

namespace Sys2Proof.Machine

/-- The trip counts of the contraction levels, and of the tile levels (R179). -/
def Entry.innerTrips (e : Entry) : List Nat := e.trips.take e.cLevels
def Entry.outerTrips (e : Entry) : List Nat := e.trips.drop e.cLevels

/-- Tiles of a MATMUL (R179). -/
def Entry.tileCount (e : Entry) : Nat := e.outerTrips.foldl (· * ·) 1

/-- The indices at the tile levels of tile t, level c fastest. -/
def tileIndex : List Nat → Nat → List Nat
  | [], _ => []
  | n :: ns, t => (t % n) :: tileIndex ns (t / n)

/-- The index vectors of tile t, in level order (R181). -/
def Entry.tileVectors (e : Entry) (t : Nat) : List (List Nat) :=
  (indexVectors e.innerTrips).map (· ++ tileIndex e.outerTrips t)

/-- Position of element (k, m) of A's window, and of element (n, k) of B's (R149, R178). -/
def aPos (sl : Slot4) (o : Pos) (k m : Nat) : Pos :=
  if sl.transpose then shiftPos (shiftPos o 1 k) 0 m else shiftPos (shiftPos o 0 k) 1 m
def bPos (sl : Slot4) (o : Pos) (k n : Nat) : Pos :=
  if sl.transpose then shiftPos (shiftPos o 0 k) 1 n else shiftPos (shiftPos o 1 k) 0 n

/-- Positions in a group (R182). -/
def groupSize (fmt : Nat) : Nat :=
  if isMx fmt then 32 else if fmt = 1 ∨ fmt = 2 then 1 else 2

/-- The scale of the MX block a group reads; a block that lies wholly outside the tensor holds zeros (R148),
under the factor 1. -/
def blockScale (d : Desc) (rd : Reader) (p : Pos) : Nat :=
  if d.inBounds p then d.scaleOf rd p else 127

/-- An element of an MX block before its scale; outside, zero (R47, R148). -/
def mxElementAt (d : Desc) (rd : Reader) (p : Pos) : Num :=
  if d.inBounds p then mxDecode d.fmt (d.rawBits rd p) else Num.zero

/-- An exact sum of products, with the flags of its operations (R49, R50, R77). It starts at +0, so a group
whose products are all -0 sums to +0: R50 gives the exact sum and no order of additions that would keep the
sign (DESIGN CHOICE, log entry 103). -/
def sumProducts (ps : List (Num × Num)) : Num × Half :=
  ps.foldl (fun (a : Num × Half) xy =>
    let p := mulX xy.1 xy.2
    let t := addX .rne a.1 p.1
    (t.1, a.2 ||| p.2 ||| t.2)) (Num.zero, 0)

/-- A group of g products, those that are missing zero (R182): in groups of one a product keeps the sign of its
zero; elsewhere a zero product more leaves the sum as it is. -/
def sumGroup (g : Nat) (ps : List (Num × Num)) : Num × Half :=
  match ps with
  | [xy] => if g = 1 then mulX xy.1 xy.2 else sumProducts ps
  | _ => sumProducts ps

/-- A value times 2^e. -/
def Num.scaleBy (x : Num) (e : Int) : Num :=
  match x with
  | .fin n m f => .fin n m (f + e)
  | y => y

/-- The exact value of a group and its flags, from element positions ks of the chunk (R50, R61, R68). -/
def groupValue (a b : Desc) (rd : Reader) (daz : Bool) (pa pb : Nat → Pos) (ks : List Nat) :
    Num × Half :=
  if isMx a.fmt then
    let k0 := ks.headD 0
    let x := blockScale a rd (pa k0)
    let y := blockScale b rd (pb k0)
    if x = 0xFF ∨ y = 0xFF then (.nan, fSCALENAN ||| fNANIN)
    else
      let t := sumProducts (ks.map fun k => (mxElementAt a rd (pa k), mxElementAt b rd (pb k)))
      (Num.scaleBy t.1 ((x : Int) + y - 254), t.2)
  else
    let ops := ks.map fun k => (a.operand rd daz (pa k), b.operand rd daz (pb k))
    let t := sumGroup (groupSize a.fmt) (ops.map fun o => (o.1.1, o.2.1))
    (t.1, ops.foldl (fun f o => f ||| o.1.2 ||| o.2.2) t.2)

/-- The positions of a chunk in groups; those that the last group lacks are zero products (R182). -/
def chunkGroups (k g : Nat) : List (List Nat) :=
  (List.range (ceilDiv k g)).map fun i => ((List.range g).map (g * i + ·)).filter (· < k)

/-- An accumulator element: a pair, or an integer for an INT8 pair (R48). -/
inductive Acc where
  | pair (p : PairN)
  | int (i : Int)
  deriving DecidableEq, Repr

/-- The exact integer of a value that is one. -/
def Num.asInt (x : Num) : Int :=
  match x with
  | .fin n m e => let v : Int := (m * 2 ^ e.toNat : Nat); if n then -v else v
  | _ => 0

/-- One group added to an accumulator element (R52, R69, R70, R73). -/
def addGroup (comp : Bool) (acc : Acc) (g : Num) : Acc × Half :=
  match acc with
  | .pair p => let r := addTerm comp p g; (.pair r.1, r.2)
  | .int i => let r := clampInt 32 (i + Num.asInt g); (.int r.1, r.2)

/-- Element (i, j) of a bank as stored. -/
def State.bankElem (s : State) (c bank : Nat) (isInt : Bool) (i j : Nat) : Acc :=
  let a := bankAddr c bank i j
  if isInt then .int (signed 32 (memWord s.mem a).toNat)
  else .pair (settle ⟨f32 (memWord s.mem a), f32 (memWord s.mem (a + 0x4000))⟩)

/-- A cell's work in a tile: its groups of every iteration in order, from its start value (R51, R74, R181). -/
def cellRun (k : Checked) (a b : Desc) (rd : Reader) (e : Env) (ivs : List (List Nat)) (start : Acc)
    (m n : Nat) : Acc × Half :=
  let sa := k.entry.slot 8
  let sb := k.entry.slot 12
  let gs := chunkGroups k.entry.kChunk (groupSize a.fmt)
  ivs.foldl (fun acc iv =>
    let oa := originOf sa.levels iv
    let ob := originOf sb.levels iv
    gs.foldl (fun (acc : Acc × Half) ks =>
      let g := groupValue a b rd e.daz (fun k => aPos sa oa k m) (fun k => bPos sb ob k n) ks
      let r := addGroup e.comp acc.1 g.1
      (r.1, acc.2 ||| g.2 ||| r.2)) acc) (start, 0)

/-- The byte range of an element of an operand, and of its scale. -/
def Desc.elemRanges (d : Desc) (p : Pos) : List (Nat × Nat) :=
  if d.inBounds p then
    if isMx d.fmt then
      let lo := p.getD 0 0 * elemBits d.fmt
      [(addrLocal (d.addrOf p) + lo / 8, ceilDiv (lo % 8 + elemBits d.fmt) 8),
       (addrLocal (d.scaleAddr p), 1)]
    else [(addrLocal (d.addrOf p), elemBits d.fmt / 8)]
  else []

/-- The bytes one iteration reads of A and B. -/
def iterRanges (k : Checked) (a b : Desc) (iv : List Nat) : List (Nat × Nat) :=
  let sa := k.entry.slot 8
  let sb := k.entry.slot 12
  let oa := originOf sa.levels iv
  let ob := originOf sb.levels iv
  (List.range k.entry.kChunk).flatMap fun q => (List.range 64).flatMap fun x =>
    a.elemRanges (aPos sa oa q x) ++ b.elemRanges (bPos sb ob q x)

/-- Whether a range read holds a line poisoned already, or an address that an Ecc report calls bad. -/
def State.badRead (s : State) (e : Ecc) (rs : List (Nat × Nat)) : Bool :=
  (s.poisonRead rs) != [] || (e.cellarBad.any fun a => inRanges rs a && addrRegion a == 1)
    || (e.hbmBad ++ e.parityBad).any fun a => inRanges rs a && addrRegion a == 0

/-- The iterations that run before a read fails (R196), and whether one fails. -/
def State.goodIterations (s : State) (e : Ecc) (rs : List Nat → List (Nat × Nat))
    (ivs : List (List Nat)) : List (List Nat) :=
  ivs.takeWhile fun iv => !s.badRead e (rs iv)

/-- The value-plane and compensation-plane bytes of a bank after a tile. -/
def planeBytes (cells : List (Acc × Half)) : List Byte × List Byte :=
  (cells.flatMap fun x => match x.1 with
      | .pair p => leBytes 4 (encode fp32 p.s)
      | .int i => leBytes 4 (unsigned 32 i),
   cells.flatMap fun x => match x.1 with
      | .pair p => leBytes 4 (encode fp32 p.c)
      | .int _ => [])

/-- The 64 × 64 element indices of a bank, in plane order (R92, R177). -/
def bankIndices : List (Nat × Nat) :=
  (List.range 64).flatMap fun i => (List.range 64).map fun j => (i, j)

/-- A tile's arithmetic: the bank after it and its flags (R181). -/
def State.runTile (s : State) (c : Nat) (k : Checked) (a b : Desc) (e : Env) (t : Nat)
    (ivs : List (List Nat)) : State × Half :=
  let bank := k.entry.bank t
  let isInt := a.fmt == 5
  let rd := memReader s.mem
  let start := fun (ij : Nat × Nat) =>
    if k.entry.accumulate then s.bankElem c bank isInt ij.1 ij.2
    else if isInt then Acc.int 0 else Acc.pair PairN.zero
  let cells := bankIndices.map fun ij => cellRun k a b rd e ivs (start ij) ij.1 ij.2
  let bytes := planeBytes cells
  let s := s.storeRun (bankAddr c bank 0 0) bytes.1
  let s := if isInt then s else s.storeRun (bankAddr c bank 0 0 + 0x4000) bytes.2
  (s, cells.foldl (fun f x => f ||| x.2) 0)

/-- MATMUL issues on an idle array (R132, R181); its tiles follow. -/
def execMatmul (core : Fin 512) (s : State) : Host.Outcome State Fault Refusal :=
  let c := core.val
  .next (s.issue c (fun e => e.kind == 1) fun s _ k =>
    (s.popHead c).takeBallast.updCore c fun x => { x with
      tensor := some { chk := k, tiles := k.entry.tileCount, next := 0, undrained := [], kept := [], flags := 0,
                       bad := none, stale := false } })

/-- Whether the next tile of a run may start (R190, R191, R199). -/
def State.tileReady (s : State) (c : Nat) (r : TensorRun) : Bool :=
  let e := r.chk.entry
  decide (r.next < r.tiles) && r.bad.isNone && !r.stale
    && !((e.drain != 0) && (r.undrained.map e.bank).contains (e.bank r.next))
    && !s.bankTouched c (e.bank r.next)

/-- The modes a core's partition gives an entry. -/
def State.envOf (s : State) (c : Nat) (e : Entry) : Env :=
  match s.partOf c with
  | some p => e.env (s.part p).latched
  | none => e.env Part.reset.latched

/-- TILE_START (R179 to R182, R191, R196): the next tile of core c's MATMUL runs in its bank. -/
def State.tileStart (s : State) (c : Nat) (ecc : Ecc) : State :=
  match (s.core c).tensor with
  | none => s
  | some r =>
    match r.chk.desc 8, r.chk.desc 12 with
    | some a, some b =>
      if !s.tileReady c r then s
      else
        let e := r.chk.entry
        let ivs := e.tileVectors r.next
        let good := s.goodIterations ecc (iterRanges r.chk a b) ivs
        let t := s.runTile c r.chk a b (s.envOf c e) r.next good
        let u := t.1.readErrors (ivs.take (good.length + 1) |>.flatMap (iterRanges r.chk a b)) ecc
        u.1.updCore c fun x => { x with
          tensor := some { r with
            next := r.next + 1, flags := r.flags ||| t.2, bad := u.2,
            undrained := if e.drain = 0 ∨ u.2.isSome then r.undrained else r.undrained ++ [r.next],
            kept := if e.drain ≠ 0 ∧ u.2.isSome then r.kept ++ [r.next] else r.kept } }
    | _, _ => s

/-- TILE_START. -/
def execTileStart (core : Fin 512) (ecc : Ecc) (s : State) : Host.Outcome State Fault Refusal :=
  .next (s.tileStart core ecc)

/-- The position in D of element (m, n) of tile t: from the origin of the tile's last iteration (R189). -/
def drainPos (k : Checked) (t m n : Nat) : Pos :=
  let iv := (k.entry.innerTrips.map (· - 1)) ++ tileIndex k.entry.outerTrips t
  shiftPos (shiftPos (originOf (k.entry.slot 16).levels iv) 0 n) 1 m

/-- What a drain writes: bytes by global address, and flags (R189). -/
def State.drainWrites (s : State) (c : Nat) (k : Checked) (isInt : Bool) (d : Desc) (e : Env) (t : Nat) :
    List (Nat × Byte) × Half :=
  let rd := memReader s.mem
  let bank := k.entry.bank t
  let elem := fun (ij : Nat × Nat) => s.bankElem c bank isInt ij.1 ij.2
  if k.entry.drain = 1 then
    d.storeBatch rd e (bankIndices.map fun ij =>
      (drainPos k t ij.1 ij.2, match elem ij with
        | .pair p => pairExact (e.mode d.key 0) p
        | .int i => Num.ofInt i))
  else
    bankIndices.foldl (fun (acc : List (Nat × Byte) × Half) ij =>
      let pos := drainPos k t ij.1 ij.2
      match elem ij with
      | .pair p =>
        if k.entry.drain = 2 then (acc.1 ++ d.storePair pos p, acc.2)
        else
          let r := combine e.comp (settle (d.pairAt rd pos)) p
          (acc.1 ++ d.storePair pos r.1,
           if d.inBounds pos then acc.2 ||| r.2 ||| d.pairFlags rd pos else acc.2)
      | .int _ => acc) ([], 0)

/-- The bytes a drain reads: one of 3 its pairs, one of 1 the blocks of an MX destination that it writes in part
(R628). -/
def drainRanges (k : Checked) (d : Desc) (t : Nat) : List (Nat × Nat) :=
  let ps := bankIndices.map fun ij => drainPos k t ij.1 ij.2
  if k.entry.drain = 3 then ps.filterMap fun p => if d.inBounds p then some (addrLocal (d.addrOf p), 8) else none
  else if k.entry.drain = 1 then (d.blockReads ps).map fun r => (addrLocal r.1, r.2)
  else []

/-- ACCUMULATOR_DRAIN (R189 to R195): the oldest tile not yet drained goes to D, one that was under way when
an operand read failed included (R196). A drain whose own read fails is the last, and so is one whose D
a hold has come to keep since the command issued (R125, R414). -/
def State.drainTile (s : State) (c : Nat) (ecc : Ecc) : State :=
  match (s.core c).tensor with
  | none => s
  | some r =>
    match r.undrained, r.chk.desc 16, r.chk.desc 8 with
    | t :: rest, some d, some a =>
      let u := s.readErrors (drainRanges r.chk d t) ecc
      if u.2.isSome then
        u.1.updCore c fun x => { x with
          tensor := some { r with
            bad := if r.bad.isSome then r.bad else u.2, undrained := [], kept := r.kept ++ r.undrained } }
      else
        let w := u.1.drainWrites c r.chk (a.fmt == 5) d (s.envOf c r.chk.entry) t
        match s.heldAgainst c s.gatherHolds ((toLocal w.1).map fun b => (b.1, 1)) with
        | some counted => (u.1.noteStale counted).updCore c fun x => { x with
            tensor := some { r with stale := true, undrained := [], kept := r.kept ++ r.undrained } }
        | none => (u.1.storeBytes (toLocal w.1)).updCore c fun x => { x with
          tensor := some { r with undrained := rest, flags := r.flags ||| w.2 } }
    | _, _, _ => s

/-- ACCUMULATOR_DRAIN. -/
def execAccumulatorDrain (core : Fin 512) (ecc : Ecc) (s : State) : Host.Outcome State Fault Refusal :=
  .next (s.drainTile core ecc)

/-- The pairs that a MATMUL has drained into are part of what its step accumulates: a discard leaves them undefined
(R245, R485). A step's pairs are remembered until the step after the next begins (DESIGN CHOICE, log entry 140). -/
def State.noteAccum (s : State) (p : Nat) (k : Checked) : State :=
  let q := s.part p
  if k.entry.drain < 2 ∨ q.patState ≠ .running then s
  else s.updPart p fun q => { q with sched := { q.sched with
    accum := q.sched.accum ++ (k.writeExtents.filter fun x =>
      !(q.sched.accum.contains (x.1, x.2, q.sched.step))).map fun x => (x.1, x.2, q.sched.step) } }

/-- A MATMUL's completion: with DONE once its last tile is drained, with ECC_UNCORRECTABLE once a read has
failed and the drain under way has ended (R135, R196), with STALE_SHARD once a hold has refused a drain (R414). -/
def State.finishTensor (s : State) (p c : Nat) : State :=
  match (s.core c).tensor with
  | none => s
  | some r =>
    let gone := fun (s : State) => s.updCore c fun x => { x with tensor := none }
    match r.bad with
    | some a => if r.undrained ≠ [] then s else (gone s).failRead p c r.chk.entry r.flags a
    | none =>
      if r.stale then (gone s).complete p c r.chk.entry stSTALE_SHARD r.flags false
      else if r.next < r.tiles ∨ r.undrained ≠ [] then s
      else ((gone s).noteAccum p r.chk).complete p c r.chk.entry stDONE r.flags true

end Sys2Proof.Machine
end

