-- ==== Sys2Proof/Machine/Vector.lean ====
section
/-! DEFINITION. Machine/Vector.lean: VECTOR on the vector engine, the function unit and its tables (R203 to
R224, R630). -/

namespace Sys2Proof.Machine

/-! ### The function unit (R219 to R224) -/

/-- Field i of a table image as a value. -/
def tableF (t : List Word) (i : Nat) : Num := f32 (t.getD i 0)

/-- hi - lo of an image, exactly: the exponent p where it is 2^p. -/
def tableP (t : List Word) : Option Int :=
  match (addX .rne (tableF t 2) (tableF t 1).negate).1 with
  | .fin false m e => if m ≠ 0 ∧ m = 2 ^ (bitLen m - 1) then some ((bitLen m : Int) - 1 + e) else none
  | _ => none

/-- The checks of a table image (R223). -/
def tableOk (t : List Word) : Bool :=
  t.getD 0 0 == 0x464E0001
    && (List.range 2056).all (fun i => i == 0 || i == 7 || (tableF t i).finite)
    && match tableP t with
      | some p => decide (-14 ≤ p) && decide (p ≤ 40)
      | none => false

/-- An exact non-negative value as m * 2^e. -/
def Num.mag : Num → Nat × Int
  | .fin _ m e => (m, e)
  | _ => (0, 0)

/-- fn_table of R222 before its rounding; md signs an exact zero sum. -/
def tableX (md : Mode) (t : List Word) (x : Num) : Num × Half :=
  match x with
  | .nan => (.nan, 0)
  | .inf n =>
    let a := tableF t (if n then 3 else 5)
    if a.isZero then (tableF t (if n then 4 else 6), 0)
    else match a with
      | .fin na _ _ => (.inf (na != n), 0)
      | _ => (.nan, 0)
  | _ =>
    if cmpNum x (tableF t 1) == some .lt then fmaX md (tableF t 3) x (tableF t 4)
    else if cmpNum x (tableF t 2) != some .lt then fmaX md (tableF t 5) x (tableF t 6)
    else
      let p := (tableP t).getD 0
      let u := (to32 .rtz (addX .rne x (tableF t 1).negate).1).1.mag
      let sh := u.2 + 10 - p
      let i := if 0 ≤ sh then u.1 * 2 ^ sh.toNat else u.1 / 2 ^ (-sh).toNat
      let f := (addX .rne (.fin false u.1 u.2) (.fin true i (p - 10))).1
      fmaX md (tableF t (9 + 2 * i)) f (tableF t (8 + 2 * i))

/-- Function b of FN before its rounding (R219). -/
def fnX (md : Mode) (fn0 fn1 : Option (List Word)) (b : Nat) (x : Num) : Num × Half :=
  match b with
  | 0 => tableX md (fn0.getD []) x
  | 1 => tableX md (fn1.getD []) x
  | _ => fixedFn b x

/-! ### Registers and lanes (R203 to R212) -/

/-- An iteration context: the vector registers and masks that have been written, the flags so far, the bytes read,
and whether a read has failed, after which nothing more of the command runs (R102). -/
structure Lanes where
  regs : Sparse (List Num)
  masks : Sparse (List Bool)
  flags : Half
  reads : List (Nat × Nat)
  bad : Bool
  deriving DecidableEq, Repr

/-- What stays the same through a command. -/
structure VecRun where
  chk : Checked
  env : Env
  wide : Bool
  fn0 : Option (List Word)
  fn1 : Option (List Word)
  deriving DecidableEq, Repr

/-- Lanes of a group (R203, R205). -/
def VecRun.width (v : VecRun) : Nat := if v.wide then 128 else 64

/-- The register format. -/
def VecRun.fmt (v : VecRun) : Fmt := if v.wide then bf16 else fp32

/-- A result rounded into a register (R208, R209): no flush (R61). INEXACT (R82): the one rounding of an
instruction's result, of a load that has to round and of a stored element each count as final (DEDUCED, log
entry 104). -/
def VecRun.round (v : VecRun) (x : Num × Half) : Num × Half :=
  let r := roundInto ⟨v.fmt, false, false, false⟩ v.env.regMode x.1
  (r.1, x.2 ||| r.2)

/-- Vector register r: +0 until written (R204). -/
def Lanes.reg (l : Lanes) (n r : Nat) : List Num := Sparse.get (List.replicate n Num.zero) l.regs r

/-- Mask register i: m0 all ones, the others zeros until written (R204). -/
def Lanes.mask (l : Lanes) (n i : Nat) : List Bool :=
  if i = 0 then List.replicate n true else Sparse.get (List.replicate n false) l.masks i

/-- A value and flags for each enabled lane; the other lanes keep what they hold. -/
def Lanes.write (l : Lanes) (n r : Nat) (en : List Bool) (f : Nat → Num × Half) : Lanes :=
  let rs := (List.range n).map fun j => if en.getD j false then f j else ((l.reg n r).getD j Num.zero, 0)
  { l with regs := Sparse.put l.regs r (rs.map (·.1)), flags := rs.foldl (fun a x => a ||| x.2) l.flags }

/-- A mask register written; m0 ignores writes (R204). -/
def Lanes.setMask (l : Lanes) (n i : Nat) (f : Nat → Bool) : Lanes :=
  if i = 0 then l else { l with masks := Sparse.put l.masks i ((List.range n).map f) }

/-- An element loaded into a register lane (R210, R61, R67): an MX element is judged for DAZ as it lands in
the register format. -/
def VecRun.load (v : VecRun) (d : Desc) (rd : Reader) (p : Pos) : Num × Half :=
  let o := d.operand rd v.env.daz p
  let r := roundInto ⟨v.fmt, false, false, false⟩ .rne o.1
  let z := if isMx d.fmt then applyDaz v.env.daz v.fmt r.1 else (r.1, 0)
  (z.1, o.2 ||| r.2 ||| z.2)

/-- The arithmetic of one lane (R208): operations 0x08 to 0x0D and FN. A NaN or infinity that a vector register
holds raises neither NAN_IN nor INF_IN: these name what is read from memory, and R82 does not say that a lane
of a register is an operand read (DESIGN CHOICE, log entry 127). -/
def VecRun.alu (v : VecRun) (op b : Nat) (x y z : Num) : Num × Half :=
  let md := v.env.regMode
  match op with
  | 0x08 => v.round (addX md x y)
  | 0x09 => v.round (addX md x y.negate)
  | 0x0A => v.round (mulX x y)
  | 0x0B => v.round (fmaX md x y z)
  | 0x0C => (minNum x y, 0)
  | 0x0D => (maxNum x y, 0)
  | _ => v.round (fnX md v.fn0 v.fn1 b x)

/-- A comparison of R208: false when either operand is NaN. -/
def vecCompare (op : Nat) (x y : Num) : Bool :=
  match cmpNum x y with
  | none => false
  | some o => match op with
    | 0x10 => o == .eq
    | 0x11 => o == .lt
    | _ => o != .gt

/-- The position of lane j of the operand at word i. -/
def lanePos (k : Checked) (i : Nat) (iv : List Nat) (j : Nat) : Pos :=
  shiftPos (originOf (k.entry.slot i).levels iv) 0 j

/-- Tail lanes of an iteration (R211). -/
def VecRun.tail (v : VecRun) (iv : List Nat) : List Bool :=
  let dim := match v.chk.desc 8 with | some d => d.dim 0 | none => 0
  (List.range v.width).map fun j => decide (dim ≤ (lanePos v.chk 8 iv j).getD 0 0)

/-- The lanes an instruction is enabled in (R211, R212). -/
def VecRun.enabled (v : VecRun) (l : Lanes) (tail : List Bool) (w : Word) : List Bool :=
  let m := l.mask v.width (vMask w)
  (List.range v.width).map fun j => m.getD j false && !(tail.getD j false)

/-- Loads (0x01 to 0x04). -/
def VecRun.doLoad (v : VecRun) (rd : Reader) (d : Desc) (iv : List Nat) (w : Word) (en : List Bool)
    (l : Lanes) : Lanes :=
  let n := v.width
  let pos := lanePos v.chk (8 + 4 * vSlot w) iv
  match vOp w with
  | 1 => l.write n (vD w) en fun j => v.load d rd (pos j)
  | 2 => l.write n (vD w) en fun _ => v.load d rd (pos 0)
  | 3 =>
    let l := l.write n (vD w) en fun j => ((d.pairAt rd (pos j)).s, d.pairFlags rd (pos j))
    l.write n (vD w + 1) en fun j => ((d.pairAt rd (pos j)).c, 0)
  | _ => l.write n (vD w) en fun j =>
    let p := d.pairAt rd (pos j)
    let t := addX v.env.regMode p.s p.c
    let r := to32 v.env.regMode t.1
    (r.1, t.2 ||| r.2 ||| d.pairFlags rd (pos j))

/-- Stores (0x05, 0x06): the batch of positions and exact values, and the flags of STP's sums (R208). -/
def VecRun.batch (v : VecRun) (iv : List Nat) (w : Word) (en : List Bool) (l : Lanes) :
    List (Pos × Num) × Half :=
  let n := v.width
  let pos := lanePos v.chk (8 + 4 * vSlot w) iv
  let x := l.reg n (vB w)
  let y := l.reg n (vB w + 1)
  let sum := fun (j : Nat) =>
    if vOp w = 5 then (x.getD j Num.zero, 0) else addX (v.env.mode 0 0) (x.getD j Num.zero) (y.getD j Num.zero)
  let on := (List.range n).filter fun j => en.getD j false 
  (on.map fun j => (pos j, (sum j).1), on.foldl (fun f j => f ||| (sum j).2) 0)

/-- Instructions that touch neither memory nor more than lanes and masks. -/
def VecRun.doLanes (v : VecRun) (w : Word) (tail en : List Bool) (l : Lanes) : Lanes :=
  let n := v.width
  let x := l.reg n (vA w)
  let y := l.reg n (vB w)
  let z := l.reg n (vC w)
  let mi := vD w % 8
  let old := l.mask n mi
  let ma := l.mask n (vA w % 8)
  let mb := l.mask n (vB w % 8)
  let bit' := fun (f : Nat → Bool) => l.setMask n mi fun j =>
    if en.getD j false then f j else old.getD j false
  let op := vOp w
  if op = 0 then l
  else if op = 0x0E then
    let sel := l.mask n (vMask w)
    l.write n (vD w) (tail.map (!·)) fun j =>
      (if sel.getD j false then x.getD j Num.zero else y.getD j Num.zero, 0)
  else if 0x10 ≤ op ∧ op ≤ 0x12 then
    l.setMask n mi fun j =>
      if tail.getD j false then old.getD j false
      else en.getD j false && vecCompare op (x.getD j Num.zero) (y.getD j Num.zero)
  else if op = 0x14 then bit' fun j => ma.getD j false && mb.getD j false
  else if op = 0x15 then bit' fun j => ma.getD j false || mb.getD j false
  else if op = 0x16 then bit' fun j => !(ma.getD j false)
  else l.write n (vD w) en fun j =>
    v.alu op (vB w) (x.getD j Num.zero) (y.getD j Num.zero) (z.getD j Num.zero)

/-- The bytes an instruction reads in the lanes it is enabled in (R212): a load its elements or pairs, a store the
blocks of an MX slot that it writes in part (R628). -/
def VecRun.instrReads (v : VecRun) (iv : List Nat) (w : Word) (d : Desc) (en : List Bool) : List (Nat × Nat) :=
  let ps := ((List.range v.width).filter fun j => en.getD j false).map (lanePos v.chk (8 + 4 * vSlot w) iv)
  if vWrites w then (d.blockReads ps).map fun r => (addrLocal r.1, r.2)
  else
    (if vOp w = 2 ∧ ps ≠ [] then [lanePos v.chk (8 + 4 * vSlot w) iv 0] else ps).flatMap fun p =>
      if vOp w = 3 ∨ vOp w = 4 then (if d.inBounds p then [(addrLocal (d.addrOf p), 8)] else [])
      else d.elemRanges p

/-- One instruction of one iteration. One whose read fails does nothing, nor does any after it. -/
def VecRun.instr (v : VecRun) (ecc : Ecc) (iv : List Nat) (tail : List Bool) (a : State × Lanes) (w : Word) :
    State × Lanes :=
  let en := v.enabled a.2 tail w
  if a.2.bad then a
  else match vReads w || vWrites w, v.chk.desc (8 + 4 * vSlot w) with
  | true, some d =>
    let rs := v.instrReads iv w d en
    let l := { a.2 with reads := a.2.reads ++ rs, bad := a.1.badRead ecc rs }
    let rd := memReader a.1.mem
    if l.bad then (a.1, l)
    else if vWrites w then
      let b := v.batch iv w en l
      let r := d.storeBatch rd v.env b.1
      (a.1.storeBytes (toLocal r.1), { l with flags := l.flags ||| b.2 ||| r.2 })
    else (a.1, v.doLoad rd d iv w en l)
  | true, none => a
  | false, _ => (a.1, v.doLanes w tail en a.2)

/-- What an iteration leaves in its context: the registers and masks it wrote, lanes as bit patterns. -/
def VecRun.leaves (v : VecRun) (l : Lanes) : VecCtx :=
  { regs := l.regs.map fun r => (r.1, r.2.map (encode v.fmt)), masks := l.masks }

/-- How far a command has come: the state, its flags, the bytes it has read, and whether a read has failed. -/
structure VecAcc where
  st : State
  flags : Half
  reads : List (Nat × Nat)
  bad : Bool
  deriving DecidableEq, Repr

/-- One iteration (R204, R206): fresh registers, the instructions in order, in context number i mod 8 of the
core (R203). -/
def VecRun.iteration (v : VecRun) (ecc : Ecc) (c : Nat) (a : VecAcc) (iv : List Nat × Nat) : VecAcc :=
  if a.bad then a
  else
    let r := v.chk.entry.instrs.foldl (v.instr ecc iv.1 (v.tail iv.1)) (a.st, ⟨[], [], 0, [], false⟩)
    { st := r.1.updCore c fun x => { x with contexts := Sparse.put x.contexts (iv.2 % 8) (v.leaves r.2) },
      flags := a.flags ||| r.2.flags, reads := a.reads ++ r.2.reads, bad := r.2.bad }

/-! ### The commands -/

/-- Whether a command is a FNLOAD (R215: it stands alone). -/
def Entry.isFnload (e : Entry) : Bool := e.instrs.any fun w => vOp w == 25

/-- The image FNLOAD reads (R221, R223). -/
def State.tableImage (s : State) (d : Desc) : List Word :=
  (List.range 2056).map fun i =>
    BitVec.ofNat 32 (ofLe (readN (memReader s.mem) (d.addrOf [i, 0, 0, 0, 0, 0]) 4))

/-- The bytes of that image. -/
def tableRanges (d : Desc) : List (Nat × Nat) :=
  (List.range 2056).map fun i => (addrLocal (d.addrOf [i, 0, 0, 0, 0, 0]), 4)

/-- The vector engine takes a command over, with its flags, status and image. -/
def State.vectorRuns (s : State) (c : Nat) (k : Checked) (flags status : Half)
    (image : Option (Nat × List Word)) : State :=
  s.updCore c fun x => { x with vector := some { chk := k, flags, status, image } }

/-- FNLOAD (R223): the image is read and checked; the table takes it at completion (R224). -/
def State.runFnload (s : State) (p c : Nat) (k : Checked) (ecc : Ecc) : State :=
  match k.entry.instrs.find? fun w => vOp w == 25 with
  | none => s
  | some w => match k.desc (8 + 4 * vSlot w) with
    | none => s
    | some d =>
      let t := s.tableImage d
      let r := s.readErrors (tableRanges d) ecc
      match r.2 with
      | some a => r.1.failRead p c k.entry 0 a
      | none =>
        if tableOk t then r.1.vectorRuns c k 0 stDONE (some (vB w % 2, t))
        else r.1.vectorRuns c k 0 stCONFIG none

/-- A VECTOR command runs its iterations in order; a read that fails ends it, after what went before (R102). -/
def State.runVector (s : State) (p c : Nat) (k : Checked) (ecc : Ecc) : State :=
  let x := s.core c
  let v : VecRun := { chk := k, env := s.envOf c k.entry, wide := k.entry.instrs.any vWide,
                      fn0 := x.fn0, fn1 := x.fn1 }
  let t := (indexVectors k.entry.trips).zipIdx.foldl (v.iteration ecc c) ⟨s, 0, [], false⟩
  let r := t.st.readErrors t.reads ecc
  match r.2 with
  | some a => r.1.failRead p c k.entry t.flags a
  | none => r.1.vectorRuns c k t.flags stDONE none

/-- Whether a command names a loaded table in FN, and whether every table it names is loaded (R630). -/
def Entry.namesTable (e : Entry) : Bool := e.instrs.any fun w => vOp w == 24 && decide (vB w < 2)
def Core.tablesLoaded (k : Core) (e : Entry) : Bool :=
  e.instrs.all fun w => vOp w != 24 || match vB w with
    | 0 => k.fn0.isSome
    | 1 => k.fn1.isSome
    | _ => true

/-- FN_TABLE_CHECK (R630): the engine is free and takes the command at the head; a table not loaded
completes it with CONFIG_INCONSISTENT and no side effect. -/
def execFnTableCheck (core : Fin 512) (s : State) : Host.Outcome State Fault Refusal :=
  let c := core.val
  .next <| match s.ready c with
  | some (p, k) =>
    if k.entry.kind == 2 && !k.noop && !(s.core c).fnChecked && s.holdOf p k == .go then
      if (s.core c).tablesLoaded k.entry then s.updCore c fun x => { x with fnChecked := true }
      else (s.popHead c).complete p c k.entry stCONFIG 0 false
    else s
  | none => s

/-- VECTOR: it issues on an idle engine, once its tables have been judged, and runs. -/
def execVector (core : Fin 512) (ecc : Ecc) (s : State) : Host.Outcome State Fault Refusal :=
  let c := core.val
  .next (s.issue c (fun e => e.kind == 2) fun s p k =>
    if k.entry.namesTable && !(s.core c).fnChecked then s
    else if k.entry.isFnload then (s.popHead c).runFnload p c k ecc
    else (s.popHead c).runVector p c k ecc)

/-- The completion of the vector engine's command (R135, R224). -/
def State.finishVector (s : State) (p c : Nat) : State :=
  match (s.core c).vector with
  | none => s
  | some r =>
    (s.updCore c fun x => { x with
      vector := none,
      fn0 := match r.image with | some (0, t) => some t | _ => x.fn0,
      fn1 := match r.image with | some (1, t) => some t | _ => x.fn1 }).complete
      p c r.chk.entry r.status r.flags true

end Sys2Proof.Machine
end

