-- ==== Sys2Proof/Machine/Row.lean ====
section
/-! DEFINITION. Machine/Row.lean: ROW on the row engine, forward and backward (R226 to R236, R248 to R251),
and side memory. -/

namespace Sys2Proof.Machine

/-! ### Values with flags: INEXACT belongs to final roundings alone (R82) -/

/-- A value rounded by RNE into FP32 within a row operation: its flags but INEXACT. -/
def rneStep (x : Num × Half) : Num × Half :=
  let r := to32 .rne x.1
  (r.1, x.2 ||| (r.2 &&& ~~~fINEXACT))

/-- Products, sums and fused forms rounded by RNE. -/
def rMul (x y : Num × Half) : Num × Half :=
  let r := rneStep (mulX x.1 y.1)
  (r.1, x.2 ||| y.2 ||| r.2)
def rSub (x y : Num × Half) : Num × Half :=
  let r := rneStep (addX .rne x.1 y.1.negate)
  (r.1, x.2 ||| y.2 ||| r.2)
def rFma (x y z : Num × Half) : Num × Half :=
  let r := rneStep (fmaX .rne x.1 y.1 z.1)
  (r.1, x.2 ||| y.2 ||| z.2 ||| r.2)

/-- A fixed function (R220). -/
def rFn (code : Nat) (x : Num × Half) : Num × Half :=
  let r := fn32 code x.1
  (r.1, x.2 ||| r.2)

/-- round_rne_fp32(sum(t_j)): the compensated sum in element order, its final s + c (R70, R72, R227). -/
def rowSum (ts : List (Num × Half)) : Num × Half :=
  let p := addTerms true PairN.zero (ts.map (·.1))
  let r := rneStep (pairExact .rne p.1, 0)
  (r.1, ts.foldl (fun f t => f ||| t.2) (p.2 ||| r.2))

/-- An exact product, as a term. -/
def exactMul (x y : Num × Half) : Num × Half :=
  let r := mulX x.1 y.1
  (r.1, x.2 ||| y.2 ||| r.2)

/-- The largest element under R45. -/
def rowMax (xs : List (Num × Half)) : Num × Half :=
  match xs with
  | [] => (.inf true, 0)
  | x :: rest => rest.foldl (fun a y => (maxNum a.1 y.1, a.2 ||| y.2)) x

/-! ### Rows -/

/-- What a row gives: the exact values of Y's planes before their one rounding, flags, and the statistics a
forward row writes. zflags are those of plane 1, raised where it is written. -/
structure RowOut where
  y : List Num
  z : List Num
  flags : Half
  zflags : Half
  stat0 : Word
  stat1 : Word
  deriving DecidableEq, Repr

/-- The flags of a list of results. -/
def allFlags (l : List (Num × Half)) : Half := l.foldl (fun f x => f ||| x.2) 0

/-- A row of inputs that are all used: their flags. -/
abbrev RowIn := List (Num × Half)

/-- log2 e as F32. -/
def log2e : Num × Half := (f32 0x3FB8AA3B#32, 0)

/-- layernorm_fwd (R227); md signs an exact zero. -/
def layernormFwd (md : Mode) (eps : Num) (xs gain bias : RowIn) : RowOut :=
  let invN := rFn 2 (Num.ofNat xs.length, 0)
  let mean := rMul (rowSum xs) invN
  let d := xs.map fun x => rSub x mean
  let var := rMul (rowSum (d.map fun x => exactMul x x)) invN
  let rstd := rFn 3 (rneStep (addX .rne var.1 eps))
  let y := ((d.zip gain).zip bias).map fun t =>
    let h := rMul t.1.1 rstd
    let r := fmaX md h.1 t.1.2.1 t.2.1
    (r.1, h.2 ||| t.1.2.2 ||| t.2.2 ||| r.2)
  { y := y.map (·.1), z := [], zflags := 0, flags := allFlags y ||| var.2 ||| mean.2, stat0 := w32 mean.1,
    stat1 := w32 rstd.1 }

/-- rmsnorm_fwd (R227). -/
def rmsnormFwd (eps : Num) (xs gain : RowIn) : RowOut :=
  let invN := rFn 2 (Num.ofNat xs.length, 0)
  let ms := rMul (rowSum (xs.map fun x => exactMul x x)) invN
  let rstd := rFn 3 (rneStep (addX .rne ms.1 eps))
  let y := (xs.zip gain).map fun t => exactMul (rMul t.1 rstd) t.2
  { y := y.map (·.1), z := [], zflags := 0, flags := allFlags y ||| ms.2, stat0 := 0, stat1 := w32 rstd.1 }

/-- softmax_fwd (R227, R229). -/
def softmaxFwd (xs : RowIn) : RowOut :=
  let m := rowMax xs
  if m.1 = .inf true then
    { y := xs.map fun _ => Num.zero, z := [], zflags := 0, flags := allFlags xs, stat0 := w32 (.inf true), stat1 := 0 }
  else
    let e := xs.map fun x => rFn 5 (rMul (rSub x m) log2e)
    let r := rFn 2 (rowSum e)
    let y := e.map fun x => exactMul x r
    { y := y.map (·.1), z := [], zflags := 0, flags := allFlags y ||| allFlags xs, stat0 := w32 m.1, stat1 := w32 r.1 }

/-- layernorm_bwd (R249): saved row xs, gradient dys, gain, and the entry's statistics. A statistic is read by
its tag from side memory and is no operand of the command, so a NaN or infinite one raises no NAN_IN or INF_IN,
here and in the other backward operations (DESIGN CHOICE, log entry 105). -/
def layernormBwd (mean rstd : Num) (xs dys gain : RowIn) : RowOut :=
  let invN := rFn 2 (Num.ofNat xs.length, 0)
  let xh := xs.map fun x => rMul (rSub x (mean, 0)) (rstd, 0)
  let g := (dys.zip gain).map fun t => rMul t.1 t.2
  let a := rMul (rowSum g) invN
  let b := rMul (rowSum ((g.zip xh).map fun t => exactMul t.1 t.2)) invN
  let dx := (xh.zip g).map fun t => exactMul (rFma (t.1.1.negate, t.1.2) b (rSub t.2 a)) (rstd, 0)
  let z := (dys.zip xh).map fun t => exactMul t.1 t.2
  { y := dx.map (·.1), z := z.map (·.1), zflags := allFlags z,
    flags := allFlags dx ||| a.2 ||| b.2,
    stat0 := 0, stat1 := 0 }

/-- rmsnorm_bwd (R249). -/
def rmsnormBwd (rstd : Num) (xs dys gain : RowIn) : RowOut :=
  let invN := rFn 2 (Num.ofNat xs.length, 0)
  let xh := xs.map fun x => rMul x (rstd, 0)
  let g := (dys.zip gain).map fun t => rMul t.1 t.2
  let b := rMul (rowSum ((g.zip xh).map fun t => exactMul t.1 t.2)) invN
  let dx := (xh.zip g).map fun t => exactMul (rFma (t.1.1.negate, t.1.2) b t.2) (rstd, 0)
  let z := (dys.zip xh).map fun t => exactMul t.1 t.2
  { y := dx.map (·.1), z := z.map (·.1), zflags := allFlags z, flags := allFlags dx ||| b.2,
    stat0 := 0, stat1 := 0 }

/-- softmax_bwd (R249, R251): a row fully masked in the forward pass gives +0 and no flag. -/
def softmaxBwd (stat0 : Num) (ys dys : RowIn) : RowOut :=
  if stat0 = .inf true then
    { y := ys.map fun _ => Num.zero, z := [], zflags := 0, flags := 0, stat0 := 0, stat1 := 0 }
  else
    let t := rowSum ((dys.zip ys).map fun x => exactMul x.1 x.2)
    let dx := (ys.zip dys).map fun x => exactMul x.1 (rSub x.2 t)
    { y := dx.map (·.1), z := [], zflags := 0, flags := allFlags dx, stat0 := 0, stat1 := 0 }

/-! ### Operands of a row -/

/-- The position of element j of plane q of the operand at word i in an iteration. -/
def rowPos (k : Checked) (i q : Nat) (iv : List Nat) (j : Nat) : Pos :=
  shiftPos (shiftPos (originOf (k.entry.slot i).levels iv) 1 q) 0 j

/-- Elements of a row: dim0 of X. -/
def rowLen (k : Checked) : Nat := match k.desc 8 with | some x => x.dim 0 | none => 0

/-- A row read from plane q of the operand at word i. -/
def rowRead (k : Checked) (i q : Nat) (d : Desc) (rd : Reader) (daz : Bool) (iv : List Nat) : RowIn :=
  (List.range (rowLen k)).map fun j => d.operand rd daz (rowPos k i q iv j)

/-- Gain or bias: row q of P, or the constant where P is unused. -/
def rowParam (k : Checked) (q : Nat) (rd : Reader) (daz : Bool) (iv : List Nat) (dflt : Num) : RowIn :=
  match k.desc 16 with
  | some p => rowRead k 16 q p rd daz iv
  | none => List.replicate (rowLen k) (dflt, 0)

/-- Whether a command uses P: not the soft-max operations. -/
def Entry.usesParam (e : Entry) : Bool := e.rowOp != 2 && e.rowOp != 10

/-- Whether Y has a second plane (R248). -/
def twoPlanes (d : Desc) : Bool := decide (3 ≤ d.rank) && d.dim 1 == 2

/-- The positions of Y that a row writes: plane 0, and plane 1 of a backward operation where Y has it. -/
def rowWrites (k : Checked) (y : Desc) (iv : List Nat) : List Pos :=
  let at' := fun (q : Nat) => (List.range (rowLen k)).map fun j => rowPos k 12 q iv j
  at' 0 ++ if twoPlanes y && decide (8 ≤ k.entry.rowOp) then at' 1 else []

/-- The bytes a row reads: X, both planes of it in the backward operations, P, and the blocks of an MX Y that it
writes in part (R628). -/
def rowReads (k : Checked) (iv : List Nat) : List (Nat × Nat) :=
  let e := k.entry
  let row := fun (i q : Nat) => match k.desc i with
    | some d => (List.range (rowLen k)).flatMap fun j => d.elemRanges (rowPos k i q iv j)
    | none => []
  row 8 0 ++ (if 8 ≤ e.rowOp then row 8 1 else [])
    ++ (if e.usesParam then row 16 0 ++ (if e.rowOp = 0 then row 16 1 else []) else [])
    ++ (match k.desc 12 with
        | some y => (y.blockReads (rowWrites k y iv)).map fun r => (addrLocal r.1, r.2)
        | none => [])

/-- The row of iteration k, computed from memory and the row's statistics. -/
def rowCompute (k : Checked) (rd : Reader) (e : Env) (x : Desc) (iv : List Nat) (key : Word)
    (s0 s1 : Num) : RowOut :=
  let en := k.entry
  let xs := rowRead k 8 0 x rd e.daz iv
  let dy := rowRead k 8 1 x rd e.daz iv
  let gain := rowParam k 0 rd e.daz iv (Num.ofNat 1)
  let bias := rowParam k 1 rd e.daz iv Num.zero
  match en.rowOp with
  | 0 => layernormFwd (e.mode key 0) (f32 en.epsilon) xs gain bias
  | 1 => rmsnormFwd (f32 en.epsilon) xs gain
  | 2 => softmaxFwd xs
  | 8 => layernormBwd s0 s1 xs dy gain
  | 9 => rmsnormBwd s1 xs dy gain
  | _ => softmaxBwd s0 xs dy

/-- Y written: plane 0, and plane 1 where Y has it (R227, R248); a soft-max has one plane. -/
def State.writeRow (s : State) (k : Checked) (e : Env) (y : Desc) (iv : List Nat) (o : RowOut) :
    State × Half :=
  let at' := fun (q : Nat) (vs : List Num) => vs.zipIdx.map fun v => (rowPos k 12 q iv v.2, v.1)
  let both := twoPlanes y && decide (8 ≤ k.entry.rowOp)
  let r := y.storeBatch (memReader s.mem) e (at' 0 o.y ++ if both then at' 1 o.z else [])
  (s.storeBytes (toLocal r.1), r.2 ||| if both then o.zflags else 0)

/-- A row's progress: the state, the flags, the status once a row has ended the command, and the rows done. -/
structure RowState where
  st : State
  flags : Half
  status : Half
  rows : Nat
  deriving DecidableEq, Repr

/-- One row (R231, R232, R234). -/
def rowStep (c : Nat) (k : Checked) (e : Env) (x y : Desc) (a : RowState) (r : List Nat × Nat) : RowState :=
  if a.status ≠ stDONE then a
  else
    let n := k.entry.rowBase + r.2
    let back := decide (8 ≤ k.entry.rowOp)
    if back && Sparse.find (a.st.core c).tags n != some k.entry.rowCtx then
      { a with status := stSIDE_TAG }
    else
      let rd := memReader a.st.mem
      let o := rowCompute k rd e x r.1 y.key (f32 (memWord a.st.mem (sideAddr c n)))
        (f32 (memWord a.st.mem (sideAddr c n + 4)))
      let w := a.st.writeRow k e y r.1 o
      let st := if back then w.1
        else (w.1.storeRun (sideAddr c n) (leBytes 4 o.stat0.toNat ++ leBytes 4 o.stat1.toNat)).updCore c
          fun q => { q with tags := Sparse.put q.tags n k.entry.rowCtx }
      { a with st := st, flags := a.flags ||| o.flags ||| w.2, rows := a.rows + 1 }

/-- A ROW command runs its rows in order; a read that fails ends it after the earlier rows (R102). -/
def State.runRow (s : State) (p c : Nat) (k : Checked) (ecc : Ecc) : State :=
  match k.desc 8, k.desc 12 with
  | some x, some y =>
    let ivs := indexVectors k.entry.trips
    let good := s.goodIterations ecc (rowReads k) ivs
    let t := good.zipIdx.foldl (rowStep c k (s.envOf c k.entry) x y) ⟨s, 0, stDONE, 0⟩
    let read := if t.status ≠ stDONE then ivs.take t.rows else ivs.take (good.length + 1)
    let r := t.st.readErrors (read.flatMap (rowReads k)) ecc
    match (if t.status ≠ stDONE then none else r.2) with
    | some a => r.1.failRead p c k.entry t.flags a
    | none => r.1.updCore c fun q => { q with
        row := some { chk := k, flags := t.flags, status := t.status, image := none } }
  | _, _ => s

/-- A ROW command of one operation issues on an idle row engine and runs. -/
def State.rowOp (s : State) (c op : Nat) (ecc : Ecc) : State :=
  s.issue c (fun e => e.kind == 3 && e.rowOp == op) fun s p k => (s.popHead c).runRow p c k ecc

/-- LAYERNORM_FWD. -/
def execLayernormFwd (core : Fin 512) (ecc : Ecc) (s : State) : Host.Outcome State Fault Refusal :=
  .next (s.rowOp core 0 ecc)

/-- RMSNORM_FWD. -/
def execRmsnormFwd (core : Fin 512) (ecc : Ecc) (s : State) : Host.Outcome State Fault Refusal :=
  .next (s.rowOp core 1 ecc)

/-- SOFTMAX_FWD. -/
def execSoftmaxFwd (core : Fin 512) (ecc : Ecc) (s : State) : Host.Outcome State Fault Refusal :=
  .next (s.rowOp core 2 ecc)

/-- LAYERNORM_BWD. -/
def execLayernormBwd (core : Fin 512) (ecc : Ecc) (s : State) : Host.Outcome State Fault Refusal :=
  .next (s.rowOp core 8 ecc)

/-- RMSNORM_BWD. -/
def execRmsnormBwd (core : Fin 512) (ecc : Ecc) (s : State) : Host.Outcome State Fault Refusal :=
  .next (s.rowOp core 9 ecc)

/-- SOFTMAX_BWD. -/
def execSoftmaxBwd (core : Fin 512) (ecc : Ecc) (s : State) : Host.Outcome State Fault Refusal :=
  .next (s.rowOp core 10 ecc)

/-- The completion of the row engine's command (R135). -/
def State.finishRow (s : State) (p c : Nat) : State :=
  match (s.core c).row with
  | none => s
  | some r => (s.updCore c fun x => { x with row := none }).complete p c r.chk.entry r.status r.flags true

end Sys2Proof.Machine
end

