-- ==== Sys2Proof/Machine/Mover.lean ====
section
/-! DEFINITION. Machine/Mover.lean: MOVE: copies, versioned gathers and the larder (R115 to R122, R284 to
R288, R409 to R415, R510, R626 to R628). -/

namespace Sys2Proof.Machine

/-! ### Elements of a COPY (R147, R149) -/

/-- The global byte ranges of an element and of its scale. -/
def Desc.elemGlobal (d : Desc) (p : Pos) : List (Nat × Nat) :=
  if d.inBounds p then
    if isMx d.fmt then
      let lo := p.getD 0 0 * elemBits d.fmt
      [(d.addrOf p + lo / 8, ceilDiv (lo % 8 + elemBits d.fmt) 8), (d.scaleAddr p, 1)]
    else [(d.addrOf p, elemBits d.fmt / 8)]
  else []

/-- A write of one byte at a global address, by the iteration it belongs to. -/
abbrev TaggedByte := Nat × Nat × Byte

/-- Bytes from an address, tagged. -/
def tagged (it a : Nat) (bs : List Byte) : List TaggedByte := bs.zipIdx.map fun b => (it, a + b.2, b.1)

/-- A COPY between equal formats that are not MX moves encodings as they stand (R61). -/
def copyPlain (es : List (Nat × Pos × Pos)) (sd dd : Desc) (rd : Reader) : List TaggedByte × Half :=
  let n := elemBits dd.fmt / 8
  es.foldl (fun acc e =>
    let raw := if sd.inBounds e.2.1 then sd.rawBits rd e.2.1 else 0
    (acc.1 ++ tagged e.1 (dd.addrOf e.2.2) (leBytes n raw),
     acc.2 ||| (if sd.inBounds e.2.1 then readFlags sd.fmt 0 raw else 0))) ([], 0)

/-- An element as the source of a COPY that converts (R61, R67): an MX element is judged for DAZ on its scaled
value in FP32, as a vector load judges it (DEDUCED, log entry 106); one that FP32 cannot hold widens into the
infinity of its sign with OVERFLOW where the destination is FP32. -/
def Desc.copyOperand (sd : Desc) (rd : Reader) (daz : Bool) (toFmt : Nat) (p : Pos) : Num × Half :=
  let o := sd.operand rd daz p
  if isMx sd.fmt then
    let z := applyDaz daz fp32 o.1
    let w := if toFmt = 0 then to32 .rne z.1 else (z.1, 0)
    (w.1, o.2 ||| z.2 ||| w.2)
  else o

/-- A COPY into a format that is not MX, converting (R54, R61). -/
def copyConvert (es : List (Nat × Pos × Pos)) (sd dd : Desc) (rd : Reader) (e : Env) :
    List TaggedByte × Half :=
  es.foldl (fun acc x =>
    let o := sd.copyOperand rd e.daz dd.fmt x.2.1
    let r := dd.storeBatch rd e [(x.2.2, o.1)]
    (acc.1 ++ r.1.map (fun w => (x.1, w.1, w.2)), acc.2 ||| o.2 ||| r.2)) ([], 0)

/-- The block of an MX destination that a position lies in: its row and its number. -/
def blockOf (p : Pos) : Pos × Nat := (p.set 0 0, p.getD 0 0 / 32)

/-- The first source position of the block that a destination block receives whole and in order (R153). -/
def wholeBlock (es : List (Nat × Pos × Pos)) (sd dd : Desc) (row : Pos) (blk : Nat) : Option Pos :=
  let n := min 32 (dd.dim 0 - blk * 32)
  let from' := fun (j : Nat) => (es.reverse.find? fun e => e.2.2 == row.set 0 (blk * 32 + j)).map (·.2.1)
  match from' 0 with
  | none => none
  | some s0 =>
    if s0.getD 0 0 % 32 = 0 ∧ sd.inBounds s0 ∧ min 32 (sd.dim 0 - s0.getD 0 0) = n
        ∧ (List.range n).all (fun j => from' j == some (shiftPos s0 0 j)) then some s0 else none

/-- A source block's encodings and scale written unchanged into a destination block. -/
def blockAsIs (sd dd : Desc) (rd : Reader) (row : Pos) (blk : Nat) (s0 : Pos) : List (Nat × Byte) × Half :=
  let n := min 32 (dd.dim 0 - blk * 32)
  let codes := (List.range n).map fun j => sd.rawBits rd (shiftPos s0 0 j)
  let sc := sd.scaleOf rd s0
  let a := dd.addrOf row + blk * 32 * elemBits dd.fmt / 8
  ((dd.scaleAddr (row.set 0 (blk * 32)), BitVec.ofNat 8 sc)
      :: (packBits (elemBits dd.fmt) codes).zipIdx.map (fun b => (a + b.2, b.1)),
   codes.foldl (fun f c => f ||| readFlags sd.fmt sc c) 0)

/-- The blocks that a COPY writes elements of. -/
def blockKeys (es : List (Nat × Pos × Pos)) : List (Pos × Nat) :=
  (es.map fun x => blockOf x.2.2).foldl
    (fun (acc : List (Pos × Nat)) k => if acc.contains k then acc else acc ++ [k]) []

/-- A COPY into an MX destination, block by block (R153, R628). The elements that all iterations of the command
write into one block are placed and converted together, once: R628 re-encodes the block for the elements a
copy writes, and says no order among the iterations of one command (DESIGN CHOICE, log entry 107). -/
def copyMx (es : List (Nat × Pos × Pos)) (sd dd : Desc) (rd : Reader) (e : Env) : List TaggedByte × Half :=
  (blockKeys es).foldl (fun (acc : List TaggedByte × Half) k =>
    let mine : List (Nat × Pos × Pos) := es.filter fun x => blockOf x.2.2 == k
    let it := mine.foldl (fun (a : Nat) x => max a x.1) 0
    let r : List (Nat × Byte) × Half := match (if sd.fmt = dd.fmt then wholeBlock mine sd dd k.1 k.2 else none) with
      | some s0 => blockAsIs sd dd rd k.1 k.2 s0
      | none =>
        let os : List (Nat × Num × Half) := mine.map fun x => (x.2.2.getD 0 0, sd.copyOperand rd e.daz dd.fmt x.2.1)
        let w := dd.storeBlock rd e k.1 k.2 (os.map fun o => (o.1, o.2.1))
        (w.1, os.foldl (fun f o => f ||| o.2.2) w.2)
    (acc.1 ++ r.1.map (fun w => (it, w.1, w.2)), acc.2 ||| r.2)) ([], 0)

/-- What a COPY writes, and its flags. -/
def copyWrites (k : Checked) (sd dd : Desc) (rd : Reader) (e : Env) : List TaggedByte × Half :=
  let es := copyElems k dd
  if isMx dd.fmt then copyMx es sd dd rd e
  else if sd.fmt = dd.fmt then copyPlain es sd dd rd
  else copyConvert es sd dd rd e

/-! ### Cutting traffic (R286, R288, R499) -/

/-- Bytes of payload in one transfer at most. -/
def xferCap : Nat := 16 * 2 ^ 20

/-- Data packets of one transfer at most (R286): of at most 256 bytes each, so its payload stays within xferCap. -/
def packetCap : Nat := 65536

/-- A list in pieces of n at most. -/
def chunksOf {α : Type} (n : Nat) (l : List α) : List (List α) :=
  (List.range (ceilDiv l.length n)).map fun i => (l.drop (n * i)).take n

/-- The runs of one iteration as transfers: cut into packets, and those into transfers (R286). -/
def cutRuns (rs : List (Nat × List Byte)) : List (List (Nat × List Byte)) :=
  chunksOf packetCap (rs.flatMap fun r => (List.range (ceilDiv r.2.length 256)).map fun i =>
    (r.1 + 256 * i, (r.2.drop (256 * i)).take 256))

/-- The writes of a command as transfers to a module, iteration by iteration; the TALLY goes with the last
(R286, R296). -/
def writeXfers (dest : Nat) (ws : List TaggedByte) (tally : Option Word) : List Xfer :=
  let its := (ws.map (·.1)).foldl insertNat []
  let cuts := its.flatMap fun it => cutRuns (joinRuns ((ws.filter (·.1 == it)).map (·.2)))
  let xs : List Xfer := cuts.map fun rs =>
    { dest := dest, isRead := false, tally := none,
      runs := rs.map fun r => { addr := r.1, len := r.2.length, data := r.2, land := 0 } }
  match tally with
  | none => xs
  | some w =>
    match xs.getLast? with
    | none => [{ dest := dest, isRead := false, runs := [], tally := some w }]
    | some x => xs.dropLast ++ [{ x with tally := some w }]

/-- A range read as READ transfers: address, landing address, length. -/
def readXfers (dest : Nat) (rs : List (Nat × Nat × Nat)) : List Xfer :=
  rs.flatMap fun r => (List.range (ceilDiv r.2.2 xferCap)).map fun i =>
    let n := min xferCap (r.2.2 - xferCap * i)
    { dest := dest, isRead := true, tally := none,
      runs := [{ addr := r.1 + xferCap * i, len := n, data := [], land := r.2.1 + xferCap * i }] }

/-- Pieces of source, landing and length joined where both addresses run on. -/
def joinMoves (ms : List (Nat × Nat × Nat)) : List (Nat × Nat × Nat) :=
  (ms.foldl (fun acc m => match acc with
    | x :: rest => if m.1 = x.1 + x.2.2 ∧ m.2.1 = x.2.1 + x.2.2 then (x.1, x.2.1, x.2.2 + m.2.2) :: rest
                   else m :: x :: rest
    | [] => [m]) []).reverse

/-- The runs of bytes that a list of ranges covers. -/
def coverRuns (rs : List (Nat × Nat)) : List (Nat × Nat) :=
  let as := (rs.flatMap fun r => (List.range r.2).map (r.1 + ·)).foldl insertNat []
  (joinRuns (as.map fun a => (a, (0 : Byte)))).map fun r => (r.1, r.2.length)

/-! ### Host requests of a mover (R499, R510) -/

/-- n bytes from a, cut at every multiple of 256: no host packet crosses one (R500). -/
def pageCuts (a n : Nat) : List (Nat × Nat) :=
  if n = 0 then []
  else (List.range (ceilDiv (a % 256 + n) 256)).map fun i =>
    let lo := max a ((a / 256 + i) * 256)
    (lo, min (a + n) ((a / 256 + i + 1) * 256) - lo)

/-- Writes to the host, a packet each. -/
def hostWrites (rs : List (Nat × List Byte)) : List HostJob :=
  rs.flatMap fun r => (pageCuts r.1 r.2.length).map fun x =>
    { isRead := false, addr := addrOffset x.1 % 2 ^ 46, len := x.2, data := (r.2.drop (x.1 - r.1)).take x.2 }

/-- Reads from the host, a packet each. -/
def hostReads (rs : List (Nat × Nat)) : List HostJob :=
  rs.flatMap fun r => (pageCuts r.1 r.2).map fun x =>
    { isRead := true, addr := addrOffset x.1 % 2 ^ 46, len := x.2, data := [] }

/-- The global address of a host address behind port k. -/
def State.hostGlobal (s : State) (k phys : Nat) : Nat := s.myId * 2 ^ 51 + hostBase + k * 2 ^ 46 + phys

/-- One waiting request of core c sent on port k, while a tag is free. -/
def State.sendHostJob (s : State) (k c : Nat) : State :=
  match (s.core c).mover with
  | none => s
  | some m => match m.hostTodo, (s.hport k).freshTag with
    | j :: rest, some _ =>
      (s.updCore c fun x => { x with mover := some { m with hostTodo := rest } }).hostRequest
        k j.isRead j.addr j.len j.data (some c)
    | _, _ => s

/-- Every waiting request that finds a tag. -/
def State.pumpHost (s : State) (k : Nat) : State :=
  (s.cores.map (·.1)).foldl (fun s c =>
    match (s.core c).mover, s.partOf c with
    | some m, some p =>
      if (s.part p).layout.live.hostPort.toNat = k then
        (List.range m.hostTodo.length).foldl (fun s _ => s.sendHostJob k c) s
      else s
    | _, _ => s) s

/-! ### The mover's run -/

/-- The mover of core c takes a command. -/
def MoverRun.of (k : Checked) (src dst : Option Desc) : MoverRun :=
  { chk := k, phase := .done, flags := 0, status := stDONE, live := 0, hostLive := 0, hostTodo := [],
    staging := [], src := src, dst := dst, record := none, gatherKey := none, held := [] }

/-- The mover of core c. -/
def State.setMover (s : State) (c : Nat) (m : MoverRun) : State :=
  s.updCore c fun x => { x with mover := some m }

/-- A mover's reader: this module's memory, and the bytes that arrived for it from elsewhere. What it has read
from nowhere is a free value; no element that a COPY moves or keeps (R628) is such a byte. -/
def State.moveReader (s : State) (st : Sparse Byte) : Reader := fun a =>
  if addrModule a = s.myId ∧ addrRegion a ≠ 4 then memRead s.mem (addrLocal a)
  else match Sparse.find st a with
    | some b => b
    | none => Config.freeByte s.freeCtr a

/-- The remote signal as the first word of a TALLY, where the destination is another module. -/
def remoteTallyOf (k : Checked) (dst : Option Desc) : Option Word :=
  match dst with
  | some d => if d.loc = 8 ∧ k.entry.remoteSignal then
      some (tallyWord k.entry.remoteCore k.entry.remoteTally k.entry.remoteIncrement) else none
  | none => none

/-- Whether a module lies in the route group's sizes (R281). -/
def State.routableTo (s : State) (id : Nat) : Bool :=
  (List.range 3).all fun a => decide (coordOf id a < s.fabric.route.live.size a)

/-- A mover's writes go where its destination lies: another module, the host, or this module. A module that a
route commit has put outside the sizes gets none (R281), and a buffer that a gather has come to hold since the
command issued is not written (R414). -/
def State.moveOut (s : State) (p c : Nat) (m : MoverRun) (d : Desc) (ws : List TaggedByte) : State :=
  if d.loc = 8 ∧ !s.routableTo (addrModule d.base.toNat) then s.setMover c { m with phase := .done, status := stCONFIG }
  else if d.loc = 8 then
    let dest := addrModule d.base.toNat
    let xs := writeXfers dest ws (remoteTallyOf m.chk (some d))
    (s.setMover c { m with phase := if xs.isEmpty then .done else .writing, live := xs.length }).enqueueX
      p (some c) xs
  else if d.loc = 4 then
    let js := hostWrites (joinRuns (ws.map (·.2)))
    (s.setMover c { m with
      phase := if js.isEmpty then .done else .writing, hostLive := js.length, hostTodo := js }).pumpHost
      (s.part p).layout.live.hostPort.toNat
  else
    let bs := toLocal (ws.map (·.2))
    match s.heldAgainst c (s.gatherHoldsBut c) (bs.map fun b => (b.1, 1)) with
    | some counted => (s.noteStale counted).setMover c { m with phase := .done, status := stSTALE_SHARD }
    | none => (s.storeBytes bs).setMover c { m with phase := .done }

/-- Whether no two of some elements of n bytes share a byte. -/
def apart (n : Nat) (as : List Nat) : Bool :=
  ((coverRuns (as.map fun a => (a, n))).map (·.2)).sum == n * as.length

/-- Whether a COPY from another module lands where it goes: equal formats that are not MX, this module, and no byte
written twice, since the last write in the order of the address generators has to stand (R60). -/
def landsDirect (k : Checked) (sd dd : Desc) : Bool :=
  sd.loc == 8 && sd.fmt == dd.fmt && !isMx dd.fmt && dd.loc != 8 && dd.loc != 4
    && apart (elemBits dd.fmt / 8) ((copyElems k dd).map fun e => dd.addrOf e.2.2)

/-- The local bytes a COPY reads when it writes: its source, and the blocks of an MX destination it writes in part
(R628). -/
def copyReadRanges (k : Checked) (sd dd : Desc) : List (Nat × Nat) :=
  (if sd.loc = 8 ∨ sd.loc = 4 then [] else (copyElems k dd).flatMap fun e => sd.elemRanges e.2.1)
    ++ (if dd.loc = 8 ∨ dd.loc = 4 then [] else k.destReads.map fun r => (addrLocal r.1, r.2))

/-- The local bytes a COPY writes. -/
def copyWriteRanges (k : Checked) (dd : Desc) : List (Nat × Nat) :=
  if dd.loc = 8 ∨ dd.loc = 4 then [] else (copyElems k dd).flatMap fun e => dd.elemRanges e.2.2

/-- A MOVE fails on a read of its own (R102, R109, R110). -/
def State.failMove (s : State) (p c : Nat) (m : MoverRun) (a : Nat) : State :=
  (s.updCore c fun x => { x with mover := none }).failRead p c m.chk.entry m.flags a

/-- A COPY reads what lies on this module and writes. -/
def State.copyNow (s : State) (p c : Nat) (m : MoverRun) (sd dd : Desc) (ecc : Ecc) : State :=
  let r := s.accessErrors (copyReadRanges m.chk sd dd) (copyWriteRanges m.chk dd) ecc
  match r.2 with
  | some bad => r.1.failMove p c m bad
  | none =>
    let w := copyWrites m.chk sd dd (r.1.moveReader m.staging) (r.1.envOf c m.chk.entry)
    let s := { r.1 with freeCtr := r.1.freeCtr + 1 }
    s.moveOut p c { m with flags := m.flags ||| w.2 } dd w.1

/-- The bytes that the scheduled MOVE of core c sends under reservation n, as its destination stores them, and the
module they go to; none where no such MOVE waits. -/
def State.moveBytes (s : State) (c n : Nat) : Option (MoverRun × List Byte × Nat) :=
  match (s.core c).mover with
  | some m => match m.phase, m.src, m.dst with
    | .scheduled, some sd, some dd =>
      if m.chk.entry.moveResv = n then
        let w := copyWrites m.chk sd dd (s.moveReader m.staging) (s.envOf c m.chk.entry)
        some ({ m with flags := m.flags ||| w.2 }, w.1.map (fun (b : TaggedByte) => b.2.2), addrModule dd.base.toNat)
      else none
    | _, _, _ => none
  | none => none

/-- What the reads of a scheduled MOVE meet as its bytes leave (R102, R109): false where it has failed. -/
def State.moveReads (s : State) (p c n : Nat) (ecc : Ecc) : State × Bool :=
  match (s.core c).mover with
  | some m => match m.phase, m.src, m.dst with
    | .scheduled, some sd, some dd =>
      if m.chk.entry.moveResv = n then
        let r := s.accessErrors (copyReadRanges m.chk sd dd) (copyWriteRanges m.chk dd) ecc
        match r.2 with
        | some bad => (r.1.failMove p c m bad, false)
        | none => (r.1, true)
      else (s, true)
    | _, _, _ => (s, true)
  | none => (s, true)

/-- An occurrence that started while its MOVE still read takes the MOVE's bytes, late (R390). -/
def State.feedOcc (s : State) (p c n : Nat) (ecc : Ecc) : State :=
  if (s.part p).sched.occs.any fun o => o.awaits && o.resv.number == n && o.core == c then
    let r := s.moveReads p c n ecc
    match r.2, r.1.moveBytes c n with
    | true, some x => (r.1.setMover c x.1).updPart p fun q => { q with sched := { q.sched with
        occs := q.sched.occs.map fun o =>
          if o.awaits && o.resv.number == n && o.core == c then { o with awaits := false, data := x.2.1, dest := x.2.2 }
          else o } }
    | _, _ => r.1
  else s

/-- A COPY whose source, and what it needs of its destination, can be read: it writes, or waits for its occurrence
in the pattern (R385), which may have started already. -/
def State.copyReady (s : State) (p c : Nat) (m : MoverRun) (sd dd : Desc) (ecc : Ecc) : State :=
  if m.chk.entry.moveResv ≠ 0 then (s.setMover c { m with phase := .scheduled }).feedOcc p c m.chk.entry.moveResv ecc
  else s.copyNow p c m sd dd ecc

/-- The COPY reads from other modules and from the host, if there is anything to read, before it goes on. -/
def State.copyReads (s : State) (p c : Nat) (m : MoverRun) (sd dd : Desc) (xs : List Xfer) (js : List HostJob)
    (ecc : Ecc) : State :=
  if xs.isEmpty && js.isEmpty then s.copyReady p c m sd dd ecc
  else
    let s := (s.setMover c { m with phase := .reading, live := xs.length, hostLive := js.length,
                                    hostTodo := js }).enqueueX p (some c) xs
    if js.isEmpty then s else s.pumpHost (s.part p).layout.live.hostPort.toNat

/-- A COPY whose data landed in place: only its flags are left. No byte of it is written twice, so every source
element stands where it landed. -/
def State.directDone (s : State) (c : Nat) (m : MoverRun) (sd dd : Desc) : State :=
  let rd := memReader s.mem
  let fl := (copyElems m.chk dd).foldl (fun f e =>
    if sd.inBounds e.2.1 then f ||| readFlags dd.fmt 0 (dd.rawBits rd e.2.2) else f) m.flags
  s.setMover c { m with phase := .done, flags := fl }

/-! ### The larder (R115 to R122, R398, R626) -/

/-- The quota of a push of a class into context n when it is empty. -/
def Part.pushQuota (q : Part) (n cls : Nat) : Nat :=
  match q.pattern with
  | some pat => pat.quota n cls
  | none => q.regionLen n

/-- Whether a push of class 1 joins context n and the next (R398). -/
def Part.joins (q : Part) (n cls : Nat) : Bool :=
  match q.pattern with
  | some pat => cls == 1 && n % 2 == 0
      && (pat.quotas.any fun x => x.ctx == n && x.cls == 1 && x.joined)
  | none => false

/-- Bytes of a tensor as a record holds them (R153). -/
def Desc.packedBytes (d : Desc) : Nat :=
  if d.count = 0 then 0
  else if isMx d.fmt then d.rows * (d.rowBytes + ceilDiv (d.dim 0) 32) else d.count * (elemBits d.fmt / 8)

/-- The pieces of a tensor in the order of a record: rows in logical order, then scales: address, length. -/
def Desc.packedRuns (d : Desc) : List (Nat × Nat) :=
  if d.count = 0 then []
  else if isMx d.fmt then
    (List.range d.rows).map (fun r => (d.addrOf (d.posOf (r * d.dim 0)), d.rowBytes))
      ++ [(d.scale.toNat, d.rows * ceilDiv (d.dim 0) 32)]
  else (List.range d.count).map fun i => (d.addrOf (d.posOf i), elemBits d.fmt / 8)

/-- Bits after the last element of a packed row (R141). -/
def Desc.padBits (d : Desc) : Nat := if isMx d.fmt then 8 * d.rowBytes - d.dim 0 * elemBits d.fmt else 0

/-- The record of a tensor (R153), its rows as R141 writes them: the bits after a row's last element are zero. -/
def Desc.packedData (d : Desc) (rd : Reader) : List Byte :=
  (d.packedRuns.zipIdx).flatMap fun r =>
    let bs := readN rd r.1.1 r.1.2
    if isMx d.fmt ∧ r.2 < d.rows then bs.modify (d.rowBytes - 1) fun b => b &&& (0xFF >>> d.padBits) else bs

/-- Those pieces with their place in a record at address a: piece, record address, length. -/
def packedMoves (d : Desc) (a : Nat) : List (Nat × Nat × Nat) :=
  joinMoves (d.packedRuns.foldl (fun (acc : List (Nat × Nat × Nat) × Nat) r =>
    (acc.1 ++ [(r.1, acc.2, r.2)], acc.2 + r.2)) ([], a)).1

/-- What a context holds once a push begins: quota, join, and the context after it. None: LARDER_FULL. -/
def State.pushInto (s : State) (p n cls id len : Nat) : Option State :=
  let q := s.part p
  let x := s.ctx n
  let join := x.records.isEmpty && q.joins n cls
  if join && !(s.ctx (n + 1)).records.isEmpty then none
  else
    let quota := if x.records.isEmpty then
        q.pushQuota n cls + (if join then q.pushQuota (n + 1) cls else 0) else x.quota
    let joined := if x.records.isEmpty then join else x.joined
    if (if joined then 512 else 256) ≤ x.records.length ∨ quota < x.fill + len then none
    else
      let s := if join then s.setCtx (n + 1) { s.ctx (n + 1) with joinedTo := true } else s
      some (s.setCtx n { x with
        records := x.records ++ [{ id := id, offset := x.fill, len := len, readable := false }],
        fill := x.fill + len, peak := max x.peak (x.fill + len), quota := quota, joined := joined })

/-- The commands in movers that name a record. -/
def State.onRecord (s : State) (op n i : Nat) : Bool :=
  s.cores.any fun ck => match ck.2.mover with
    | some m => m.chk.entry.moveOp == op && m.record == some (n, i)
    | none => false

/-- A larder command that is refused with no side effect. -/
def State.refuse (s : State) (p c : Nat) (k : Checked) (st : Half) : State :=
  (s.popHead c).complete p c k.entry st 0 false

/-- A remote operand's module, when there is one. -/
def remoteModule (k : Checked) : Option Nat := (remoteModules k).head?

/-- Gather records of partition q. -/
def State.gathersHeld (s : State) (q : Nat) : Nat := (s.train.records.filter (·.part == q)).length

/-- The record of a key. -/
def State.gatherOf (s : State) (p dest ctx gid : Nat) : Option Gather :=
  s.train.records.find? fun g => g.part == p && g.dest == dest && g.ctx == ctx && g.gid == gid

/-- A command that is refused after its checks frees the record of a backward gather (R412). -/
def State.refuseMove (s : State) (p c : Nat) (k : Checked) (st : Half) : State :=
  (s.dropBackward p k).refuse p c k st

/-- Request-class traffic waits at issue for its skein (R284); an absent remote core is refused (R157), and so is,
with CONFIG_INCONSISTENT, a module that a route commit since the checks has put outside the sizes (R281). -/
def State.withSkein (s : State) (p c : Nat) (k : Checked) (run : State → State) : State :=
  match (if k.requestClass then remoteModule k else none) with
  | none => run s
  | some d => if !s.routable k then s.refuseMove p c k stCONFIG else match s.skeinTo p d with
    | none => s.openSkein p d
    | some sk =>
      if !sk.isOpen then s
      else if s.remoteCoreAbsent p k then s.refuseMove p c k stENGINE_ABSENT
      else run s

/-- A push whose bytes can all be read writes its record, unless a hold has come to keep the place (R125, R414). -/
def State.pushNow (s : State) (p c : Nat) (m : MoverRun) (d : Desc) (a : Nat) (ecc : Ecc) : State :=
  let bs := d.packedData (s.moveReader m.staging)
  let src := if d.loc = 8 ∨ d.loc = 4 then [] else d.packedRuns.map fun r => (addrLocal r.1, r.2)
  let r := s.accessErrors src [(a, bs.length)] ecc
  match r.2 with
  | some bad => r.1.failMove p c m bad
  | none => match r.1.heldAgainst c (r.1.gatherHoldsBut c) [(a, bs.length)] with
    | some counted => (r.1.noteStale counted).setMover c { m with phase := .done, status := stSTALE_SHARD }
    | none => (r.1.storeRun a bs).setMover c { m with phase := .done }

/-- LARDER_PUSH begins (R117, R626): the record takes its place on the stack at issue. Where a hold keeps that place
the push is refused, with no side effect (R125, R414). A record from another module whose rows carry no bits after
their last element lands as it arrives; any other, and one from the host, is gathered first. -/
def State.larderPush (s : State) (p c : Nat) (k : Checked) (ecc : Ecc) : State :=
  let e := k.entry
  match k.desc 8 with
  | none => s
  | some d =>
    let n := e.moveCtx
    let len := ceilDiv d.packedBytes 256 * 256
    if (s.ctx n).joinedTo then s.refuse p c k stLARDER_ORDER
    else match s.pushInto p n e.segClass e.recordId len with
      | none => (s.popHead c).complete p c e stLARDER_FULL 0 true
      | some t =>
        let i := (s.ctx n).records.length
        let a := t.recordAddr p n i
        match s.heldAgainst c s.gatherHolds [(a, d.packedBytes)] with
        | some counted => (s.noteStale counted).refuse p c k stSTALE_SHARD
        | none =>
          let t := (t.popHead c).noteIssued p e
          let m := { MoverRun.of k (some d) none with record := some (n, i) }
          if d.loc = 8 then
            let xs := readXfers (addrModule d.base.toNat) ((packedMoves d a).map fun r =>
              (r.1, if d.padBits = 0 then s.myId * 2 ^ 51 + r.2.1 else r.1, r.2.2))
            (t.setMover c { m with
              phase := if xs.isEmpty then .done else .reading, live := xs.length }).enqueueX p (some c) xs
          else if d.loc = 4 then
            let js := hostReads ((packedMoves d a).map fun r => (r.1, r.2.2))
            (t.setMover c { m with phase := if js.isEmpty then .done else .reading,
                                   hostLive := js.length, hostTodo := js }).pumpHost
              (s.part p).layout.live.hostPort.toNat
          else t.pushNow p c m d a ecc

/-- The readable record that a read names: the latest of its id that no release has taken (R118, R253). -/
def State.findRecord (s : State) (n id : Nat) : Option Nat :=
  ((List.range (s.ctx n).records.length).reverse).find? fun i =>
    match (s.ctx n).records[i]? with
    | some r => r.id == id && r.readable && !s.onRecord 3 n i
    | none => false

/-- LARDER_READ (R118, R153). Lines of the record that a host owns are recalled first (R505). -/
def State.larderRead (s : State) (p c : Nat) (k : Checked) (ecc : Ecc) : State :=
  let e := k.entry
  let n := e.moveCtx
  match k.desc 12, (if (s.ctx n).joinedTo then none else s.findRecord n e.recordId) with
  | none, _ => s
  | some _, none => s.refuse p c k stLARDER_ORDER
  | some d, some i =>
    if (((s.ctx n).records[i]?).map (·.len)).getD 0 < d.packedBytes then s.refuse p c k stCONFIG
    else
      let mv := packedMoves d (s.recordAddr p n i)
      let out := if d.loc = 8 ∨ d.loc = 4 then [] else mv.map fun x => (addrLocal x.1, x.2.2)
      if mv.any fun x => s.lineHeld x.2.1 x.2.2 false then mv.foldl (fun s x => s.recallFor x.2.1 x.2.2 false) s
      else
        let r := ((s.popHead c).noteIssued p e).accessErrors (mv.map fun x => (x.2.1, x.2.2)) out ecc
        match r.2 with
        | some bad => r.1.failRead p c e 0 bad
        | none =>
          let ws := mv.flatMap fun x => tagged 0 x.1 (memBytes r.1.mem x.2.1 x.2.2)
          r.1.moveOut p c { MoverRun.of k none (some d) with record := some (n, i) } d ws

/-- LARDER_RELEASE begins (R119): it names the record at the top, which no release has taken. -/
def State.larderRelease (s : State) (p c : Nat) (k : Checked) : State :=
  let n := k.entry.moveCtx
  let top := (s.ctx n).records.length - 1
  match (s.ctx n).records.getLast? with
  | none => s.refuse p c k stLARDER_ORDER
  | some r =>
    if (s.ctx n).joinedTo ∨ r.id ≠ k.entry.recordId ∨ s.onRecord 3 n top then s.refuse p c k stLARDER_ORDER
    else ((s.popHead c).noteIssued p k.entry).setMover c { MoverRun.of k none none with record := some (n, top) }

/-- Whether a release may take its record away: its push and its reads are over (R120). -/
def State.releasable (s : State) (n i : Nat) : Bool := !s.onRecord 1 n i && !s.onRecord 2 n i

/-- The record at the top goes, the fill pointer falls to its offset, and a join ends with the last record
(R120, R398). -/
def State.popRecord (s : State) (n : Nat) : State :=
  let x := s.ctx n
  let rest := x.records.dropLast
  let off := ((x.records.getLast?).map (·.offset)).getD 0
  let s := if rest.isEmpty && x.joined then s.setCtx (n + 1) { s.ctx (n + 1) with joinedTo := false } else s
  s.setCtx n { x with records := rest, fill := off, joined := x.joined && !rest.isEmpty }

/-! ### Versioned gathers (R409 to R415) -/

/-- A forward gather's record stored, replacing one of its key; none when no record is free (R411). -/
def State.storeGather (s : State) (p dest ctx gid : Nat) (tag : Word) : Option State :=
  if (s.gatherOf p dest ctx gid).isNone
      && !poolOk 8192 s.gathersHeld (fun q => (s.part q).guar.live.gather.toNat) p 1 then none
  else
    let s := s.dropGather p dest ctx gid
    some { s with train := { s.train with records := s.train.records ++
      [{ part := p, dest := dest, ctx := ctx, gid := gid, tag := tag }] } }

/-- What a gather reads: the descriptor of the buffer, its state with the record kept, or a status. -/
inductive GatherPlan where
  | reads (d : Desc) (fromAttic : Bool)
  | full
  | stale
  deriving DecidableEq, Repr

/-- The choice of R411 and R412. -/
def State.gatherPlan (s : State) (p dest : Nat) (k : Checked) (d : Desc) : GatherPlan :=
  let e := k.entry
  let gid := e.recordId % 2 ^ 15
  if e.recordId < 2 ^ 15 then
    if (s.storeGather p dest e.moveCtx gid d.version).isSome then .reads d false else .full
  else match s.gatherOf p dest e.moveCtx gid with
    | none => .stale
    | some g =>
      if g.tag = d.version then .reads d false
      else if g.tag = d.version - 1 ∧ (s.part p).attic.any (fun a => a.handle == (e.slot 8).handle) then
        .reads d.atTwin true
      else .stale

/-! ### COPY -/

/-- The elements of a COPY by iteration. -/
def byIteration (es : List (Nat × Pos × Pos)) : List (List (Nat × Pos × Pos)) :=
  ((es.map (·.1)).foldl insertNat []).map fun it => es.filter (·.1 == it)

/-- A COPY starts from a source descriptor (the twin's in a gather from the attic): what it needs from another
module, iteration by iteration (R286), or from the host is read first. -/
def State.copyFrom (s : State) (p c : Nat) (m : MoverRun) (sd dd : Desc) (ecc : Ecc) : State :=
  let k := m.chk
  let s := s.noteIssued p k.entry
  let es := copyElems k dd
  let need := if dd.loc = 8 ∨ dd.loc = 4 then k.destReads else []
  let needX := if dd.loc = 8 then readXfers (addrModule dd.base.toNat) (need.map fun r => (r.1, r.1, r.2)) else []
  let needJ := if dd.loc = 4 then hostReads need else []
  if sd.loc = 8 then
    let inb := es.filter fun e => sd.inBounds e.2.1
    let dest := addrModule sd.base.toNat
    if landsDirect k sd dd then
      let n := elemBits dd.fmt / 8
      let zero := (es.filter fun e => !sd.inBounds e.2.1).flatMap fun e =>
        (List.range n).map fun j => (addrLocal (dd.addrOf e.2.2) + j, (0 : Byte))
      let xs := (byIteration inb).flatMap fun es =>
        readXfers dest (joinMoves (es.map fun e => (sd.addrOf e.2.1, dd.addrOf e.2.2, n)))
      ((s.storeBytes zero).setMover c { m with
        phase := if xs.isEmpty then .done else .reading, live := xs.length }).enqueueX p (some c) xs
    else
      s.copyReads p c m sd dd ((byIteration inb).flatMap fun es =>
        readXfers dest ((coverRuns (es.flatMap fun e => sd.elemGlobal e.2.1)).map fun r => (r.1, r.1, r.2))) needJ ecc
  else if sd.loc = 4 then
    s.copyReads p c m sd dd needX (hostReads (coverRuns (es.flatMap fun e => sd.elemGlobal e.2.1)) ++ needJ) ecc
  else s.copyReads p c m sd dd needX needJ ecc

/-- A COPY issues: a gather by its record, any other from its source. -/
def State.copyIssue (s : State) (p c : Nat) (k : Checked) (ecc : Ecc) : State :=
  match k.desc 8, k.desc 12 with
  | some sd, some dd =>
    let m := MoverRun.of k (some sd) (some dd)
    if !sd.versioned then (s.popHead c).copyFrom p c m sd dd ecc
    else
      let e := k.entry
      let dest := s.gatherDest k
      let gid := e.recordId % 2 ^ 15
      let phase := e.recordId / 2 ^ 15
      match s.gatherPlan p dest k sd with
      | .full =>
        { s with train := { s.train with full := s.train.full + 1 } }.refuse p c k stGATHER_FULL
      | .stale =>
        ({ s with train := { s.train with stale := s.train.stale + 1 } }.dropGather p dest e.moveCtx gid).refuse
          p c k stSTALE_SHARD
      | .reads d fromAttic =>
        let s := if phase = 0 then (s.storeGather p dest e.moveCtx gid d.version).getD s else s
        let s := if fromAttic then { s with train := { s.train with attic := s.train.attic + 1 } } else s
        (s.popHead c).copyFrom p c
          { m with src := some d, gatherKey := some (dest, e.moveCtx, gid, phase),
                   held := (d.allExtents d.elemBytes).map fun x => (addrLocal x.1, x.2) } d dd ecc
  | _, _ => s

/-- COPY. -/
def execCopy (core : Fin 512) (ecc : Ecc) (s : State) : Host.Outcome State Fault Refusal :=
  let c := core.val
  .next (s.issue c (fun e => e.kind == 4 && e.moveOp == 0) fun s p k =>
    s.withSkein p c k fun s => s.copyIssue p c k ecc)

/-- LARDER_PUSH. -/
def execLarderPush (core : Fin 512) (ecc : Ecc) (s : State) : Host.Outcome State Fault Refusal :=
  let c := core.val
  .next (s.issue c (fun e => e.kind == 4 && e.moveOp == 1) fun s p k =>
    s.withSkein p c k fun s => s.larderPush p c k ecc)

/-- LARDER_READ. -/
def execLarderRead (core : Fin 512) (ecc : Ecc) (s : State) : Host.Outcome State Fault Refusal :=
  let c := core.val
  .next (s.issue c (fun e => e.kind == 4 && e.moveOp == 2) fun s p k =>
    s.withSkein p c k fun s => s.larderRead p c k ecc)

/-- LARDER_RELEASE. -/
def execLarderRelease (core : Fin 512) (s : State) : Host.Outcome State Fault Refusal :=
  let c := core.val
  .next (s.issue c (fun e => e.kind == 4 && e.moveOp == 3) fun s p k => s.larderRelease p c k)

/-! ### Progress and completion -/

/-- A push whose bytes came from the host or had to be packed moves them into its record. -/
def State.pushStaged (s : State) (p c : Nat) (m : MoverRun) (ecc : Ecc) : State :=
  match m.record, m.src with
  | some (n, i), some d => s.pushNow p c m d (s.recordAddr p n i) ecc
  | _, _ => s.setMover c { m with phase := .done }

/-- A mover with nothing left to wait for goes on. -/
def State.moverAdvance (s : State) (c : Nat) (ecc : Ecc := .clean) : State :=
  match s.partOf c, (s.core c).mover with
  | some p, some m =>
    if m.live ≠ 0 ∨ m.hostLive ≠ 0 then s
    else match m.phase with
      | .reading =>
        if m.status ≠ stDONE then s.setMover c { m with phase := .done }
        else match m.src, m.dst with
          | some sd, some dd =>
            if landsDirect m.chk sd dd then s.directDone c m sd dd else s.copyReady p c m sd dd ecc
          | some sd, none =>
            if sd.loc = 4 ∨ sd.padBits ≠ 0 then s.pushStaged p c m ecc else s.setMover c { m with phase := .done }
          | _, _ => s.setMover c { m with phase := .done }
      | .writing => s.setMover c { m with phase := .done }
      | _ => s
  | _, _ => s

/-- One transfer or host request of a mover answered with a status: the first failure is kept. -/
def MoverRun.answered (m : MoverRun) (st : Half) (host : Bool) : MoverRun :=
  { m with live := if host then m.live else m.live - 1,
           hostLive := if host then m.hostLive - 1 else m.hostLive,
           status := if m.status = stDONE then st else m.status }

/-- The check of R145 at the module where a scheduled MOVE lands, which completes the command with its status. No
reply carries it: the completion itself does (DESIGN CHOICE, log entry 24). -/
def MoverRun.landed (m : MoverRun) (landing : Half) : MoverRun :=
  if m.status = stDONE ∧ m.chk.entry.moveOp = 0 ∧ m.chk.entry.moveResv ≠ 0 ∧ m.dst.any (·.loc == 8)
      ∧ (landing = stENGINE_ABSENT ∨ landing = stPRIVILEGE ∨ landing = stCONFIG ∨ landing = stSTALE_SHARD)
  then { m with status := landing } else m

/-- The completion of the mover's command (R118, R120, R412, R627). STALE_SHARD, from this module or in an ACK,
leaves no side effect: no header signal (R421). -/
def State.finishMover (s : State) (p c : Nat) (landing : Half) : State :=
  match (s.core c).mover with
  | none => s
  | some m =>
    let e := m.chk.entry
    let m := m.landed landing
    if m.phase ≠ .done then s
    else match e.moveOp, m.record with
      | 3, some (n, i) =>
        if !s.releasable n i then s
        else
          let s := (s.updCore c fun x => { x with mover := none }).popRecord n
          let s := if e.remoteSignal then
              s.addTally e.remoteCore e.remoteTally (BitVec.ofNat 32 e.remoteIncrement) else s
          s.complete p c e stDONE 0 true
      | _, _ =>
        let s := s.updCore c fun x => { x with mover := none }
        let ok := m.status == stDONE
        let s := match e.moveOp, m.record with
          | 1, some (n, i) =>
            let x := s.ctx n
            let rs : List LRecord := x.records.zipIdx.map fun (r : LRecord × Nat) =>
              if r.2 = i ∧ ok then ({ r.1 with readable := true } : LRecord) else r.1
            s.setCtx n { x with records := rs }
          | _, _ => s
        let s := match m.gatherKey with
          | some (d, x, g, 1) =>
            let s := s.dropGather p d x g
            if ok then { s with train := { s.train with backward := s.train.backward + 1 } } else s
          | some _ => if ok then { s with train := { s.train with forward := s.train.forward + 1 } } else s
          | none => s
        let s := if e.remoteSignal && ok && (remoteTallyOf m.chk m.dst).isNone then
            s.addTally e.remoteCore e.remoteTally (BitVec.ofNat 32 e.remoteIncrement) else s
        s.complete p c e m.status m.flags (m.status != stSTALE_SHARD)

end Sys2Proof.Machine
end

