-- ==== Sys2Proof/Machine/Pattern.lean ====
section
/-! DEFINITION. Machine/Pattern.lean: pattern images and their load (R366 to R376, R116, R257, R450, R452),
starting a pattern and manifests (R378, R379, R394 to R396), and the stream fetchers (R131, R368). -/

namespace Sys2Proof.Machine

/-! ### Reading an image (R366, R367) -/

/-- Word at byte offset o of an image at local address a. -/
def State.imgWord (s : State) (a o : Nat) : Nat := (memWord s.mem (a + o)).toNat

/-- A field of an image word. -/
def wfld (w lo len : Nat) : Nat := (w >>> lo) % 2 ^ len

/-- Bytes of an entry of each section, in table order. -/
def sectionBytes : List Nat := [12, 32, 16, 16, 8, 12, 16]

/-- Offset and entry count of section i. -/
def State.sectionAt (s : State) (a i : Nat) : Nat × Nat :=
  (s.imgWord a (64 + 8 * i), s.imgWord a (68 + 8 * i))

/-- The byte offsets of the entries of section i. -/
def State.entriesOf (s : State) (a i : Nat) : List Nat :=
  let x := s.sectionAt a i
  (List.range x.2).map fun j => x.1 + j * sectionBytes.getD i 0

/-- A streams entry: core, byte offset, words. -/
def State.readStream (s : State) (a o : Nat) : Nat × Nat × Nat :=
  (wfld (s.imgWord a o) 0 9, s.imgWord a (o + 4), s.imgWord a (o + 8))

/-- A reservation entry (R369). -/
def State.readResv (s : State) (a o : Nat) : Resv :=
  let w := fun i => s.imgWord a (o + 4 * i)
  { number := wfld (w 0) 16 16, kind := wfld (w 0) 12 4, cond := wfld (w 0) 8 4,
    m := wfld (w 1) 16 16, queue := wfld (w 1) 0 16, t := w 2, o := wfld (w 3) 16 16,
    span := wfld (w 3) 0 16, input := wfld (w 4) 28 4, output := wfld (w 4) 24 4,
    chIn := wfld (w 4) 22 2, chOut := wfld (w 4) 20 2, core := wfld (w 4) 0 9, flits := w 5, bytes := w 6 }

/-- A stage queue entry (R372). -/
def State.readStageQ (s : State) (a o : Nat) : StageQ :=
  let w := fun i => s.imgWord a (o + 4 * i)
  { queue := wfld (w 0) 16 16, slots := wfld (w 0) 0 16, consumer := wfld (w 1) 31 1 == 1,
    peerId := wfld (w 1) 16 13, localCore := wfld (w 1) 0 9, peerCore := wfld (w 2) 16 9,
    peerTally := wfld (w 2) 8 8, localTally := wfld (w 2) 0 8 }

/-- A version plan entry (R255, R367). -/
def State.readPlan (s : State) (a o : Nat) : VPlan :=
  { handle := wfld (s.imgWord a o) 0 10, writeOpen := s.imgWord a (o + 4), publish := s.imgWord a (o + 8),
    release := s.imgWord a (o + 12) }

/-- An insertion point: base stitch, micro-batch. -/
def State.readPoint (s : State) (a o : Nat) : Nat × Nat := (s.imgWord a o, wfld (s.imgWord a (o + 4)) 0 16)

/-- A power-profile entry. -/
def State.readPower (s : State) (a o : Nat) : PowerEnt :=
  { t := s.imgWord a o, o := wfld (s.imgWord a (o + 4)) 16 16, rise := wfld (s.imgWord a (o + 4)) 0 16,
    cond := wfld (s.imgWord a (o + 8)) 16 2, m := wfld (s.imgWord a (o + 8)) 0 16 }

/-- A larder quota entry. -/
def State.readQuota (s : State) (a o : Nat) : Quota :=
  let w := s.imgWord a o
  { ctx := wfld w 0 6, cls := wfld w 8 1, joined := wfld w 9 1 == 1,
    quota := s.imgWord a (o + 8) + s.imgWord a (o + 12) * 2 ^ 32 }

/-- The image at local address a as a pattern. -/
def State.readPattern (s : State) (base bytes : Nat) : Pattern :=
  let a := addrLocal base
  let h := fun i => s.imgWord a (4 * i)
  { base := base, bytes := bytes, iface := BitVec.ofNat 32 (h 1),
    patternId := BitVec.ofNat 64 (h 4 + h 5 * 2 ^ 32), tag := BitVec.ofNat 32 (h 6),
    stages := wfld (h 7) 16 8, stageIndex := wfld (h 7) 8 8, shelves := wfld (h 7) 0 8,
    micro := wfld (h 8) 0 16, maxLong := wfld (h 8) 16 16, prologue := h 9, stepStitches := h 10,
    bubble := h 11, slipLag := wfld (h 12) 0 16, class0 := h 13, class1 := h 14,
    streams := (s.entriesOf a 0).map (s.readStream a), resvs := (s.entriesOf a 1).map (s.readResv a),
    queues := (s.entriesOf a 2).map (s.readStageQ a), plan := (s.entriesOf a 3).map (s.readPlan a),
    points := (s.entriesOf a 4).map (s.readPoint a), power := (s.entriesOf a 5).map (s.readPower a),
    quotas := (s.entriesOf a 6).map (s.readQuota a) }

/-! ### The load checks (R375) -/

/-- Check 2: aligned, and wholly inside one HBM window of the partition, on this module (R625). -/
def State.imagePlaced (s : State) (p base bytes : Nat) : Bool :=
  decide (base % 256 = 0) && decide (addrModule base = s.myId) && decide (addrRegion base = 0)
    && s.inWindow p (addrLocal base) (max bytes 1) && decide (addrLocal base + bytes ≤ hbmEnd)

/-- Check 3: magic, length, checksum, sections inside. -/
def State.imageWhole (s : State) (base bytes : Nat) : Bool :=
  let a := addrLocal base
  decide (128 ≤ bytes) && decide (bytes % 256 = 0) && s.imgWord a 0 == 0x50544E01
    && s.imgWord a 8 == bytes
    && decide ((crc32c (memBytes s.mem a 12 ++ [0, 0, 0, 0] ++ memBytes s.mem (a + 16) (bytes - 16))).toNat
        = s.imgWord a 12)
    && (List.range 7).all fun i =>
      let x := s.sectionAt a i
      decide (x.1 + x.2 * sectionBytes.getD i 0 ≤ bytes)

/-- Where the check of a stream stands: position, whether BODY has passed, the end of the open segment. -/
structure Scan where
  pos : Nat
  body : Bool
  seg : Option Nat
  deriving DecidableEq, Repr

/-- The stream of R368 examined from a position on: legal control words up to END_STEP. -/
def streamOk (w : Nat → Nat) (len micro : Nat) : Nat → Scan → Bool
  | 0, _ => false
  | fuel + 1, x =>
    let x := if x.seg = some x.pos then { x with seg := none } else x
    if len ≤ x.pos ∨ (x.seg.any fun e => decide (e < x.pos)) then false
    else
      let v := w x.pos
      if wfld v 28 4 ≠ 15 then
        streamOk w len micro fuel { x with pos := x.pos + wfld v 21 7 + 1 }
      else match wfld v 24 4 with
        | 1 => decide (x.pos + 1 < len) && streamOk w len micro fuel { x with pos := x.pos + 2 }
        | 2 =>
          x.body && x.seg.isNone && decide (x.pos + 1 < len) && decide (wfld v 0 16 < micro)
            && decide (wfld v 16 2 ≤ 1) && decide (x.pos + 2 + w (x.pos + 1) ≤ len)
            && streamOk w len micro fuel { x with pos := x.pos + 2, seg := some (x.pos + 2 + w (x.pos + 1)) }
        | 3 => !x.body && x.seg.isNone && streamOk w len micro fuel { x with pos := x.pos + 1, body := true }
        | 4 => x.body && x.seg.isNone
        | _ => false

/-- Check 8, the streams: inside the image, one to a core, cores below shelves_required × 8 (R374). -/
def State.streamsOk (s : State) (a bytes : Nat) (pat : Pattern) : Bool :=
  (pat.streams.map (·.1)).Nodup && pat.streams.all fun x =>
    decide (x.1 < 8 * pat.shelves) && decide (x.2.1 + 4 * x.2.2 ≤ bytes)
      && streamOk (fun i => s.imgWord a (x.2.1 + 4 * i)) x.2.2 pat.micro (x.2.2 + 1)
          { pos := 0, body := false, seg := none }

/-- Check 8, the header's ranges (R366). -/
def State.headerOk (s : State) (a : Nat) (pat : Pattern) : Bool :=
  decide (pat.stageIndex < pat.stages) && decide (1 ≤ pat.shelves) && decide (pat.shelves ≤ 64)
    && decide (pat.micro ≤ 4096) && decide (pat.maxLong ≤ pat.micro) && decide (1 ≤ pat.stepStitches)
    && (pat.points.isEmpty || decide (1 ≤ pat.bubble))
    && decide (2 ≤ pat.slipLag) && decide (pat.slipLag ≤ 1024) && wfld (s.imgWord a 48) 16 16 == 0
    && decide (1 ≤ pat.class0) && decide (pat.class0 ≤ pat.class1)
    && (List.range 7).all fun i => (s.sectionAt a i).1 % 16 == 0

/-- Whether a send over a fabric port leaves the box of the placement or crosses the seam link of a line
axis (R446, R450). -/
def State.leavesBox (s : State) (q : Place) (port : Nat) : Bool :=
  let a := port / 2
  let n := s.fabric.route.live.size a
  let pos := s.positionIn q a
  q.tag == 0 || decide (n ≤ 1) || (s.axisLine q a
    && (if port % 2 = 0 then decide (boxExtent q.size a ≤ pos + 1) else pos == 0))

/-- Check 8, one reservation (R369, R370, R450). -/
def State.resvOk (s : State) (p : Nat) (pat : Pattern) (r : Resv) : Bool :=
  r.number != 0 && (r.kind == 0xD || r.kind == 0xE) && decide (r.cond ≤ 2)
    && (r.cond == 0 || decide (r.m < pat.micro)) && (r.o == 0 || r.cond == 2) && r.span != 0
    && decide (r.input ≤ 6) && decide (r.output ≤ 6) && decide (r.chIn ≤ 1) && decide (r.chOut ≤ 1)
    && (r.input != 6 || decide (r.core < 8 * pat.shelves))
    && (if r.cond = 2 then decide (r.o + r.span ≤ pat.bubble)
        else pat.points.all fun x => (List.range ((r.t + r.span) / pat.stepStitches + 1)).all fun k =>
          !(decide (r.t < x.1 + k * pat.stepStitches) && decide (x.1 + k * pat.stepStitches < r.t + r.span)))
    && (r.output == 6 || !s.leavesBox (s.part p).place.live r.output)

/-- Check 8, one stage queue entry (R372). -/
def State.stageQOk (s : State) (a o : Nat) (pat : Pattern) (q : StageQ) : Bool :=
  q.queue != 0 && q.slots != 0 && decide (q.localCore < 8 * pat.shelves)
    && (q.consumer || wfld (s.imgWord a (o + 8)) 8 24 % 2 ^ 17 == 0)

/-- Check 8, larder quotas: their form (R367, R398). -/
def State.quotasOk (s : State) (a : Nat) (pat : Pattern) : Bool :=
  let joinedAt := fun c => pat.quotas.any fun q => q.ctx == c && q.cls == 1 && q.joined
  ((s.entriesOf a 6).all fun o =>
      s.imgWord a o == s.imgWord a o &&& 0x33F && s.imgWord a (o + 4) == 0)
    && (pat.quotas.map fun q => (q.ctx, q.cls)).Nodup
    && pat.quotas.all fun q => !q.joined
      || (q.cls == 1 && (if q.ctx % 2 = 0 then joinedAt (q.ctx + 1) else joinedAt (q.ctx - 1)))

/-- Every list of members of l with at most k of them. -/
def subsUpTo {α : Type} (k : Nat) : List α → List (List α)
  | [] => [[]]
  | x :: xs => subsUpTo k xs ++ (if k = 0 then [] else (subsUpTo (k - 1) xs).map (x :: ·))

/-- The micro-batches whose class an entry or a point asks for. -/
def Pattern.asked (pat : Pattern) : List Nat :=
  ((pat.points.map (·.2)) ++ (pat.resvs.filter (·.cond != 0)).map (·.m)).foldl insertNat []

/-- The manifests that a step can have, as far as entries and points tell them apart (R370). -/
def Pattern.choices (pat : Pattern) : List (List Nat) :=
  if pat.class1 ≤ pat.class0 then [[]] else subsUpTo pat.maxLong pat.asked

/-- A manifest in which the micro-batches of a list are of class 1. -/
def Pattern.choice (pat : Pattern) (step : Nat) (long : List Nat) : Manifest :=
  { step := step, lens := (List.range pat.micro).map fun m =>
      if long.contains m then pat.class0 + 1 else pat.class0 }

/-- Whether an entry's condition holds under a manifest. -/
def Pattern.holdsIn (pat : Pattern) (man : Manifest) (cond m : Nat) : Bool :=
  match cond with
  | 0 => true
  | 1 => pat.classOf man m == 0
  | _ => pat.classOf man m == 1

/-- Every sequence of n choices. -/
def sequences {α : Type} (cs : List α) : Nat → List (List α)
  | 0 => [[]]
  | n + 1 => (sequences cs n).flatMap fun xs => cs.map fun c => xs ++ [c]

/-- Steps that the occurrences of one step can run past its end. -/
def Pattern.reach (pat : Pattern) : Nat :=
  (pat.resvs.map fun r => (r.t + r.o + r.span) / pat.stepStitches + 1).foldl max 1

/-- The highest booking of a port in the last step of a run of steps with given manifests (R370). -/
def Pattern.peakIn (pat : Pattern) (port : Nat) (d : Sched) (steps : Nat) : Nat :=
  let lo := pat.startOf d (steps - 1)
  let hi := pat.startOf d steps
  let ivs := (pat.resvs.filter (·.output == port)).flatMap fun r =>
    (List.range steps).filterMap fun k =>
      if pat.holdsIn (d.manifestOf k) r.cond r.m then
        some (pat.stitchOf d k r.t r.o (r.cond == 2), r.span, r.flits)
      else none
  ((lo :: ivs.map (·.1)).filter fun x => decide (lo ≤ x) && decide (x < hi)).foldl
    (fun best x => max best ((ivs.filter fun i => decide (i.1 ≤ x) && decide (x < i.1 + i.2.1)).map (·.2.2)).sum) 0

/-- The highest booking of a port over every step that the manifests can produce. -/
def Pattern.peak (pat : Pattern) (port : Nat) : Nat :=
  let n := pat.reach + 1
  ((sequences pat.choices n).map fun cs =>
    pat.peakIn port { Sched.reset with manifests := cs.zipIdx.map fun c => pat.choice c.2 c.1 } n).foldl max 0

/-- The pattern that a partition has loaded, or that it is loading now with its checks passed: a load counts the
bookings of both (R452). -/
def Part.bookedPattern (q : Part) : Option Pattern :=
  match q.loadResult with
  | some (_, some pat) => some pat
  | _ => q.pattern

/-- Check 8, the bookings (R370, R451, R452): with the peaks of every other loaded pattern. -/
def State.bookingsOk (s : State) (p : Nat) (pat : Pattern) : Bool :=
  (List.range 6).all fun q =>
    let others := ((List.range 16).filter (· ≠ p)).map fun i => match (s.part i).bookedPattern with
      | some o => o.peak q
      | none => 0
    decide (pat.peak q + others.sum ≤ s.schedLimit (q / 2))

/-- Check 8 as a whole. -/
def State.entriesOk (s : State) (p a bytes : Nat) (pat : Pattern) : Bool :=
  s.headerOk a pat && decide (pat.tag = (s.part p).place.live.tag) && s.streamsOk a bytes pat
    && pat.resvs.all (s.resvOk p pat) && (pat.resvs.map (·.number)).Nodup
    && ((s.entriesOf a 2).all fun o => s.stageQOk a o pat (s.readStageQ a o))
    && (pat.points.map (·.1)).Nodup && pat.points.all (fun x => decide (x.2 < pat.micro))
    && pat.power.all (fun x => decide (x.cond ≤ 2) && (x.cond == 0 || decide (x.m < pat.micro))
          && (x.o == 0 || x.cond == 2))
    && s.quotasOk a pat && s.bookingsOk p pat

/-- Check 9 (R116). -/
def State.quotasFit (s : State) (p : Nat) (pat : Pattern) : Bool :=
  decide ((((s.part p).contexts).map fun n => max (pat.quota n 0) (pat.quota n 1)).sum ≤ (s.part p).larderBytes)

/-- Consecutive entries of one handle over steps first and first + 1, on a timeline: release of the earlier,
write_open of the later. -/
def Pattern.planPairs (pat : Pattern) (d : Sched) (steps : List Nat) (h : Nat) : List (Nat × Nat) :=
  let es := steps.flatMap fun k => (pat.plan.filter (·.handle == h)).map fun v =>
    (pat.stitchOf d k v.writeOpen 0 false, pat.stitchOf d k v.release 0 false)
  (es.zip (es.drop 1)).map fun x => (x.1.2, x.2.1)

/-- The second test of R257 over some steps of a timeline. -/
def Pattern.planHolds (pat : Pattern) (d : Sched) (steps : List Nat) : Bool :=
  ((pat.plan.map (·.handle)).foldl insertNat []).all fun h =>
    (pat.planPairs d steps h).all fun x => decide (x.1 ≤ x.2)

/-- Check 10 (R257). -/
def Pattern.planStatus (pat : Pattern) : Half :=
  if !(pat.plan.all fun v => decide (v.writeOpen ≤ v.publish) && decide (v.publish ≤ v.release)) then stCONFIG
  else if pat.planHolds Sched.reset [0, 1] then stDONE else stATTIC_OVERRUN

/-- Checks 2 to 10 in order, with the pattern where all pass. -/
def State.loadChecks (s : State) (p base bytes : Nat) : Half × Option Pattern :=
  let a := addrLocal base
  let l := (s.part p).layout.live
  if !s.imagePlaced p base bytes then (stPRIVILEGE, none)
  else if !s.imageWhole base bytes then (stCONFIG, none)
  else
    let pat := s.readPattern base bytes
    if fld pat.iface 16 16 ≠ 1 ∨ 2 < fld pat.iface 0 16 then (stLINK_VERSION, none)
    else if pat.stages = 0 ∨ pat.micro = 0 then (stZERO, none)
    else if s.hw.grade.shelves < pat.shelves then (stENGINE_ABSENT, none)
    else if l.count.toNat < pat.shelves ∨ (pat.streams.any fun x => decide (8 * l.count.toNat ≤ x.1))
        ∨ (pat.quotas.any fun q => !l.ctxMask.toNat.testBit q.ctx) then (stPRIVILEGE, none)
    else if !s.entriesOk p a bytes pat then (stCONFIG, none)
    else if !s.quotasFit p pat then (stLARDER_FULL, none)
    else if pat.planStatus ≠ stDONE then (pat.planStatus, none)
    else (stDONE, some pat)

/-! ### PAT_COMMIT and the end of its checks (R375, R376) -/

/-- What every load brings about, its checks passed or not (R122, R159, R193, R224, R233, R241, R258, R336,
R349, R415, R423). -/
def State.loadEffects (s : State) (p : Nat) : State :=
  let s := ((s.emptyContexts p).freshNorm p)
  let s := (s.coresOf p).foldl (fun s c => ((s.freshCore c).updCore c fun k => { k with tallies := [] }).releaseCore c) s
  let s := (s.part p).contexts.foldl (fun s n => s.setCtx n { s.ctx n with peak := 0, quota := 0, joined := false }) s
  let s := s.updPart p fun q => { q with
    attic := [], stats := [], pattern := none, armed := none,
    sched := { Sched.reset with slipTotal := q.sched.slipTotal }, patState := .checking }
  { s with train := { s.train with records := s.train.records.filter (·.part != p) } }

/-- A write of PAT_COMMIT. The first check that fails is reported in PAT_COMMIT and in load_status (R375, R403). The
image is read once no host owns a line of it (R505). -/
def State.patCommit (s : State) (p : Nat) : State :=
  let q := s.part p
  if q.patState = .armed ∨ q.patState = .running ∨ q.patState = .checking then
    s.updPart p fun q => { q with loadStatus := stCONFIG, regs := { q.regs with commitStatus := stCONFIG } }
  else
    let s := s.loadEffects p
    let base := q.regs.base.sh.toNat
    let bytes := q.regs.bytes.sh.toNat
    if s.imagePlaced p base bytes && s.lineHeld (addrLocal base) bytes false then
      (s.recallFor (addrLocal base) bytes false).updPart p fun q => { q with loadResult := none, loadFrom := some (base, bytes) }
    else
      let r := s.loadChecks p base bytes
      s.updPart p fun q => { q with loadResult := some r, loadFrom := none }

/-- PAT_COMMIT. -/
def execPatCommit (port : Fin 2) (part : Fin 16) (s : State) : Host.Outcome State Fault Refusal :=
  .next (s.viaPart port part fun s => s.patCommit part)

/-- A load ends with what its checks gave: the values they judged become live, whatever the shadow holds by now (R174,
R402). -/
def State.endLoad (s : State) (p : Nat) (r : Half × Option Pattern) : State :=
  s.updPart p fun q =>
      let ok := r.1 == stDONE
      { q with
        loadResult := none, loadFrom := none, loadStatus := r.1, pattern := r.2, patState := if ok then .loaded else .empty,
        regs := { q.regs with
          commitStatus := r.1,
          base := match r.2 with
            | some pat => ⟨q.regs.base.sh, BitVec.ofNat 64 pat.base⟩
            | none => q.regs.base,
          bytes := match r.2 with
            | some pat => ⟨q.regs.bytes.sh, BitVec.ofNat 32 pat.bytes⟩
            | none => q.regs.bytes } }

/-- PATTERN_LOAD_DONE: the checks end; those of an image whose lines a host owned at PAT_COMMIT once the lines have
come back (R505). -/
def execPatternLoadDone (part : Fin 16) (s : State) : Host.Outcome State Fault Refusal :=
  let p := part.val
  .next <| match (s.part p).patState, (s.part p).loadResult, (s.part p).loadFrom with
  | .checking, some r, _ => s.endLoad p r
  | .checking, none, some x =>
    if s.lineHeld (addrLocal x.1) x.2 false then s.recallFor (addrLocal x.1) x.2 false
    else s.endLoad p (s.loadChecks p x.1 x.2)
  | _, _, _ => s

/-! ### START_COMMIT (R378) -/

/-- Whether the timebase is locked, or this module is its master. -/
def State.aligned (s : State) : Bool := s.tb.state == .locked || s.tb.state == .master

/-- The status of a write of START_COMMIT. -/
def State.startStatus (s : State) (p : Nat) : Half :=
  let q := s.part p
  let start := q.regs.start.sh.toNat
  if q.patState ≠ .loaded ∧ q.patState ≠ .armed then stCONFIG
  else if start = 0 then stDONE
  else if !s.aligned then stUNALIGNED
  else match q.pattern with
    | some pat => if start < s.tb.count.toNat + pat.slipLag + 16 then stCONFIG else stDONE
    | none => stCONFIG

/-- A write of START_COMMIT: arms, or disarms with start stitch 0. -/
def State.startCommit (s : State) (p : Nat) : State :=
  let st := s.startStatus p
  s.updPart p fun q =>
    let start := q.regs.start.sh.toNat
    if st ≠ stDONE then { q with regs := { q.regs with startStatus := st } }
    else { q with
      regs := { q.regs with startStatus := st, start := ⟨q.regs.start.sh, q.regs.start.sh⟩ },
      armed := if start = 0 then none else some start,
      patState := if start = 0 then .loaded else .armed }

/-- START_COMMIT. -/
def execStartCommit (port : Fin 2) (part : Fin 16) (s : State) : Host.Outcome State Fault Refusal :=
  .next (s.viaPart port part fun s => s.startCommit part)

/-! ### MAN_COMMIT (R394 to R396, R458) -/

/-- The manifest at a local address. -/
def State.readManifest (s : State) (a : Nat) : Manifest :=
  { step := s.imgWord a 4, lens := (List.range (s.imgWord a 8)).map fun i => s.imgWord a (16 + 4 * i) }

/-- The status of a write of MAN_COMMIT with a manifest at a base. -/
def State.manStatus (s : State) (p base : Nat) : Half :=
  let q := s.part p
  let a := addrLocal base
  if !s.inPlaces p base 16 ∨ !s.inPlaces p base (16 + 4 * s.imgWord a 8) then stPRIVILEGE
  else if s.imgWord a 8 = 0 then stZERO
  else match q.pattern with
    | none => stCONFIG
    | some pat =>
      let man := s.readManifest a
      let d := { q.sched with manifests := q.sched.manifests ++ [man] }
      if (q.patState ≠ .loaded ∧ q.patState ≠ .armed ∧ q.patState ≠ .running)
          ∨ s.imgWord a 0 ≠ 0x4D460001 ∨ man.step ≠ q.sched.nextStep ∨ man.lens.length ≠ pat.micro
          ∨ (man.lens.any fun n => decide (pat.class1 < n))
          ∨ pat.maxLong < (man.lens.filter fun n => decide (pat.class0 < n)).length
          ∨ q.sched.begun + 4 ≤ q.sched.nextStep
          ∨ (q.drainStep.any fun n => decide (n < man.step)) then stCONFIG
      else if !pat.planHolds d (if man.step = 0 then [0] else [man.step - 1, man.step]) then stATTIC_OVERRUN
      else stDONE

/-- A manifest is judged, and taken where it passes. The bubbles that it brings move the releases of the holds that lie
behind them (R256, R393). -/
def State.takeManifest (s : State) (p : Nat) (base : Long) : State :=
  let st := s.manStatus p base.toNat
  let man := s.readManifest (addrLocal base.toNat)
  s.updPart p fun q =>
    if st ≠ stDONE then { q with waitingMan := none, regs := { q.regs with manStatus := st } }
    else { q with
      waitingMan := none,
      regs := { q.regs with manStatus := st, man := ⟨q.regs.man.sh, base⟩ },
      sched := { q.sched with manifests := q.sched.manifests ++ [man], nextStep := q.sched.nextStep + 1 },
      attic := match q.pattern with
        | some pat => q.attic.map (pat.replace { q.sched with manifests := q.sched.manifests ++ [man] })
        | none => q.attic }

/-- The bytes of a manifest at a base that a host owns: its four first words, then the whole (R505). -/
def State.manHeld (s : State) (p base : Nat) : Option (Nat × Nat) :=
  let a := addrLocal base
  let n := 16 + 4 * s.imgWord a 8
  if !s.inPlaces p base 16 then none
  else if s.lineHeld a 16 false then some (a, 16)
  else if s.inPlaces p base n && s.lineHeld a n false then some (a, n)
  else none

/-- The manifest at a base is read once no host owns a line of it (R505). -/
def State.awaitManifest (s : State) (p : Nat) (base : Long) : State :=
  match s.manHeld p base.toNat with
  | some x => (s.recallFor x.1 x.2 false).updPart p fun q => { q with waitingMan := some base }
  | none => s.takeManifest p base

/-- A write of MAN_COMMIT. -/
def State.manCommit (s : State) (p : Nat) : State := s.awaitManifest p (s.part p).regs.man.sh

/-- MAN_COMMIT. -/
def execManCommit (port : Fin 2) (part : Fin 16) (s : State) : Host.Outcome State Fault Refusal :=
  .next (s.viaPart port part fun s => s.manCommit part)

/-! ### The stream fetchers (R131, R368) -/

/-- Every core of the loaded pattern that has a stream starts to fetch it (R426). -/
def State.startFetchers (s : State) (p : Nat) (pat : Pattern) : State :=
  (pat.streams.filter fun x => s.coreOpen (8 * (s.part p).layout.live.first.toNat + x.1)).foldl (fun s x =>
    s.updCore (8 * (s.part p).layout.live.first.toNat + x.1) fun k => { k with
      fetch := some { base := addrLocal pat.base + x.2.1, len := x.2.2, pos := 0, body := none, step := 0,
                      seg := none, wait := .go, governed := none } }) s

/-- Word i of a fetcher's stream. -/
def State.streamWord (s : State) (f : Fetcher) (i : Nat) : Word := memWord s.mem (f.base + 4 * i)

/-- A fetcher at the end of its segment has left it. -/
def Fetcher.norm (f : Fetcher) : Fetcher :=
  match f.seg with
  | some x => if x.1 ≤ f.pos then { f with seg := none } else f
  | none => f

/-- The word at which a fetcher stands is a control word of a code. -/
def State.atControl (s : State) (f : Fetcher) (code : Nat) : Bool :=
  decide (f.pos < f.len) && fld (s.streamWord f f.pos) 28 4 == 15 && fld (s.streamWord f f.pos) 24 4 == code

/-- The words of its stream that a fetcher reads where it stands: the first, and where no host owns its line, those
that it makes out: a control word with its operand, or a block with its START word. -/
def State.fetchWords (s : State) (f : Fetcher) : Nat :=
  let w := s.streamWord f f.pos
  if f.len ≤ f.pos then 0
  else if s.lineHeld (f.base + 4 * f.pos) 4 false then 1
  else if fld w 28 4 ≠ 15 then fld w 21 7 + 1
  else if fld w 24 4 = 1 ∨ fld w 24 4 = 2 then 2
  else 1

/-- One step of the fetcher of core c, while its pattern runs; it waits for words that a host owns (R505). -/
def State.fetchStep (s : State) (c : Nat) (f : State → Nat → Pattern → Fetcher → State) : State :=
  match s.partOf c, (s.core c).fetch with
  | some p, some x =>
    match (s.part p).pattern with
    | some pat =>
      let a := x.base + 4 * x.norm.pos
      let n := 4 * s.fetchWords x.norm
      if (s.part p).patState ≠ .running ∨ !(s.part p).active then s
      else if s.lineHeld a n false then s.recallFor a n false
      else f s p pat x.norm
    | none => s
  | _, _ => s

/-- A fetcher put back. -/
def State.setFetch (s : State) (c : Nat) (f : Fetcher) : State := s.updCore c fun k => { k with fetch := some f }

/-- STREAM_ENQUEUE: a block enters the queue when its START word is met; a full queue makes it wait (R131,
R155). -/
def execStreamEnqueue (core : Fin 512) (s : State) : Host.Outcome State Fault Refusal :=
  let c := core.val
  .next <| s.fetchStep c fun s _ _ f =>
    let n := fld (s.streamWord f f.pos) 21 7
    let start := s.streamWord f (f.pos + n)
    if f.wait ≠ .go ∨ f.len ≤ f.pos ∨ fld (s.streamWord f f.pos) 28 4 = 15 ∨ 64 ≤ (s.core c).queue.length then s
    else (s.updCore c fun k => { k with queue := k.queue ++
        [{ words := (List.range n).map fun i => s.streamWord f (f.pos + i),
           startWords := fld start 0 7, badMagic := fld start 16 16 != 0x5354, fromStream := true,
           segClass := match f.seg with | some x => x.2.1 | none => 0 }] }).setFetch c { f with pos := f.pos + n + 1 }

/-- GATE: the fetcher stops at the gate. -/
def execGate (core : Fin 512) (s : State) : Host.Outcome State Fault Refusal :=
  let c := core.val
  .next <| s.fetchStep c fun s _ _ f =>
    if f.wait = .go ∧ s.atControl f 1 then s.setFetch c { f with wait := .gate } else s

/-- The pattern stitch of the gate at which a fetcher stands (R368, R393). -/
def State.gateStitch (s : State) (pat : Pattern) (d : Sched) (f : Fetcher) : Nat :=
  let t := (s.streamWord f (f.pos + 1)).toNat
  match f.body with
  | none => t
  | some _ =>
    let cls := match f.seg with | some x => x.2.1 | none => 0
    pat.stitchOf d f.step t (if cls = 1 then fld (s.streamWord f f.pos) 0 16 else 0) (cls == 1)

/-- The shelves whose gates belong to the stitch that comes next: those that wait and those the governor has
opened already for that stitch. -/
def State.gatedShelves (s : State) (p : Nat) (pat : Pattern) (d : Sched) : List Nat :=
  (s.coresOf p).foldl (fun l c => match (s.core c).fetch with
    | some f =>
      let f := f.norm
      if f.governed == some d.next || (f.wait == .gate && s.gateStitch pat d f == d.next) then insertNat l (c / 8) else l
    | none => l) []

/-- The rise of a pattern stitch in W, by the profile (R399): every entry placed there. -/
def Pattern.riseAt (pat : Pattern) (d : Sched) (q : Nat) : Nat :=
  ((List.range d.nextStep).flatMap fun k => pat.power.filterMap fun x =>
    if pat.holdsIn (d.manifestOf k) x.cond x.m && pat.stitchOf d k x.t x.o (x.cond == 2) == q then some x.rise
    else none).sum

/-- The stitches, inserted ones and the stitch itself, over which the governor spreads a rise (R399):
the rise times governor_scale, divided by 150 W and rounded up. -/
def State.govStitches (s : State) (rise : Nat) : Nat := ceilDiv (rise * s.scale24) (150 * 2 ^ 24)

/-- Whether the governor's slip opens the gates of a shelf early (R399): as many groups as it inserted stitches, and
the stitch itself. -/
def State.groupOpen (s : State) (p : Nat) (pat : Pattern) (d : Sched) (shelf : Nat) : Bool :=
  let ls := s.gatedShelves p pat d
  let n := ((d.governed.find? (·.1 == d.next)).map (·.2)).getD 1
  d.slipNow && d.govSlips != 0 && decide (ls.idxOf shelf * n / ls.length < d.govSlips)

/-- GATE_OPEN: the pattern stitch has reached the gate's stitch, in no slip but one of the governor's own. -/
def execGateOpen (core : Fin 512) (s : State) : Host.Outcome State Fault Refusal :=
  let c := core.val
  .next <| s.fetchStep c fun s p pat f =>
    let d := (s.part p).sched
    if f.wait ≠ .gate then s
    else
      let t := s.gateStitch pat d f
      if !d.slipNow && decide (t < d.next) then s.setFetch c { f with wait := .go, pos := f.pos + 2 }
      else if t = d.next ∧ s.groupOpen p pat d (c / 8) then
        s.setFetch c { f with wait := .go, pos := f.pos + 2, governed := some d.next }
      else s

/-- SEGMENT: entered where the step's manifest gives the micro-batch its class, else skipped. -/
def execSegment (core : Fin 512) (s : State) : Host.Outcome State Fault Refusal :=
  let c := core.val
  .next <| s.fetchStep c fun s p pat f =>
    let d := (s.part p).sched
    let w := s.streamWord f f.pos
    let stop := f.pos + 2 + (s.streamWord f (f.pos + 1)).toNat
    if f.wait ≠ .go ∨ !s.atControl f 2 ∨ d.nextStep ≤ f.step then s
    else if pat.classOf (d.manifestOf f.step) (fld w 0 16) = fld w 16 2 then
      s.setFetch c { f with pos := f.pos + 2, seg := some (stop, fld w 16 2, fld w 0 16) }
    else s.setFetch c { f with pos := stop }

/-- BODY: the prologue ends. -/
def execBody (core : Fin 512) (s : State) : Host.Outcome State Fault Refusal :=
  let c := core.val
  .next <| s.fetchStep c fun s _ _ f =>
    if f.wait = .go ∧ s.atControl f 3 then s.setFetch c { f with pos := f.pos + 1, body := some (f.pos + 1) }
    else s

/-- END_STEP: waits for the next step's manifest, then fetches again after BODY; in a drain it stops here
(R457). -/
def execEndStep (core : Fin 512) (s : State) : Host.Outcome State Fault Refusal :=
  let c := core.val
  .next <| s.fetchStep c fun s p _ f =>
    let q := s.part p
    match f.body with
    | none => s
    | some b =>
      if (f.wait ≠ .go ∧ f.wait ≠ .endStep) ∨ !s.atControl f 4 then s
      else if f.step + 1 < q.sched.nextStep ∧ !(q.drainStep.any fun n => decide (n ≤ f.step)) then
        s.setFetch c { f with wait := .go, pos := b, step := f.step + 1 }
      else s.setFetch c { f with wait := .endStep }

/-! ### Attic holds (R256) -/

/-- ATTIC_HOLD_END: the pattern stitch has reached the release of the hold. -/
def execAtticHoldEnd (part : Fin 16) (handle : BitVec 10) (s : State) : Host.Outcome State Fault Refusal :=
  .next <| s.updPart part fun q =>
    { q with attic := q.attic.filter fun a => !(a.handle == handle.toNat && decide (a.release ≤ q.sched.pstitch)) }

end Sys2Proof.Machine
end

