-- ==== Sys2Proof/Machine/Fabric.lean ====
section
/-! DEFINITION. Machine/Fabric.lean: counters and sampler of the fabric (R303, R304), the receiving side of
transfers (R285, R289 to R297, R447, R484), replies at the sender (R283, R288, R292, R295), routing (R271 to
R280) and its group's holds (R299). -/

namespace Sys2Proof.Machine

/-! ### Counters and sampler -/

/-- A packet and its flits received on a port: the depth of its channel reaches that of the buffer with it
(R303). -/
def State.countRx (s : State) (k flits cls channel : Nat) : State :=
  let got := Sparse.get [] s.fabric.received k
  let now := (List.range 10).map fun j => got.getD j 0 + if j = channelIndex cls channel then flits else 0
  let s := { s with fabric := { s.fabric with received := Sparse.put s.fabric.received k now } }
  s.updCtr k fun c =>
    let i := channelIndex cls channel
    let d := c.depthNow.getD i 0 + BitVec.ofNat 16 flits
    { c with
      rxPackets := c.rxPackets + 1, rxFlits := c.rxFlits + BitVec.ofNat 64 flits,
      depthPeak := if c.depthPeak.getD i 0 < d then c.depthPeak.set i d else c.depthPeak }

/-! ### Buffers and credits (R266, R267) -/

/-- Flits that an input port reserves for a channel, in the order of R303: 64 KiB for S0 and S1, 4 KiB for the
others, and none for A (R266). -/
def reservedOf (channel : Nat) : Nat :=
  if channel < 2 then 4096 else if channel = 4 ∨ channel = 7 then 0 else 256

/-- The same for a lane, the channels from request E0 on: those whose packets may wait. -/
def reservedFlits (lane : Nat) : Nat := reservedOf (lane + 2)

/-- Flits of the shared pool of an input port: X, Y, Z (R266). -/
def poolFlits (port : Nat) : Nat := [65536, 32768, 524288].getD (port / 2) 0

/-- Flits that a channel may still take at an input port where each channel takes used: its reserved space
first, then what no channel has taken of the shared pool yet (R266, R267). -/
def freeFlits (port : Nat) (used : List Nat) (lane : Nat) : Nat :=
  let shared := ((List.range 8).map fun i => used.getD i 0 - reservedFlits i).sum
  (reservedFlits lane - used.getD lane 0) + (poolFlits port - shared)

/-- Flits that lie in the buffers of an input port of this module, by channel. -/
def State.inputUsed (s : State) (k : Nat) : List Nat :=
  (List.range 8).map fun i =>
    ((s.fabric.transit.filter fun x => x.1 == some k && x.2.lane == i).map fun x => x.2.flits).sum

/-- Whether an input port has room for a packet. -/
def State.fits (s : State) (k : Nat) (p : Pkt) : Bool := decide (p.flits ≤ freeFlits k (s.inputUsed k) p.lane)

/-- Flits of credit that an input port of this module has returned on its transmit link, by channel in the order of
R303 from S0: those of every packet that has left its buffer. Scheduled packets leave theirs in the stitch in which
they come (R267; that the model counts what the port returns, and shows no control flit for it, is a DESIGN CHOICE,
log entry 131). -/
def State.creditsReturned (s : State) (k : Nat) : List Nat :=
  ((Sparse.get [] s.fabric.received k).zipIdx).map fun x => x.1 - ([0, 0] ++ s.inputUsed k).getD x.2 0

/-- The port by which a maintenance packet leaves. -/
def Out.port? : Out → Option Nat
  | .fabric k _ => some k
  | .echo k _ _ _ => some k
  | _ => none

/-- Flits of an echo frame: R477 gives it no size (PRESUMED: 16 bytes for a request, 32 for a reply; log entry
112). -/
def Out.flits : Out → Nat
  | .fabric _ p => p.flits
  | .echo _ isReply _ _ => 2 + flitsOf (if isReply then 32 else 16)
  | _ => 0

/-- The depths that a port reports (R303): what lies in its input buffers, and the maintenance packets that wait to
leave by it; scheduled packets never wait. That the queues of R303 are these, and that a depth above 65,535 flits
shows its low 16 bits, is the model's reading (DESIGN CHOICE, log entry 132). The peak follows. -/
def State.noteDepth (s : State) (k : Nat) : State :=
  let m := ((s.fabric.maintWaiting.filter fun o => o.port? == some k).map Out.flits).sum
  let d := [0, 0] ++ (((s.inputUsed k).zipIdx).map fun x => BitVec.ofNat 16 (x.1 + if x.2 = 6 then m else 0))
  s.updCtr k fun c => { c with
    depthNow := d, depthPeak := (d.zipIdx).map fun x => if (c.depthPeak.getD x.2 0).toNat < x.1.toNat then x.1 else c.depthPeak.getD x.2 0 }

/-- The packets in transit changed at a port. -/
def State.setTransit (s : State) (port : Option Nat) (l : List (Option Nat × Pkt)) : State :=
  let s := { s with fabric := { s.fabric with transit := l } }
  match port with
  | some k => s.noteDepth k
  | none => s

/-- Flits of credit that this module holds for a channel of the port across a link (R267). -/
def State.credits (s : State) (k lane : Nat) : Nat := freeFlits k (Sparse.get [] s.fabric.creditUsed k) lane

/-- The flits taken at the port across a link changed. -/
def State.setUsed (s : State) (k : Nat) (f : Nat → Nat → Nat) : State :=
  let u := Sparse.get [] s.fabric.creditUsed k
  { s with fabric := { s.fabric with
      creditUsed := Sparse.put s.fabric.creditUsed k ((List.range 8).map fun i => f i (u.getD i 0)) } }

/-- Credits taken for a packet that leaves by a port. -/
def State.takeCredits (s : State) (k lane n : Nat) : State :=
  s.setUsed k fun i u => if i = lane then u + n else u

/-- Credits that the ports across the links have returned: eight numbers of flits for each port, in the order of
R303 from request E0 (R267). -/
def State.returnCredits (s : State) (back : List Nat) : State :=
  if back.isEmpty then s
  else (List.range 6).foldl (fun s k => s.setUsed k fun i u => u - back.getD (8 * k + i) 0) s

/-- Whether the link of a port is the seam link of its ring (R275). -/
def State.seamLink (s : State) (k : Nat) : Bool :=
  let a := k / 2
  let g := s.fabric.route.live
  let n := g.size a
  let seam := match a with | 0 => g.seamX.toNat | 1 => g.seamY.toNat | _ => g.seamZ.toNat
  if k % 2 = 0 then coordOf s.myId a == (seam + n - 1) % n else coordOf s.myId a == seam

/-- A packet sent by a port: counted. -/
def State.countTx (s : State) (k flits : Nat) : State :=
  let seam := s.seamLink k
  s.updCtr k fun c => { c with
    txPackets := c.txPackets + 1, txFlits := c.txFlits + BitVec.ofNat 64 flits,
    seams := if seam then c.seams + 1 else c.seams }

/-- The header sampler at a point (R304). The link cycles since the boundary are a free value: the model has
no link cycles. -/
def State.sample (s : State) (point cls : Nat) (part : Option Nat) (header : List Byte) : State :=
  let f := s.fabric
  if f.sampleEvery = 0 ∨ f.samplePoint.toNat ≠ point ∨ !f.sampleClasses.toNat.testBit cls
      ∨ (part.any fun p => !f.sampleParts.toNat.testBit p) then s
  else
    let n := f.sampleSeen + 1
    if n % f.sampleEvery.toNat ≠ 0 then { s with fabric := { f with sampleSeen := n } }
    else
      let k := s.freeCtr
      let r := header ++ leBytes 4 s.stitch32 ++ (List.range 4).map (Config.freeByte k)
      { s with fabric := { f with sampleSeen := n, sampleTaken := f.sampleTaken + 1,
                                  sampleRing := pushRing 64 f.sampleRing r },
               freeCtr := k + 1 }

/-- A number the model cannot know: four free bytes (the link cycles of R303 and R477). -/
def State.freeWord (s : State) : State × Nat :=
  ({ s with freeCtr := s.freeCtr + 1 }, ofLe ((List.range 4).map (Config.freeByte s.freeCtr)))

/-- Counters of the fabric updated. -/
def State.updFabric (s : State) (f : Fabric → Fabric) : State := { s with fabric := f s.fabric }

/-! ### Receiving requests -/

/-- A packet kept at an input port until it can go on, behind those that wait there (DEDUCED, log entry 125). -/
def State.keep (s : State) (port : Option Nat) (p : Pkt) : State :=
  s.setTransit port (s.fabric.transit ++ [(port, if port.isSome then { p with owner := none } else p)])

/-- A discarded packet of a stopped partition or a freed context. -/
def State.strayed (s : State) : State := s.updFabric fun f => { f with stray := f.stray + 1 }

/-- Whether partition q takes packets from a module: it lies in q's box or in a peer box (R447). -/
def State.accepts (s : State) (q src : Nat) : Bool :=
  let pl := (s.part q).place.live
  pl.tag != 0 && (s.inBox pl.lo pl.size src
    || ((List.range 4).filterMap pl.peer).any fun b => s.inBox b.2.1 b.2.2 src)

/-- Whether a request for partition q is answered NACK: q is absent, or runs and takes none from the source
(R283, R447). What arrives for a partition that stands still is discarded, whoever sent it (R484). -/
def State.turnsAway (s : State) (q src : Nat) : Bool :=
  (s.part q).state == .absent || ((s.part q).active && !s.accepts q src)

/-- A reply of this module to a packet: it names the partition at the module it goes to (R270, R447). -/
def State.replyPacket (s : State) (p : Pkt) (kind : Nat) (status : Half) (payload : List Byte) : Pkt :=
  { buildPacket 2 kind (s.namedPart p.part.toNat p.src.toNat) p.skein.toNat p.src.toNat s.myId payload.length 0 1
      p.tno.toNat status true payload with owner := some p.part.toNat }

/-- A reply sent. -/
def State.replyTo (s : State) (p : Pkt) (kind : Nat) (status : Half) (payload : List Byte) : State :=
  s.inject (s.replyPacket p kind status payload)

/-- The contexts granted to a skein of another module. -/
def State.grantOf (s : State) (p : Pkt) : Option Granted :=
  s.fabric.grants.find? fun g => g.src == p.src.toNat && g.skein == p.skein.toNat && g.part == p.part.toNat

/-- Whether a receive context is the one of a packet. -/
def RxCtx.isOf (x : RxCtx) (p : Pkt) (reply : Bool) : Bool :=
  x.src == p.src.toNat && x.skein == p.skein.toNat && x.tno == p.tno.toNat && x.isReply == reply

/-- The context a packet counts in, new where none stands (R289). -/
def State.rxContext (s : State) (p : Pkt) : RxCtx :=
  (s.fabric.contexts.find? fun x => x.isOf p false).getD
    { src := p.src.toNat, skein := p.skein.toNat, tno := p.tno.toNat, part := p.part.toNat, packets := 0,
      bytes := 0, totPackets := p.tpackets.toNat, totBytes := p.tbytes.toNat, heldTally := none, fail := 0,
      seenAt := s.power.ticks, isReply := false }

/-- A context put back in its place. -/
def State.putContext (s : State) (x : RxCtx) : State :=
  s.updFabric fun f => { f with contexts := (f.contexts.filter fun y => !(y.src == x.src && y.skein == x.skein
    && y.tno == x.tno && y.isReply == x.isReply)) ++ [x] }

/-- How far a transfer number lies ahead of the newest one seen. -/
def Granted.ahead (g : Granted) (t : Nat) : Nat := (t + 256 - g.newest) % 256

/-- A transfer number seen. At most 16 transfers of a skein are outstanding (R285), so one that lies up to 16 ahead
of the newest is new: the sender has used it, and those it passes, again (R286, R295; DEDUCED, log entry 122). -/
def Granted.see (g : Granted) (t : Nat) : Granted :=
  if 1 ≤ g.ahead t ∧ g.ahead t ≤ 16 then
    { g with newest := t, done := g.done.filter fun x => g.ahead x = 0 ∨ g.ahead t < g.ahead x }
  else g

/-- The grant of a source's skein changed. -/
def State.updGrant (s : State) (src skein : Nat) (h : Granted → Granted) : State :=
  s.updFabric fun f => { f with grants := f.grants.map fun g => if g.src = src ∧ g.skein = skein then h g else g }

/-- A transfer number that is completed, remembered until the sender uses it again (R295). -/
def Granted.finish (g : Granted) (t : Nat) : Granted := { g with done := insertNat g.done t }

/-- A context freed, its transfer number remembered (R295). -/
def State.freeContext (s : State) (x : RxCtx) : State :=
  let s := s.updFabric fun f => { f with
    contexts := f.contexts.filter fun y => !(y.src == x.src && y.skein == x.skein && y.tno == x.tno
      && y.isReply == x.isReply) }
  if x.isReply then s else s.updGrant x.src x.skein fun g => g.finish x.tno

/-- The first failure of a transfer is kept. -/
def RxCtx.failed (x : RxCtx) (st : Half) : RxCtx := if x.fail = stDONE then { x with fail := st } else x

/-- The status of a TALLY at its destination (R291): its core absent, or outside the partition. -/
def State.tallyStatus (s : State) (part core : Nat) : Half :=
  if !s.coreServed core then stENGINE_ABSENT else if s.partOf core ≠ some part then stPRIVILEGE else stDONE

/-- A complete transfer at its receiver (R290, R291): its TALLY applied, ACK sent, the context freed. No increment
crosses into a closed die (R29, log entry 120). -/
def State.completeRx (s : State) (p : Pkt) (x : RxCtx) : State :=
  let st := match x.heldTally with
    | some w => if x.fail = stDONE then s.tallyStatus x.part (fld w 0 9) else x.fail
    | none => x.fail
  let s := match x.heldTally with
    | some w => if st = stDONE ∧ s.coreOpen (fld w 0 9) then s.addTally (fld w 0 9) (fld w 16 8) (BitVec.ofNat 32 (fld w 24 8)) else s
    | none => s
  ((s.freeContext x).updFabric fun f => { f with completed := f.completed + 1 }).replyTo p 9 st []

/-- A request packet that belongs to a transfer is counted (R289 to R295): act says what its payload does,
with the status of its check. -/
def State.countIn (s : State) (p : Pkt) (act : State → State × Half) (tally : Option Word) : State :=
  if s.turnsAway p.part.toNat p.src.toNat then s.replyTo p 0xB stPRIVILEGE []
  else if !(s.part p.part.toNat).active then s.strayed
  else match s.grantOf p with
    | none => s.strayed
    | some g =>
      let g := g.see p.tno.toNat
      let used := (s.fabric.contexts.filter fun x => !x.isReply && x.src == g.src && x.skein == g.skein).length
      let fresh := !(s.fabric.contexts.any fun x => x.isOf p false)
      if fresh && (g.done.contains p.tno.toNat || decide (g.count ≤ used)) then s.strayed
      else
        let s := s.updGrant g.src g.skein fun _ => g
        let x := s.rxContext p
        let n := p.payload.length
        if x.totPackets < x.packets + 1 ∨ x.totBytes < x.bytes + n ∨ x.totPackets ≠ p.tpackets.toNat
            ∨ x.totBytes ≠ p.tbytes.toNat then
          ((s.updFabric fun f => { f with countOverruns := f.countOverruns + 1 }).freeContext x).replyTo p 9
            stOVERRUN []
        else
          let r := act s
          let x : RxCtx := { x.failed r.2 with
            packets := x.packets + 1, bytes := x.bytes + n, seenAt := s.power.ticks,
            heldTally := match tally with | some w => some w | none => x.heldTally }
          if x.packets = x.totPackets ∧ x.bytes = x.totBytes then r.1.completeRx p x
          else
            let s := if p.last then r.1.updFabric fun f => { f with earlyLast := f.earlyLast + 1 } else r.1
            s.putContext x

/-- The check of an arriving access (R145, R198, R297): control, host window and reserved regions are refused. -/
def State.accessStatus (s : State) (part a n : Nat) : Half :=
  let l := addrLocal a
  if addrModule a ≠ s.myId ∨ 2 < addrRegion a then stPRIVILEGE
  else if n = 0 then stDONE
  else if touchesPlane (l, n) ∧ (s.part part).layout.live.excl = 0 then stPRIVILEGE
  else s.rangeStatus part l n

/-- Bytes that a packet brings for a place of partition q: stored, or refused with a status (R125, R297, R414); a
refusal by a gather's hold is counted (R422). A write to HBM may meet parity, whose fourth failure is a memory
fault of the partition (R105, R110). -/
def State.storeIn (s : State) (q a : Nat) (bs : List Byte) (ecc : Ecc) : State × Half :=
  let st := s.accessStatus q a bs.length
  let at_ := [(addrLocal a, bs.length)]
  if st ≠ stDONE then (s, st)
  else if meetAny at_ s.gatherHolds then (s.noteStale true, stSTALE_SHARD)
  else if meetAny at_ (s.atticHolds q) then (s, stSTALE_SHARD)
  else
    let r := s.accessErrors [] at_ ecc
    match r.2 with
    | some bad => (r.1.fault stECC 1 (memUnit bad).1 (memUnit bad).2 [q] bad 0, stECC)
    | none => (r.1.storeRun (addrLocal a) bs, stDONE)

/-- What a WRITE's payload does. -/
def State.writeIn (s : State) (p : Pkt) (ecc : Ecc) : State × Half := s.storeIn p.part.toNat p.addr.toNat p.payload ecc

/-- Whether a partition serves a request, so that it has to wait for what stands in its way. -/
def State.serves (s : State) (p : Pkt) : Bool :=
  !s.turnsAway p.part.toNat p.src.toNat && (s.part p.part.toNat).active

/-- Whether a WRITE meets a busy bank or gradient region, or a closed crossing, and has to wait (R29, R35, R199). -/
def State.writeStalls (s : State) (p : Pkt) : Bool :=
  let a := addrLocal p.addr.toNat
  meetAny [(a, p.payload.length)] (s.busyBanks ++ s.busyRegions) || !s.extOpen a p.payload.length

/-- WRITE delivered here. What comes for a partition that does not serve it is judged at once (R484). -/
def State.onWrite (s : State) (port : Option Nat) (p : Pkt) (ecc : Ecc) : State :=
  if s.serves p && s.writeStalls p then s.keep port p else s.countIn p (fun s => s.writeIn p ecc) none

/-- TALLY delivered here; one for a core of a closed die waits (R29, log entry 120). -/
def State.onTally (s : State) (port : Option Nat) (p : Pkt) : State :=
  if s.serves p && !s.coreOpen (leAt p.payload 0 4 % 512) then s.keep port p
  else s.countIn p (fun s => (s, stDONE)) (some (BitVec.ofNat 32 (leAt p.payload 0 4)))

/-- The READ_DATA packets that answer a READ. -/
def State.readAnswer (s : State) (p : Pkt) : List Pkt :=
  let n := p.tbytes.toNat
  let land := leAt p.payload 0 8
  let k := ceilDiv n 256
  (List.range k).map fun i =>
    { buildPacket 2 8 (s.namedPart p.part.toNat p.src.toNat) p.skein.toNat p.src.toNat s.myId n (land + 256 * i) k
        p.tno.toNat 0
        (i + 1 == k) (memBytes s.mem (addrLocal p.addr.toNat + 256 * i) (min 256 (n - 256 * i))) with
      owner := some p.part.toNat }

/-- READ delivered here: answered from memory, or refused with NACK (R288, R297); lines a host owns are
recalled first (R505), and the read may meet errors of the memory (R101, R102, R109, R110). Its transfer number is
remembered like that of any finished transfer (R295). A line that fails stops the partition (R481), and the NACK
still tells the reader (R102; that it leaves after the stop is a DESIGN CHOICE, log entry 130). -/
def State.onRead (s : State) (port : Option Nat) (p : Pkt) (ecc : Ecc) : State :=
  let a := addrLocal p.addr.toNat
  let n := p.tbytes.toNat
  let st := s.accessStatus p.part.toNat p.addr.toNat n
  if s.turnsAway p.part.toNat p.src.toNat then s.replyTo p 0xB stPRIVILEGE []
  else if !(s.part p.part.toNat).active then s.strayed
  else match s.grantOf p with
    | none => s.strayed
    | some g =>
      let g := g.see p.tno.toNat
      let t := s.updGrant g.src g.skein fun _ => g.finish p.tno.toNat
      if g.done.contains p.tno.toNat then s.strayed
      else if st ≠ stDONE then t.replyTo p 0xB st []
      else if !s.extOpen a n then s.keep port p
      else if s.lineHeld a n false then (s.recallFor a n false).keep port p
      else
        let r := t.readErrors [(a, n)] ecc
        match r.2 with
        | some bad =>
          (r.1.fault stECC 1 (memUnit bad).1 (memUnit bad).2 [p.part.toNat] bad 0).replyTo p 0xB stECC []
        | none => (s.readAnswer p).foldl State.inject r.1

/-- OPEN delivered here (R283, R285, R441, R447): GRANT of 0 to 16 contexts, or NACK. -/
def State.onOpen (s : State) (_port : Option Nat) (p : Pkt) : State :=
  let q := p.part.toNat
  if s.turnsAway q p.src.toNat then s.replyTo p 0xB stPRIVILEGE []
  else if !(s.part q).active then s.strayed
  else
    let s := s.updFabric fun f => { f with
      grants := f.grants.filter fun g => !(g.src == p.src.toNat && g.skein == p.skein.toNat) }
    let least := fun q => (s.part q).guar.live.rxctx.toNat
    let n := ((List.range 17).filter fun k => poolOk 16384 s.contextsHeld least q k).foldl max 0
    let s := if n = 0 then s else s.updFabric fun f => { f with grants := f.grants ++
      [{ src := p.src.toNat, skein := p.skein.toNat, part := q, count := n, done := [], newest := 255 }] }
    s.injectHeld (s.replyPacket p 0xA 0 (leBytes 4 (n ||| s.coreCount <<< 16) ++ leBytes 4 0))

/-- CLOSE delivered here: the skein's contexts return to the pool (R285, R287); refused and discarded as any
request is (R447, R484). -/
def State.onClose (s : State) (_port : Option Nat) (p : Pkt) : State :=
  if s.turnsAway p.part.toNat p.src.toNat then s.replyTo p 0xB stPRIVILEGE []
  else if !(s.part p.part.toNat).active then s.strayed
  else s.updFabric fun f => { f with
    grants := f.grants.filter fun g => !(g.src == p.src.toNat && g.skein == p.skein.toNat),
    contexts := f.contexts.filter fun x => x.isReply || !(x.src == p.src.toNat && x.skein == p.skein.toNat) }

/-! ### Replies at the sender -/

/-- A traffic fault of a failed transfer: the issuing core is its unit (R491). A transfer of the hub names
none. -/
def State.failTransfer (s : State) (part : Nat) (core : Option Nat) (st : Half) : State :=
  match core with
  | none => s.fault st 2 0 0 [part] 0 0
  | some c => match (s.core c).mover with
    | some m =>
      (s.updCore c fun x => { x with mover := none }).failCommand part c m.chk.entry st m.flags 2 1 c 0
    | none => s.fault st 2 1 c [part] 0 0

/-- n transfers of a core have ended with a failure: those of the core that still wait are not sent. -/
def State.failMover (s : State) (c n : Nat) (st : Half) : State :=
  let gone := (s.fabric.waiting.filter fun w => w.core == some c).length
  let t := s.updFabric fun f => { f with waiting := f.waiting.filter fun w => !(w.core == some c) }
  match (t.core c).mover with
  | none => t
  | some m => (t.setMover c { m with live := m.live - n - gone,
                                     status := if m.status = stDONE then st else m.status }).moverAdvance c

/-- A transfer of a core is answered. -/
def State.answerMover (s : State) (core : Option Nat) (st : Half) (ecc : Ecc) : State :=
  match core with
  | none => s
  | some c =>
    if st ≠ stDONE then s.failMover c 1 st
    else match (s.core c).mover with
      | none => s
      | some m => (s.setMover c (m.answered st false)).moverAdvance c ecc

/-- Waiting transfers that cannot be sent go: the commands they belong to fail with a status. -/
def State.dropWaiting (s : State) (hit : WaitX → Bool) (st : Half) : State :=
  let cs := ((s.fabric.waiting.filter hit).filterMap (·.core)).foldl insertNat []
  (cs.foldl (fun s c => s.failMover c 0 st) s).updFabric fun f => { f with waiting := f.waiting.filter fun w => !hit w }

/-- A live transfer taken out of its skein. -/
def Skein.without (k : Skein) (tno : Nat) (now : Nat) : Skein :=
  let l := k.live.filter fun x => x.tno.toNat != tno
  { k with live := l, idleSince := if l.isEmpty then now else k.idleSince }

/-- The live transfer that a reply answers. -/
def State.liveOf (s : State) (p : Pkt) : Option (Skein × LiveX) :=
  match s.skein p.skein.toNat with
  | some k => if k.dest = p.src.toNat then
      match k.live.find? fun x => x.tno == p.tno with
      | some x => some (k, x)
      | none => none
    else none
  | none => none

/-- A transfer is over at its sender with a status: COUNT_OVERRUN is a traffic fault (R294). -/
def State.endTransfer (s : State) (k : Skein) (x : LiveX) (st : Half) (ecc : Ecc := .clean) : State :=
  let s := s.updSkein k.num fun k => k.without x.tno.toNat s.power.ticks
  let s := s.updFabric fun f => { f with contexts := f.contexts.filter fun y =>
    !(y.isReply && y.skein == k.num && y.tno == x.tno.toNat) }
  if st = stOVERRUN then s.failTransfer k.part x.core st else (s.answerMover x.core st ecc).pump

/-- ACK delivered here (R292). -/
def State.onAck (s : State) (_port : Option Nat) (p : Pkt) : State :=
  match s.liveOf p with
  | some (k, x) => if x.xfer.isRead then s.strayed else s.endTransfer k x p.status
  | none => s.strayed

/-- A mover's status where it has none yet. -/
def State.markMover (s : State) (c : Nat) (st : Half) : State :=
  s.updCore c fun x => { x with mover := x.mover.map fun m =>
    { m with status := if m.status = stDONE then st else m.status } }

/-- Bytes of READ_DATA go where they land: memory of this module, unless a hold has come to keep it (R125, R414),
or the mover that waits for them. A write to HBM may meet parity (R110): the address of its fourth failure. -/
def State.landData (s : State) (core : Option Nat) (a : Nat) (bs : List Byte) (ecc : Ecc) : State × Option Nat :=
  if addrModule a = s.myId then
    let at_ := [(addrLocal a, bs.length)]
    let r := s.accessErrors [] at_ ecc
    match r.2, core with
    | some bad, _ => (r.1, some bad)
    | none, none => (r.1.storeRun (addrLocal a) bs, none)
    | none, some c => match r.1.heldAgainst c (r.1.gatherHoldsBut c) at_ with
      | some counted => ((r.1.noteStale counted).markMover c stSTALE_SHARD, none)
      | none => (r.1.storeRun (addrLocal a) bs, none)
  else match core with
    | none => (s, none)
    | some c => (s.updCore c fun x => { x with mover := x.mover.map fun m =>
        { m with staging := bs.zipIdx.foldl (fun st b => Sparse.put st (a + b.2) b.1) m.staging } }, none)

/-- A write of arriving data fails (R109, R110): the command it belongs to fails with it. -/
def State.failLanding (s : State) (part : Nat) (core : Option Nat) (bad : Nat) : State :=
  match core.bind fun c => (s.core c).mover.map fun m => (c, m) with
  | some (c, m) => s.failMove part c m bad
  | none => s.fault stECC 1 (memUnit bad).1 (memUnit bad).2 [part] bad 0

/-- READ_DATA delivered here (R288 to R290, R294). -/
def State.onReadData (s : State) (_port : Option Nat) (p : Pkt) (ecc : Ecc) : State :=
  match s.liveOf p, s.fabric.contexts.find? fun x => x.isOf p true with
  | some (k, l), some x =>
    let x := if x.packets = 0 then { x with totPackets := p.tpackets.toNat, totBytes := p.tbytes.toNat } else x
    let n := p.payload.length
    if x.totPackets < x.packets + 1 ∨ x.totBytes < x.bytes + n ∨ x.totPackets ≠ p.tpackets.toNat
        ∨ x.totBytes ≠ p.tbytes.toNat then
      (s.updFabric fun f => { f with countOverruns := f.countOverruns + 1 }).endTransfer k l stOVERRUN
    else
      let r := s.landData l.core p.addr.toNat p.payload ecc
      match r.2 with
      | some bad => r.1.failLanding k.part l.core bad
      | none =>
        let s := r.1
        let x := { x with packets := x.packets + 1, bytes := x.bytes + n, seenAt := s.power.ticks }
        if x.packets = x.totPackets ∧ x.bytes = x.totBytes then
          (s.updFabric fun f => { f with completed := f.completed + 1 }).endTransfer k l stDONE ecc
        else
          let s := if p.last then s.updFabric fun f => { f with earlyLast := f.earlyLast + 1 } else s
          s.putContext x
  | _, _ => s.strayed

/-- GRANT delivered here (R283): the skein opens, or OPEN is sent again. -/
def State.onGrant (s : State) (_port : Option Nat) (p : Pkt) : State :=
  match s.skein p.skein.toNat with
  | some k =>
    if k.isOpen ∨ k.dest ≠ p.src.toNat then s.strayed
    else
      let n := leAt p.payload 0 1
      if n = 0 then s.updSkein k.num fun k => { k with retry := true, openSentAt := s.power.ticks }
      else (s.updSkein k.num fun k => { k with
        isOpen := true, retry := false, granted := min n 16, cores := leAt p.payload 2 2,
        idleSince := s.power.ticks }).pump
  | none => s.strayed

/-- The cores of a partition whose command waits for a skein to a module, at its checks or at issue (R284). -/
def State.waitingCores (s : State) (part d : Nat) : List (Nat × Checked) :=
  (s.coresOf part).filterMap fun c => match (s.core c).head, (s.core c).queue with
    | some _, _ => match s.ready c with
      | some (_, k) => if k.requestClass && remoteModule k == some d && !k.noop then some (c, k) else none
      | none => none
    | none, e :: _ =>
      let k : Checked := { entry := e, descs := s.readDescs part e }
      if (s.part part).active && (s.core c).qstate == .running && s.checkWaits part k == some d then some (c, k)
      else none
    | none, [] => none

/-- Every command waiting on a skein that will not open completes with a status: those at issue, and those under
way whose transfers wait for it. The skein is gone. -/
def State.failOpen (s : State) (k : Skein) (st : Half) : State :=
  let cs := s.waitingCores k.part k.dest
  let s := (s.dropSkein k.num).dropWaiting (fun w => w.part == k.part && w.xfer.dest == k.dest) st
  cs.foldl (fun s ck => s.refuseMove k.part ck.1 ck.2 st) s

/-- NACK delivered here (R283, R297). -/
def State.onNack (s : State) (_port : Option Nat) (p : Pkt) : State :=
  match s.skein p.skein.toNat with
  | none => s.strayed
  | some k =>
    if k.dest ≠ p.src.toNat then s.strayed
    else if !k.isOpen then s.failOpen k p.status
    else match k.live.find? fun x => x.tno == p.tno with
      | some x => s.endTransfer k x p.status
      | none => s.strayed

/-! ### Arrival -/

/-- The signed offset along an axis from a coordinate to a destination's (R274). -/
def State.offsetOn (s : State) (a h d : Nat) : Int :=
  let g := s.fabric.route.live
  let n := g.size a
  if g.axisMode.toNat.testBit a then
    let seam := match a with | 0 => g.seamX.toNat | 1 => g.seamY.toNat | _ => g.seamZ.toNat
    (((d + n - seam) % n : Nat) : Int) - (((h + n - seam) % n : Nat) : Int)
  else
    let k := (d + n - h) % n
    if k = 0 then 0 else if 2 * k ≤ n then (k : Int) else -((n - k : Nat) : Int)

/-- The offset of a packet's destination from this module along an axis. -/
def State.offsetTo (s : State) (a dest : Nat) : Int := s.offsetOn a (coordOf s.myId a) (coordOf dest a)

/-- Whether a packet for a module is delivered here: every offset is zero (R278). -/
def State.isHere (s : State) (dest : Nat) : Bool :=
  dest == s.myId || (List.range 3).all fun a => s.offsetTo a dest == 0

/-- A packet discarded where it arrives (R265, R271, R273). -/
def State.discardPkt (s : State) : State := s.updFabric fun f => { f with checkDiscards := f.checkDiscards + 1 }

/-- A packet of a partition has been here in this stitch, which is not idle then (R164). -/
def State.touchPart (s : State) (q : Nat) : State :=
  if (s.part q).active then s.updPart q fun x => { x with changed := true } else s

/-- A packet for this module comes in: the counter and the sampler. -/
def State.takeIn (s : State) (p : Pkt) : State :=
  ((s.touchPart p.part.toNat).updFabric fun f => { f with delivered := f.delivered + 1 }).sample 6 p.cls.toNat
    (some p.part.toNat) p.bytes

/-- A packet for this module: its check, the counter, the sampler, then its handler (R273). -/
def State.consume (s : State) (port : Option Nat) (p : Pkt) (h : State → Option Nat → Pkt → State) : State :=
  if p.check ≠ p.crc then s.discardPkt else h (s.takeIn p) port p

/-- A packet arrives on a port in service: the reserved channel code is discarded (R265), one for another module
waits for its route. No credit lets a packet come for which the port has no room (R267): none is taken. -/
def State.arrival (s : State) (port : Nat) (p : Pkt) (h : State → Option Nat → Pkt → State) : State :=
  if (s.link port).state ≠ 5 then s
  else if p.channel = 3 then (s.countRx port p.flits p.cls.toNat 2).discardPkt
  else if !s.fits port p then s
  else
    let s := s.countRx port p.flits p.cls.toNat p.channel.toNat
    if s.isHere p.dest.toNat then s.consume (some port) p h else s.keep (some port) p

/-- WRITE. -/
def execWrite (port : Fin 6) (p : Pkt) (s : State) (ecc : Ecc := .clean) : Host.Outcome State Fault Refusal :=
  guarded (p.isKind 1 0) (s.arrival port p fun s port p => s.onWrite port p ecc)

/-- READ. -/
def execRead (port : Fin 6) (p : Pkt) (s : State) (ecc : Ecc := .clean) : Host.Outcome State Fault Refusal :=
  guarded (p.isKind 1 1) (s.arrival port p fun s port p => s.onRead port p ecc)

/-- TALLY. -/
def execTally (port : Fin 6) (p : Pkt) (s : State) : Host.Outcome State Fault Refusal :=
  guarded (p.isKind 1 2) (s.arrival port p State.onTally)

/-- OPEN. -/
def execFabOpen (port : Fin 6) (p : Pkt) (s : State) : Host.Outcome State Fault Refusal :=
  guarded (p.isKind 1 3) (s.arrival port p State.onOpen)

/-- CLOSE. -/
def execFabClose (port : Fin 6) (p : Pkt) (s : State) : Host.Outcome State Fault Refusal :=
  guarded (p.isKind 1 4) (s.arrival port p State.onClose)

/-- READ_DATA. -/
def execReadData (port : Fin 6) (p : Pkt) (s : State) (ecc : Ecc := .clean) : Host.Outcome State Fault Refusal :=
  guarded (p.isKind 2 8) (s.arrival port p fun s port p => s.onReadData port p ecc)

/-- ACK. -/
def execAck (port : Fin 6) (p : Pkt) (s : State) : Host.Outcome State Fault Refusal :=
  guarded (p.isKind 2 9) (s.arrival port p State.onAck)

/-- GRANT. -/
def execGrant (port : Fin 6) (p : Pkt) (s : State) : Host.Outcome State Fault Refusal :=
  guarded (p.isKind 2 0xA) (s.arrival port p State.onGrant)

/-- NACK. -/
def execNack (port : Fin 6) (p : Pkt) (s : State) : Host.Outcome State Fault Refusal :=
  guarded (p.isKind 2 0xB) (s.arrival port p State.onNack)

/-! ### Timers of skeins and contexts -/

/-- OPEN_RETRY: OPEN again, one stitch after a GRANT of 0 (R283). -/
def execOpenRetry (skein : BitVec 12) (s : State) : Host.Outcome State Fault Refusal :=
  .next <| match s.skein skein.toNat with
  | some k => if k.retry ∧ !s.fabric.hold ∧ k.openSentAt < s.power.ticks then
      (s.updSkein k.num fun k => { k with retry := false, openSentAt := s.power.ticks }).inject
        (s.openPacket k.num k.part k.dest)
    else s
  | none => s

/-- A skein taken away whose number rests for 2 × transfer_timeout stitches (R295). -/
def State.retireSkein (s : State) (n : Nat) : State :=
  (s.dropSkein n).updFabric fun f => { f with
    retired := f.retired.filter (·.1 != n) ++ [(n, s.power.ticks + 2 * f.timeout.toNat)] }

/-- The cores whose MOVE under way waits for a skein to open. -/
def State.waitingMovers (s : State) (k : Skein) : List Nat :=
  ((s.fabric.waiting.filter fun w => w.part == k.part && w.xfer.dest == k.dest).filterMap (·.core)).foldl insertNat []

/-- A MOVE under way completes with the status of the fault that it raises, before the discard (R483). -/
def State.endMover (s : State) (p c : Nat) (st : Half) : State :=
  match (s.core c).mover with
  | some m => (s.updCore c fun x => { x with mover := none }).complete p c m.chk.entry st m.flags false
  | none => s

/-- OPEN_TIMEOUT: OPEN drew no reply (R283, R295): every command that waits for it, at issue or under way, completes
with TRANSFER_TIMEOUT (R306). -/
def execOpenTimeout (skein : BitVec 12) (s : State) : Host.Outcome State Fault Refusal :=
  .next <| match s.skein skein.toNat with
  | some k =>
    if k.isOpen ∨ k.retry ∨ s.power.ticks < k.openSentAt + s.fabric.timeout.toNat then s
    else
      let ms := s.waitingMovers k
      let unit := ((s.waitingCores k.part k.dest).map (·.1) ++ ms).head?
      let s := ms.foldl (fun s c => s.endMover k.part c stTIMEOUT) s
      let s := ((s.failOpen k stTIMEOUT).retireSkein k.num).updFabric fun f =>
        { f with timeouts := f.timeouts + 1 }
      s.fault stTIMEOUT 2 (if unit.isSome then 1 else 0) (unit.getD 0) [k.part] 0 0
  | none => s

/-- TRANSFER_TIMEOUT: no answer within transfer_timeout stitches of the last packet (R295). -/
def execTransferTimeout (skein : BitVec 12) (tno : Byte) (s : State) : Host.Outcome State Fault Refusal :=
  .next <| match s.skein skein.toNat with
  | some k => match k.live.find? fun x => x.tno == tno with
    | some x =>
      if x.left ≠ 0 ∨ s.power.ticks < x.sentAt + s.fabric.timeout.toNat then s
      else ((s.retireSkein k.num).updFabric fun f => { f with timeouts := f.timeouts + 1 }).failTransfer
        k.part x.core stTIMEOUT
    | none => s
  | none => s

/-- RECEIVE_CONTEXT_EXPIRY: a context that has seen no packet for transfer_timeout stitches is freed (R295). -/
def execReceiveContextExpiry (src : BitVec 13) (skein : BitVec 12) (tno : Byte) (s : State) :
    Host.Outcome State Fault Refusal :=
  .next <| match s.fabric.contexts.find? fun x => x.src == src.toNat && x.skein == skein.toNat
      && x.tno == tno.toNat && !x.isReply with
  | some x => if x.seenAt + s.fabric.timeout.toNat ≤ s.power.ticks then s.freeContext x else s
  | none => s

/-- SKEIN_IDLE_CLOSE: nothing outstanding for 16 stitches (R287). -/
def execSkeinIdleClose (skein : BitVec 12) (s : State) : Host.Outcome State Fault Refusal :=
  .next <| match s.skein skein.toNat with
  | some k =>
    if k.isOpen ∧ k.live.isEmpty ∧ k.idleSince + 16 ≤ s.power.ticks then (s.closeSkein k).pump else s
  | none => s

/-! ### Routing (R274, R275, R278 to R280) -/

/-- The port toward an offset. -/
def portToward (a : Nat) (off : Int) : Nat := if 0 < off then 2 * a else 2 * a + 1

/-- Whether a packet has crossed the seam of an axis on its way here: on its minimal route from its source
(R275). -/
def State.crossedSeam (s : State) (p : Pkt) (a : Nat) : Bool :=
  let g := s.fabric.route.live
  let n := g.size a
  let seam := match a with | 0 => g.seamX.toNat | 1 => g.seamY.toNat | _ => g.seamZ.toNat
  let src := coordOf p.src.toNat a
  let here := coordOf s.myId a
  if g.axisMode.toNat.testBit a then false
  else if 0 < s.offsetOn a src (coordOf p.dest.toNat a) then
    let upto := (seam + n - src) % n
    decide (1 ≤ upto) && decide (upto ≤ (here + n - src) % n)
  else
    let upto := (src + n - (seam + n - 1) % n) % n
    decide (1 ≤ upto) && decide (upto ≤ (src + n - here) % n)

/-- Flits that partition q has injected in this stitch. -/
def State.injectedBy (s : State) (q : Nat) : Nat := Sparse.get 0 s.fabric.injected q

/-- Whether partition a injects before partition b (R442): those below inject_now first, by class and number; then
the others, by class and, within a class, whoever has injected less (DESIGN CHOICE, log entry 119). -/
def State.goesBefore (s : State) (a b : Nat) : Bool :=
  let cls := fun q => (s.part q).layout.live.cls.toNat
  let late := fun q => decide ((s.part q).injectNow.toNat ≤ s.injectedBy q)
  if late a != late b then late b
  else if cls a ≠ cls b then decide (cls a < cls b)
  else if late a && s.injectedBy a != s.injectedBy b then decide (s.injectedBy a < s.injectedBy b)
  else decide (a < b)

/-- A request packet of this module has left it, or is lost: the transfer's last packet starts its timeout (R292,
R295). -/
def State.noteLeft (s : State) (p : Pkt) : State :=
  if p.cls = 1 ∧ p.kind.toNat < 3 then
    s.updSkein p.skein.toNat fun k => { k with live := k.live.map fun x =>
      if x.tno = p.tno then { x with left := x.left - 1, sentAt := s.power.ticks } else x }
  else s

/-- A packet leaves by a port in a channel: it takes credits at the port across the link (R267), and one of this
module's is charged to its partition (R442). -/
def State.emit (s : State) (own : Bool) (k : Nat) (p : Pkt) (channel : Nat) (escape : Bool) (waited : Nat) :
    State :=
  let s := if own then
      let t := (s.noteLeft p).sample 7 p.cls.toNat (some p.part.toNat) p.bytes
      match p.owner with
      | some q => t.updFabric fun f => { f with injected := Sparse.put f.injected q (s.injectedBy q + p.flits) }
      | none => t
    else s
  let q := { p with channel := BitVec.ofNat 2 channel, esc := escape, hops := p.hops + 1, owner := none }
  let s := ((s.takeCredits k q.lane q.flits).countTx k q.flits).updCtr k fun c =>
    let w := BitVec.ofNat 64 waited
    { c with
      escapes := if escape && !p.esc then c.escapes + 1 else c.escapes,
      stallRequest := if p.cls = 1 then c.stallRequest + w else c.stallRequest,
      stallReply := if p.cls = 2 then c.stallReply + w else c.stallReply }
  (s.sample k q.cls.toNat (some q.part.toNat) q.bytes).send (.fabric k q)

/-- Whether a port can take a packet into a channel: in service, with credits for all of its flits (R263, R267). -/
def State.takes (s : State) (k : Nat) (p : Pkt) (channel : Nat) : Bool :=
  s.portEnabled k && (s.link k).state == 5
    && decide (p.flits ≤ s.credits k ({ p with channel := BitVec.ofNat 2 channel } : Pkt).lane)

/-- The productive ports of a packet: toward each offset that is not zero, X first. -/
def State.portsToward (s : State) (dest : Nat) : List Nat :=
  ((List.range 3).filter fun a => s.offsetTo a dest != 0).map fun a => portToward a (s.offsetTo a dest)

/-- The escape channel for a packet along an axis: low before the seam, high after it. -/
def State.escapeChannel (s : State) (p : Pkt) (a : Nat) : Nat := if s.crossedSeam p a then 1 else 0

/-- The escape move of R278: dimension order, low channel before the seam, high after it. -/
def State.escapeMove (s : State) (own : Bool) (p : Pkt) (waited : Nat) : Option State :=
  ((List.range 3).find? fun a => s.offsetTo a p.dest.toNat != 0).bind fun a =>
    let k := portToward a (s.offsetTo a p.dest.toNat)
    let ch := s.escapeChannel p a
    if s.takes k p ch then some (s.emit own k p ch true waited) else none

/-- The adaptive move of R278: the productive port with most credits of those that can take the packet. -/
def State.adaptiveMove (s : State) (own : Bool) (p : Pkt) (waited : Nat) : Option State :=
  let lane := ({ p with channel := 2 } : Pkt).lane
  let ready := (s.portsToward p.dest.toNat).filter fun k => s.takes k p 2
  (ready.foldl (fun (best : Option Nat) k => match best with
    | some b => if s.credits b lane < s.credits k lane then some k else some b
    | none => some k) none).map fun k => s.emit own k p 2 false waited

/-- Whether some port can take a packet now, adaptively or by escape. -/
def State.canLeave (s : State) (p : Pkt) : Bool :=
  if p.esc then (s.escapeMove true p 0).isSome else (s.portsToward p.dest.toNat).any fun k => s.takes k p 2

/-- Whether a packet of this module has the turn to be injected: no partition that goes before its own has one that
can leave (R442). Every request and reply of this module has an owner. -/
def State.mayInject (s : State) (p : Pkt) : Bool :=
  match p.owner with
  | none => true
  | some q => !(s.fabric.transit.any fun x => x.1.isNone && (match x.2.owner with
      | some r => r != q && s.goesBefore r q && s.canLeave x.2
      | none => false))

/-- Whether a packet is at the head of its queue: of its channel at an input port (R278), or of its partition and
class among this module's own. -/
def State.atHead (s : State) (port : Option Nat) (p : Pkt) : Bool :=
  match s.fabric.transit.find? fun x => x.1 == port && x.2.cls == p.cls
      && (if port.isSome then x.2.channel == p.channel else x.2.owner == p.owner) with
  | some x => x.2 == p
  | none => true

/-- Whether a packet is queued for a link: every move that R278 leaves it crosses that link (DESIGN CHOICE, log
entry 119). -/
def State.queuedFor (s : State) (k : Nat) (p : Pkt) : Bool :=
  let ports := s.portsToward p.dest.toNat
  !s.isHere p.dest.toNat && ports.take 1 == [k] && (p.esc || ports.length == 1)

/-- A link fails: what is queued for it is discarded (R302), and its credits are gone with it. -/
def State.dropQueued (s : State) (k : Nat) : State :=
  let lost := (s.fabric.transit.filter fun x => x.1.isNone && s.queuedFor k x.2).map (·.2)
  let t := (List.range 6).foldl State.noteDepth { s with fabric := { s.fabric with
    transit := s.fabric.transit.filter fun x => !s.queuedFor k x.2,
    maintWaiting := s.fabric.maintWaiting.filter fun o => o.port? != some k } }
  (lost.foldl State.noteLeft t).setUsed k fun _ _ => 0

/-- The handler of a delivered packet by class and kind. -/
def State.dispatch (s : State) (port : Option Nat) (p : Pkt) (ecc : Ecc) : State :=
  match p.cls.toNat, p.kind.toNat with
  | 1, 0 => s.onWrite port p ecc
  | 1, 1 => s.onRead port p ecc
  | 1, 2 => s.onTally port p
  | 1, 3 => s.onOpen port p
  | 1, 4 => s.onClose port p
  | 2, 8 => s.onReadData port p ecc
  | 2, 9 => s.onAck port p
  | 2, 0xA => s.onGrant port p
  | 2, 0xB => s.onNack port p
  | _, _ => s

/-- What a packet's turn brings: it leaves, or it stays as it then is. -/
inductive Turn where
  | leaves (s : State)
  | stays (s : State) (p : Pkt)

/-- A packet that has waited its patience without a productive port's A credits turns to the escape channels, and stays
there even while they have no credits (R278, R279). The port that it then waits for counts it. -/
def State.turnEscape (s : State) (own : Bool) (p : Pkt) (waited : Nat) : Turn :=
  match s.escapeMove own p waited with
  | some t => .leaves t
  | none =>
    if p.esc then .stays s p
    else match (List.range 3).find? fun a => s.offsetTo a p.dest.toNat != 0 with
      | some a => .stays (s.updCtr (portToward a (s.offsetTo a p.dest.toNat)) fun c =>
          { c with escapes := c.escapes + 1 }) { p with esc := true }
      | none => .stays s p

/-- The move of R278: adaptive while the packet may, escape once it has waited escape_patience link cycles. -/
def State.takeTurn (s : State) (own : Bool) (p : Pkt) (waited : Nat) : Turn :=
  if p.esc then s.turnEscape own p waited
  else match s.adaptiveMove own p waited with
    | some t => .leaves t
    | none => if waited < s.fabric.patience.toNat then .stays s p else s.turnEscape own p waited

/-- A packet that stays keeps its place n in the queues it was taken from. -/
def State.staysAt (s : State) (n : Nat) (port : Option Nat) (p : Pkt) : State :=
  s.setTransit port (s.fabric.transit.take n ++ (port, p) :: s.fabric.transit.drop n)

/-- A request or reply packet at the head of an input of this module takes its next step: discarded, handed
over, forwarded, or kept. One for this module that comes behind others is checked and counted as it comes, and handed
over when its turn has come (R273). No port: the packet is this module's. That this module's own packets which wait in
transit when route_hold becomes 1 still leave is the model's choice (R299; DESIGN CHOICE, log entry 133). -/
def State.routePacket (s : State) (port : Option Nat) (p : Pkt) (ecc : Ecc) (move : State → Turn) : State :=
  let known := s.fabric.transit.contains (port, p)
  if port.isNone && !known then s
  else if port.any fun k => !known && ((s.link k).state != 5 || (p.legal && !s.fits k p)) then s
  else
    let t := if known then s.setTransit port (s.fabric.transit.erase (port, p)) else s
    let t := match port with
      | some k => if known then t else t.countRx k p.flits p.cls.toNat p.channel.toNat
      | none => t
    if !p.legal then t.discardPkt
    else if !s.atHead port p then
      if known then s
      else if s.isHere p.dest.toNat then t.consume port p fun s port p => s.keep port p
      else t.keep port p
    else if s.isHere p.dest.toNat then
      if known && port.isSome then
        if p.check ≠ p.crc then t.discardPkt else t.dispatch port p ecc
      else
        let t := if port.isNone then (t.noteLeft p).sample 7 p.cls.toNat (some p.part.toNat) p.bytes else t
        t.consume port p fun s port p => s.dispatch port p ecc
    else if p.hops = 63 ∧ port.isSome then t.updFabric fun f => { f with hopDiscards := f.hopDiscards + 1 }
    else if port.isNone && !t.mayInject p then s
    else match move t with
      | .leaves u => u
      | .stays u q => if known then u.staysAt (s.fabric.transit.idxOf (port, p)) port q else u.keep port q

/-- PACKET_ROUTE: the credits that have come back before the packet's turn are counted first. -/
def execPacketRoute (port : Option (Fin 6)) (p : Pkt) (credits : List Nat) (waited : Nat) (s : State)
    (ecc : Ecc := .clean) : Host.Outcome State Fault Refusal :=
  guarded (decide (p.payload.length ≤ 256)) <|
    (s.returnCredits credits).routePacket (port.map (·.val)) p ecc fun s => s.takeTurn port.isNone p waited

/-- ESCAPE: a packet that has waited escape_patience turns to the escape channels and stays there, unless a productive
port has A credits for it (R278, R279). -/
def execEscape (port : Option (Fin 6)) (p : Pkt) (s : State) : Host.Outcome State Fault Refusal :=
  guarded (decide (p.payload.length ≤ 256)) <|
    s.routePacket (port.map (·.val)) p .clean fun s => s.takeTurn port.isNone p s.fabric.patience.toNat

/-! ### The route group's holds, peaks (R299, R303) -/

/-- route_drained (R299). -/
def State.routeDrained (s : State) : Bool :=
  s.fabric.hold && s.fabric.transit.isEmpty && !(s.fabric.skeins.any (·.isOpen))

/-- ROUTE_HOLD: route_hold becomes 1. -/
def execRouteHold (s : State) : Host.Outcome State Fault Refusal :=
  .next (s.updFabric fun f => { f with hold := true })

/-- PEAK_CLEAR: the peak starts again from what waits now (R303, R307). -/
def execPeakClear (port : Fin 6) (s : State) : Host.Outcome State Fault Refusal :=
  .next (s.updCtr port fun c => { c with depthPeak := c.depthNow })

/-! ### Maintenance packets of this module (R267, R282, R299, R473) -/

/-- The neighbour that R261 gives for a port under the live route group. -/
def State.neighbourOf (s : State) (k : Nat) : Nat :=
  let g := s.fabric.route.live
  let id := s.myId
  let n := g.size (k / 2)
  let c := coordOf id (k / 2)
  let m := if n = 0 then 0 else if k % 2 = 0 then (c + 1) % n else (c + n - 1) % n
  match k / 2 with
  | 0 => id / 16 * 16 + m
  | 1 => id / 256 * 256 + m * 16 + id % 16
  | _ => m * 256 + id % 256

/-- A maintenance packet between two neighbours as it crosses their link (R271, R473). -/
def maintPacket (dest src : Nat) (payload : List Byte) : Pkt :=
  { buildPacket 3 0xC 0 0 dest src 0 0 0 0 0 true payload with channel := 0, hops := 1 }

/-- The payload of an echo frame: its type, and in a reply the link cycles at which the request arrived and at which
the reply leaves (R477). Sizes and places are not given (PRESUMED: 16 bytes for a request, 32 for a reply, the two
counts at 8 and 16; log entry 112). -/
def echoPayload (isReply : Bool) (arrival leaving : Long) : List Byte :=
  if isReply then BitVec.ofNat 8 3 :: List.replicate 7 0 ++ leBytes 8 arrival.toNat ++ leBytes 8 leaving.toNat
    ++ List.replicate 8 0
  else BitVec.ofNat 8 2 :: List.replicate 15 0

/-- The packet that carries a maintenance frame of this module. -/
def State.maintOf (s : State) (o : Out) : Option (Nat × Pkt) :=
  match o with
  | .fabric k p => some (k, p)
  | .echo k isReply arrival leaving =>
    some (k, maintPacket (s.neighbourOf k) s.myId (echoPayload isReply arrival leaving))
  | _ => none

/-- Whether a maintenance packet may leave by a port now: route_hold lets none out (R299), none waits before it, and
the port across the link has room (R267). -/
def State.maintRoom (s : State) (k flits : Nat) : Bool :=
  !s.fabric.hold && !(s.fabric.maintWaiting.any fun o => o.port? == some k) && decide (flits ≤ s.credits k 6)

/-- A maintenance packet of this module leaves by its port, or waits: it is sampled at injection and at the port,
counted, and takes credits there. -/
def State.sendOut (s : State) (o : Out) : State :=
  match s.maintOf o with
  | none => s
  | some (k, p) =>
    if s.maintRoom k p.flits then
      let s := s.sample 7 3 (some 0) ({ p with hops := 0 } : Pkt).bytes
      (((s.takeCredits k p.lane p.flits).countTx k p.flits).sample k 3 (some 0) p.bytes).send o
    else (s.updFabric fun f => { f with maintWaiting := f.maintWaiting ++ [o] }).noteDepth k

/-- A maintenance packet of this module with a payload. -/
def State.sendMaint (s : State) (k : Nat) (payload : List Byte) : State :=
  s.sendOut (.fabric k (maintPacket (s.neighbourOf k) s.myId payload))

/-- An echo request or reply. -/
def State.sendEcho (s : State) (k : Nat) (isReply : Bool) (arrival leaving : Long) : State :=
  s.sendOut (.echo k isReply arrival leaving)

/-- What waits is sent as far as it may be. -/
def State.flushMaint (s : State) : State :=
  s.fabric.maintWaiting.foldl State.sendOut
    ((List.range 6).foldl State.noteDepth (s.updFabric fun f => { f with maintWaiting := [] }))

/-- The fabric's part of a stitch boundary: injection is counted anew (R442); the receivers have copied every
maintenance packet out of its M buffer, so those credits are back (R267, R282); a port at which one still waits for
credits has stalled for a number of link cycles that the model does not know (R303). -/
def State.fabricStitch (s : State) : State :=
  let s := (List.range 6).foldl (fun (s : State) k =>
    let s := if !s.fabric.hold && s.fabric.maintWaiting.any fun o => o.port? == some k then
        let r := s.freeWord
        r.1.updCtr k fun c => { c with stallMaint := c.stallMaint + BitVec.ofNat 64 r.2 }
      else s
    s.setUsed k fun i u => if 6 ≤ i then 0 else u) s
  (s.updFabric fun f => { f with injected := [] }).flushMaint

/-! ### Scheduled packets (R276, R277, R280) -/

/-- The partition and entry of a scheduled packet's reservation: in a loaded pattern whose box holds the
packet's source. -/
def State.schedEntry (s : State) (number src : Nat) : Option (Nat × Resv) :=
  (List.range 16).findSome? fun p => match (s.part p).pattern with
    | some pat =>
      let pl := (s.part p).place.live
      if s.inBox pl.lo pl.size src then (pat.resvs.find? fun r => r.number == number).map fun r => (p, r) else none
    | none => none

/-- The partitions whose box holds the neighbour on a port. -/
def State.joinedParts (s : State) (port : Nat) : List Nat :=
  let id := (s.link port).neighbourId.toNat
  (List.range 16).filter fun p =>
    let pl := (s.part p).place.live
    (s.part p).layout.live.count != 0 && pl.tag != 0 && s.inBox pl.lo pl.size id

/-- An unmatched scheduled packet: discarded, counted, a traffic fault (R277). -/
def State.unmatched (s : State) (port : Nat) : State :=
  (s.updFabric fun f => { f with schedUnmatched := f.schedUnmatched + 1 }).fault stOUT_OF_STEP 2 4 port
    (s.joinedParts port) 0 0

/-- A scheduled packet leaves by a port in service; there is no other way for it, and no retransmission, so at a
port that is not in service it is lost (R263, R470; DEDUCED, log entry 123). -/
def State.emitSched (s : State) (own : Bool) (k : Nat) (p : SPkt) : State :=
  let s := if own then s.sample 7 0 none ({ p with hops := 0 } : SPkt).bytes else s
  if (s.link k).state ≠ 5 then s
  else ((s.countTx k p.flits).sample k 0 none p.bytes).send (.sched k p)

/-- A scheduled packet passes through by its entry (R276). -/
def State.passSched (s : State) (p : SPkt) (r : Resv) : State :=
  if p.hops = 63 then s.updFabric fun f => { f with hopDiscards := f.hopDiscards + 1 }
  else s.emitSched false r.output { p with hops := p.hops + 1, channel := BitVec.ofNat 2 r.chOut }

/-- A scheduled packet is delivered: its check, counters and sampler, then what it does. -/
def State.consumeSched (s : State) (p : SPkt) (h : State → State) : State :=
  if p.check ≠ p.crc then s.discardPkt
  else h ((s.updFabric fun f => { f with delivered := f.delivered + 1 }).sample 6 0 none p.bytes)

/-- A scheduled packet arrives: reserved channel codes and kinds are discarded (R265, R271), an unknown reservation is
unmatched, an entry that leaves again is passed on, the rest is handed to h. -/
def State.schedArrival (s : State) (port : Nat) (p : SPkt) (through : Resv → Bool)
    (h : State → Nat → Resv → State) : State :=
  if (s.link port).state ≠ 5 then s
  else
    let s := s.countRx port p.flits 0 (min p.channel.toNat 1)
    if 2 ≤ p.channel.toNat ∨ (p.kind ≠ 0xD ∧ p.kind ≠ 0xE) then s.discardPkt
    else match s.schedEntry p.resv.toNat p.src.toNat with
      | none => s.unmatched port
      | some (q, r) =>
        if through r then s.passSched p r else s.consumeSched p fun s => h s q r

/-- SCHED_MOVE: forwarded by the port that its entry gives, or delivered into the places of its partition (R276). The
spec gives the packet no address; landing is where its first byte goes. What may not be written there is refused as
a WRITE's bytes are, with nothing stored (R125, R145, R414). -/
def execSchedMove (port : Fin 6) (p : SPkt) (landing : Nat) (s : State) (ecc : Ecc := .clean) :
    Host.Outcome State Fault Refusal :=
  guarded (p.kind != 0xD && decide (p.payload.length ≤ 512)) <|
    s.schedArrival port p (fun r => decide (r.output < 6)) fun s q _ =>
      if (s.part q).active then (s.storeIn q landing p.payload ecc).1 else s

end Sys2Proof.Machine
end

