-- ==== Sys2Proof/Machine/Collective.lean ====
section
/-! DEFINITION. Machine/Collective.lean: COLLECTIVE (R310 to R355): the hand-over to the hub, streams and their
turns, the reduction units, the ledger, norms, digests and completion. Every stream of a collective is
carried under the reservation its commands name (R314). -/

namespace Sys2Proof.Machine

/-! ### Members and chunks (R310, R318, R331) -/

/-- Members of a slice along an axis: one where the partition has no placement. -/
def State.membersOn (s : State) (p axis : Nat) : Nat :=
  let q := (s.part p).place.live
  if q.tag = 0 then 1 else boxExtent q.size axis

/-- This module's position along an axis of a slice (R446). -/
def State.positionOn (s : State) (p axis : Nat) : Nat :=
  let q := (s.part p).place.live
  let n := s.fabric.route.live.size axis
  if q.tag = 0 ∨ n = 0 then 0 else s.positionIn q axis

/-- The module at a position along an axis of this module's slice. -/
def State.memberId (s : State) (p axis pos : Nat) : Nat :=
  let q := (s.part p).place.live
  let n := s.fabric.route.live.size axis
  let c := if n = 0 then 0 else (s.axisOrigin q axis + pos) % n
  let id := s.myId
  match axis with
  | 0 => id / 16 * 16 + c
  | 1 => id / 256 * 256 + c * 16 + id % 16
  | _ => c * 256 + id % 256

/-- A collective of a single chunk (R331). -/
def soleChunk (op : Nat) : Bool := decide (9 ≤ op)

/-- Elements that travel in the reduce phase: a norm record is two pairs, the members word and padding. -/
def Entry.wireCount (e : Entry) : Nat := if e.collOp = 11 then 4 else e.count

/-- The first element of chunk j (R318). -/
def chunkStart (count n j : Nat) : Nat := j * count / n

/-- The elements [lo, hi) of a chunk-half in ring mode, of a chunk in line mode. -/
def CollRun.range (r : CollRun) (count j h : Nat) : Nat × Nat :=
  if soleChunk r.chk.entry.collOp then (0, count)
  else
    let lo := chunkStart count r.n j
    let hi := chunkStart count r.n (j + 1)
    if r.ring then
      let mid := lo + (hi - lo + 1) / 2
      if h = 0 then (lo, mid) else (mid, hi)
    else (lo, hi)

/-- The turns of the reduce stream that leaves a position (R321, R325, R326): chunk and half, by links
crossed, then chunk. -/
def reduceTurns (op n pos : Nat) (ring : Bool) (dir : Nat) : List (Nat × Nat) :=
  if op = 8 ∨ n ≤ 1 then []
  else if soleChunk op then
    if ring then (if dir = 0 ∧ pos ≠ 0 then [(0, 0)] else [])
    else (if dir = 1 ∧ pos ≠ 0 then [(0, 1)] else [])
  else if ring then (List.range (n - 1)).map fun i =>
    if dir = 0 then ((pos + n - 1 - i) % n, 0) else ((pos + 1 + i) % n, 1)
  else if dir = 0 then (if pos + 1 < n then (List.range (n - 1 - pos)).map fun i => (pos + 1 + i, 0) else [])
  else (List.range pos).map fun j => (j, 1)

/-- The turns of the gather stream that leaves a position (R330, R331). -/
def gatherTurns (op n pos : Nat) (ring : Bool) (dir : Nat) : List (Nat × Nat) :=
  if op < 4 ∨ n ≤ 1 then []
  else if soleChunk op then
    if dir = 0 ∧ pos + 1 < n then [(0, 0)] else []
  else if ring then (List.range (n - 1)).map fun i =>
    if dir = 0 then ((pos + n - i) % n, 0) else ((pos + i) % n, 1)
  else if dir = 0 then (if pos + 1 < n then (List.range (pos + 1)).map fun i => (pos - i, 0) else [])
  else (if pos = 0 then [] else (List.range (n - pos)).map fun i => (pos + i, 1))

/-- Turns of a phase. -/
def turnsOf (op n pos : Nat) (ring : Bool) (phase dir : Nat) : List (Nat × Nat) :=
  if phase = 0 then reduceTurns op n pos ring dir else gatherTurns op n pos ring dir

/-- The position whose stream in a direction arrives at a position; none at the end of a line. -/
def upstream (n pos : Nat) (ring : Bool) (dir : Nat) : Option Nat :=
  if n ≤ 1 then none
  else if ring then some (if dir = 0 then (pos + n - 1) % n else (pos + 1) % n)
  else if dir = 0 then (if pos = 0 then none else some (pos - 1))
  else (if pos + 1 < n then some (pos + 1) else none)

/-- Phase and direction of the four streams of a member. -/
def streamKinds : List (Nat × Nat) := [(0, 0), (0, 1), (1, 0), (1, 1)]

/-- The streams a member sends. -/
def txStreams (op n pos : Nat) (ring : Bool) : List TxStream :=
  streamKinds.filterMap fun x =>
    let ts := turnsOf op n pos ring x.1 x.2
    if ts.isEmpty then none
    else some { dir := x.2, phase := x.1, turns := ts, waiting := [], bytes := [], sent := 0, ended := false }

/-- The streams a member receives. -/
def rxStreams (op n pos : Nat) (ring : Bool) : List RxStream :=
  streamKinds.filterMap fun x => (upstream n pos ring x.2).bind fun u =>
    let ts := turnsOf op n u ring x.1 x.2
    if ts.isEmpty then none
    else some { dir := x.2, phase := x.1, turns := ts, pieces := [], used := 0, ended := false }

/-! ### Arithmetic of the units (R324 to R329, R331, R350, R351) -/

/-- A stored pair as values. -/
def Pair.num (p : Pair) : PairN := ⟨f32 p.s, f32 p.c⟩

/-- Values as a stored pair. -/
def PairN.bits (p : PairN) : Pair := ⟨w32 p.s, w32 p.c⟩

/-- A pair of the canonical NaN (R328). -/
def nanPair : Pair := ⟨w32 .nan, 0⟩

/-- A pair as a unit passes it on: NaN where s is not finite (R328). -/
def nanRule (p : Pair) : Pair := if (f32 p.s).finite then p else nanPair

/-- Words of a norm record beyond its pairs are sums of integers. -/
def isCount (op i : Nat) : Bool := op == 11 && decide (2 ≤ i)

/-- Element i of a stream that starts at a position. -/
def soloUnit (op i : Nat) (p : Pair) : Pair :=
  if isCount op i then p else if op = 10 then ⟨p.s, 0⟩ else nanRule p

/-- Element i of a stream joined with a contribution, and the flags of the combine. -/
def mergeUnit (op : Nat) (comp : Bool) (i : Nat) (a b : Pair) : Pair × Half :=
  if isCount op i then (⟨a.s + b.s, 0⟩, 0)
  else if op = 10 then (⟨w32 (maxNum (f32 a.s) (f32 b.s)), 0⟩, 0)
  else if !(f32 a.s).finite || !(f32 b.s).finite then (nanPair, 0)
  else
    let r := combine comp a.num b.num
    (nanRule r.1.bits, r.2)

/-- A run of pairs as wire bytes. -/
def pairBytes (ps : List Pair) : List Byte := ps.flatMap fun p => leBytes 4 p.s.toNat ++ leBytes 4 p.c.toNat

/-- Pairs of wire bytes. -/
def pairsOf (bs : List Byte) : List Pair :=
  (List.range (bs.length / 8)).map fun i =>
    ⟨BitVec.ofNat 32 (leAt bs (8 * i) 4), BitVec.ofNat 32 (leAt bs (8 * i + 4) 4)⟩

/-- A stream's pairs joined with a contribution's, element by element from index lo. -/
def mergeRun (op : Nat) (comp : Bool) (lo : Nat) (a b : List Pair) : List Pair × Half :=
  let rs := (a.zip b).zipIdx.map fun x => mergeUnit op comp (lo + x.2) x.1.1 x.1.2
  (rs.map (·.1), rs.foldl (fun f x => f ||| x.2) 0)

/-- The earlier of two non-finite contributions, a first in reduction order: the lowest index wins in
propagate mode (R341), the first in quarantine mode (R342). -/
def earlierNf (quarantine : Bool) (a b : Option (Nat × Nat)) : Option (Nat × Nat) :=
  match a, b with
  | some x, some y => if !quarantine && decide (y.2 < x.2) then some y else some x
  | some x, none => some x
  | none, y => y

/-- The element index of a contribution's first non-finite s in [lo, hi). -/
def firstNonfinite (op : Nat) (own : List Pair) (lo hi : Nat) : Option Nat :=
  ((List.range (hi - lo)).map (lo + ·)).findSome? fun i =>
    if isCount op i || (f32 (own.getD i ⟨0, 0⟩).s).finite then none
    else some (if op = 11 then 2 * i else i)

/-- The final value of an element, exactly, before its rounding (R329). -/
def finalExact (op weight : Nat) (md : Mode) (p : PairN) : Num :=
  if !p.s.finite then .nan
  else if op = 2 ∨ op = 3 ∨ op = 6 ∨ op = 7 then
    let q := (fn32 2 (rne32 (Num.ofNat weight))).1
    (addX md (mulX p.s q).1 (mulX p.c q).1).1
  else pairExact md p

/-- The norm record at the owner (R351): global_norm and clip, with the flags of their roundings, of RSQRT and of an
r that overflows (R82, R220, R629). -/
def normWords (reduced : Pair) (clip : Word) : Word × Word × Half :=
  let r := to32 .rne (pairExact .rne reduced.num)
  let q := fn32 3 r.1
  let c := f32 clip
  let g := if r.1.isZero then (Num.zero, 0) else to32 .rne (mulX r.1 q.1).1
  let ovf := r.2 &&& fOVERFLOW
  if !(f32 reduced.s).finite || !r.1.finite then (w32 .nan, w32 .nan, ovf)
  else if r.1.isZero then (w32 g.1, 0x3F800000, ovf)
  else if c.isZero || cmpNum g.1 c == some .lt || cmpNum g.1 c == some .eq then
    (w32 g.1, 0x3F800000, ovf ||| q.2 ||| g.2)
  else
    let k := to32 .rne (mulX c q.1).1
    (w32 g.1, w32 k.1, ovf ||| q.2 ||| g.2 ||| k.2)

/-! ### Runs -/

/-- Run i replaced. -/
def State.setRun (s : State) (i : Nat) (r : CollRun) : State :=
  { s with coll := { s.coll with runs := s.coll.runs.set i r } }

/-- Run i taken away. -/
def State.dropRun (s : State) (i : Nat) : State :=
  { s with coll := { s.coll with runs := s.coll.runs.eraseIdx i } }

/-- The entry of a run's reservation. -/
def State.runEntry (s : State) (r : CollRun) : Option Resv := s.injection r.part r.core r.resv

/-- Whether a member is ready (R332): its trigger reached, its scan over. A count of 0 is ready (R176). -/
def State.runReady (s : State) (r : CollRun) : Bool :=
  let e := r.chk.entry
  e.count == 0 || ((!e.trigEnable || waitMet (s.tallyOf r.core e.trigTally) e.trigTarget) && r.scan != 1)

/-- Whether the readiness of a run decides its start: a strict one, and one that a replay record forces in;
a member whose bit is clear in the record, or that has no ledger entry, is excluded without waiting (R338, R339). -/
def CollRun.waits (r : CollRun) : Bool :=
  !r.miss && match r.forced with
  | some m => m.testBit r.pos
  | none => !r.chk.entry.deadlineMode

/-- Whether the streams of a run begin at its due stitch (R333, R339). -/
def CollRun.strict (r : CollRun) : Bool := r.forced.isSome || !r.chk.entry.deadlineMode

/-- The bucket's ledger entry of a partition (R336). -/
def State.ledgerOf (s : State) (p bucket : Nat) : Option Ledger :=
  s.coll.ledger.find? fun l => l.part == p && l.bucket == bucket

/-- A ledger entry put in place. -/
def State.putLedger (s : State) (l : Ledger) : State :=
  let same := fun (x : Ledger) => x.part == l.part && x.bucket == l.bucket
  let ls := if s.coll.ledger.any same then s.coll.ledger.map fun x => if same x then l else x
            else s.coll.ledger ++ [l]
  { s with coll := { s.coll with ledger := ls } }

/-- Ledger entries a partition holds. -/
def State.ledgerHeld (s : State) (p : Nat) : Nat := (s.coll.ledger.filter (·.part == p)).length

/-- The forced mask of the replay record for a bucket and axis (R339). -/
def State.forcedMask (s : State) (p bucket axis : Nat) : Option Nat :=
  let t := (s.part p).replay
  ((List.range (t.length / 12)).find? fun i => leAt t (12 * i) 4 == bucket && leAt t (12 * i + 4) 1 == axis).map
    fun i => leAt t (12 * i + 8) 4

/-- An event record (R354). -/
def State.collEvent (s : State) (r : CollRun) (st : Half) (pos elem : Nat) : State :=
  let e := r.chk.entry
  let b := leBytes 2 st.toNat ++ leBytes 1 r.part ++ leBytes 1 e.axis ++ leBytes 4 e.bucket
    ++ leBytes 4 s.stitch32 ++ leBytes 2 (s.memberId r.part e.axis pos) ++ leBytes 1 pos ++ [0]
    ++ leBytes 4 elem ++ leBytes 4 r.mask ++ leBytes 4 r.total ++ leBytes 4 0
  { s with coll := { s.coll with eventTaken := s.coll.eventTaken + 1, events := pushRing 64 s.coll.events b } }

/-- A digest record (R345, R354). -/
def State.digestRecord (s : State) (r : CollRun) (port phase : Nat) (bad : Bool) (tx rx trailer : Long) : State :=
  let b := leBytes 4 r.chk.entry.bucket ++ leBytes 1 r.part ++ leBytes 1 port ++ leBytes 1 phase
    ++ leBytes 1 (if bad then 1 else 0) ++ leBytes 4 s.stitch32 ++ leBytes 4 0 ++ leBytes 8 tx.toNat
    ++ leBytes 8 rx.toNat ++ leBytes 8 trailer.toNat
  { s with coll := { s.coll with digestTaken := s.coll.digestTaken + 1,
                                 digests := pushRing 256 s.coll.digests b,
                                 digestMismatches := if bad then s.coll.digestMismatches + 1
                                                     else s.coll.digestMismatches } }

/-- Run i ends with a status that stops the job (R315, R338, R346). -/
def State.failRun (s : State) (i : Nat) (r : CollRun) (st : Half) (cls kind unit : Nat) : State :=
  ((s.dropRun i).collEvent r st r.pos 0).failCommand r.part r.core r.chk.entry st r.flags cls kind
    unit 0

/-! ### The hand-over (R332, R336 to R339, R385) -/

/-- The run of a command handed to the hub; miss: it found no ledger entry. A contribution that is never read, of a
count of 0, of a member that a replay record excludes or after a miss, is not scanned (R176, R334, R338). -/
def State.newRun (s : State) (p c : Nat) (k : Checked) (miss : Bool) : CollRun :=
  let e := k.entry
  let n := s.membersOn p e.axis
  let pos := s.positionOn p e.axis
  let ring := decide (1 < n) && !((s.part p).axisModes.toNat.testBit e.axis)
  let forced := if e.collOp < 8 then s.forcedMask p e.bucket e.axis else none
  { core := c, part := p, chk := k, resv := e.collResv, n := n, pos := pos, ring := ring, due := none,
    forced := forced, weight := 1,
    scan := if e.quarantine && e.count != 0 && !miss && (forced.all fun m => m.testBit pos) then 1 else 0, nfElem := 0, begun := false, started := false, included := false,
    late := false, own := [], raw := [],
    rx := if e.count = 0 then [] else rxStreams e.collOp n pos ring,
    tx := if e.count = 0 then [] else txStreams e.collOp n pos ring,
    credit := [0, 0], left := none, right := none, todo := 0, finals := [], nfOwn := none, nfSeen := none,
    dropSeen := false, mask := 0, quar := 0, total := 0, flags := 0, record := none, stale := false,
    miss := miss, wrong := none, judged := none }

/-- The ledger at hand-over (R337, R338, R441): a start op takes or resets its bucket's entry, a continue op
needs one; ops from 8 on have none, and one of count 0 writes nothing (R176). -/
def State.takeLedger (s : State) (p : Nat) (e : Entry) : Option State :=
  if 8 ≤ e.collOp ∨ e.count = 0 then some s
  else match s.ledgerOf p e.bucket with
    | some _ =>
      if e.collOp % 2 = 1 then some s
      else some (s.putLedger ⟨p, e.bucket, 0, 0, [0, 0, 0], [0, 0, 0]⟩)
    | none =>
      if e.collOp % 2 = 1 ∨ !poolOk 4096 s.ledgerHeld (fun q => (s.part q).guar.live.ledger.toNat) p 1 then none
      else some (s.putLedger ⟨p, e.bucket, 0, 0, [0, 0, 0], [0, 0, 0]⟩)

/-- A COLLECTIVE is handed to the hub. One that finds no ledger entry runs on as an excluded member does, and
completes with LEDGER_MISS (R338, R343). -/
def State.handOver (s : State) (c op : Nat) : State :=
  s.issue c (fun e => e.kind == 6 && e.collOp == op) fun s p k =>
    let s := s.popHead c
    match s.takeLedger p k.entry with
    | some s => { s with coll := { s.coll with runs := s.coll.runs ++ [s.newRun p c k false] } }
    | none => { s with coll := { s.coll with runs := s.coll.runs ++ [s.newRun p c k true] } }

def execRsSum (core : Fin 512) (s : State) : Host.Outcome State Fault Refusal := .next (s.handOver core 0)
def execRsSumCont (core : Fin 512) (s : State) : Host.Outcome State Fault Refusal := .next (s.handOver core 1)
def execRsMean (core : Fin 512) (s : State) : Host.Outcome State Fault Refusal := .next (s.handOver core 2)
def execRsMeanCont (core : Fin 512) (s : State) : Host.Outcome State Fault Refusal := .next (s.handOver core 3)
def execArSum (core : Fin 512) (s : State) : Host.Outcome State Fault Refusal := .next (s.handOver core 4)
def execArSumCont (core : Fin 512) (s : State) : Host.Outcome State Fault Refusal := .next (s.handOver core 5)
def execArMean (core : Fin 512) (s : State) : Host.Outcome State Fault Refusal := .next (s.handOver core 6)
def execArMeanCont (core : Fin 512) (s : State) : Host.Outcome State Fault Refusal := .next (s.handOver core 7)
def execAllGather (core : Fin 512) (s : State) : Host.Outcome State Fault Refusal := .next (s.handOver core 8)
def execScalarSum (core : Fin 512) (s : State) : Host.Outcome State Fault Refusal := .next (s.handOver core 9)
def execScalarMax (core : Fin 512) (s : State) : Host.Outcome State Fault Refusal := .next (s.handOver core 10)
def execNormReduce (core : Fin 512) (s : State) : Host.Outcome State Fault Refusal := .next (s.handOver core 11)

/-! ### The contribution (R324, R340 to R342) -/

/-- The contribution of one element: a stored pair, or a value widened (R324, R61). -/
def Desc.contribution (d : Desc) (rd : Reader) (daz : Bool) (k : Nat) : Pair × Half :=
  let i := d.posOf k
  if d.isPair then ((settle (d.pairAt rd i)).bits, d.pairFlags rd i)
  else
    let o := d.operand rd daz i
    (⟨w32 o.1, 0⟩, o.2)

/-- A word of a norm record in memory. -/
def Desc.recordWord (d : Desc) (rd : Reader) (k : Nat) : Word := BitVec.ofNat 32 (d.rawBits rd (d.posOf k))

/-- A member's whole contribution in wire elements, and the flags of its reads. -/
def State.contribution (s : State) (r : CollRun) : List Pair × Half :=
  let e := r.chk.entry
  let rd := memReader s.mem
  match r.chk.desc 8 with
  | none => ([(s.part r.part).reducedNorm, (s.part r.part).localNorm, ⟨1, 0⟩, ⟨0, 0⟩], 0)
  | some d =>
    if e.collOp = 11 then
      let w := d.recordWord rd
      ([⟨w 0, w 1⟩, ⟨w 2, w 3⟩, ⟨w 4, 0⟩, ⟨0, 0⟩], 
        (List.range 4).foldl (fun f k => f ||| bitFlags fp32 (w k).toNat) 0)
    else
      let xs := (List.range e.count).map (d.contribution rd (s.envOf r.core e).daz)
      (xs.map (·.1), xs.foldl (fun f x => f ||| x.2) 0)

/-- Bytes of an element as it travels in the gather phase. -/
def Desc.gatherBytes (d : Desc) : Nat := if d.isPair then 8 else elemBits d.fmt / 8

/-- The stored bytes of elements [lo, hi) in count order. -/
def Desc.rawRun (d : Desc) (rd : Reader) (lo hi : Nat) : List Byte :=
  (List.range (hi - lo)).flatMap fun i => readN rd (d.addrOf (d.posOf (lo + i))) d.gatherBytes

/-- The elements a member reads of its source: all that its count names, its own chunk alone in an ALL_GATHER, the
pairs and the members word of a norm record (R318, R334, R350). -/
def CollRun.readElems (r : CollRun) : List Nat :=
  let e := r.chk.entry
  if e.collOp = 8 then
    let lo := chunkStart e.count r.n r.pos
    (List.range (chunkStart e.count r.n (r.pos + 1) - lo)).map (lo + ·)
  else List.range (if e.collOp = 11 then 5 else e.count)

/-- What a member reads of its source when it is scanned and when its streams begin. -/
def CollRun.readExtents (r : CollRun) : List (Nat × Nat) :=
  match r.chk.desc 8 with
  | some d => r.readElems.map fun i => (addrLocal (d.addrOf (d.posOf i)), d.gatherBytes)
  | none => []

/-- A read of run i's source, or a write of its result, fails (R102, R109, R110). -/
def State.failSource (s : State) (i : Nat) (r : CollRun) (bad : Nat) : State :=
  ((s.dropRun i).collEvent r stECC r.pos 0).failRead r.part r.core r.chk.entry r.flags bad

/-- Whether a host owns a line of a member's source. -/
def State.sourceHeld (s : State) (r : CollRun) : Bool := r.readExtents.any fun x => s.lineHeld x.1 x.2 false

/-- RECALLs for the owned lines of a member's source (R505). -/
def State.recallSource (s : State) (r : CollRun) : State := r.readExtents.foldl (fun s x => s.recallFor x.1 x.2 false) s

/-- QUARANTINE_SCAN (R342): the scan of a contribution ends, once its trigger is reached and before its
readiness is judged. Its reads raise their flags (R629) and may meet errors of the memory (R101, R102, R109); lines
of its source that a host owns come back first (R505). -/
def execQuarantineScan (core : Fin 512) (resv : Half) (s : State) (ecc : Ecc := .clean) :
    Host.Outcome State Fault Refusal :=
  let e := fun (r : CollRun) => r.chk.entry
  .next <| match s.coll.runs.findIdx? fun r => r.core == core.val && r.resv == resv.toNat && r.scan == 1 && !r.begun with
  | none => s
  | some i => match s.coll.runs[i]? with
    | none => s
    | some r =>
      if (e r).trigEnable && !waitMet (s.tallyOf r.core (e r).trigTally) (e r).trigTarget then s
      else
        if s.sourceHeld r then s.recallSource r
        else
        let u := s.readErrors r.readExtents ecc
        match u.2 with
        | some bad => u.1.failSource i r bad
        | none =>
          let own := s.contribution r
          match firstNonfinite (e r).collOp own.1 0 own.1.length with
          | some x => u.1.setRun i { r with scan := 3, nfElem := x, flags := r.flags ||| own.2 }
          | none => u.1.setRun i { r with scan := 2, flags := r.flags ||| own.2 }

/-! ### Segments (R321 to R323) -/

/-- n rounded up to a multiple of 16. -/
def pad16 (n : Nat) : Nat := (n + 15) / 16 * 16

/-- The lead of a segment. -/
def Entry.lead (e : Entry) (phase : Nat) (g : Seg) : List Byte :=
  leBytes 4 e.bucket
  ++ leBytes 4 (e.collOp <<< 28 ||| (if e.deadlineMode then 1 <<< 27 else 0)
      ||| (if e.quarantine then 1 <<< 26 else 0) ||| phase <<< 25 ||| g.half <<< 24 ||| g.chunk <<< 19)
  ++ leBytes 4 g.mask ++ leBytes 4 g.weight ++ leBytes 4 g.quar ++ leBytes 4 e.count ++ leBytes 8 0

/-- The tail of a segment. -/
def Seg.tail (g : Seg) : List Byte :=
  match g.nf with
  | some x => leBytes 4 (1 <<< 31 ||| x.1) ++ leBytes 4 x.2 ++ leBytes 8 0
  | none => leBytes 16 0

/-- A segment as bytes. -/
def Entry.segBytes (e : Entry) (phase : Nat) (g : Seg) : List Byte :=
  e.lead phase g ++ g.data ++ List.replicate (pad16 g.data.length - g.data.length) 0 ++ g.tail

/-- Data bytes of a chunk-half in a phase. -/
def CollRun.dataLen (r : CollRun) (phase j h : Nat) : Nat :=
  let e := r.chk.entry
  if phase = 0 then
    let x := r.range e.wireCount j h
    8 * (x.2 - x.1)
  else
    let x := r.range e.count j h
    match r.chk.desc 12 with
    | some d => d.gatherBytes * (x.2 - x.1)
    | none => 0

/-- Whether a lead agrees with this member's command (R315). -/
def Entry.agrees (e : Entry) (bs : List Byte) : Bool :=
  let w1 := leAt bs 4 4
  leAt bs 0 4 == e.bucket && w1 >>> 28 == e.collOp && w1.testBit 27 == e.deadlineMode
    && w1.testBit 26 == e.quarantine && leAt bs 20 4 == e.count

/-- A segment read from its bytes. -/
def CollRun.readSeg (r : CollRun) (phase : Nat) (turn : Nat × Nat) (bs : List Byte) : Seg :=
  let n := r.dataLen phase turn.1 turn.2
  let t := 32 + pad16 n
  { chunk := turn.1, half := turn.2, mask := leAt bs 8 4, weight := leAt bs 12 4, quar := leAt bs 16 4,
    nf := if leAt bs t 4 / 2 ^ 31 % 2 = 1 then some (leAt bs t 4 % 32, leAt bs (t + 4) 4) else none,
    data := (bs.drop 32).take n }

/-! ### Sending -/

/-- The segment whose turn it is is appended to its stream, as far as the turns allow. The list of turns bounds
the rounds. -/
def TxStream.flow (e : Entry) : List (Nat × Nat) → TxStream → TxStream
  | [], t => t
  | _ :: f, t => match t.turns with
    | [] => t
    | x :: rest => match t.waiting.find? fun g => g.chunk == x.1 && g.half == x.2 with
      | none => t
      | some g => TxStream.flow e f { t with
          turns := rest, bytes := t.bytes ++ e.segBytes t.phase g,
          waiting := t.waiting.filter fun y => !(y.chunk == x.1 && y.half == x.2) }

/-- The trailer follows the last segment (R345). -/
def TxStream.close (t : TxStream) : TxStream :=
  if t.turns.isEmpty && !t.ended then
    { t with bytes := t.bytes ++ leBytes 8 (crc64 t.bytes).toNat ++ leBytes 8 0, ended := true }
  else t

/-- A segment handed to the stream of a phase and direction, if that stream carries it. -/
def CollRun.push (r : CollRun) (phase dir : Nat) (g : Seg) : CollRun :=
  { r with tx := r.tx.map fun t =>
      if t.phase = phase ∧ t.dir = dir ∧ t.turns.contains (g.chunk, g.half) then
        let t := { t with waiting := t.waiting ++ [g] }
        (TxStream.flow r.chk.entry t.turns t).close
      else t }

/-- A scheduled packet of this module. -/
def State.sendSched (s : State) (port kind : Nat) (x : Resv) (dest offset : Nat) (last : Bool)
    (payload : List Byte) : State :=
  let p : SPkt :=
    { channel := BitVec.ofNat 2 x.chOut, last := last, hops := 1, kind := BitVec.ofNat 4 kind,
      resv := BitVec.ofNat 16 x.number, offset := BitVec.ofNat 32 offset, dest := BitVec.ofNat 13 dest,
      src := BitVec.ofNat 13 s.myId, payload := payload, check := 0 }
  s.emitSched true port p.sealed

/-- The packets a stream may send now, while flits remain: what it has, at most 512 bytes in each. -/
def TxStream.packets (t : TxStream) : Nat → Int → List (Nat × Bool × List Byte) × Int
  | 0, c => ([], c)
  | fuel + 1, c =>
    let left := t.bytes.length - t.sent
    if c ≤ 0 ∨ left = 0 then ([], c)
    else
      let n := min 512 left
      let r := TxStream.packets { t with sent := t.sent + n } fuel (c - (1 + flitsOf n : Nat))
      ((t.sent, t.ended && decide (left ≤ 512), (t.bytes.drop t.sent).take n) :: r.1, r.2)

/-- Whether everything of a stream has left. -/
def TxStream.done (t : TxStream) : Bool := t.ended && t.sent == t.bytes.length

/-- Stream k of run i sends what its flits allow: the gather stream of a direction follows its reduce
stream. -/
def State.sendStream (s : State) (i k : Nat) : State :=
  match s.coll.runs[i]? with
  | none => s
  | some r => match r.tx[k]?, s.runEntry r with
    | some t, some x =>
      if t.phase = 1 ∧ (r.tx.any fun u => u.phase == 0 && u.dir == t.dir && !u.done) then s
      else
        let e := r.chk.entry
        let ps := t.packets (t.bytes.length + 1) (r.credit.getD t.dir 0)
        let dest := s.memberId r.part e.axis (if t.dir = 0 then (r.pos + 1) % r.n else (r.pos + r.n - 1) % r.n)
        let port := 2 * e.axis + t.dir
        let t' := { t with sent := t.sent + (ps.1.map (·.2.2.length)).sum }
        let s := s.setRun i { r with tx := r.tx.set k t', credit := r.credit.set t.dir ps.2 }
        let s := ps.1.foldl (fun s p => s.sendSched port 0xD x dest p.1 p.2.1 p.2.2) s
        if t'.done && !t.done then
          let d := BitVec.ofNat 64 (leAt t.bytes (t.bytes.length - 16) 8)
          s.digestRecord r port t.phase false d 0 d
        else s
    | _, _ => s

/-- Every stream of run i sends what it may. -/
def State.sendRun (s : State) (i : Nat) : State := (List.range 4).foldl (fun s k => s.sendStream i k) s

/-- A stitch's flits given to run i, and its streams sent on; none beyond the end of its span (R390). -/
def State.refillRun (s : State) (i : Nat) : State :=
  match s.coll.runs[i]? with
  | none => s
  | some r => match s.runEntry r with
    | some x =>
      if !r.begun || r.wrong.isSome then s
      else if r.due.any fun q => decide (q + x.span ≤ (s.part r.part).sched.pstitch) then
        s.setRun i { r with credit := [0, 0] }
      else (s.setRun i { r with credit := r.credit.map fun c => min (x.flits : Int) (c + x.flits) }).sendRun i
    | none => s

/-! ### Norms in passing (R347 to R349) -/

/-- The values that wait at the front of the order are combined into the accumulators. -/
def flushNorms : List NormWait → Bool → Bool → Pair → Pair → List NormWait × Pair × Pair
  | [], _, _, l, d => ([], l, d)
  | x :: xs, lo, ro, l, d =>
    let lo' := lo && x.localState != 1
    let ro' := ro && x.reducedState != 1
    let takeL := lo' && x.localState == 2
    let takeR := ro' && x.reducedState == 2
    let l' := if takeL then (combine true l.num x.localSq.num).1.bits else l
    let d' := if takeR then (combine true d.num x.reducedSq.num).1.bits else d
    let x' := { x with localState := if takeL then 0 else x.localState,
                       reducedState := if takeR then 0 else x.reducedState }
    let r := flushNorms xs lo' ro' l' d'
    (if x'.localState = 0 ∧ x'.reducedState = 0 then r.1 else x' :: r.1, r.2)

/-- A partition's waiting values changed, then flushed. -/
def State.updNorms (s : State) (p : Nat) (f : List NormWait → List NormWait) : State :=
  s.updPart p fun q =>
    let r := flushNorms (f q.norms) true true q.localNorm q.reducedNorm
    { q with norms := r.1, localNorm := r.2.1, reducedNorm := r.2.2 }

/-- The place of a run in the order of R349. -/
def CollRun.isWait (r : CollRun) (w : NormWait) : Bool :=
  w.due == r.due.getD 0 && w.unit == r.chk.entry.unit && w.core == r.core

/-- The squared norm of values in order: v × v by add_term with compensation on. -/
def squares (vs : List Num) : Pair := (addTerms true PairN.zero (vs.map fun v => (mulX v v).1)).1.bits

/-- The chunk-halves of a contribution in the order of R347: by links crossed on leaving, then chunk, + before
-, the own chunk last. -/
def CollRun.normOrder (r : CollRun) : List (Nat × Nat) :=
  if r.ring then
    (List.range r.n).flatMap fun i =>
      let a := ((r.pos + r.n - 1 - i) % r.n, 0)
      let b := ((r.pos + 1 + i) % r.n, 1)
      if b.1 < a.1 then [b, a] else [a, b]
  else
    let lo := (List.range r.pos).map fun j => (j, 1)
    let hi := (List.range (r.n - 1 - r.pos)).map fun j => (r.pos + 1 + j, 0)
    (if r.n - 1 - r.pos < r.pos then lo ++ hi
     else if r.n - 1 - r.pos = r.pos then lo ++ hi
     else hi ++ lo) ++ [(r.pos, 0)]

/-- The squared norm of a contribution. -/
def CollRun.localSq (r : CollRun) (own : List Pair) : Pair :=
  squares (r.normOrder.flatMap fun x =>
    let g := r.range r.chk.entry.count x.1 x.2
    ((own.drop g.1).take (g.2 - g.1)).map fun p => rne32 (pairExact .rne p.num))

/-! ### The owner's results (R326, R329, R330, R335, R337, R348, R351) -/

/-- A run of destination bytes written, element by element in count order. -/
def State.writeCount (s : State) (d : Desc) (lo : Nat) (bs : List Byte) : State :=
  let n := d.gatherBytes
  if n = 0 then s
  else s.storeBytes (toLocal ((List.range (bs.length / n)).flatMap fun k =>
    ((bs.drop (n * k)).take n).zipIdx.map fun b => (d.addrOf (d.posOf (lo + k)) + b.2, b.1)))

/-- A run writes destination elements from lo on, unless a hold has come to keep them (R125, R414). -/
def State.writeRun (s : State) (r : CollRun) (d : Desc) (lo : Nat) (bs : List Byte) : State × CollRun :=
  let n := d.gatherBytes
  let xs := (List.range (bs.length / n)).map fun k => (addrLocal (d.addrOf (d.posOf (lo + k))), n)
  match s.heldAgainst r.core s.gatherHolds xs with
  | some counted => (s.noteStale counted, { r with stale := true })
  | none => (s.writeCount d lo bs, r)

/-- What a run notes of a segment it finalises or receives in the gather phase (R343). -/
def CollRun.note (r : CollRun) (g : Seg) : CollRun :=
  let absent := match r.forced with | some m => 2 ^ 32 - 1 - m % 2 ^ 32 | none => 0
  let missing := (List.range r.n).any fun p => !((g.mask ||| g.quar ||| absent).testBit p)
  { r with mask := g.mask, quar := g.quar, total := g.weight, dropSeen := r.dropSeen || missing,
           nfSeen := match r.nfSeen with | some x => some x | none => g.nf }

/-- The final bytes of pairs from element lo in the destination, their flags, and the FP32 values of R348. -/
def State.finalRun (s : State) (r : CollRun) (d : Desc) (lo weight : Nat) (ps : List Pair) :
    List Byte × Half × List Word :=
  let e := r.chk.entry
  let op := e.collOp
  let env := s.envOf r.core e
  if op = 11 then
    let w := normWords (ps.getD 0 ⟨0, 0⟩) (s.part r.part).clip
    (pairBytes (ps.take 2) ++ leBytes 4 (ps.getD 2 ⟨0, 0⟩).s.toNat ++ leBytes 4 0 ++ leBytes 4 w.1.toNat
      ++ leBytes 4 w.2.1.toNat, w.2.2, [])
  else
    let ps := if weight = 0 then ps.map fun _ => ⟨0, 0⟩ else ps
    if d.isPair then (pairBytes ps, 0, [])
    else
      let xs := ps.zipIdx.map fun x =>
        let md := env.mode d.key (lo + x.2)
        let v := if op = 10 then f32 x.1.s
                 else if weight = 0 then Num.zero else finalExact op weight md x.1.num
        (finalBits d.fmt env md v, w32 (rne32 v))
      (xs.flatMap fun x => leBytes d.gatherBytes x.1.1, xs.foldl (fun f x => f ||| x.1.2) 0, xs.map (·.2))

/-- The own chunk, or a half of it, is final: rounded, written, noted and sent into the gather phase. -/
def State.finalise (s : State) (i : Nat) (r : CollRun) (g : Seg) (ps : List Pair) : State :=
  let e := r.chk.entry
  match r.chk.desc 12 with
  | none => s.setRun i r
  | some d =>
    let lo := (r.range e.count g.chunk g.half).1
    let f := s.finalRun r d lo g.weight ps
    let g := { g with data := f.1 }
    let r := { r.note g with todo := r.todo - 1, flags := r.flags ||| f.2.1,
                             finals := r.finals ++ [(g.half, f.2.2)],
                             record := if e.collOp = 11 then some f.1 else r.record }
    let r := if r.ring then r.push 1 g.half g else (r.push 1 0 { g with half := 0 }).push 1 1 { g with half := 1 }
    let w := s.writeRun r d lo f.1
    let s := w.1.setRun i w.2
    if r.todo ≠ 0 ∨ 8 ≤ e.collOp ∨ r.miss then s
    else
      let old := (s.ledgerOf r.part e.bucket).getD ⟨r.part, e.bucket, 0, 0, [0, 0, 0], [0, 0, 0]⟩
      let s := s.putLedger { old with weight := g.weight, axes := old.axes ||| 1 <<< e.axis,
                                      masks := old.masks.set e.axis g.mask, quars := old.quars.set e.axis g.quar }
      if d.isPair then s
      else
        let vs := ([0, 1].flatMap fun h => (r.finals.filter (·.1 == h)).flatMap (·.2)).map f32
        s.updNorms r.part fun ws => ws.map fun w =>
          if r.isWait w then { w with reducedState := 2, reducedSq := squares vs } else w

/-- This member's own part of a segment: its pairs and what a non-finite one reports. -/
def CollRun.ownPart (r : CollRun) (g : Seg) : List Pair × Option (Nat × Nat) :=
  let op := r.chk.entry.collOp
  let x := r.range r.chk.entry.wireCount g.chunk g.half
  ((r.own.drop x.1).take (x.2 - x.1), (firstNonfinite op r.own x.1 x.2).map fun k => (r.pos, k))

/-- The tail's report of this member where it is quarantined. -/
def CollRun.quarNf (r : CollRun) : Option (Nat × Nat) := if r.scan = 3 then some (r.pos, r.nfElem) else none

/-- A stream's segment after this member (R325, R327, R341, R342), with flags. -/
def CollRun.absorb (r : CollRun) (comp : Bool) (g : Seg) : Seg × Half :=
  let e := r.chk.entry
  let o := r.ownPart g
  let lo := (r.range e.wireCount g.chunk g.half).1
  if r.included then
    let m := mergeRun e.collOp comp lo (pairsOf g.data) o.1
    ({ g with data := pairBytes m.1, mask := g.mask ||| 1 <<< r.pos, weight := g.weight + r.weight,
              nf := earlierNf e.quarantine g.nf o.2 }, m.2)
  else
    ({ g with quar := if r.scan = 3 then g.quar ||| 1 <<< r.pos else g.quar,
              nf := earlierNf e.quarantine g.nf r.quarNf }, 0)

/-- A stream's segment that starts here (R325, R327). -/
def CollRun.origin (r : CollRun) (chunk half : Nat) : Seg :=
  let e := r.chk.entry
  let g : Seg := { chunk := chunk, half := half, mask := 0, weight := 0, quar := 0, nf := none, data := [] }
  let x := r.range e.wireCount chunk half
  let o := r.ownPart g
  if r.included then
    { g with data := pairBytes (o.1.zipIdx.map fun p => soloUnit e.collOp (x.1 + p.2) p.1), mask := 1 <<< r.pos,
             weight := r.weight, nf := o.2 }
  else
    { g with data := List.replicate (8 * (x.2 - x.1)) 0, quar := if r.scan = 3 then 1 <<< r.pos else 0,
             nf := r.quarNf }

/-- Two streams of a line joined at the owner. -/
def joinSegs (op : Nat) (comp quarantine : Bool) (a b : Seg) : Seg × Half :=
  let m := mergeRun op comp 0 (pairsOf a.data) (pairsOf b.data)
  ({ a with data := pairBytes m.1, mask := a.mask ||| b.mask, weight := a.weight + b.weight,
            quar := a.quar ||| b.quar, nf := earlierNf quarantine a.nf b.nf }, m.2)

/-- The owner's chunk of a line (R326): the left stream, its own contribution, then the right stream. -/
def State.lineFinal (s : State) (i : Nat) (r : CollRun) : State :=
  let e := r.chk.entry
  let comp := (s.envOf r.core e).comp
  let needL := r.rx.any fun x => x.phase == 0 && x.dir == 0
  let needR := r.rx.any fun x => x.phase == 0 && x.dir == 1
  if r.todo = 0 ∨ (needL && r.left.isNone) ∨ (needR && r.right.isNone) then s.setRun i r
  else
    let a := match r.left with
      | some l => r.absorb comp l
      | none => if r.included ∨ r.right.isNone then (r.origin r.pos 0, 0)
                else ({ r.origin r.pos 0 with data := [] }, 0)
    let t := match r.right with
      | some y =>
        if r.left.isNone ∧ !r.included then
          ({ y with quar := y.quar ||| a.1.quar, nf := earlierNf e.quarantine a.1.nf y.nf }, 0)
        else joinSegs e.collOp comp e.quarantine a.1 y
      | none => (a.1, 0)
    s.finalise i { r with flags := r.flags ||| a.2 ||| t.2 } { t.1 with chunk := if soleChunk e.collOp then 0 else r.pos, half := 0 }
      (pairsOf t.1.data)

/-! ### Beginning (R333, R334, R337, R347, R350) -/

/-- Elements the module finalises itself. -/
def CollRun.partsOwned (r : CollRun) : Nat :=
  let op := r.chk.entry.collOp
  if op = 8 then 0 else if soleChunk op then (if r.pos = 0 then 1 else 0) else if r.ring then 2 else 1

/-- The own chunk of an ALL_GATHER is read, written and sent (R318, R339); its read raises its flags (R629). -/
def State.gatherOwn (s : State) (i : Nat) (r : CollRun) (rd : Reader) : State :=
  let e := r.chk.entry
  match r.chk.desc 8, r.chk.desc 12 with
  | some a, some d =>
    let seg := fun h =>
      let x := r.range e.count r.pos h
      ({ chunk := r.pos, half := h, mask := 2 ^ r.n - 1, weight := r.n, quar := 0, nf := none,
         data := a.rawRun rd x.1 x.2 } : Seg)
    let whole := (chunkStart e.count r.n r.pos, chunkStart e.count r.n (r.pos + 1))
    let fl := (List.range (whole.2 - whole.1)).foldl
      (fun f k => f ||| (a.contribution rd false (whole.1 + k)).2) (0 : Half)
    let r := ({ r with flags := r.flags ||| fl }.note (seg 0)).push 1 0 (seg 0)
    let r := r.push 1 1 (seg 1)
    let w := s.writeRun r d whole.1 (a.rawRun rd whole.1 whole.2)
    w.1.setRun i w.2
  | _, _ => s.setRun i r

/-- The streams of run i begin: included says whether this member contributes, late whether R333 excludes it, and
flits what each direction may send in this stitch. Reads of the source may meet errors of the memory. -/
def State.beginRun (s : State) (i : Nat) (r : CollRun) (included late : Bool) (flits : Nat) (ecc : Ecc) : State :=
  let e := r.chk.entry
  let op := e.collOp
  let quar := r.scan == 3 && !late && (r.forced.all fun m => m.testBit r.pos)
  let included := included && !quar && !r.miss
  let u := s.accessErrors (if included then r.readExtents else []) r.chk.writeExtents ecc
  match u.2 with
  | some bad => u.1.failSource i r bad
  | none =>
    let s := u.1
    let out := late || quar
    let s := { s with coll := { s.coll with
        lateExclusions := if late then s.coll.lateExclusions + 1 else s.coll.lateExclusions,
        quarantines := if quar then s.coll.quarantines + 1 else s.coll.quarantines } }
    let s := if out then s.updPart r.part fun q => { q with excluded := q.excluded + 1 } else s
    let own : List Pair × Half := if included && op != 8 then s.contribution r else ([], 0)
    let weight := if op < 8 ∧ op % 2 = 1 then ((s.ledgerOf r.part e.bucket).map (·.weight)).getD 0 else 1
    let localSq := if op < 8 ∧ op % 2 = 0 ∧ included then r.localSq own.1 else ⟨0, 0⟩
    let s := if op = 11 ∧ (r.chk.desc 8).isNone then
        s.updPart r.part fun q => { q with localNorm := ⟨0, 0⟩, reducedNorm := ⟨0, 0⟩ }
      else s
    let s := s.updNorms r.part fun ws => ws.map fun w =>
      if r.isWait w ∧ w.localState = 1 then
        { w with localState := if included then 2 else 0, localSq := localSq } else w
    let r := { r with
      begun := true, started := true, included := included, late := late, own := own.1, weight := weight,
      scan := if quar then 3 else if r.scan = 1 ∨ r.scan = 3 then 0 else r.scan, flags := r.flags ||| own.2,
      nfOwn := if quar then some r.nfElem else firstNonfinite op own.1 0 own.1.length, todo := r.partsOwned,
      credit := [(flits : Int), flits] }
    let r := r.tx.foldl (fun r t =>
      if t.phase = 0 then
        (t.turns.filter fun x => !(r.rx.any fun y => y.phase == 0 && y.dir == t.dir && y.turns.contains x)).foldl
          (fun r x => r.push 0 t.dir (r.origin x.1 x.2)) r
      else r) r
    if op = 8 then s.gatherOwn i r (memReader s.mem)
    else if r.ring then s.setRun i r
    else s.lineFinal i r

/-- A member's part in run i is settled, and its streams begin, once no host owns a line of what it reads (R505). -/
def State.startRun (s : State) (i : Nat) (r : CollRun) (included late : Bool) (ecc : Ecc) : State :=
  if included && s.sourceHeld r then (s.recallSource r).setRun i { r with judged := some (included, late) }
  else s.beginRun i { r with judged := none } included late
    (if r.strict then 0 else ((s.runEntry r).map (·.flits)).getD 0) ecc

/-! ### Receiving (R315, R325 to R330, R346) -/

/-- The bytes of a stream that have come without a gap, and whether the last has. -/
def RxStream.prefixBytes (x : RxStream) : List Byte :=
  x.pieces.foldl (fun acc p => if p.1 = acc.length then acc ++ p.2 else acc) []

/-- A segment of stream k of run i is taken. -/
def State.takeSeg (s : State) (i : Nat) (r : CollRun) (dir phase : Nat) (g : Seg) : State :=
  let e := r.chk.entry
  if phase = 1 then
    match r.chk.desc 12 with
    | none => s.setRun i r
    | some d =>
      let lo := (r.range e.count g.chunk g.half).1
      let r := (r.note g).push 1 dir g
      let r := if e.collOp = 11 then { r with record := some g.data } else r
      let w := s.writeRun r d lo g.data
      w.1.setRun i w.2
  else
    let owner := if soleChunk e.collOp then 0 else g.chunk
    if owner ≠ r.pos then
      let a := r.absorb (s.envOf r.core e).comp g
      s.setRun i ({ r with flags := r.flags ||| a.2 }.push 0 dir a.1)
    else if r.ring then
      let a := r.absorb (s.envOf r.core e).comp g
      s.finalise i { r with flags := r.flags ||| a.2 } a.1 (pairsOf a.1.data)
    else s.lineFinal i (if dir = 0 then { r with left := some g } else { r with right := some g })

/-- The unit that works on the streams of a direction (R312). -/
def CollRun.unitOn (r : CollRun) (dir : Nat) : Nat :=
  r.chk.entry.unit + if dir = 0 then 0 else [16, 8, 4].getD r.chk.entry.axis 0

/-- Segments of stream k of run i are taken as far as its bytes have come, each lead checked first. One that differs
ends the run with CONFIG_INCONSISTENT (R315), once the digest of its stream has been judged (R343); until then the
run forwards nothing. The list of turns bounds the rounds. -/
def State.drainStream (s : State) (i k : Nat) : Nat → State
  | 0 => s
  | fuel + 1 => match s.coll.runs[i]? with
    | none => s
    | some r => match r.rx[k]? with
      | none => s
      | some x => match x.turns with
        | [] => s
        | t :: rest =>
          let bs := x.prefixBytes.drop x.used
          let n := 48 + pad16 (r.dataLen x.phase t.1 t.2)
          if bs.length < 32 then s
          else if !r.chk.entry.agrees bs then
            if x.ended then s.failRun i r stCONFIG 4 5 (r.unitOn x.dir) else s.setRun i { r with wrong := some k }
          else if bs.length < n then s
          else
            let r' := { r with rx := r.rx.set k { x with turns := rest, used := x.used + n } }
            (s.takeSeg i r' x.dir x.phase (r.readSeg x.phase t bs)).drainStream i k fuel

/-- Whether run i is still the run of a reservation and core: no fault has taken it. -/
def State.stillRun (s : State) (i : Nat) (r : CollRun) : Bool :=
  match s.coll.runs[i]? with
  | some x => x.core == r.core && x.resv == r.resv && x.part == r.part && x.due == r.due
  | none => false

/-- A stream whose last packet has come is checked against its trailer (R345, R346). -/
def State.checkStream (s : State) (i k : Nat) (last : Bool) : State :=
  match s.coll.runs[i]? with
  | none => s
  | some r => match r.rx[k]? with
    | none => s
    | some x =>
      if !last then s
      else
        let all := x.pieces.flatMap (·.2)
        let body := all.take (all.length - 16)
        let d := crc64 body
        let trailer := BitVec.ofNat 64 (leAt all (all.length - 16) 8)
        let bad := d != trailer
        let port := 2 * r.chk.entry.axis + (1 - x.dir)
        let s := s.digestRecord r port x.phase bad 0 d trailer
        if bad then s.failRun i r stDIGEST 2 4 port
        else if r.wrong = some k then s.failRun i r stCONFIG 4 5 (r.unitOn x.dir)
        else s.setRun i { r with rx := r.rx.set k { x with ended := true } }

/-- Whether run i has found a lead that differs from its command (R315). -/
def State.wrongRun (s : State) (i : Nat) : Bool := s.coll.runs[i]?.any fun r => r.wrong.isSome

/-- Everything that has come for run i is worked off, and its streams sent on. -/
def State.workRun (s : State) (i : Nat) : State :=
  match s.coll.runs[i]? with
  | none => s
  | some r =>
    if !r.begun || r.wrong.isSome then s
    else
      let s := (List.range 4).foldl (fun s k => if s.stillRun i r && !s.wrongRun i then s.drainStream i k (r.n + 1) else s) s
      if s.stillRun i r && !s.wrongRun i then s.sendRun i else s

/-- A piece put in its place by offset. -/
def addPiece : List (Nat × List Byte) → Nat × List Byte → List (Nat × List Byte)
  | [], p => [p]
  | q :: qs, p => if p.1 < q.1 then p :: q :: qs else q :: addPiece qs p

/-- The stream that a packet from a port belongs to: the first of the first run that still expects one, by the
reservation's number, or by the axis of the port. -/
def State.streamFor (s : State) (p port number : Nat) : Option (Nat × Nat) :=
  let dir := 1 - port % 2
  let pick := fun (want : CollRun → Bool) =>
    ((List.range s.coll.runs.length).filterMap fun i => match s.coll.runs[i]? with
      | some r => if r.part = p ∧ r.chk.entry.axis = port / 2 ∧ want r then
          (r.rx.findIdx? fun x => x.dir == dir && !x.ended).map fun k => (i, k) else none
      | none => none).head?
  (pick fun r => r.resv == number).orElse fun _ => pick fun _ => true

/-- A COLLECTIVE packet delivered here: with a stream's last packet its digest is judged, before any lead that the
packet brings (R343, R346). Writes of results to HBM may meet parity (R110). -/
def State.onCollective (s : State) (port : Nat) (pk : SPkt) (p : Nat) (ecc : Ecc) : State :=
  match s.streamFor p port pk.resv.toNat with
  | none => s
  | some (i, k) => match s.coll.runs[i]? with
    | none => s
    | some r => match r.rx[k]? with
      | none => s
      | some x =>
        let x := { x with pieces := addPiece x.pieces (pk.offset.toNat, pk.payload) }
        let s := (s.setRun i { r with rx := r.rx.set k x }).checkStream i k pk.last
        if !s.stillRun i r then s
        else
          let u := s.accessErrors [] r.chk.writeExtents ecc
          match u.2 with
          | some bad => u.1.failSource i r bad
          | none => u.1.workRun i

/-- COLLECTIVE (the packet): passed on by an entry that only routes it, else delivered to the hub; an entry with
input 6 is a member's own, whose streams end here (R314, R369). -/
def execCollective (port : Fin 6) (p : SPkt) (s : State) (ecc : Ecc := .clean) : Host.Outcome State Fault Refusal :=
  guarded (p.kind != 0xE && decide (p.payload.length ≤ 512)) <|
    s.schedArrival port p (fun r => decide (r.output < 6) && decide (r.input ≠ 6)) fun s q _ =>
      if (s.part q).active then s.onCollective port p q ecc else s

/-! ### Occurrences and deadlines (R333) -/

/-- The occurrence of run i starts: it takes its place in the order of R349, and a strict one begins; its flits come
with the stitch's. -/
def State.dueRun (s : State) (i q : Nat) (ecc : Ecc) : State :=
  match s.coll.runs[i]? with
  | none => s
  | some r =>
    let e := r.chk.entry
    let r := { r with due := some q }
    let pairDst := match r.chk.desc 12 with | some d => d.isPair | none => true
    let w : NormWait := { due := q, unit := e.unit, core := r.core, localState := if e.collOp % 2 = 0 then 1 else 0,
                          localSq := ⟨0, 0⟩, reducedState := if pairDst then 0 else 1, reducedSq := ⟨0, 0⟩ }
    let s := s.setRun i r
    if e.count = 0 then s
    else
      let s := if e.collOp < 8 then s.updNorms r.part (· ++ [w]) else s
      if r.strict then (s.startRun i r (r.forced.all fun m => m.testBit r.pos) false ecc).workRun i
      else s

/-- COLLECTIVE_DEADLINE: the start of stitch due + deadline; the member judges its readiness once. -/
def execCollectiveDeadline (core : Fin 512) (resv : Half) (s : State) (ecc : Ecc := .clean) :
    Host.Outcome State Fault Refusal :=
  .next <| match s.coll.runs.findIdx? fun r => r.core == core.val && r.resv == resv.toNat && r.due.isSome && !r.begun
      && r.judged.isNone with
  | none => s
  | some i => match s.coll.runs[i]? with
    | none => s
    | some r =>
      if r.chk.entry.count = 0 ∨ (s.part r.part).sched.pstitch < r.due.getD 0 + r.chk.entry.deadline then s
      else
        let ok := s.runReady r
        (s.startRun i r ok (!ok && !r.miss) ecc).workRun i

/-- Runs whose source a host owned begin, as far as the lines have come back (R505). -/
def State.resumeRuns (s : State) : State :=
  (List.range s.coll.runs.length).foldl (fun s i => match s.coll.runs[i]? with
    | some r => match r.judged with
      | some x => (s.startRun i r x.1 x.2 .clean).workRun i
      | none => s
    | none => s) s

/-- What waited for lines that a host owned goes on, as far as they have come back: manifests and collectives
(R505). -/
def State.resumeReads (s : State) : State :=
  ((List.range 16).foldl (fun s p => match (s.part p).waitingMan with
    | some b => s.awaitManifest p b
    | none => s) s).resumeRuns

/-! ### Completion (R343, R344) -/

/-- Whether run r has done everything. -/
def CollRun.over (r : CollRun) : Bool :=
  r.due.isSome && (r.chk.entry.count == 0
    || (r.begun && r.todo == 0 && r.tx.all TxStream.done && r.rx.all (·.ended)))

/-- The status of a run that is over. -/
def CollRun.status (r : CollRun) : Half :=
  if r.chk.entry.count = 0 then stDONE
  else if r.miss then stLEDGER_MISS
  else if r.stale then stSTALE_SHARD
  else if r.nfOwn.isSome ∨ r.nfSeen.isSome then stNONFINITE
  else if r.late ∨ r.dropSeen then stDEADLINE
  else stDONE

/-- The contributor and element an event names: the reported one, this member, or the lowest position left
out. -/
def CollRun.culprit (r : CollRun) (st : Half) : Nat × Nat :=
  if st = stNONFINITE then
    match r.nfSeen with | some x => x | none => (r.pos, r.nfOwn.getD 0)
  else if r.late ∨ st = stLEDGER_MISS then (r.pos, 0)
  else (((List.range r.n).find? fun p => !(r.mask ||| r.quar).testBit p).getD r.pos, 0)

/-- A COLLECTIVE of core c completes; one that found no ledger entry raises its fault with it (R338). -/
def State.finishColl (s : State) (c resv : Nat) : State :=
  match s.coll.runs.findIdx? fun r => r.core == c && r.resv == resv && r.over with
  | none => s
  | some i => match s.coll.runs[i]? with
    | none => s
    | some r =>
      let st := r.status
      let s := s.dropRun i
      let s := if st = stDONE then s else s.collEvent r st (r.culprit st).1 (r.culprit st).2
      let s := match r.record with
        | some b => s.updPart r.part fun q => { q with normRecord := some b }
        | none => s
      if st = stLEDGER_MISS then s.failCommand r.part c r.chk.entry st r.flags 4 5 r.chk.entry.unit 0
      else s.complete r.part c r.chk.entry st r.flags (st != stSTALE_SHARD)

end Sys2Proof.Machine
end

