-- ==== Sys2Proof/Machine/Schedule.lean ====
section
/-! DEFINITION. Machine/Schedule.lean: the stitch boundary (R356, R359, R381 to R393, R399, R416, R612), the
start of a pattern (R379, R430), stitch markers and the timebase (R360, R361, R365, R381, R387, R389, R450),
bookings that run short (R390) and wait cycles (R164, R165). -/

namespace Sys2Proof.Machine

/-! ### Faults of ports and schedules (R381, R389, R390, R481) -/

/-- The partitions a port fault stops (R481): armed, running or draining, with the module across in the box. -/
def State.portParts (s : State) (k : Nat) : List Nat :=
  (s.joinedParts k).filter fun p => (s.part p).patterned

/-- A port fault (R481, R491). -/
def State.portFault (s : State) (k : Nat) (d0 : Nat) : State := s.fault stPORT_LOST 3 4 k (s.portParts k) d0 0

/-- A port's state changed; injection minima are judged anew where the capacity changed (R456). -/
def State.setPort (s : State) (k : Nat) (st : Byte) : State :=
  s.afterCapacity (s.updLink k fun l => { l with state := st })

/-- A port leaves service by a fault (R481): its partitions stop, what is queued for it is discarded (R302), and it
waits to retrain; a disabled port stays disabled. -/
def State.losePort (s : State) (k d0 : Nat) : State :=
  let s := s.portFault k d0
  if (s.link k).state = 0 then s else (s.setPort k 8).dropQueued k

/-- A schedule fault of a partition. -/
def State.outOfStep (s : State) (p : Nat) : State := s.fault stOUT_OF_STEP 5 0 0 [p] 0 0

/-! ### Holds and the timeline (R381 to R387) -/

/-- Whether a stitch count is known to be a slip of a partition. -/
def Sched.isSlip (d : Sched) (t : Nat) : Bool := d.holds.any (·.target == t)

/-- Stitch counts in (lo, hi] that are no slips. -/
def Sched.stepsBetween (d : Sched) (lo hi : Nat) : Nat :=
  ((List.range (hi - lo)).filter fun i => !d.isSlip (lo + 1 + i)).length

/-- A hold added. Its stitch is a slip once; a hold of this member's own takes the place of a received one, since
the record names the member's own cause (R387, R391). -/
def Sched.addHold (d : Sched) (h : HoldAt) : Sched :=
  if !d.isSlip h.target then { d with holds := d.holds ++ [h] }
  else if h.isLocal then { d with holds := d.holds.map fun x => if x.target = h.target ∧ !x.isLocal then h else x }
  else d

/-- What a partition says of itself in a marker (R480): armed 1, running 2, draining 3; in the start stitch an
armed pattern is running. -/
def State.sliceMark (s : State) (p : Nat) : Option SliceMark :=
  let q := s.part p
  if !q.patterned then none
  else
    let starts := q.patState == .armed && q.armed == some s.tb.count.toNat
    some { tag := q.place.live.tag,
           state := if q.patState == .armed then (if starts then 2 else 1) else if q.state == .draining then 3 else 2,
           pstitch := BitVec.ofNat 64 (if q.patState == .armed then 0 else q.sched.pstitch) }

/-- Markers with the slices of a port and some holds, 32 at most in each (R479). -/
def State.markersTo (s : State) (k : Nat) (hs : List HoldMark) : List Out :=
  let slices := (s.joinedParts k).filterMap s.sliceMark
  let plain := fld (s.link k).version 0 16 == 1
  let hs := hs.map fun h => if plain then { h with cause := 0 } else h
  let groups := if hs.isEmpty then [[]] else
    (List.range (ceilDiv hs.length 32)).map fun i => (hs.drop (32 * i)).take 32
  groups.map fun g =>
    let m : Marker := { count := s.tb.count, slices := slices, holds := g, crc := 0 }
    .marker k { m with crc := m.sum }

/-- The holds of a partition as mark entries. -/
def State.holdMarks (s : State) (p : Nat) (hs : List HoldAt) : List HoldMark :=
  hs.map fun h => { tag := (s.part p).place.live.tag, cause := h.cause, target := BitVec.ofNat 64 h.target }

/-- The ports on which markers go: enabled and in service (R359). -/
def State.markerPorts (s : State) : List Nat :=
  (List.range 6).filter fun k => s.portEnabled k && (s.link k).state == 5

/-! ### Examination (R384 to R386, R399) -/

/-- The occurrences injected here at pattern stitch q: those of steps that have begun or may begin, in the
order of the image (R369, R393). -/
def Pattern.startsAt (pat : Pattern) (d : Sched) (steps q : Nat) : List Resv :=
  (List.range steps).flatMap fun k => pat.resvs.filter fun r =>
    r.input == 6 && pat.holdsIn (d.manifestOf k) r.cond r.m && pat.stitchOf d k r.t r.o (r.cond == 2) == q

/-- Occurrences that start at pattern stitches from lo up to q - 1, each with its stitch. -/
def Pattern.startsBefore (pat : Pattern) (d : Sched) (steps lo q : Nat) : List (Nat × Resv) :=
  (List.range (q - lo)).flatMap fun i => (pat.startsAt d steps (lo + i)).map fun r => (lo + i, r)

/-- What an examined occurrence lacks. -/
inductive Lack where
  | nothing
  | credit
  | other
  deriving DecidableEq, Repr

/-- The unit of the COLLECTIVE that waits under a reservation, unless its count is 0. -/
def State.unitWaiting (s : State) (p number : Nat) : Option Nat :=
  ((s.coll.runs.find? fun y => y.part == p && y.resv == number && y.due.isNone).filter
    fun y => y.chk.entry.count != 0).map fun y => y.chk.entry.unit

/-- Whether a unit pair is in use at pattern stitch ps (R313): by a collective that runs now, or by one due before
or in the same stitch, until the span its entry books ends (R369, R390; DEDUCED, log entry 114). -/
def State.unitTaken (s : State) (p ps : Nat) (before : List (Nat × Resv)) (unit : Nat) : Bool :=
  (s.coll.runs.any fun y => y.chk.entry.unit == unit && y.chk.entry.count != 0
    && match y.due, s.runEntry y with
       | some q, some x => y.part != p || decide (ps < q + x.span)
       | some _, none => true
       | none, _ => false)
  || before.any fun b => b.2.kind == 0xD && decide (ps < b.1 + b.2.span) && s.unitWaiting p b.2.number == some unit

/-- R385 for one occurrence, at pattern stitch ps; before: the occurrences due between now and its start. -/
def State.lackOf (s : State) (p : Nat) (pat : Pattern) (ps : Nat) (before : List (Nat × Resv)) (r : Resv) : Lack :=
  let d := (s.part p).sched
  let earlier := (before.filter (·.2.number == r.number)).length
  if r.kind = 0xD then
    let waiting := s.coll.runs.filter fun x => x.part == p && x.resv == r.number && x.due.isNone
    match waiting[earlier]? with
    | none => .other
    | some x =>
      if (x.waits && !s.runReady x) || (x.chk.entry.count != 0 && s.unitTaken p ps before x.chk.entry.unit) then .other
      else .nothing
  else if (d.issued.filter (· == r.number)).length ≤ earlier then .other
  else if r.queue = 0 then .nothing
  else match pat.queues.find? fun x => !x.consumer && x.queue == r.queue with
    | none => .nothing
    | some x =>
      let c := x.localCore + 8 * (s.part p).layout.live.first.toNat
      let started := Sparse.get 0 d.started r.queue + (before.filter (·.2.queue == r.queue)).length
      let target : Word := BitVec.ofNat 32 (started + 1) - BitVec.ofNat 32 x.slots
      if waitMet (s.tallyOf c x.localTally) target then .nothing else .credit

/-- The steps whose occurrences a partition may start: those with a manifest, up to a drain's last. -/
def Part.openSteps (q : Part) : Nat :=
  match q.drainStep with
  | some n => min q.sched.nextStep (n + 1)
  | none => q.sched.nextStep

/-- examine(h) of R384 for partition p, whose next pattern stitch comes after count h: the holds it asks for. -/
def State.examine (s : State) (p : Nat) (pat : Pattern) (start : Option Nat) : State × List HoldAt :=
  let q := s.part p
  let d := q.sched
  let h := s.tb.count.toNat
  let t := h + pat.slipLag
  let origin := match start with | some a => a - 1 | none => h
  if d.isSlip t ∨ t ≤ origin then (s, [])
  else
    let ps := d.next + d.stepsBetween origin t - 1
    let put := fun (s : State) (hs : List HoldAt) =>
      (s.updPart p fun q => { q with sched := hs.foldl Sched.addHold q.sched }, hs.filter fun x => !d.isSlip x.target)
    let drained := q.state == .draining || q.drainStep.any fun n => decide (n < d.nextStep)
    if !drained && pat.startOf d d.nextStep == ps then
      put s [{ target := t, cause := stSLIP, isLocal := true, resv := 0, core := 0xFFFF }]
    else
      let before := pat.startsBefore d q.openSteps d.next ps
      let now := pat.startsAt d q.openSteps ps
      let lacks := now.zipIdx.map fun r => (r.1, s.lackOf p pat ps (before ++ (now.take r.2).map fun x => (ps, x)) r.1)
      let late := lacks.filter fun x => x.2 != .nothing
      match late with
      | x :: _ =>
        let cause := if late.all fun y => y.2 == .credit then stBACKPRESSURE else stSLIP
        put s [{ target := t, cause := cause, isLocal := true, resv := x.1.number,
                 core := x.1.core + 8 * q.layout.live.first.toNat }]
      | [] =>
        if d.governed.any (·.1 == ps) then (s, [])
        else
          let n := s.govStitches (pat.riseAt d ps)
          let s := s.updPart p fun q => { q with sched := { q.sched with
            governed := pushRing 2048 q.sched.governed (ps, n) } }
          if n < 2 then (s, [])
          else
            let s := { s with tb := { s.tb with governorStitches := s.tb.governorStitches + BitVec.ofNat 64 (n - 1) } }
            put s ((List.range (n - 1)).map fun i =>
              { target := t + i, cause := stSLEW, isLocal := true, resv := 0, core := 0xFFFF })

/-! ### Occurrences under way (R383, R390) -/

/-- The core that carries an injected reservation (R426). -/
def State.resvCore (s : State) (p : Nat) (r : Resv) : Nat := r.core + 8 * (s.part p).layout.live.first.toNat

/-- A SCHED_MOVE's occurrence starts: the bytes of its MOVE, as its destination stores them. One whose MOVE still
reads what it needs takes them when they are there (R390). -/
def State.startMove (s : State) (p q : Nat) (r : Resv) (ecc : Ecc) : State :=
  let c := s.resvCore p r
  let u := s.moveReads p c r.number ecc
  if !u.2 then u.1
  else
    let s := u.1
    let got := s.moveBytes c r.number
    let s := match got with | some x => s.setMover c x.1 | none => s
    let occ : Occ := { resv := r, start := q, sent := 0, credit := 0, core := c,
                       data := match got with | some x => x.2.1 | none => [],
                       dest := match got with | some x => x.2.2 | none => s.myId,
                       awaits := (s.core c).mover.any fun m => m.phase == .reading && m.chk.entry.moveResv == r.number }
    s.updPart p fun q => { q with sched := { q.sched with
      occs := q.sched.occs ++ [occ], issued := q.sched.issued.erase r.number,
      started := if r.queue = 0 then q.sched.started
                 else Sparse.put q.sched.started r.queue (Sparse.get 0 q.sched.started r.queue + 1) } }

/-- A COLLECTIVE's occurrence starts: the first run of its reservation that waits. -/
def State.startColl (s : State) (p q : Nat) (r : Resv) (ecc : Ecc) : State :=
  match s.coll.runs.findIdx? fun x => x.part == p && x.resv == r.number && x.due.isNone with
  | some i => s.dueRun i q ecc
  | none => s

/-- The unit of the collective that starts under a reservation. -/
def State.unitOf (s : State) (p : Nat) (r : Resv) : Nat :=
  match s.coll.runs.find? fun x => x.part == p && x.resv == r.number && x.due.isNone with
  | some x => x.chk.entry.unit
  | none => 0

/-- Every injected occurrence of pattern stitch q starts; collectives in ascending unit (R349). -/
def State.startOccurrences (s : State) (p : Nat) (pat : Pattern) (q : Nat) (ecc : Ecc) : State :=
  let d := (s.part p).sched
  let rs := pat.startsAt d (min d.begun (s.part p).openSteps) q
  let moves := rs.filter (·.kind != 0xD)
  let colls := (rs.filter (·.kind == 0xD)).map fun r => (s.unitOf p r, r)
  let sorted := (List.range 56).flatMap fun u => (colls.filter (·.1 == u)).map (·.2)
  sorted.foldl (fun s r => if (s.part p).active then s.startColl p q r ecc else s)
    (moves.foldl (fun s r => if (s.part p).active then s.startMove p q r ecc else s) s)

/-- The bytes that a scheduled MOVE has sent, stored in this module where its entry delivers here, unless a hold has
come to keep the place since the command issued (R125, R414). -/
def State.moveHere (s : State) (o : Occ) (m : MoverRun) (sd dd : Desc) : State × Half :=
  let at' := (copyWrites m.chk sd dd (s.moveReader m.staging) (s.envOf o.core m.chk.entry)).1.map (·.2.1)
  let bs := toLocal ((at'.zip o.data).take o.resv.bytes)
  if o.resv.output ≠ 6 then (s, m.status)
  else match s.heldAgainst o.core (s.gatherHoldsBut o.core) (bs.map fun b => (b.1, 1)) with
    | some counted => (s.noteStale counted, stSTALE_SHARD)
    | none => (s.storeBytes bs, m.status)

/-- The last byte of a scheduled MOVE has left (R135); a remote signal to another module follows as a TALLY. -/
def State.moveSent (s : State) (p : Nat) (o : Occ) : State :=
  match (s.core o.core).mover with
  | none => s
  | some m => match m.src, m.dst with
    | some sd, some dd =>
      if m.phase ≠ .scheduled then s
      else
        let r := s.moveHere o m sd dd
        match remoteTallyOf m.chk (some dd) with
        | some w => (r.1.setMover o.core { m with phase := .writing, live := 1, status := r.2 }).enqueueX p (some o.core)
            [{ dest := o.dest, isRead := false, runs := [], tally := some w }]
        | none => r.1.setMover o.core { m with phase := .done, status := r.2 }
    | _, _ => s

/-- The packets of n bytes, of which have are there, that leave while flits remain, and the flits left: 512 bytes
each, the one that ends the reservation shorter, as its entry's bytes give it (R269); none is filled up (R390). -/
def pieceLengths : Nat → Int → Nat → Nat → List Nat × Int
  | 0, c, _, _ => ([], c)
  | fuel + 1, c, n, have_ =>
    let k := min 512 n
    if n = 0 ∨ c ≤ 0 ∨ have_ < k then ([], c)
    else
      let r := pieceLengths fuel (c - (1 + flitsOf k : Nat)) (n - k) (have_ - k)
      (k :: r.1, r.2)

/-- One occurrence sends its booked flits of this stitch, while its span lasts (R390). The reservation carries the
bytes of its entry: of a MOVE that has more, those beyond them are not sent (DESIGN CHOICE, log entry 113). -/
def State.sendOcc (s : State) (p : Nat) (o : Occ) : State × Occ :=
  if o.start + o.resv.span ≤ (s.part p).sched.pstitch then (s, o)
  else
    let total := o.resv.bytes
    let left := total - o.sent
    let ls := pieceLengths (left + 1) (min (o.resv.flits : Int) (o.credit + o.resv.flits)) left
      (o.data.length - o.sent)
    let r := ls.1.foldl (fun (a : State × Nat) n =>
      let s := if o.resv.output < 6 then
          a.1.sendSched o.resv.output 0xE o.resv o.dest a.2 (decide (a.2 + n = total)) ((o.data.drop a.2).take n)
        else a.1
      (s, a.2 + n)) (s, o.sent)
    let s := if r.2 = total ∧ (o.sent ≠ r.2 ∨ total = 0) then r.1.moveSent p o else r.1
    (s, { o with sent := r.2, credit := ls.2 })

/-- Whether an occurrence has everything sent that its entry books. -/
def Occ.over (o : Occ) : Bool := decide (o.resv.bytes ≤ o.sent)

/-- Every occurrence under way in a partition sends on; those that are over go. -/
def State.sendOccs (s : State) (p : Nat) : State :=
  let r := (s.part p).sched.occs.foldl (fun (a : State × List Occ) o =>
    let x := a.1.sendOcc p o
    (x.1, a.2 ++ [x.2])) (s, [])
  r.1.updPart p fun q => { q with sched := { q.sched with occs := r.2.filter fun o => !o.over } }

/-- SPAN_END_SHORT (R390): the span of an occurrence has ended and its bytes have not left. -/
def execSpanEndShort (part : Fin 16) (resv : Half) (s : State) : Host.Outcome State Fault Refusal :=
  let p := part.val
  let d := (s.part p).sched
  let late := fun (start span : Nat) => decide (start + span ≤ d.pstitch)
  let occ := d.occs.any fun o => o.resv.number == resv.toNat && late o.start o.resv.span && !o.over
  let run := s.coll.runs.any fun r => r.part == p && r.resv == resv.toNat && !(r.tx.all TxStream.done)
    && (match r.due, s.runEntry r with
        | some q, some x => late q x.span
        | _, _ => false)
  .next (if (s.part p).active && (occ || run) then s.outOfStep p else s)

/-! ### Steps (R392, R416, R457) -/

/-- Whether an occurrence of a step that has begun is still to start here. -/
def Part.startsLeft (q : Part) : Bool :=
  q.pattern.any fun pat =>
    let d := q.sched
    (List.range (min d.begun q.openSteps)).any fun k => pat.resvs.any fun r =>
      r.input == 6 && pat.holdsIn (d.manifestOf k) r.cond r.m
        && decide (d.next ≤ pat.stitchOf d k r.t r.o (r.cond == 2))

/-- Whether the fetchers of a partition's cores have all stopped at the END_STEP of the last step before its drain
point (R457). -/
def State.fetchersStopped (s : State) (p : Nat) : Bool :=
  (s.coresOf p).all fun c => match (s.core c).fetch with
    | some f => f.wait == .endStep && (s.part p).drainStep.all fun n => f.step == n
    | none => true

/-- Whether a draining partition has come to its end (R457): the fetchers stand at END_STEP, and no command,
occurrence, transfer or collective is outstanding, one still to start among them. -/
def State.quiet (s : State) (p : Nat) : Bool :=
  s.fetchersStopped p && !(s.part p).startsLeft &&
  (s.coresOf p).all (fun c => (s.core c).queue.isEmpty && s.outstanding c == 0)
    && (s.part p).sched.occs.isEmpty && !(s.coll.runs.any (·.part == p))
    && !(s.fabric.waiting.any (·.part == p))
    && !(s.fabric.skeins.any fun k => k.part == p && !k.live.isEmpty)

/-- DRAIN_END: the partition stops, and its pattern returns to loaded (R457). -/
def execDrainEnd (part : Fin 16) (s : State) : Host.Outcome State Fault Refusal :=
  .next (if (s.part part).state == .draining && s.quiet part then s.stopPart part stDONE false else s)

/-- The statistics record of a step (R416). -/
def Part.statsRecord (q : Part) (step : Nat) : List Byte :=
  let man := q.sched.manifestOf step
  let r := q.normRecord.getD []
  leBytes 4 step ++ leBytes 2 (if q.normRecord.isSome then 1 else 0) ++ leBytes 2 0 ++ leBytes 8 man.lens.sum
    ++ takeAt r 0 8 ++ takeAt r 8 8 ++ takeAt r 16 4 ++ takeAt r 24 4 ++ takeAt r 28 4
    ++ leBytes 4 q.sched.stepSlips ++ leBytes 4 q.excluded ++ leBytes 12 0

/-- The record of a step written into the ring. -/
def Part.writeStats (q : Part) (step : Nat) : Part :=
  { q with stats := pushRing 16 q.stats (q.statsRecord step), statsTaken := q.statsTaken + 1,
           normRecord := none, excluded := 0 }

/-- A pattern stitch begins in which a step may start (R392), or a drain point is reached (R457). -/
def State.stepStart (s : State) (p : Nat) (pat : Pattern) : State :=
  let q := s.part p
  let d := q.sched
  if q.state ≠ .running ∨ pat.startOf d d.begun ≠ d.pstitch then s
  else
    let q := if d.begun = 0 then { q with normRecord := none, excluded := 0 } else q.writeStats (d.begun - 1)
    if q.drainStep = some (d.begun - 1) ∧ d.begun ≠ 0 then
      s.setPart p { q with state := .draining, drainAt := some s.power.ticks,
                           sched := { q.sched with stepSlips := 0 } }
    else if d.nextStep ≤ d.begun then s
    else s.setPart p { q with sched := { q.sched with
      step := d.begun, begun := d.begun + 1, stepSlips := 0,
      accum := q.sched.accum.filter fun x => decide (d.begun ≤ x.2.2 + 1) } }

/-! ### A stitch of a running pattern -/

/-- A slip record (R391, R404). -/
def Part.slipRecord (q : Part) (p stitch : Nat) (h : HoldAt) : List Byte :=
  leBytes 2 h.cause.toNat ++ leBytes 1 p ++ leBytes 1 (if h.isLocal then 0 else 1) ++ leBytes 4 stitch
    ++ leBytes 4 q.sched.pstitch ++ leBytes 4 q.sched.step ++ leBytes 2 h.resv ++ leBytes 2 h.core ++ leBytes 4 0

/-- A slip stitch of a partition (R382, R391). -/
def State.slipStitch (s : State) (p : Nat) (h : HoldAt) : State :=
  let r := (s.part p).slipRecord p s.stitch32 h
  let s := s.updPart p fun q => { q with sched := { q.sched with
    slips := q.sched.slips + 1, slipTotal := q.sched.slipTotal + 1, stepSlips := q.sched.stepSlips + 1,
    slipNow := true,
    govSlips := if h.isLocal && h.cause == stSLEW then q.sched.govSlips + 1 else q.sched.govSlips } }
  { s with tb := { s.tb with slipsTotal := s.tb.slipsTotal + 1, slipTaken := s.tb.slipTaken + 1,
                             slipLog := pushRing 256 s.tb.slipLog r } }

/-- The history of R381 takes this stitch; holds older than it are forgotten. -/
def State.noteStitch (s : State) (p : Nat) : State :=
  let h := s.tb.count.toNat
  s.updPart p fun q => { q with sched := { q.sched with
    past := pushRing 2048 q.sched.past (h, q.sched.pstitch),
    holds := q.sched.holds.filter fun x => decide (h < x.target + 2048) } }

/-- One stitch of a running pattern: a slip, or the next pattern stitch with its step and occurrences. -/
def State.patternStitch (s : State) (p : Nat) (pat : Pattern) (ecc : Ecc) : State :=
  let d := (s.part p).sched
  match d.holds.find? (·.target == s.tb.count.toNat) with
  | some h => (s.slipStitch p h).noteStitch p
  | none =>
    let s := s.updPart p fun q => { q with sched := { q.sched with
      pstitch := q.sched.next, next := q.sched.next + 1, slipNow := false, govSlips := 0 } }
    ((s.stepStart p pat).startOccurrences p pat d.next ecc).noteStitch p

/-- What a partition sends in a stitch: its occurrences under way, and its collectives. -/
def State.sendPart (s : State) (p : Nat) : State :=
  let q := s.part p
  let s := if q.patState = .running ∧ q.active then s.sendOccs p else s
  (List.range s.coll.runs.length).foldl (fun s i => match s.coll.runs[i]? with
    | some r => if r.part = p then s.refillRun i else s
    | none => s) s

/-! ### PATTERN_START (R379, R430) -/

/-- The armed start stitch has come: a partition that runs host-issued work stops first; then it starts, and
pattern stitch 0 begins. Where power or temperature forbid it (R615) the pattern is disarmed. -/
def State.patternStart (s : State) (p : Nat) (ecc : Ecc) : State :=
  let q := s.part p
  match q.pattern with
  | none => s
  | some pat =>
    if q.patState ≠ .armed ∨ q.armed ≠ some s.tb.count.toNat then s
    else if !s.mayStart ∨ q.state = .zeroing ∨ q.state = .absent then
      s.updPart p fun q => { q with
        armed := none, patState := .loaded, sched := q.sched.cleared,
        regs := { q.regs with startStatus := stCONFIG } }
    else
      let s := s.stopPart p stDONE true
      let s := (s.startPart p).updPart p fun q => { q with
        patState := .running, armed := none, normRecord := none, excluded := 0,
        sched := { Sched.reset with manifests := q.sched.manifests, nextStep := q.sched.nextStep,
                                    holds := q.sched.holds, governed := q.sched.governed,
                                    slipTotal := q.sched.slipTotal } }
      ((s.startFetchers p pat).patternStitch p pat ecc).sendPart p

/-- PATTERN_START. -/
def execPatternStart (part : Fin 16) (s : State) (ecc : Ecc := .clean) : Host.Outcome State Fault Refusal :=
  .next (s.patternStart part ecc)

/-! ### Power at the boundary (R611, R612) -/

/-- The boundary's part in R611 and R612: the start value of the stitch, and ballast for what the estimate has
fallen below its value at the last start, the ballast then kept included, by more than 150 W. -/
def State.powerStitch (s : State) : State :=
  let rise := riseOf s.engineMw s.scale24 s.power.stitchStartMw s.power.stitchStartScale
  let was := ((s.power.ballastMw + s.power.ballastTaken) * 2 ^ 24 : Nat)
  let b := ceilDiv (was - rise - 150000 * 2 ^ 24).toNat (2 ^ 24)
  { s with power := { s.power with
      stitchStartMw := s.engineMw, stitchStartScale := s.scale24, ballastMw := b, ballastTaken := 0,
      ballastStitches := if b = 0 then s.power.ballastStitches else s.power.ballastStitches + 1 } }

/-! ### Idle waiting (R164, R165) -/

/-- Whether a queue is empty, stopped, or blocked on a wait that is not external. -/
def Core.idleQueue (k : Core) : Bool :=
  (k.queue.isEmpty && k.head.isNone) || k.qstate == .stopped
    || (k.blocked && !(k.head.any fun h => h.entry.waitExternal))

/-- Whether partition p is idle-waiting, but for tallies that changed. -/
def State.idleWaiting (s : State) (p : Nat) : Bool :=
  let cs := (s.coresOf p).map s.core
  cs.all (fun k => k.tensor.isNone && k.vector.isNone && k.row.isNone && k.mover.isNone && k.idleQueue)
    && cs.any (fun k => k.qstate == .running && k.blocked && !(k.head.any fun h => h.entry.waitExternal))
    && !(s.coll.runs.any (·.part == p)) && (s.part p).sched.occs.isEmpty
    && !(s.fabric.waiting.any (·.part == p))
    && !(s.fabric.skeins.any fun k => k.part == p && (!k.live.isEmpty || !k.isOpen))
    && !(s.fabric.transit.any fun x => x.2.owner == some p
      || (x.1.isSome && s.isHere x.2.dest.toNat && x.2.part.toNat == p))
    && !(s.fabric.held.any fun x => x.owner == some p) && !(s.fabric.contexts.any (·.part == p))

/-- The stitch's examination of every running partition (R164): it has waited idly throughout when it did so at the
end of the stitch and at its start, and no tally changed and no core took up a command in between. -/
def State.countIdle (s : State) : State :=
  (List.range 16).foldl (fun s p =>
    if (s.part p).active then
      let now := s.idleWaiting p
      let idle := now && !(s.part p).changed && !((s.coresOf p).any fun c => (s.core c).worked)
      let s := (s.coresOf p).foldl (fun s c => if (s.core c).worked then
        s.updCore c fun k => { k with worked := false } else s) s
      s.updPart p fun q => { q with idleTicks := if idle then q.idleTicks + 1 else 0, changed := !now }
    else s) s

/-- WAIT_CYCLE: 64 idle-waiting stitches in a row. Every blocked queue records it, and the partition stops. -/
def execWaitCycle (part : Fin 16) (s : State) : Host.Outcome State Fault Refusal :=
  let p := part.val
  .next <|
    if (s.part p).active ∧ 64 ≤ (s.part p).idleTicks then
      let t := (s.coresOf p).foldl (fun s c => match (s.core c).head with
        | some h => if (s.core c).blocked && (s.core c).qstate == .running then
            s.complete p c h.entry stWAIT_CYCLE 0 false else s
        | none => s) s
      t.stopPart p stWAIT_CYCLE false
    else s

/-! ### STITCH_BOUNDARY (R356, R359) -/

/-- A partition's stitch begins: its pattern goes on. -/
def State.partStitch (s : State) (p : Nat) (ecc : Ecc) : State :=
  let q := s.part p
  match q.pattern with
  | some pat => if q.patState = .running ∧ q.active then s.patternStitch p pat ecc else s
  | none => s

/-- The examination of partition p, armed or running, and the holds it asks for (R384). -/
def State.examinePart (s : State) (p : Nat) : State × List HoldMark :=
  let q := s.part p
  match q.pattern with
  | none => (s, [])
  | some pat =>
    if q.patState = .running ∧ q.active then
      let r := s.examine p pat none
      (r.1, r.1.holdMarks p r.2)
    else if q.patState = .armed then
      let r := s.examine p pat q.armed
      (r.1, r.1.holdMarks p r.2)
    else (s, [])

/-- The examination of every partition; the holds of each. -/
def State.examineAll (s : State) : State × List (Nat × HoldMark) :=
  (List.range 16).foldl (fun (a : State × List (Nat × HoldMark)) p =>
    let r := a.1.examinePart p
    (r.1, a.2 ++ r.2.map fun h => (p, h))) (s, [])

/-- Markers leave every port in service, with the holds of the slices that its link joins. -/
def State.sendMarkers (s : State) (hs : List (Nat × HoldMark)) : State :=
  s.sendAll (s.markerPorts.flatMap fun k =>
    let ps := s.joinedParts k
    s.markersTo k ((hs.filter fun h => ps.contains h.1).map (·.2)))

/-- Whether stitch boundaries come: the module has power and is out of reset. -/
def State.clocked (s : State) : Bool := s.power.boot != .off && s.power.boot != .waitReset

/-- The stitches that 2^30 codewords of 25 ns last: 35 link cycles each, seventeen stitches being 28,672 (R356,
R468). -/
def codewordStitches : Nat := 2 ^ 30 * 35 * 17 / 28672

/-- Corrected symbols of the stitch that ends, found on a physical strand of a port that is lit (R470): counted, and the
strand marked once those of the last 2^30 codewords exceed wear_strand_limit (R487; the 2^30 are the latest ones, in
whole stitches: DESIGN CHOICE, log entry 134). -/
def State.correctSymbols (s : State) (k strand n : Nat) : State :=
  let l := s.link k
  let w := strandsOf k
  let now := s.power.ticks
  if 6 ≤ k ∨ w + w / 8 ≤ strand ∨ l.state.toNat < 2 ∨ 7 < l.state.toNat then s
  else
    let es := (l.strandErrors.filter fun e => decide (now < e.1 + codewordStitches)) ++ [(now, strand, n)]
    let sum := ((es.filter fun e => e.2.1 == strand).map fun e => e.2.2).sum
    s.updLink k fun l => { l with
      corrected := Sparse.set 0 l.corrected strand (Sparse.get 0 l.corrected strand + BitVec.ofNat 64 n),
      strandErrors := es,
      marked := if s.links.wearStrand.toNat < sum then insertNat l.marked strand else l.marked }

/-- The corrected symbols of a stitch: port, physical strand and count. -/
def State.countSymbols (s : State) (xs : List (Nat × Nat × Nat)) : State :=
  xs.foldl (fun s x => s.correctSymbols x.1 x.2.1 x.2.2) s

/-- STITCH_BOUNDARY: the patterns go on, then the markers leave, ahead of any scheduled flit of the stitch (R359).
symbols are the symbols corrected in the stitch that ends. -/
def execStitchBoundary (s : State) (ecc : Ecc := .clean) (symbols : List (Nat × Nat × Nat) := []) :
    Host.Outcome State Fault Refusal :=
  .next <|
    if !s.clocked then s
    else
      let s := s.countSymbols symbols
      let s := { s with
        tb := { s.tb with count := s.tb.count + 1, missed := s.tb.missed + 1,
                          good := if s.tb.missed = 0 then s.tb.good else 0 },
        power := { s.power with ticks := s.power.ticks + 1 } }
      let s := (List.range 16).foldl (fun s p => s.partStitch p ecc) s.fabricStitch.powerStitch.countIdle
      let r := s.examineAll
      (List.range 16).foldl State.sendPart (r.1.sendMarkers r.2)

/-! ### STITCH_MARKER -/

/-- The pattern stitch of a partition at a stitch count: from the history, or the one that comes next. -/
def State.pstitchAt (s : State) (p n : Nat) : Option Nat :=
  let d := (s.part p).sched
  if n = s.tb.count.toNat + 1 then some (if d.isSlip n then d.pstitch else d.next)
  else (d.past.find? (·.1 == n)).map (·.2)

/-- The comparison of a marker with the own pattern stitch at the sender's stitch count (R381, R450); for a count at
which this member ran no pattern stitch there is nothing to compare (DEDUCED, log entry 49). -/
def State.compareMark (s : State) (m : Marker) (p : Nat) : State :=
  let q := s.part p
  if q.patState ≠ .running ∨ !q.active then s
  else match m.slices.find? (·.tag == q.place.live.tag) with
    | none => if q.state = .running then s.outOfStep p else s
    | some e =>
      if (s.pstitchAt p m.count.toNat).any fun own => e.state == 1 || e.pstitch.toNat != own then s.outOfStep p else s

/-- The cause a received hold is known by. A marker of link minor 1 names none, and a record has to name one of
three (R404): it is SCHEDULE_SLIP (DESIGN CHOICE, log entry 129). -/
def State.holdCause (s : State) (port : Nat) (h : HoldMark) : Half :=
  if fld (s.link port).version 0 16 ≠ 1 ∧ (h.cause = stBACKPRESSURE ∨ h.cause = stSLEW) then h.cause else stSLIP

/-- A received hold (R387, R389): kept and sent on, known already, or too late. -/
def State.receiveHold (s : State) (port : Nat) (h : HoldMark) (p : Nat) : State :=
  let q := s.part p
  if !q.patterned ∨ q.place.live.tag ≠ h.tag ∨ q.sched.isSlip h.target.toNat then s
  else if h.target.toNat ≤ s.tb.count.toNat then
    { s with tb := { s.tb with holdsLate := s.tb.holdsLate + 1 } }.outOfStep p
  else
    let x : HoldAt := { target := h.target.toNat, cause := s.holdCause port h, isLocal := false,
                        resv := 0, core := 0xFFFF }
    let s := s.updPart p fun q => { q with sched := q.sched.addHold x }
    s.sendAll ((s.markerPorts.filter fun k => k != port && (s.joinedParts k).contains p).flatMap fun k =>
      s.markersTo k (s.holdMarks p [x]))

/-- A signed number of link cycles in picoseconds: a link cycle is 5000/7 ps. -/
def cyclesPs (c : Int) : BitVec 32 := BitVec.ofNat 32 (unsigned 32 (c * 5000 / 7))

/-- Whether any partition has a pattern armed or running. -/
def State.anyPatterned (s : State) : Bool := (List.range 16).any fun p => (s.part p).patterned

/-- A timebase fault (R365). -/
def State.timebaseFault (s : State) : State :=
  { s with tb := { s.tb with faults := s.tb.faults + 1, state := .acquiring, good := 0 } }.fault stOUT_OF_STEP 6 0 0
    ((List.range 16).filter fun p => (s.part p).patterned) 0 0

/-- The parent's marker (R360, R361, R365). Good stitches are counted once each, however many markers come in one. -/
def State.followParent (s : State) (m : Marker) (off : Int) : State :=
  let near := decide (off.natAbs ≤ 2)
  let first := s.tb.missed != 0
  let s := { s with tb := { s.tb with missed := 0, offsetPs := cyclesPs off } }
  match s.tb.state with
  | .master => s
  | .free => if s.anyPatterned then s
             else { s with tb := { s.tb with state := .acquiring, count := m.count, good := if near then 1 else 0 } }
  | .acquiring =>
    let g := if !near then 0 else if first then s.tb.good + 1 else s.tb.good
    { s with tb := { s.tb with good := g, count := if s.anyPatterned then s.tb.count else m.count } }
  | .locked => if 28 < off.natAbs then s.timebaseFault else s
  | .holdover =>
    let s := { s with tb := { s.tb with state := .locked } }
    if 28 < off.natAbs then s.timebaseFault else s

/-- The slices that the far end of a port last said it has armed, running or draining (R478, R480). -/
def State.keepMark (s : State) (port : Nat) (m : Marker) : State :=
  s.updLink port fun l => { l with farSlices := m.slices.map (·.tag) }

/-- STITCH_MARKER: one that fails its check is a port fault, which takes the port out of service (R480, R492); slices
are compared and holds taken over, then the parent's marker steers the timebase: faults of one marker are handled
in ascending class (R482). -/
def execStitchMarker (port : Fin 6) (m : Marker) (offsetCycles : Int) (s : State) :
    Host.Outcome State Fault Refusal :=
  guarded (decide (m.slices.length ≤ 16) && decide (m.holds.length ≤ 32)) <|
    if (s.link port).state ≠ 5 then s
    else if m.crc ≠ m.sum then s.losePort port 0
    else
      let ps := s.joinedParts port
      let s := s.keepMark port m
      let s := ps.foldl (fun s p => s.compareMark m p) s
      let s := m.holds.foldl (fun s h => ps.foldl (fun s p => s.receiveHold port h p) s) s
      if s.tb.role = 0 ∧ s.tb.parent.toNat = port.val then s.followParent m offsetCycles else s

/-- TIMEBASE_LOCK: 64 consecutive stitches within 2 link cycles of the parent (R361). -/
def execTimebaseLock (s : State) : Host.Outcome State Fault Refusal :=
  .next (if s.tb.state = .acquiring ∧ 64 ≤ s.tb.good then { s with tb := { s.tb with state := .locked } } else s)

/-- HOLDOVER: the parent's markers have stopped for 16 stitches (R361). -/
def execHoldover (s : State) : Host.Outcome State Fault Refusal :=
  .next (if s.tb.state = .locked ∧ 16 ≤ s.tb.missed then { s with tb := { s.tb with state := .holdover } } else s)

end Sys2Proof.Machine
end

