-- ==== Sys2Proof/Machine/Complete.lean ====
section
/-! DEFINITION. Machine/Complete.lean: COMMAND_COMPLETE (R135 to R138): the place where a command runs has
finished. -/

namespace Sys2Proof.Machine

/-- The command of an engine of core c completes. -/
def State.engineComplete (s : State) (c : Nat) (e : Engine) (landing : Half) : State :=
  match s.partOf c with
  | none => s
  | some p => match e with
    | .tensor => s.finishTensor p c
    | .vector => s.finishVector p c
    | .row => s.finishRow p c
    | .mover => s.finishMover p c landing
    | .hubColl resv => s.finishColl c resv.toNat

/-- COMMAND_COMPLETE. landing is what the other module's check finds where a scheduled MOVE lands. -/
def execCommandComplete (core : Fin 512) (engine : Engine) (s : State) (landing : Half := 0) :
    Host.Outcome State Fault Refusal :=
  .next (s.engineComplete core engine landing)

end Sys2Proof.Machine
end

