-- ==== Sys2Proof/Machine/Links.lean ====
section
/-! DEFINITION. Machine/Links.lean: the route commit (R300, R308), link bring-up and its frames (R470 to R478),
port faults, loss of lock and parity (R29, R194, R481), the wear programme (R21, R103, R104, R112, R487 to R490)
and the test port (R493). -/

namespace Sys2Proof.Machine

/-! ### Port states and capacity (R456, R472, R478) -/

/-- Whether this end lets a port retrain (R478): no patterned slice joins it, its engine is cool, the module
is not dark, the crossings of its link group are open (R29). -/
def State.retrainOk (s : State) (k : Nat) : Bool :=
  (s.portParts k).isEmpty && !(s.link k).hot && !s.links.dark && s.portEnabled k && s.crosses (28 + k)

/-! ### Frames sent (R473) -/

/-- The link protocol this module offers (R474). -/
def Stepping.protocol : Stepping → Nat
  | .b1 => 0x00030002
  | .b0 => 0x00030001

/-- The stepping as a byte. -/
def Stepping.code : Stepping → Nat
  | .b1 => 0xB1
  | .b0 => 0xB0

/-- The identity frame of a port. -/
def State.identityFrame (s : State) (k : Nat) : List Byte :=
  let l := s.link k
  [0x01, BitVec.ofNat 8 k, 0, 0] ++ leBytes 4 s.hw.stepping.protocol ++ leBytes 4 0x00010002 ++ leBytes 2 s.myId
    ++ leBytes 1 s.hw.grade.shelves ++ leBytes 1 s.hw.stepping.code ++ leBytes 8 Config.serial.toNat
    ++ leBytes 8 l.neighbourSerial.toNat ++ [l.neighbourPort, 0, 0, 0] ++ leBytes 4 s.fw.runVersion.toNat
    ++ List.replicate 24 0

/-- An identity frame leaves a port. -/
def State.sendIdentity (s : State) (k : Nat) : State := s.sendMaint k (s.identityFrame k)

/-- IDENTITY_SEND: in stages 3 and 4, while held, and every second in service (R472, R476, R478). In stage 4 the far
end is asked again for as long as it has answered no echo request (R477; how often is DESIGN CHOICE, log entry
117). -/
def execIdentitySend (port : Fin 6) (s : State) : Host.Outcome State Fault Refusal :=
  let st := (s.link port).state.toNat
  .next (if st = 4 ∧ (s.link port).echoes = [] then (s.sendIdentity port).sendEcho port false 0 0
    else if 3 ≤ st ∧ st ≤ 7 then s.sendIdentity port else s)

/-! ### Bring-up (R472) -/

/-- Whether a Yepecy port may come up: from the end of step 4 or in recovery, its engine cool (R580, R616,
R620). -/
def State.hostMayRise (s : State) (k : Nat) : Bool :=
  (s.power.boot == .railsUp || s.power.boot == .hbmTrained || s.power.boot == .ready || s.power.boot == .recovery)
    && !(s.hport k).hot && s.yepecyOpen

/-- Stage 1 of a Yepecy port passes: a dark port begins training (R498). -/
def State.hostLight (s : State) (k : Nat) : State :=
  if (s.hport k).state = 0 ∧ s.hostMayRise k then s.updHport k fun h => { h with state := 1 } else s

/-- Stage 2 of a Yepecy port passes: it has no spare, so a strand that fails returns it to stage 1 (R472, R497,
R498). -/
def State.hostTrained (s : State) (k : Nat) (failed : List Nat) : State :=
  if (s.hport k).state = 1 then s.updHport k fun h => { h with state := if failed.isEmpty then 2 else 0, hellos := 0 }
  else s

/-- PORT_LIGHT: light on every position; a dark port begins training. farIdle: the far end has no patterned slice
that joins this module (R478), of which this end is told by nothing but the markers of a port in service. host: a
Yepecy port instead, to which no slice binds either end. -/
def execPortLight (port : Fin 6) (s : State) (farIdle : Bool := true) (host : Option (Fin 2) := none) :
    Host.Outcome State Fault Refusal :=
  let st := (s.link port).state.toNat
  .next <| match host with
    | some k => s.hostLight k
    | none => if (st = 1 ∨ st = 8) ∧ s.retrainOk port ∧ farIdle then s.setPort port 2 else s

/-- Spare strands brought in for the positions whose strand failed or was marked (R471, R487); none where too
few are left. -/
def Link.bringSpares (l : Link) (port : Nat) (failed : List Nat) : Option Link :=
  let w := strandsOf port
  let bad := (l.marked ++ failed).foldl insertNat []
  let pool := ((List.range (w + w / 8)).filter fun x => decide (w ≤ x) && !bad.contains x && !l.strandMap.contains x)
  let r := (List.range w).foldl (fun (a : Option (List Nat × List Nat × Nat)) i => match a with
    | none => none
    | some (map, pool, used) =>
      if bad.contains (map.getD i i) then match pool with
        | x :: rest => some (map.set i x, rest, used + 1)
        | [] => none
      else some (map, pool, used)) (some (l.strandMap, pool, 0))
  r.map fun x => { l with strandMap := x.1, spares := l.spares - x.2.2, marked := bad }

/-- The physical strand for which a port finds no spare: as it takes spares in the order of the positions, that of the
first position left without one (R487, R491; the order is DESIGN CHOICE, log entry 136). -/
def Link.unspared (l : Link) (port : Nat) (failed : List Nat) : Nat :=
  let w := strandsOf port
  let bad := (l.marked ++ failed).foldl insertNat []
  let free := ((List.range (w + w / 8)).filter fun x => decide (w ≤ x) && !bad.contains x && !l.strandMap.contains x)
  (((List.range w).filter fun i => bad.contains (l.strandMap.getD i i)).map fun i => l.strandMap.getD i i).getD
    free.length 0

/-- TRAINING: framing and deskew are done; failed and marked strands are replaced, or the port is out of
spares (R487). host: a Yepecy port instead. -/
def execTraining (port : Fin 6) (failed : List Nat) (s : State) (host : Option (Fin 2) := none) :
    Host.Outcome State Fault Refusal :=
  .next <| match host with
    | some k => s.hostTrained k failed
    | none =>
      if (s.link port).state ≠ 2 then s
      else match (s.link port).bringSpares port failed with
        | none =>
          ((s.updLink port fun l => { l with marked := failed.foldl insertNat l.marked }).setPort port 9).recordFault
            stSPARES 3 4 port [] ((s.link port).unspared port failed) 0
        | some l => ((s.updLink port fun _ => { l with frames := 0, good := 0, echoes := [] }).setPort port
            3).sendIdentity port

/-- STAGE_TIMEOUT: a stage fails its limit; codewords lost in it are counted. That of stage 4 runs from the first
echo reply. -/
def execStageTimeout (port : Fin 6) (lost : Nat) (s : State) : Host.Outcome State Fault Refusal :=
  let st := (s.link port).state.toNat
  .next (if 2 ≤ st ∧ st ≤ 4 ∧ (st = 4 → (s.link port).echoes ≠ []) then
      (s.updLink port fun l => { l with
        uncorrectable := if lost = 0 then l.uncorrectable else l.uncorrectable + 1 }).setPort port 1
    else s)

/-! ### Identity (R474 to R478) -/

/-- What an identity frame is found to be. -/
inductive Verdict where
  | pass
  | miswired
  | version
  deriving DecidableEq, Repr

/-- The checks of R474 and R475 on a frame. -/
def State.judgeFrame (s : State) (k : Nat) (f : List Byte) : Verdict :=
  let l := s.link k
  let late := decide (2 ≤ l.frames)
  if leAt f 6 2 ≠ 3 then .version
  else if leAt f 12 2 % 2 ^ 13 ≠ s.neighbourOf k ∨ leAt f 1 1 ≠ (if k % 2 = 0 then k + 1 else k - 1)
      ∨ (l.expected ≠ 0 ∧ leAt f 16 8 ≠ l.expected.toNat)
      ∨ (late && (leAt f 24 8 != Config.serial.toNat || leAt f 32 1 != k)) then .miswired
  else .pass

/-- A port held by a frame that fails (R474, R475, R476): one record for each entry into a hold. -/
def State.holdPort (s : State) (k : Nat) (v : Verdict) (f : List Byte) : State :=
  let st := if v = .version then 7 else 6
  let s := s.updLink k fun l => { l with good := 0 }
  if (s.link k).state.toNat = st then s
  else (s.setPort k (BitVec.ofNat 8 st)).recordFault (if v = .version then stLINK_VERSION else stMISWIRED) 3 4 k [] 0
    (if v = .version then leAt f 4 4 else leAt f 12 2 % 2 ^ 13)

/-- An identity frame received on a port. -/
def State.onIdentity (s : State) (k : Nat) (f : List Byte) : State :=
  let st := (s.link k).state.toNat
  if st < 3 ∨ 7 < st then s
  else
    let v := s.judgeFrame k f
    let minor := min (leAt f 4 2) (s.hw.stepping.protocol % 2 ^ 16)
    let s := s.updLink k fun l => { l with
      neighbourId := BitVec.ofNat 16 (leAt f 12 2 % 2 ^ 13), neighbourPort := BitVec.ofNat 8 (leAt f 1 1),
      neighbourSerial := BitVec.ofNat 64 (leAt f 16 8), frames := l.frames + 1,
      version := if leAt f 6 2 = 3 ∧ (l.frames = 0 ∨ l.version = 0) then BitVec.ofNat 32 (3 <<< 16 ||| minor)
                 else l.version }
    if v = .pass then
      if st = 4 ∨ st = 5 then s
      else
        let s := s.updLink k fun l => { l with good := l.good + 1 }
        if (s.link k).good < 3 then s
        else ((s.updLink k fun l => { l with echoes := [] }).setPort k 4).sendEcho k false 0 0
    else if st = 5 then s.losePort k 0
    else s.holdPort k v f

/-- Whether packets come in on a port: from stage 3 on (R472). -/
def Link.listens (l : Link) : Bool := decide (3 ≤ l.state.toNat) && decide (l.state.toNat ≤ 7)

/-- A frame of the Momond controller comes in one packet from the neighbour (R473): counted, delivered, sampled. -/
def State.countFrame (s : State) (k : Nat) (f : List Byte) : State :=
  let src := if leAt f 0 1 = 1 then leAt f 12 2 else (s.link k).neighbourId.toNat
  let p := maintPacket s.myId src f
  if !(s.link k).listens then s
  else
    ((s.countRx k p.flits 3 0).updFabric fun x => { x with delivered := x.delivered + 1 }).sample 6 3 (some 0) p.bytes

/-- IDENTITY. -/
def execIdentity (port : Fin 6) (frame : List Byte) (s : State) : Host.Outcome State Fault Refusal :=
  guarded (frame.length == 64) ((s.countFrame port frame).onIdentity port frame)

/-! ### Latency (R477) -/

/-- Whether a port answers echo requests. -/
def Link.answers (l : Link) : Bool := l.state == 4 || l.state == 5

/-- An echo request is answered with the link cycle of its arrival and the one, not before it, at which the reply
leaves: the turnaround is a free value. -/
def State.answerEcho (s : State) (k : Nat) (arrival : Long) : State :=
  let r := s.freeWord
  if (s.link k).answers then r.1.sendEcho k true arrival (arrival + BitVec.ofNat 64 r.2) else s

/-- ECHO_REQUEST: answered in stages 4 and 5. -/
def execEchoRequest (port : Fin 6) (arrival : Long) (s : State) : Host.Outcome State Fault Refusal :=
  .next ((s.countFrame port (echoPayload false 0 0)).answerEcho port arrival)

/-- A list of numbers in rising order, repeats kept. -/
def sortNat (l : List Nat) : List Nat :=
  l.foldl (fun acc x => (acc.takeWhile (· ≤ x)) ++ x :: acc.dropWhile (· ≤ x)) []

/-- link_latency (R477): half the median of the exchanges; the median of sixteen lies between the middle two. -/
def latencyOf (trips : List Nat) : Nat :=
  let t := sortNat trips
  (t.getD 7 0 + t.getD 8 0) / 4

/-- One echo exchange measured: round trip less turnaround; the sixteenth puts the port into service, all credits
unused. -/
def State.onEcho (s : State) (k trip : Nat) : State :=
  if (s.link k).state ≠ 4 then s
  else
    let s := s.updLink k fun l => { l with echoes := l.echoes ++ [trip] }
    let es := (s.link k).echoes
    if es.length < 16 then s.sendEcho k false 0 0
    else ({ s with tb := { s.tb with latency := s.tb.latency.set k (BitVec.ofNat 32 (latencyOf es)) } }.setUsed k
      fun _ _ => 0).setPort k 5

/-- ECHO_REPLY. -/
def execEchoReply (port : Fin 6) (roundTrip : Nat) (turnaround : Nat) (s : State) : Host.Outcome State Fault Refusal :=
  .next ((s.countFrame port (echoPayload true 0 (BitVec.ofNat 64 turnaround))).onEcho port (roundTrip - turnaround))

/-! ### Port faults and retraining (R470, R481, R487, R490) -/

/-- CODEWORD_UNCORRECTABLE: counted; a port in service is lost. -/
def execCodewordUncorrectable (port : Fin 6) (strand : Byte) (s : State) : Host.Outcome State Fault Refusal :=
  let t := s.updLink port fun l => { l with uncorrectable := l.uncorrectable + 1 }
  .next (if (s.link port).state = 5 then t.losePort port strand.toNat else t)

/-- LIGHT_LOSS: the strand is marked (R487); a port in service is lost, one in bring-up starts again. -/
def execLightLoss (port : Fin 6) (strand : Byte) (s : State) : Host.Outcome State Fault Refusal :=
  let st := (s.link port).state.toNat
  let t := s.updLink port fun l => { l with marked := insertNat l.marked strand.toNat }
  .next (if st = 5 then t.losePort port strand.toNat
    else if 2 ≤ st ∧ st ≤ 7 then t.setPort port 1 else t)

/-- A write of 1 to retrain_p (R490): refused with reason 5 while R478 forbids it, for a slice of this end or, of a
port in service, for one that the far end's last marker names. -/
def State.retrain (s : State) (k : Nat) : State × Answer :=
  let l := s.link k
  if !(s.portParts k).isEmpty || (l.state == 5 && !l.farSlices.isEmpty) then (s, (stCONFIG, 5))
  else if (s.link k).state = 0 then (s, (stDONE, 0))
  else (s.setPort k 1, (stDONE, 0))

/-- RETRAIN. -/
def execRetrain (port : Fin 6) (s : State) : Host.Outcome State Fault Refusal := .next (s.retrain port).1

/-! ### The route group (R300, R308) -/

/-- Whether the shadow of the route group meets R308. -/
def RouteGroup.ok (g : RouteGroup) : Bool :=
  let id := g.moduleId.toNat
  let on := fun k => g.portEnable.toNat.testBit k
  decide (1 ≤ g.sizeX.toNat) && decide (g.sizeX.toNat ≤ 16) && decide (1 ≤ g.sizeY.toNat)
    && decide (g.sizeY.toNat ≤ 16) && decide (1 ≤ g.sizeZ.toNat) && decide (g.sizeZ.toNat ≤ 32)
    && decide (id < 2 ^ 13) && (List.range 3).all (fun a => decide (coordOf id a < g.size a))
    && decide (g.seamX.toNat < g.sizeX.toNat) && decide (g.seamY.toNat < g.sizeY.toNat)
    && decide (g.seamZ.toNat < g.sizeZ.toNat) && decide (g.axisMode.toNat < 8) && decide (g.portEnable.toNat < 64)
    && (List.range 3).all fun a => g.size a != 1 || (!on (2 * a) && !on (2 * a + 1))

/-- The live route group changes: ports that are enabled start up, ports disabled stop, what follows from sizes and
modes is formed anew (R446), minima are judged anew where the capacity changed (R455, R456), and a transfer that
waits for a module outside the new sizes is not sent (R281). -/
def State.applyRoute (s : State) : State :=
  let old := s.fabric.route.live.portEnable.toNat
  let capacity := s.injectCapacity
  let g := s.fabric.route.sh
  let s := s.updFabric fun f => { f with route := ⟨g, g⟩, commitStatus := stDONE }
  let s := (List.range 6).foldl (fun s k =>
    let on := g.portEnable.toNat.testBit k
    if on = old.testBit k then s else s.updLink k fun l => { l with state := if on then 1 else 0 }) s
  let s := (List.range 16).foldl State.refreshModes s
  let s := if s.injectCapacity = capacity then s else s.refreshInject
  s.dropWaiting (fun w => !s.routableTo w.xfer.dest) stCONFIG

/-- route_commit. -/
def State.commitRoute (s : State) : State × Answer :=
  s.afterReady fun s =>
    if s.routeDrained && s.fabric.route.sh.ok then (s.applyRoute, (stDONE, 0))
    else (s.updFabric fun f => { f with commitStatus := stCONFIG }, (stCONFIG, 7))

/-- ROUTE_COMMIT. -/
def execRouteCommit (s : State) : Host.Outcome State Fault Refusal := .next s.commitRoute.1

/-! ### Module faults, loss of lock, parity (R29, R481) -/

/-- Every partition. -/
def allParts : List Nat := List.range 16

/-- A module fault (class 8): every partition stops, every fabric port goes dark until reset. -/
def State.moduleFault (s : State) (st : Half) (kind unit : Nat) : State :=
  let s := s.fault st 8 kind unit allParts 0 0
  let s := { s with links := { s.links with dark := true } }
  (List.range 6).foldl (fun s k => if (s.link k).state = 0 then s else (s.setPort k 1).dropQueued k) s

/-- The partitions with a shelf on a compute die. -/
def State.partsOnDie (s : State) (d : Nat) : List Nat :=
  let n := s.hw.grade.perDie
  (List.range 16).filter fun p => (List.range n).any fun i => s.hasShelf p (d * n + i)

/-- A host port that has left service: it holds no line, no request and no response of the mailbox (R528, R559). -/
def HostPort.down (h : HostPort) : HostPort :=
  { h with
    state := 0, hellos := 0, directory := [], recalled := [], owed := [], overlay := [], waiting := [], requests := [],
    mbox := { h.mbox with response := [], busy := false, ready := false, refused := false } }

/-- Whether a request came through the mailbox of port k. -/
def WaitAnswer.from? (w : WaitAnswer) (k : Nat) : Bool :=
  match w.path with
  | .mailbox j => j.val == k
  | .net _ => false

/-- A host port leaves service, and with it the answers that its mailbox waits for (R528, R559). -/
def State.hostDown (s : State) (k : Nat) : State :=
  (s.updMgmt fun m => { m with waiting := m.waiting.filter fun w => !w.from? k }).updHport k HostPort.down

/-- A host link fault: the partitions bound to the port stop, the lines of its host are dropped, requests and
the mailbox's response are forgotten (R559), and the port starts again from stage 1. -/
def State.hostFault (s : State) (k : Nat) : State :=
  let s := s.fault stHOST_LOST 11 8 k ((List.range 16).filter fun p => s.boundTo p k) 0 0
  ((s.hostDown k).settleApertures).resumeReads

/-- The host ports in service. -/
def State.hostPorts (s : State) : List Nat := [0, 1].filter fun k => (s.hport k).state == 3

/-- A module fault whose domain the host ports cross: the ports in service leave it, each with its port-class record
and its host link fault (R528), the records in ascending class (R482). -/
def State.closeYepecy (s : State) (unit : Nat) : State :=
  let ks := s.hostPorts
  let s := ks.foldl (fun s k => s.recordFault stPORT_LOST 3 8 k [] 0 0) s
  let s := ks.foldl State.hostFault (s.moduleFault stUNIT_FAULT 7 unit)
  [0, 1].foldl State.hostDown s

/-- DOMAIN_LOCK_LOSS: the lock bit clears, which closes the domain's crossings, and the fault of the domain's
class follows (R25, R29, R481). -/
def execDomainLockLoss (domain : Fin 40) (s : State) : Host.Outcome State Fault Refusal :=
  let d := domain.val
  .next <|
    if !s.locked.toNat.testBit d then s
    else
      let s := { s with locked := s.locked &&& ~~~((1 : BitVec 40) <<< d) }
      if d < 16 then s.fault stUNIT_FAULT 7 7 d (s.partsOnDie (d % 8)) 0 0
      else if 28 ≤ d ∧ d < 34 then s.losePort (d - 28) 0
      else if d = 39 then
        let s := s.recordFault stDONE 9 7 d [] 0 0
        { s with links := { s.links with mgmtLost := true } }
      else if s.yepecyOpen then s.moduleFault stUNIT_FAULT 7 d
      else s.closeYepecy d

/-- A core fault names a core: at wear_core_limit faults it is marked (R487). -/
def State.coreFault (s : State) (c : Nat) : State :=
  let n := s.links.wearCore.toNat
  s.updCore c fun k => { k with coreFaults := k.coreFaults + 1, marked := k.marked || decide (n ≤ k.coreFaults + 1) }

/-- The command running in an engine of a core, with its flags. -/
def Core.running (k : Core) (e : Engine) : Option (Checked × Half) :=
  match e with
  | .tensor => k.tensor.map fun r => (r.chk, r.flags)
  | .vector => k.vector.map fun r => (r.chk, r.flags)
  | .row => k.row.map fun r => (r.chk, r.flags)
  | .mover => k.mover.map fun m => (m.chk, m.flags)
  | .hubColl _ => none

/-- The command whose read of a bank of core c finds an error (R194): the array's own, or that of another engine
with an operand in the core's accumulators. -/
def State.bankReader (s : State) (c reader : Nat) (e : Engine) : Option (Checked × Half) :=
  match (s.core reader).running e with
  | some k => if (e == .tensor && reader == c) || meetAny k.1.localExtents [(bankAddr c 0 0 0, 0x10000)] then some k
              else none
  | none => none

/-- The partition whose collective a reduction unit serves: that of a run under way on its pair. -/
def State.partsOnUnit (s : State) (u : Nat) : List Nat :=
  ((s.coll.runs.filter fun r => r.begun
    && (r.chk.entry.unit == u || r.chk.entry.unit + [16, 8, 4].getD r.chk.entry.axis 0 == u)).map (·.part)).foldl
      insertNat []

/-- PARITY_ERROR. -/
def execParityError (unit : ParityUnit) (s : State) : Host.Outcome State Fault Refusal :=
  .next <| match unit with
  | .accumulator c reader e => match s.partOf reader, s.bankReader c reader e with
    | some p, some x => ((s.coreFault c).complete p reader x.1.entry stECC x.2 false).fault stECC 7 1 c
        (s.partOf c).toList 0 0
    | _, _ => (s.coreFault c).fault stECC 7 1 c (s.partOf c).toList 0 0
  | .core c => (s.coreFault c).fault stUNIT_FAULT 7 1 c (s.partOf c).toList 0 0
  | .reduction u =>
    { s with coll := { s.coll with markedUnits := insertNat s.coll.markedUnits u } }.fault stUNIT_FAULT 4 5 u
      (s.partsOnUnit u) 0 0
  | .hub h => s.moduleFault stUNIT_FAULT 6 h

/-! ### The wear programme (R21, R103, R104, R112, R487 to R489) -/

/-- Whether no partition that contains a shelf runs. -/
def State.shelfIdle (s : State) (shelf : Nat) : Bool :=
  match s.partOfShelf shelf with
  | some p => !(s.part p).active
  | none => true

/-- CELLAR_SCRUB: one line read and rewritten: a corrected word is counted, an uncorrectable line poisoned, with
a memory fault that stops nothing (R101 to R103, R481). -/
def execCellarScrub (line : BitVec 26) (found : Scrub) (s : State) : Host.Outcome State Fault Refusal :=
  let a := cellarBase + 256 * line.toNat
  .next <|
    if s.coreCount ≤ cellarCore a then s
    else match found with
    | .clean => s
    | .corrected => s.cellarCorrect a
    | .uncorrectable => (s.cellarFail a).recordFault stECC 1 1 (cellarCore a) [] a 0

/-- CELLAR_LINE_SPARE: a marked line of a stopped shelf is replaced by a spare of its bank; a poisoned line's
spare starts poisoned (R104). With no spare left the line stays in service. -/
def execCellarLineSpare (line : BitVec 26) (s : State) : Host.Outcome State Fault Refusal :=
  let l := line.toNat
  let b := bankOf l
  .next <|
    if s.memStat.linesPending.contains l ∧ s.shelfIdle (l / 131072 / 8) ∧ s.sparesOf b ≠ 0 then
      { s with memStat := { s.memStat with
          linesPending := s.memStat.linesPending.filter (· != l),
          lineErrors := Sparse.del s.memStat.lineErrors l,
          spareLines := Sparse.set 32 s.memStat.spareLines b (s.sparesOf b - 1) } }
    else s

/-- HBM_ROW_REPAIR: a pending row is copied out, repaired and written back while no partition runs (R112,
R113). -/
def State.repairRow (s : State) (row : Nat) : State :=
  let k := row % 384 % 12
  let free := s.memStat.repairsFree.getD k 0
  if s.memStat.repairsPending.contains row ∧ !((List.range 16).any fun p => (s.part p).active) ∧ free ≠ 0 then
    { s with memStat := { s.memStat with
        repairsFree := s.memStat.repairsFree.set k (free - 1),
        repairsPending := s.memStat.repairsPending.filter (· != row),
        rowErrors := Sparse.del s.memStat.rowErrors row } }
  else s

/-- HBM_ROW_REPAIR. -/
def execHbmRowRepair (row : Nat) (s : State) : Host.Outcome State Fault Refusal := .next (s.repairRow row)

/-- The substitution in a die map (R39, R487): the core's byte becomes 0xFF, a spare takes its index: the one of the
lowest position (which one it is the spec leaves open: DESIGN CHOICE, log entry 57). -/
def substitute (map : List Nat) (index : Nat) : Option (List Nat) :=
  match map.idxOf? index, map.idxOf? 0xFD with
  | some i, some j => some ((map.set i 0xFF).set j index)
  | _, _ => none

/-- The partition that contains a shelf reads zeroing until ZEROING_COMPLETE (R434, R487). -/
def State.clearShelf (s : State) (shelf : Nat) : State :=
  match s.partOfShelf shelf with
  | none => s
  | some p =>
    { s with tenancy := { s.tenancy with clearing := s.tenancy.clearing ++ [(p, shelf)] } }.updPart p fun q =>
      { q with clearing := true, state := .zeroing }

/-- SPARE_CORE_SUBSTITUTION: a marked core of a stopped shelf gives way to a spare of its die, whose state is as
after reset (R20, R21), and whose shelf reads zeroing until ZEROING_COMPLETE (R434); with no spare left its shelf goes
out of service (R488). -/
def State.replaceCore (s : State) (c : Nat) : State :=
  let shelf := c / 8
  let n := 8 * s.hw.grade.perDie
  let die := c / n
  if !(s.core c).marked ∨ !s.shelfIdle shelf ∨ s.coreCount ≤ c then s
  else match substitute (s.hw.dieMap.getD die []) (c % n) with
    | none =>
      { s.updCore c fun k => { k with marked := false } with
        links := { s.links with shelvesOut := s.links.shelvesOut ||| 1 <<< shelf } }
    | some m =>
      let s := (s.zeroRange (cellarBase + c * 2 ^ 25) (2 ^ 25)).zeroRange (privAddr c 0) 0x650000
      let s := ((s.setCore c Core.reset).releaseCore c).clearShelf shelf
      { s with
        hw := { s.hw with dieMap := s.hw.dieMap.set die m },
        memStat := { s.memStat with
          poison := s.memStat.poison.filter fun l => l / 131072 != c,
          linesPending := s.memStat.linesPending.filter fun l => l / 131072 != c,
          lineErrors := s.memStat.lineErrors.filter fun l => l.1 / 131072 != c,
          spareLines := s.memStat.spareLines.filter fun b => b.1 / 16 != c } }

/-- SPARE_CORE_SUBSTITUTION. -/
def execSpareCoreSubstitution (core : Fin 512) (s : State) : Host.Outcome State Fault Refusal :=
  .next (s.replaceCore core)

/-- The link group of a reduction unit (R311). -/
def unitGroup (u : Nat) : Nat :=
  if u < 16 then 0 else if u < 32 then 1 else if u < 40 then 2 else if u < 48 then 3 else if u < 52 then 4 else 5

/-- The unit of the + group of a unit's pair (R312). -/
def unitPlus (u : Nat) : Nat :=
  match unitGroup u with
  | 1 => u - 16
  | 3 => u - 8
  | 5 => u - 4
  | _ => u

/-- UNIT_SPARE_SUBSTITUTION: a marked unit gives way to a spare of its group once no partition with its pair has
a pattern armed or running; with none left the pair goes out of service (R311, R487, R489). -/
def execUnitSpareSubstitution (unit : Fin 56) (s : State) : Host.Outcome State Fault Refusal :=
  let u := unit.val
  let g := unitGroup u
  let b := unitBit (unitPlus u)
  let free := s.coll.unitSpares.getD g 0
  let used := (List.range 16).any fun p =>
    (s.part p).layout.live.unitMask.toNat.testBit b && (s.part p).patterned
  .next <|
    if !(s.coll.markedUnits.contains u) ∨ used then s
    else
      let t := { s with coll := { s.coll with markedUnits := s.coll.markedUnits.filter (· != u) } }
      if free = 0 then { t with links := { t.links with pairsOut := t.links.pairsOut ||| 1 <<< b } }
      else { t with coll := { t.coll with unitSpares := t.coll.unitSpares.set g (free - 1) } }

/-! ### The test port (R493) -/

/-- The identification register (R493). -/
def State.idcode (s : State) : Word :=
  BitVec.ofNat 32 ((if s.hw.stepping = .b1 then 1 else 0) <<< 28
    ||| (if s.hw.grade = .da512 then 0xDA51 else 0xDA44) <<< 12 ||| Config.jtagManufacturer.toNat <<< 1 ||| 1)

/-- The instruction of an 8-bit code of the instruction register: every code without one selects the bypass register.
test_mode 2, in which the vendor has unlocked the port, is of no command the spec describes. -/
def Jtag.ofCode (code : Byte) : Jtag :=
  if code = 0x00 then .extest else if code = 0x01 then .idcode else if code = 0x02 then .sample else .bypass

/-- What the boundary cells drive: in EXTEST, what was preloaded. -/
def State.cellsDriven (s : State) : Option Pins := if s.jtag = .extest then some s.links.preloaded else none

/-- EXTEST: the boundary cells drive what they were preloaded with; on entry a module fault with TEST_MODE. -/
def execExtest (s : State) : Host.Outcome State Fault Refusal :=
  .next <|
    if s.jtag = .extest then s
    else
      let s := { s with jtag := .extest, links := { s.links with testMode := 1 } }
      s.moduleFault stTEST_MODE 0 0

/-- IDCODE. -/
def execIdcode (s : State) : Host.Outcome State Fault Refusal := .next { s with jtag := .idcode }

/-- SAMPLE/PRELOAD: the cells take the pins, and the values shifted in; operation is not disturbed. -/
def execSamplePreload (s : State) (pins : Pins := .low) (preload : Pins := .low) : Host.Outcome State Fault Refusal :=
  .next { s with jtag := .sample, links := { s.links with sampled := pins, preloaded := preload } }

/-- BYPASS, and every other code. -/
def execBypass (s : State) : Host.Outcome State Fault Refusal := .next { s with jtag := .bypass }

/-- TEST_LOGIC_RESET: the identification register is selected. -/
def execTestLogicReset (s : State) : Host.Outcome State Fault Refusal := .next ({ s with jtag := Jtag.idcode })

end Sys2Proof.Machine
end

