-- ==== Sys2Proof/Machine/HostPort.lean ====
section
/-! DEFINITION. Machine/HostPort.lean: the Yepecy link (R497 to R529): HELLO, host link faults, lines, fences,
answers to requests of the module, doorbells, interrupts and host queues. -/

namespace Sys2Proof.Machine

/-! ### Host link faults (R528) -/

/-- A port in service leaves it: the port-class record, which names no partition, then the host link fault. -/
def State.loseHost (s : State) (k : Nat) : State :=
  (s.recordFault stPORT_LOST 3 8 k [] 0 0).hostFault k

/-- HOST_LINK_FAULT: a strand or a codeword of a port in service is lost. -/
def execHostLinkFault (port : Fin 2) (s : State) : Host.Outcome State Fault Refusal :=
  .next (if (s.hport port).state = 3 then s.loseHost port else s)

/-! ### Bring-up (R498, R620) -/

/-- The offered version. -/
def Stepping.hostVersion : Stepping → Nat
  | .b1 => 0x00020001
  | .b0 => 0x00020000

/-- A HELLO with a version and a port number (R498, R499). -/
def helloPacket (version port : Nat) : HPkt :=
  hostPacket 0xF 8 0 0 0 (leBytes 4 version ++ [BitVec.ofNat 8 port, 0, 0, 0])

/-- Whether a port exchanges HELLOs: trained, or held by one. -/
def State.greets (s : State) (k : Nat) : Bool :=
  s.hostMayRise k && ((s.hport k).state == 2 || (s.hport k).state == 4)

/-- A HELLO of the host: three in a row with an equal major put the port into service at the lower minor; a
differing major holds it, with one record. -/
def State.onHello (s : State) (k : Nat) (v : Word) : State :=
  let h := s.hport k
  let mine := s.hw.stepping.hostVersion
  if !s.greets k then s
  else if fld v 16 16 ≠ mine / 2 ^ 16 then
    let s := s.updHport k fun h => { h with state := 4, hellos := 0 }
    if h.state = 4 then s else s.recordFault stLINK_VERSION 3 8 k [] 0 v.toNat
  else if h.hellos < 2 then s.updHport k fun h => { h with hellos := h.hellos + 1 }
  else s.updHport k fun h => { h with
    state := 3, hellos := 0,
    version := BitVec.ofNat 32 (mine / 2 ^ 16 * 2 ^ 16 + min (fld v 0 16) (mine % 2 ^ 16)) }

/-- HELLO: with the check it carries (none: the one its bytes give). One that fails its check is discarded with a host
link fault (R501); in service a HELLO does nothing. -/
def execHello (port : Fin 2) (version : Word) (s : State) (check : Option Word := none) :
    Host.Outcome State Fault Refusal :=
  let bad := check.any fun c => c != (helloPacket version.toNat port).check
  .next (if bad then (if s.greets port ∨ (s.hport port).state = 3 then s.hostFault port else s)
    else s.onHello port version)

/-- HELLO_SEND: every 1 ms once stages 1 and 2 have passed, until the port is in service. -/
def execHelloSend (port : Fin 2) (s : State) : Host.Outcome State Fault Refusal :=
  .next (if s.greets port then s.send (.host port (helloPacket s.hw.stepping.hostVersion port)) else s)

/-! ### Arrival (R499 to R501) -/

/-- A packet arrives on a port in service; one that fails its check or is of a reserved kind is discarded with a
host link fault. -/
def State.hostArrival (s : State) (k : Nat) (p : HPkt) (h : State → State) : State :=
  if (s.hport k).state ≠ 3 then s
  else if p.check ≠ p.crc ∨ p.kind = 0xD ∨ p.kind = 0xE then s.hostFault k
  else h s

/-- Whether the crossings to the memory that holds a byte address of the module are open. -/
def State.memOpen (s : State) (a : Nat) : Bool :=
  match addrRegion a with
  | 0 => s.stackOpen (hbmStack a)
  | 1 => s.crosses (8 + cellarCore a / (8 * s.hw.grade.perDie))
  | _ => true

/-- A refused access (R503). -/
def State.refuseHost (s : State) : State :=
  { s with host := { s.host with refusals := s.host.refusals + 1 } }

/-- RESP. -/
def State.respond (s : State) (k : Nat) (p : HPkt) (st : Half) (data : List Byte) : State :=
  s.send (.host k (hostPacket 8 data.length p.tag.toNat st 0 data))

/-- A refused read (R503). -/
def State.refuseRead (s : State) (k : Nat) (p : HPkt) : State := s.refuseHost.respond k p stPRIVILEGE []

/-- A host's read of memory: its data, or the error it meets, with a fault record that names no partition
(R102, R109). -/
def State.hostRead (s : State) (k : Nat) (p : HPkt) (a n : Nat) (ecc : Ecc) : State × Bool :=
  let r := s.readErrors [(a, n)] ecc
  match r.2 with
  | some bad => ((r.1.recordFault stECC 1 (memUnit bad).1 (memUnit bad).2 [] bad 0).respond k p stECC [], false)
  | none => (r.1.respond k p stDONE (memBytes r.1.mem a n), true)

/-! ### Lines (R502 to R507) -/

/-- Whether a line lies in a window that a partition bound to the port makes cacheable. -/
def State.cacheable (s : State) (k a : Nat) : Bool :=
  (List.range 16).any fun p => s.boundTo p k && (List.range 4).any fun w =>
    let r := (s.part p).windows.live.getD w (0, 0)
    (s.part p).aper.live.cacheable.toNat.testBit w && addrRegion a == 0
      && inside a 64 (r.1.toNat * 262144) (r.2.toNat * 262144)

/-- Lines of the directory of a port. -/
def directoryLines : Nat := 131072

/-- A grant: the line is recorded as granted last. One of a window that a waiting commit clears is recalled at once
(R507). -/
def State.grantLine (s : State) (k : Nat) (p : HPkt) (ecc : Ecc) : State :=
  let a := addrLocal p.addr.toNat
  let l := a / 64
  let r := s.hostRead k p a 64 ecc
  if r.2 then
    let t := r.1.updHport k fun h => { h with
      directory := h.directory.filter (fun x => x.1 != l) ++ [(l, p.kind == 2)] }
    if s.uncaching a then t.recallLine k l else t
  else r.1

/-- Whether a line can be granted now: its recall has been answered, and the directory has room for it. -/
def HostPort.canGrant (h : HostPort) (l : Nat) : Bool :=
  !h.recalling l && (h.directory.any (·.1 == l) || decide (h.directory.length < directoryLines))

/-- RD_SHARED and RD_OWN: granted, or waiting while the line granted least recently is recalled, once (R504). -/
def State.grantOrWait (s : State) (k : Nat) (p : HPkt) (ecc : Ecc) : State :=
  let l := addrLocal p.addr.toNat / 64
  let h := s.hport k
  if h.canGrant l then s.grantLine k p ecc
  else
    let s := s.updHport k fun h => { h with waiting := h.waiting ++ [(p, ecc)] }
    if h.recalling l then s
    else match h.directory.head? with
      | some x => s.recallLine k x.1
      | none => s

/-- The grants that waited, oldest first, as far as they can be given now. -/
def State.serveGrants (s : State) (k : Nat) : State :=
  let ws := (s.hport k).waiting
  ws.foldl (fun s w => s.grantOrWait k w.1 w.2) (s.updHport k fun h => { h with waiting := [] })

/-- RD_SHARED and RD_OWN of a line that may be cached; any other is refused. Over a closed crossing none is
answered (R29). -/
def State.onGrantRequest (s : State) (k : Nat) (p : HPkt) (ecc : Ecc) : State :=
  let a := addrLocal p.addr.toNat
  if a % 64 = 0 ∧ s.cacheable k a then (if s.memOpen a then s.grantOrWait k p ecc else s) else s.refuseRead k p

/-- RD_SHARED. -/
def execRdShared (port : Fin 2) (p : HPkt) (ecc : Ecc) (s : State) : Host.Outcome State Fault Refusal :=
  guarded (p.isKind 1) (s.hostArrival port p fun s => s.onGrantRequest port p ecc)

/-- RD_OWN. -/
def execRdOwn (port : Fin 2) (p : HPkt) (ecc : Ecc) (s : State) : Host.Outcome State Fault Refusal :=
  guarded (p.isKind 2) (s.hostArrival port p fun s => s.onGrantRequest port p ecc)

/-- A line that the host holds no more: the directory, its RECALL and the writes that waited for it. -/
def HostPort.dropLine (h : HostPort) (l : Nat) : HostPort :=
  { h with directory := h.directory.filter fun x => x.1 != l,
           recalled := h.recalled.filter fun x => x.1 != l,
           owed := h.owed.filter (· != l),
           overlay := h.overlay.filter fun o => o.1 / 64 != l }

/-- A host's write meets parity (R105, R110): what its transfers count, and whether it lands; a fourth failure is an
uncorrected access, recorded as one that names no partition. -/
def State.hostParity (s : State) (a n : Nat) (ecc : Ecc) : State × Bool :=
  let r := s.accessErrors [] [(a, n)] ecc
  match r.2 with
  | some bad => (r.1.recordFault stECC 1 (memUnit bad).1 (memUnit bad).2 [] bad 0, false)
  | none => (r.1, true)

/-- A writeback: the line's data, and over it what the module wrote while it waited (R505). A tag is free again. -/
def State.onWb (s : State) (k : Nat) (p : HPkt) (ecc : Ecc) : State :=
  let a := addrLocal p.addr.toNat
  let l := a / 64
  let h := s.hport k
  let holds := h.directory.any (·.1 == l)
  if a % 64 ≠ 0 ∨ !(p.payload.length == 0 || p.payload.length == 64)
      ∨ !(holds || h.recalled.any (·.1 == l)) then s.refuseHost
  else
    let r := s.hostParity a p.payload.length ecc
    let s := r.1
    let m := if holds && s.memOpen a && r.2 then
        (h.overlay.filter fun o => o.1 / 64 == l).foldl (fun m o => memPut m o.1 o.2) (memPut s.mem a p.payload)
      else s.mem
    ((((({ s with mem := m }).updHport k fun h => h.dropLine l).sendOwed k).resumeReads).serveGrants k).settleApertures

/-- WB. -/
def execWb (port : Fin 2) (p : HPkt) (s : State) (ecc : Ecc := .clean) : Host.Outcome State Fault Refusal :=
  guarded (p.isKind 4) (s.hostArrival port p fun s => s.onWb port p ecc)

/-- FENCE: every earlier WR and WB of the port is visible, so ACK goes out. -/
def execYlFence (port : Fin 2) (p : HPkt) (s : State) : Host.Outcome State Fault Refusal :=
  guarded (p.isKind 5) (s.hostArrival port p fun s => s.send (.host port (hostPacket 0xC 0 p.tag.toNat 0 0 [])))

/-- RECALL: sent for a line of the directory that an agent of the module needs (R505). -/
def execRecall (port : Fin 2) (line : Nat) (s : State) : Host.Outcome State Fault Refusal :=
  .next (if (s.hport port).directory.any (·.1 == line) then s.recallLine port line else s)

/-- RECALL_TIMEOUT: the line is dropped, module memory keeps its value, and a host link fault follows (R506). -/
def execRecallTimeout (port : Fin 2) (line : Nat) (s : State) : Host.Outcome State Fault Refusal :=
  .next (if (s.hport port).recalled.any (·.1 == line) then
      (s.updHport port fun h => h.dropLine line).hostFault port else s)

/-! ### Answers to the module's requests (R510) -/

/-- A host request of a core is answered, and a tag is free again; where it failed, requests that still wait are not
sent. -/
def State.answerHost (s : State) (k : Nat) (core : Option Nat) (st : Half) (ecc : Ecc) : State :=
  let s := s.sendOwed k
  match core with
  | none => s.pumpHost k
  | some c => match (s.core c).mover with
    | none => s.pumpHost k
    | some m =>
      let m := m.answered st true
      let m := if st = stDONE then m
        else { m with hostLive := m.hostLive - m.hostTodo.length, hostTodo := [] }
      ((s.setMover c m).pumpHost k).moverAdvance c ecc

/-- The outstanding request that an answer names. -/
def HostPort.requestOf (h : HostPort) (tag : BitVec 12) (isRead : Bool) : Option HostReq :=
  h.requests.find? fun r => r.tag == tag.toNat && r.isRead == isRead

/-- A request no longer outstanding. -/
def HostPort.closeRequest (h : HostPort) (tag : Nat) : HostPort :=
  { h with requests := h.requests.filter fun r => r.tag != tag }

/-- H_ACK. -/
def State.onHAck (s : State) (k : Nat) (p : HPkt) : State :=
  match (s.hport k).requestOf p.tag false with
  | none => s
  | some r => (s.updHport k fun h => h.closeRequest r.tag).answerHost k r.core
      (if p.status = 0 then stDONE else stPRIVILEGE) .clean

/-- H_ACK. -/
def execHAck (port : Fin 2) (p : HPkt) (s : State) : Host.Outcome State Fault Refusal :=
  guarded (p.isKind 6) (s.hostArrival port p fun s => s.onHAck port p)

/-- Bytes of an H_RESP put where the mover that asked will read them. -/
def State.stageHost (s : State) (k : Nat) (r : HostReq) (bs : List Byte) : State :=
  match r.core with
  | none => s
  | some c => match (s.core c).mover with
    | none => s
    | some m =>
      let a := s.hostGlobal k r.addr
      s.setMover c { m with staging := bs.zipIdx.foldl (fun t b => Sparse.put t (a + b.2) b.1) m.staging }

/-- H_RESP: the request is answered once every byte it asked for is accounted for. -/
def State.onHResp (s : State) (k : Nat) (p : HPkt) (ecc : Ecc) : State :=
  match (s.hport k).requestOf p.tag true with
  | none => s
  | some r =>
    if p.status ≠ 0 then (s.updHport k fun h => h.closeRequest r.tag).answerHost k r.core stPRIVILEGE ecc
    else
      let bs := p.payload.take r.len
      let s := s.stageHost k r bs
      if r.len ≤ bs.length then (s.updHport k fun h => h.closeRequest r.tag).answerHost k r.core stDONE ecc
      else s.updHport k fun h => { h with requests := h.requests.map fun x =>
        if x.tag = r.tag then { x with addr := x.addr + bs.length, len := x.len - bs.length } else x }

/-- H_RESP. -/
def execHResp (port : Fin 2) (p : HPkt) (s : State) (ecc : Ecc := .clean) : Host.Outcome State Fault Refusal :=
  guarded (p.isKind 7) (s.hostArrival port p fun s => s.onHResp port p ecc)

/-- HOST_TIMEOUT: an HWR or HRD left unanswered for host_timeout. -/
def execHostTimeout (port : Fin 2) (tag : BitVec 12) (s : State) : Host.Outcome State Fault Refusal :=
  .next (if (s.hport port).requests.any (·.tag == tag.toNat) then s.hostFault port else s)

/-! ### Doorbells (R511, R512) -/

/-- The partition, core and tally that a DB_BIND value names. -/
def bindPart (w : Word) : Nat := fld w 0 4
def bindTally (w : Word) : Nat := fld w 12 8
def bindCore (w : Word) : Nat := fld w 20 9

/-- Whether a binding names a partition bound to the port and a core of it. -/
def State.bindOk (s : State) (k : Nat) (w : Word) : Bool :=
  s.boundTo (bindPart w) k && s.partOf (bindCore w) == some (bindPart w)

/-- A write of a doorbell. No increment crosses to a core of a closed die (R29). -/
def State.ring (s : State) (k n : Nat) (v : Word) : State :=
  let b := Sparse.get 0 (s.hport k).dbBind n
  let v := fld v 0 8
  if v = 0 ∨ !bit b 31 ∨ !s.bindOk k b ∨ !s.coreOpen (bindCore b) then s
  else s.addTally (bindCore b) (bindTally b) (BitVec.ofNat 32 v)

/-- DOORBELL. -/
def execDoorbell (port : Fin 2) (n : BitVec 6) (value : Word) (s : State) : Host.Outcome State Fault Refusal :=
  .next (s.ring port n.toNat value)

/-- A write of DB_BIND. -/
def State.bindDoorbell (s : State) (k n : Nat) (v : Word) : State :=
  if s.bindOk k v then
    s.updHport k fun h => { h with dbBind := Sparse.set 0 h.dbBind n (v &&& 0x9FFFF00F) }
  else { s with tenancy := { s.tenancy with refusals := s.tenancy.refusals + 1 } }

/-- DB_BIND. -/
def execDbBind (port : Fin 2) (n : BitVec 6) (value : Word) (s : State) : Host.Outcome State Fault Refusal :=
  .next (s.bindDoorbell port n.toNat value)

/-! ### Interrupts (R513, R514) -/

/-- INTERRUPT: a cause is raised within a partition. -/
def execInterrupt (part : Fin 16) (cause : Fin 6) (s : State) : Host.Outcome State Fault Refusal :=
  .next (s.raiseCause part cause)

/-- The end of a coalescing period: one interrupt if a bit set in it is still pending. -/
def State.coalesceEnd (s : State) (k v : Nat) : State :=
  let x := Sparse.get IVec.reset (s.hport k).vecs v
  match x.sentAt with
  | none => s
  | some t =>
    if s.power.ticks < t + x.coalesce.toNat then s
    else if x.fresh &&& x.pending ≠ 0 then s.sendInterrupt k v
    else s.updHport k fun h => { h with vecs := Sparse.set IVec.reset h.vecs v { x with sentAt := none, fresh := 0 } }

/-- COALESCE_EXPIRY. -/
def execCoalesceExpiry (port : Fin 2) (vec : Fin 32) (s : State) : Host.Outcome State Fault Refusal :=
  .next (s.coalesceEnd port vec)

/-! ### Host queues (R515 to R527, R531) -/

/-- Whether the host of port k reaches queue q: the partition it is committed to is not the other port's
(R530). -/
def State.queueReached (s : State) (k q : Nat) : Bool :=
  let x := s.hqueue k q
  !(x.state != 0 && (s.part x.part).layout.live.count != 0 && !s.boundTo x.part k)

/-- The status of a queue commit. A queue of no ring takes no bytes of any place, yet its base may name no
other module or region (R625). -/
def State.queueStatus (s : State) (k : Nat) (x : HQueue) : Half :=
  let p := fld x.bind.sh 0 4
  let n := fld x.size.sh 0 5
  let base := x.base.sh.toNat
  if !s.boundTo p k ∨ s.partOf (fld x.bind.sh 20 9) ≠ some p then stPRIVILEGE
  else if !s.namesPlace base then stPRIVILEGE
  else if n = 0 then stDONE
  else if n < 12 ∨ 20 < n then stCONFIG
  else if !s.inPlaces p base (2 ^ n) then stPRIVILEGE
  else if base % 2 ^ n ≠ 0 then stCONFIG
  else stDONE

/-- A write of HQ_COMMIT. It opens a queue that was disabled; only a flush reopens one that is stopped or stranded
(R524, R525). -/
def State.commitQueue (s : State) (k q : Nat) : State :=
  if !s.queueReached k q then s
  else
    let x := s.hqueue k q
    let st := s.queueStatus k x
    if st ≠ stDONE then s.updQueue k q fun x => { x with commitStatus := st }
    else
      let y : HQueue := { x with base := ⟨x.base.sh, x.base.sh⟩, size := ⟨x.size.sh, x.size.sh⟩,
                                 bind := ⟨x.bind.sh, x.bind.sh⟩, commitStatus := st,
                                 state := if fld x.size.sh 0 5 = 0 then 0 else if x.state = 0 then 1 else x.state }
      s.updQueue k q fun _ => y.empty (s.tallyOf y.core y.releaseTally)

/-- HQ_COMMIT. -/
def execHqCommit (port : Fin 2) (queue : Fin 32) (s : State) : Host.Outcome State Fault Refusal :=
  .next (s.commitQueue port queue)

/-- A write of flush to HQ_CTRL (R524). -/
def State.flushQueue (s : State) (k q : Nat) : State :=
  if s.queueReached k q ∧ (s.hqueue k q).state ≠ 0 then s.updQueue k q HQueue.flush else s

/-- HQ_FLUSH. -/
def execHqFlush (port : Fin 2) (queue : Fin 32) (s : State) : Host.Outcome State Fault Refusal :=
  .next (s.flushQueue port queue)

/-- HQ_IDLE_TIMEOUT: undelivered bytes held for hq_idle_timeout stitches without a WR are discarded, and the
queue is stranded (R525). -/
def State.strandQueue (s : State) (k q : Nat) : State :=
  let x := s.hqueue k q
  if x.state = 1 ∧ !x.counts.isEmpty ∧ x.lastWr + s.host.hqIdle.toNat ≤ s.power.ticks then
    (s.updQueue k q fun x => { x.discard with state := 3, lastStatus := stTAIL }).raiseCause x.part 4
  else s

/-- HQ_IDLE_TIMEOUT. -/
def execHqIdleTimeout (port : Fin 2) (queue : Fin 32) (s : State) : Host.Outcome State Fault Refusal :=
  .next (s.strandQueue port queue)

/-- Data granules of an item of length l. -/
def granules (l : Nat) : Nat := ceilDiv l 64

/-- The local address of a queue's ring. -/
def HQueue.local (x : HQueue) : Nat := addrLocal x.base.live.toNat

/-- Whether the slot at the fill offset has the magic, the sequence number and a legal length. -/
def HQueue.slotOk (x : HQueue) (slot : List Byte) : Bool :=
  leAt slot 6 2 == 0x4851 && leAt slot 4 2 == x.delivered.toNat % 2 ^ 16 && decide (leAt slot 0 4 + 64 ≤ x.ring)

/-- The granules of the item at the fill offset. -/
def HQueue.itemGranules (x : HQueue) (l : Nat) : List Nat :=
  (List.range (granules l)).map fun i => (x.fill / 64 + 1 + i) % (x.ring / 64)

/-- Whether every data granule of an item of length l counts 64. -/
def HQueue.full (x : HQueue) (l : Nat) : Bool :=
  (x.itemGranules l).all fun g => Sparse.get 0 x.counts g == 64

/-- The queue after the delivery of an item of length l (R519). -/
def HQueue.advance (x : HQueue) (l : Nat) : HQueue :=
  let size := 64 + 64 * granules l
  let gone := x.fill / 64 :: x.itemGranules l
  { x with delivered := x.delivered + 1, fill := (x.fill + size) % x.ring, items := x.items ++ [(x.fill, size)],
           counts := x.counts.filter fun g => !gone.contains g.1,
           slots := x.slots.filter fun g => !gone.contains g, early := false }

/-- A queue stops with a status (R522). -/
def State.stopHostQueue (s : State) (k q : Nat) (st : Half) (bytes : Nat) : State :=
  (s.updQueue k q fun x => { x with
    state := 2, lastStatus := st, discards := x.discards + BitVec.ofNat 32 bytes }).raiseCause (s.hqueue k q).part 4

/-- Items declared at the fill offset are delivered while they are complete (R518 to R520, R526); one that the
release tally already allows is released at once (R521). None is delivered to a core of a closed die (R29). -/
def State.deliver (s : State) (k q : Nat) : Nat → State
  | 0 => s
  | fuel + 1 =>
    let x := s.hqueue k q
    if x.state ≠ 1 ∨ !x.slots.contains (x.fill / 64) ∨ !s.coreOpen x.core then s
    else
      let slot := memBytes s.mem (x.local + x.fill) 8
      let l := leAt slot 0 4
      if !x.slotOk slot then s.stopHostQueue k q stCONFIG 0
      else if x.full l then
        let s := s.updQueue k q fun x => (x.advance l).release (s.tallyOf x.core x.releaseTally)
        let s := (s.addTally x.core x.deliverTally 1).raiseCause x.part 3
        s.deliver k q fuel
      else if x.early then s
      else { s.updQueue k q fun x => { x with early := true } with
             host := { s.host with earlyLength := s.host.earlyLength + 1 } }

/-- Bytes that a WR of n bytes at ring offset o puts into granule g. -/
def inGranule (o n g : Nat) : Nat := min (o + n) (64 * g + 64) - max o (64 * g)

/-- The granules that a WR touches. -/
def granulesOf (o n : Nat) : List Nat := (List.range (granules (o % 64 + n))).map (o / 64 + ·)

/-- Whether a WR lands in free bytes and takes no granule past 64 (R522). -/
def HQueue.accepts (x : HQueue) (o n : Nat) : Bool :=
  (List.range n).all (fun i => decide ((o + i + x.ring - x.fill) % x.ring < x.free))
    && (granulesOf o n).all fun g => decide (Sparse.get 0 x.counts g + inGranule o n g ≤ 64)

/-- Whether a WR covers the first eight bytes of granule g. -/
def coversSlot (o n g : Nat) : Bool := decide (o ≤ 64 * g) && decide (64 * g + 8 ≤ o + n)

/-- A WR counted. -/
def HQueue.count (x : HQueue) (o n now : Nat) : HQueue :=
  { x with
    counts := (granulesOf o n).foldl (fun m g => Sparse.put m g (Sparse.get 0 m g + inGranule o n g)) x.counts,
    slots := ((granulesOf o n).filter (coversSlot o n)).foldl insertNat x.slots, lastWr := now }

/-- A WR of bytes at ring offset o judged by a queue: the state, and whether the queue takes it. -/
def State.judgeWr (s : State) (k q o : Nat) (bs : List Byte) : State × Bool :=
  let x := s.hqueue k q
  let n := bs.length
  let g := x.fill / 64
  if x.state ≠ 1 then
    (s.updQueue k q fun x => { x with discards := x.discards + BitVec.ofNat 32 n }, false)
  else if !x.accepts o n then (s.stopHostQueue k q stQUEUE_OVERRUN n, false)
  else if coversSlot o n g && !x.slotOk (takeAt bs (64 * g - o) 8) then (s.stopHostQueue k q stCONFIG n, false)
  else (s.updQueue k q fun x => x.count o n s.power.ticks, true)

/-- The queues of a port in whose ring a local address lies. -/
def State.queuesAt (s : State) (k a : Nat) : List Nat :=
  ((s.hport k).queues.map (·.1)).filter fun q =>
    let x := s.hqueue k q
    x.state != 0 && inside a 1 x.local x.ring

/-- A host's write to memory: every queue whose ring it lands in judges it; stored where none discards it, and
items it completes are delivered. -/
def State.hostWrite (s : State) (k a : Nat) (bs : List Byte) (ecc : Ecc) : State :=
  let qs := s.queuesAt k a
  let r := qs.foldl (fun (r : State × Bool) q =>
    let j := r.1.judgeWr k q (a - (r.1.hqueue k q).local) bs
    (j.1, r.2 && j.2)) (s, true)
  let w := r.1.hostParity a bs.length ecc
  if !r.2 then r.1
  else if !w.2 then w.1
  else
    let s := ({ w.1 with mem := memPut w.1.mem a bs }.dropTags a bs.length).liftPoison a bs.length
    qs.foldl (fun s q => s.deliver k q ((s.hqueue k q).slots.length)) s

end Sys2Proof.Machine
end

