-- ==== Sys2Proof/Machine/Firmware.lean ====
section
/-! DEFINITION. Machine/Firmware.lean: images, slots and the boot chain (R569 to R582), distribution (R583 to
R587), activation and handover (R588 to R593), attestation (R594 to R597). -/

namespace Sys2Proof.Machine

/-! ### Images (R569 to R572) -/

/-- Bytes of a distribution block. -/
def blockBytes : Nat := 65536

/-- One byte of a flash region; erased flash reads 0xFF (PRESUMED, and in no image). -/
def Slot.byte (x : Slot) (o : Nat) : Byte := if x.factory then Config.factoryImage o else Sparse.get 0xFF x.data o

/-- n bytes of a flash region. -/
def Slot.bytes (x : Slot) (o n : Nat) : List Byte := (List.range n).map fun i => x.byte (o + i)

/-- A little-endian field of a flash region. -/
def Slot.le (x : Slot) (o n : Nat) : Nat := ofLe (x.bytes o n)

/-- Bytes of the image in a region. -/
def Slot.size (x : Slot) : Nat := if x.factory then Config.factoryBytes else x.total

/-- Blocks of the image in a region. -/
def Slot.blocks (x : Slot) : Nat := x.size / blockBytes

/-- The version in the header, zero while there is none. -/
def Slot.version (x : Slot) : Nat := if x.factory || x.fixed.contains 0 then x.le 12 4 else 0

/-- A byte as the CRC of block 0 takes it (R570). -/
def Slot.crcByte (x : Slot) (o : Nat) : Byte :=
  if (1024 ≤ o ∧ o < 1028) ∨ (2048 ≤ o ∧ o < 3328) then 0 else x.byte o

/-- The CRC-32C of a block (R570). -/
def Slot.blockCrc (x : Slot) (b : Nat) : Nat :=
  (if b = 0 then crc32c ((List.range blockBytes).map x.crcByte)
   else crc32c (x.bytes (blockBytes * b) blockBytes)).toNat

/-- The digest of an image (R571). -/
def Slot.digestOf (x : Slot) : List Byte :=
  shake256 ((List.range x.size).map fun o => if 2048 ≤ o ∧ o < 3328 then 0 else x.byte o)

/-- Whether a number of bytes is a legal image_bytes. -/
def imageBytesOk (n : Nat) : Bool := n % blockBytes == 0 && decide (1 ≤ n / blockBytes) && decide (n / blockBytes ≤ 256)

/-- Check 1 of R572 for an image that must be of a kind. -/
def Slot.headerOk (x : Slot) (kind : Nat) : Bool :=
  let zero := fun (o n : Nat) => x.le o n == 0
  let target := x.le 30 2
  x.le 0 4 == 0x4D4F4E01 && x.le 4 4 == kind && decide (kind ≤ 1) && x.le 8 4 == x.total && imageBytesOk x.total
    && decide (x.le 16 4 ≤ 64) && decide (x.le 20 1 ≤ 3) && decide (x.le 21 1 < 16)
    && !(x.le 21 1).testBit (x.le 20 1) && decide (x.le 22 1 < 4) && zero 23 1 && zero 96 928 && zero 3328 768
    && (if kind = 0 then target == 0 && zero 32 64 else decide (1 ≤ target) && decide (target ≤ 256))
    && (List.range 256).all fun b => decide (b < x.blocks) || zero (1024 + 4 * b) 4

/-- Check 2. -/
def Slot.crcsOk (x : Slot) : Bool := (List.range x.blocks).all fun b => x.blockCrc b == x.le (1024 + 4 * b) 4

/-- The key slot and the security version of an image. -/
def Slot.keySlot (x : Slot) : Nat := x.le 20 1
def Slot.security (x : Slot) : Nat := x.le 16 4

/-- Check 4: not revoked, not rolled back. -/
def Hw.accepts (h : Hw) (x : Slot) : Bool :=
  !h.keyRevoked.toNat.testBit x.keySlot && decide (h.securityCounter.toNat ≤ x.security)

/-- The bits of a byte, the highest first. -/
def bitsHigh (b : Byte) : List Bool := (List.range 8).map fun i => b.getLsbD (7 - i)

/-- n coefficients of a compressed Falcon signature read from bits: sign, seven low bits, and the high bits as zeros
before a one; minus zero is no coefficient. What is left, or none where they do not read. -/
def falconCoefs : Nat → List Bool → Option (List Bool)
  | 0, bs => some bs
  | n + 1, bs =>
    let low := (bs.drop 1).take 7
    let high := bs.drop 8
    let zeros := (high.takeWhile (!·)).length
    if bs.length < 9 ∨ high.length ≤ zeros then none
    else if bs.head? = some true ∧ low.all (!·) ∧ zeros = 0 then none
    else falconCoefs n (high.drop (zeros + 1))

/-- Whether 1280 bytes are a Falcon-1024 signature in the padded format (R568): the header byte of degree 2^10, 40 bytes
of salt, 1024 coefficients, and zeros to the end. The format stands in a specification that R568 names (PRESUMED, log
entry 143). -/
def falconPadded (sig : List Byte) : Bool :=
  sig.length == 1280 && sig.head? == some 0x3A
    && match falconCoefs 1024 ((sig.drop 41).flatMap bitsHigh) with
      | some rest => rest.all (!·)
      | none => false

/-- Check 5 (R568, R572): a signature in the padded format that verifies with the vendor key of a key slot. -/
def signatureOk (keySlot : Nat) (digest sig : List Byte) : Bool :=
  falconPadded sig && Config.falconVerify ((List.range 1793).map (Config.vendorKey keySlot)) digest sig

/-- The checks of R572 on an image that must be of a kind. The factory's image meets all but the fourth, which
fuses decide (PRESUMED: manufacture puts a valid image into slot A). -/
def State.checkImage (s : State) (x : Slot) (kind : Nat) : Half :=
  if x.factory then (if s.hw.accepts x then stDONE else stROLLBACK)
  else if !x.headerOk kind ∨ !x.crcsOk then stIMAGE_INVALID
  else if !(x.le 22 1).testBit (if s.hw.stepping = .b1 then 1 else 0) then stIMAGE_INVALID
  else if !s.hw.accepts x then stROLLBACK
  else if !signatureOk x.keySlot x.digestOf (x.bytes 2048 1280) then stSIGNATURE
  else stDONE

/-- A slot that has failed for a reason: its digest reads zero (R599). -/
def Slot.fail (x : Slot) (st : Half) : Slot :=
  { x with state := 5, filling := 0, digest := List.replicate 64 0, status := st }

/-- A region whose image is whole: ready, or failed with the first check that fails. -/
def State.finishSlot (s : State) (i kind : Nat) : State :=
  let st := s.checkImage (s.slot i) kind
  s.updSlot i fun x => if st = stDONE then { x with state := 2, filling := 0, digest := x.digestOf, status := st }
    else x.fail st

/-! ### The boot record (R577) -/

/-- Whether a copy of the boot record is valid. -/
def BootRec.valid (r : BootRec) : Bool := r.crc == r.sum

/-- Whether the first copy is the one in force: valid, and with the higher sequence number of those that are. -/
def Firmware.firstInForce (f : Firmware) : Bool :=
  f.first.valid && (!f.second.valid || decide (f.second.seq < f.first.seq))

/-- The record in force. -/
def Firmware.inForce (f : Firmware) : BootRec := if f.firstInForce then f.first else f.second

/-- The record written: into the copy that is not in force, with the next sequence number. -/
def State.writeBoot (s : State) : State :=
  let f := s.fw
  let r := BootRec.sealed { seq := f.inForce.seq + 1, stateA := (s.slot 0).state, stateB := (s.slot 1).state,
                            active := f.active, trials := f.trials, crc := 0 }
  { s with fw := if f.firstInForce then { f with second := r } else { f with first := r } }

/-- Whether the record in force tells the slots as they are. -/
def State.bootFresh (s : State) : Bool :=
  let r := s.fw.inForce
  r.stateA == (s.slot 0).state && r.stateB == (s.slot 1).state && r.active == s.fw.active && r.trials == s.fw.trials

/-- The record written where a slot's state, the active slot or the trial count has changed. -/
def State.keepBoot (s : State) : State := if s.bootFresh then s else s.writeBoot

/-- The copy written last is torn: its CRC does not fit. -/
def Firmware.torn (f : Firmware) : Firmware :=
  if f.firstInForce then { f with first := { f.first with crc := ~~~f.first.sum } }
  else { f with second := { f.second with crc := ~~~f.second.sum } }

/-! ### Blocks that arrive (R581, R586) -/

/-- Bytes put where they belong; those of a fixed block are ignored. -/
def Slot.place (x : Slot) (o : Nat) (bs : List Byte) : Slot :=
  { x with data := bs.zipIdx.foldl (fun m b =>
      if x.fixed.contains ((o + b.2) / blockBytes) then m else Sparse.put m (o + b.2) b.1) x.data }

/-- Whether every byte of a block has arrived. -/
def Slot.arrived (x : Slot) (b : Nat) : Bool :=
  (x.data.filter fun kv => kv.1 / blockBytes == b).length == blockBytes

/-- A block judged once it has arrived; crc0 is what block 0 must have. One that fails is discarded whole. -/
def Slot.judge (x : Slot) (crc0 : Nat) (b : Nat) : Slot :=
  if x.fixed.contains b ∨ !x.arrived b ∨ (b ≠ 0 ∧ !x.fixed.contains 0) then x
  else if x.blockCrc b = (if b = 0 then crc0 else x.le (1024 + 4 * b) 4) then
    { x with fixed := insertNat x.fixed b }
  else { x with data := x.data.filter (fun kv => kv.1 / blockBytes != b), status := stIMAGE_INVALID }

/-- The blocks that bytes touched judged; when block 0 becomes fixed, so are all others. -/
def Slot.judgeFrom (x : Slot) (crc0 : Nat) (bs : List Nat) : Slot :=
  let had := x.fixed.contains 0
  let x := bs.foldl (fun x b => x.judge crc0 b) x
  if !had && x.fixed.contains 0 then (List.range x.blocks).foldl (fun x b => x.judge crc0 b) x else x

/-- The blocks that n bytes at offset o touch. -/
def blocksAt (o n : Nat) : List Nat :=
  (List.range (ceilDiv (o % blockBytes + n) blockBytes)).map (o / blockBytes + ·)

/-! ### Stores, erasure, reconstruction (R574 to R576, R581, R582) -/

/-- Whether the module runs from its boot ROM. -/
def State.inRecovery (s : State) : Bool := s.power.boot == .recovery

/-- The slot that is not running. -/
def State.spareSlot (s : State) : Nat := 1 - s.fw.running

/-- Whether region i holds the running image. -/
def State.runs (s : State) (i : Nat) : Bool := i == s.fw.running && !s.inRecovery

/-- The states in which reconstruction takes place (R576). -/
def State.mayReconstruct (s : State) : Bool := !s.fw.laidOut || s.inRecovery || s.links.testMode == 2

/-- What a new image makes void: what downstream ports asked for. -/
def Firmware.freshImage (f : Firmware) : Firmware := { f with wanted := [], window := [], sent := [] }

/-- A refusal with a reason of R544. -/
def denied (reason : Nat) : Answer := (stCONFIG, reason)

/-- A write to an image store (R581). It is answered with what it brought about: DONE, IMAGE_INVALID where a block that it
completed is discarded, or, where it completes the image, the first check of R572 that fails (R598; that the answer
carries it is DESIGN CHOICE, log entry 144). -/
def State.storeWrite (s : State) (i off total : Nat) (data : List Byte) : State × Answer :=
  let x := s.slot i
  let n := data.length
  if s.runs i then (s, denied 2)
  else if i = 2 ∧ !s.mayReconstruct then (s, denied 4)
  else if x.filling = 2 then (s, denied 10)
  else if 1 < x.state ∨ n = 0 ∨ 1024 < n ∨ !imageBytesOk total ∨ total < off + n ∨ (x.state = 1 ∧ x.total ≠ total) then
    (s, denied 4)
  else
    let s := if x.state = 0 ∧ i < 2 then { s with fw := s.fw.freshImage } else s
    let y : Slot := { x with state := 1, filling := 1, total := total, status := stDONE }
    let y := y.place off data
    let y := y.judgeFrom (y.le 1024 4) (blocksAt off n)
    let s := s.updSlot i fun _ => y
    let s := (if y.fixed.length = y.blocks then s.finishSlot i (if i = 2 then 1 else 0) else s).keepBoot
    (s, ((s.slot i).status, 0))

/-- IMAGE_STORE_WRITE. -/
def execImageStoreWrite (store : Fin 3) (offset : Nat) (total : Nat) (data : List Byte) (s : State) :
    Host.Outcome State Fault Refusal := .next (s.storeWrite store offset total data).1

/-- A write of erase (R582): 0 slot A, 1 slot B, 2 the staging region. -/
def State.eraseSlot (s : State) (i : Nat) : State × Answer :=
  if s.runs i ∨ (s.slot i).filling = 2 then (s, denied 4)
  else
    let s := if i = s.spareSlot then { s with fw := s.fw.freshImage } else s
    ((s.updSlot i fun _ => Slot.reset).keepBoot, (stDONE, 0))

/-- ERASE. -/
def execErase (which : Fin 3) (s : State) : Host.Outcome State Fault Refusal := .next (s.eraseSlot which).1

/-- The block of source image and number that target block t copies (R574); none where its entry is wrong. -/
def targetBlock (d base : Slot) (t : Nat) : Option (Bool × Nat) :=
  let op := d.le (4096 + 2 * t) 2
  if op = 0xFFFF then none
  else if op.testBit 15 then (if 1 + op % 2 ^ 15 < d.blocks then some (true, 1 + op % 2 ^ 15) else none)
  else if op % 256 < base.blocks then some (false, op % 256) else none

/-- The operation table: one entry for each target block, 0xFFFF beyond. -/
def operations (d base : Slot) : Option (List (Bool × Nat)) :=
  let n := d.le 30 2
  if (List.range 256).any fun t => decide (n ≤ t) && d.le (4096 + 2 * t) 2 != 0xFFFF then none
  else (List.range n).foldr (fun t acc => match targetBlock d base t, acc with
    | some x, some l => some (x :: l)
    | _, _ => none) (some [])

/-- The product of a reconstruction. -/
def product (d base : Slot) (ops : List (Bool × Nat)) : Slot :=
  { Slot.reset with
    state := 1, total := ops.length * blockBytes, fixed := List.range ops.length,
    data := (ops.zipIdx.flatMap fun o =>
      (if o.1.1 then d else base).bytes (o.1.2 * blockBytes) blockBytes).zipIdx.map fun b => (b.2, b.1) }

/-- RECONSTRUCT: a checked differential image becomes the image of the slot that is not running (R575). -/
def State.reconstruct (s : State) : State :=
  let d := s.slot 2
  let base := s.slot s.fw.running
  let t := s.spareSlot
  if d.state ≠ 2 ∨ !s.mayReconstruct ∨ (s.slot t).state = 1 then s
  else if d.bytes 32 64 ≠ base.digest then s.updSlot 2 fun x => x.fail stBASE_MISMATCH
  else
    let s := { s with fw := s.fw.freshImage }
    match operations d base with
    | none => (s.updSlot t fun _ => Slot.reset.fail stIMAGE_INVALID).keepBoot
    | some ops => ((s.updSlot t fun _ => product d base ops).finishSlot t 0).keepBoot

/-- RECONSTRUCT. -/
def execReconstruct (s : State) : Host.Outcome State Fault Refusal := .next s.reconstruct

/-! ### Confirmation and the boot chain (R573, R577 to R580) -/

/-- Confirmation of the image in slot i: the only event that alters fuses. -/
def State.confirm (s : State) (i : Nat) : State :=
  let x := s.slot i
  let s := if x.factory then s else { s with hw := { s.hw with
      securityCounter := BitVec.ofNat 32 (max s.hw.securityCounter.toNat x.security),
      keyRevoked := s.hw.keyRevoked ||| BitVec.ofNat 8 (x.le 21 1 % 16) } }
  let s := s.updSlot i fun x => { x with state := 4 }
  { s with fw := { s.fw with trials := 0 } }

/-- The boot ROM considers slot i: the state, and whether it loads it. -/
def State.considerSlot (s : State) (i : Nat) : State × Bool :=
  let s := if (s.slot i).state = 3 then
      let n := s.fw.trials + 1
      let s := { s with fw := { s.fw with trials := n } }
      if 3 < n then s.updSlot i fun x => x.fail x.status else s
    else s
  let st := (s.slot i).state
  if st = 3 ∨ st = 4 then
    let c := s.checkImage (s.slot i) 0
    if c = stDONE then (s, true) else (s.updSlot i fun x => x.fail c, false)
  else (s, false)

/-- Slot i is loaded. -/
def State.loadSlot (s : State) (i : Nat) : State :=
  { s with fw := { s.fw with active := i, running := i, recovery := 0,
                             runVersion := BitVec.ofNat 32 (s.slot i).version },
           power := { s.power with boot := .booting } }

/-- The domains locked in recovery, where the boot ROM serves the management port and the mailboxes (R580): Momond, the
Yepecy link and its hub (DEDUCED, log entry 145). -/
def recoveryDomains : BitVec 40 := 0xD000000000

/-- Recovery for a reason. -/
def State.enterRecovery (s : State) (reason : Nat) : State :=
  { s with fw := { s.fw with recovery := reason, running := s.fw.active }, power := { s.power with boot := .recovery },
           locked := s.locked ||| recoveryDomains }

/-- choose_slot (R578): the record is written where a slot is loaded, and in recovery not, so that the record in force
keeps what it said. -/
def State.chooseSlot (s : State) : State :=
  if s.power.strapRecovery then s.enterRecovery 1
  else
    let a := s.considerSlot s.fw.active
    if a.2 then (a.1.loadSlot a.1.fw.active).writeBoot
    else
      let b := a.1.considerSlot (1 - a.1.fw.active)
      if b.2 then (b.1.loadSlot (1 - b.1.fw.active)).writeBoot else b.1.enterRecovery 2

/-! ### Activation and handover (R588 to R593) -/

/-- handover_out of the running firmware. -/
def State.handoverOut (s : State) : Nat :=
  (s.slot s.fw.running).le 28 2

/-- activate 1 (R589). -/
def State.activateLive (s : State) : State × Answer :=
  let x := s.slot s.spareSlot
  let out := s.handoverOut
  if s.inRecovery then (s, denied 4)
  else if x.state = 2 ∧ x.filling = 0 ∧ x.le 24 2 ≤ out ∧ out ≤ x.le 26 2 then
    ({ s with fw := { s.fw with handoverTo := some s.spareSlot } }, (stDONE, 0))
  else ({ s with fw := { s.fw with activateStatus := stHANDOVER } }, denied 4)

/-- ACTIVATE_LIVE. -/
def execActivateLive (s : State) : Host.Outcome State Fault Refusal := .next s.activateLive.1

/-- A slot marked trial and active; its boots are counted from here. -/
def State.markTrial (s : State) (i : Nat) : State :=
  let s := s.updSlot i fun x => { x with state := 3 }
  { s with fw := { s.fw with active := i, trials := 0, activateStatus := stDONE } }

/-- activate 2: at the next reset, or in recovery at once (R580, R588). -/
def State.activateAtReset (s : State) : State × Answer :=
  if s.inRecovery then
    match [s.fw.active, 1 - s.fw.active].find? fun i => (s.slot i).state == 2 with
    | some i =>
      let s := s.markTrial i
      (({ s with fw := { s.fw with trials := 1 } }.loadSlot i).writeBoot, (stDONE, 0))
    | none => (s, denied 4)
  else if (s.slot s.spareSlot).state = 2 then ((s.markTrial s.spareSlot).keepBoot, (stDONE, 0))
  else (s, denied 4)

/-- ACTIVATE_AT_RESET. -/
def execActivateAtReset (s : State) : Host.Outcome State Fault Refusal := .next s.activateAtReset.1

/-- Whether the controller is at a quiescent point (R590): no request is being served and no commit waits. -/
def State.quiescent (s : State) : Bool :=
  s.mgmt.waiting.isEmpty && ([0, 1].all fun k => !(s.hport k).mbox.busy)
    && (List.range 16).all fun p => (s.part p).waitingWindows.isNone && (s.part p).waitingAper.isNone

/-- The old firmware passes control: the pause of the controller begins (R590, R592). -/
def State.beginHandover (s : State) : State :=
  if s.fw.handoverTo.isSome && s.quiescent then { s with fw := { s.fw with paused := true } } else s

/-- The fault records that the pause held back are written (R592). -/
def State.writeHeld (s : State) : State :=
  s.links.held.foldl State.writeFault { s with fw := { s.fw with paused := false },
                                               links := { s.links with held := [] } }

/-- The requested handover: control passes to the target where its copy passes R572 and it reports in time (ok);
else the old firmware resumes and the target has failed (R590). -/
def State.handover (s : State) (ok : Bool) : State :=
  match s.fw.handoverTo with
  | none => s
  | some t =>
    if !s.fw.paused && !s.quiescent then s
    else
      let s := { s with fw := { s.fw with handoverTo := none } }
      let c := s.checkImage (s.slot t) 0
      let s := if ok && (s.slot t).state == 2 && c == stDONE then
          let s := s.confirm t
          { s with fw := { s.fw with running := t, active := t, handovers := s.fw.handovers + 1,
                                     runVersion := BitVec.ofNat 32 (s.slot t).version, activateStatus := stDONE } }
        else
          let s := s.updSlot t fun x => x.fail c
          { s with fw := { s.fw with rolledBack := s.fw.rolledBack + 1, activateStatus := stHANDOVER } }
      s.keepBoot.writeHeld

/-! ### Distribution (R583 to R587) -/

/-- The slot that distribution fills or offers. -/
def State.distSlot (s : State) : Slot := s.slot s.spareSlot

/-- Blocks of an OFFER. -/
def offerCount (f : List Byte) : Nat := leAt f 2 2

/-- The digest of an OFFER. -/
def offerDigest (f : List Byte) : List Byte := takeAt f 16 64

/-- A bitmap of block numbers in 32 bytes. -/
def bitmapOf (l : List Nat) : List Byte := leBytes 32 (l.foldl (fun m b => m ||| 1 <<< b) 0)

/-- A NEED for blocks of an offered image. -/
def needFrame (missing : List Nat) (digest : List Byte) : List Byte :=
  [0x11, 4, 0, 0] ++ bitmapOf missing ++ digest

/-- The blocks of the image being received that are still needed. -/
def State.missingBlocks (s : State) : List Nat :=
  (List.range (offerCount s.fw.offer)).filter fun b => !s.distSlot.fixed.contains b

/-- Whether distribution fills the slot that is not running. -/
def State.receiving (s : State) : Bool := s.distSlot.filling == 2

/-- NEED sent to the upstream for the image being received. -/
def State.sendNeed (s : State) : State :=
  s.sendMaint s.fw.distUp.toNat (needFrame s.missingBlocks (offerDigest s.fw.offer))

/-- The frame that this module offers (R584): its own header's fields, or those of the OFFER it accepted. -/
def State.offerFrame (s : State) : Option (List Byte) :=
  let x := s.distSlot
  if s.receiving then (if x.fixed.contains 0 then some s.fw.offer else none)
  else if x.state = 2 then
    some ([0x10, 0] ++ leBytes 2 x.blocks ++ x.bytes 12 4 ++ x.bytes 16 4 ++ x.bytes 1024 4 ++ x.digest)
  else none

/-- The ports this module may send distribution frames downstream on. -/
def State.downPorts (s : State) : List Nat :=
  if s.fw.distEnable = 1 then
    (List.range 6).filter fun k => s.fw.distDown.toNat.testBit k && (s.link k).state == 5
  else []

/-- OFFER_SEND: on each downstream port that has not asked for nothing. -/
def execOfferSend (s : State) : Host.Outcome State Fault Refusal :=
  .next <| match s.offerFrame with
  | none => s
  | some f => s.downPorts.foldl (fun s k =>
      if Sparse.find s.fw.wanted k = some [] then s else s.sendMaint k f) s

/-- The PART frames of a block. -/
def partFrames (x : Slot) (digest : List Byte) (b : Nat) : List (List Byte) :=
  (List.range 512).map fun i =>
    [0x12, 0] ++ leBytes 2 b ++ leBytes 2 i ++ [0, 0] ++ digest.take 8 ++ x.bytes (blockBytes * b + 128 * i) 128

/-- The blocks a port may be sent now: asked for, present, within the window above the lowest still needed, and
not sent since the port last made progress (R586). -/
def State.dueBlocks (s : State) (k : Nat) : List Nat :=
  let w := Sparse.get [] s.fw.wanted k
  let x := s.distSlot
  w.filter fun b => (x.fixed.contains b || x.state == 2) && decide (b ≤ w.headD 0 + Sparse.get 0 s.fw.window k)
    && !(Sparse.get [] s.fw.sent k).contains b

/-- Those blocks sent, in ascending order. -/
def State.sendBlocks (s : State) (k : Nat) : State :=
  let bs := s.dueBlocks k
  let digest := if s.receiving then offerDigest s.fw.offer else s.distSlot.digest
  let s := (bs.flatMap (partFrames s.distSlot digest)).foldl (fun s f => s.sendMaint k f) s
  { s with fw := { s.fw with blocksTx := s.fw.blocksTx + BitVec.ofNat 32 bs.length,
                             sent := Sparse.put s.fw.sent k (Sparse.get [] s.fw.sent k ++ bs) } }

/-- dist_state of a module that has the whole image: forwarding while a downstream port still asks. -/
def State.settleDist (s : State) : State :=
  if s.fw.distState = 1 ∨ s.fw.distState = 4 then s
  else
    let asked := s.fw.wanted.any fun w => !w.2.isEmpty
    { s with fw := { s.fw with distState := if asked then 2 else if s.fw.distState = 0 ∧ s.fw.wanted.isEmpty then 0 else 3 } }

/-- An accepted OFFER: the slot begins to receive; the same image offered again goes on. -/
def State.acceptOffer (s : State) (f : List Byte) : State :=
  let x := s.distSlot
  if x.state = 2 ∧ x.digest = offerDigest f then s.sendMaint s.fw.distUp.toNat (needFrame [] (offerDigest f))
  else if s.receiving ∧ offerDigest s.fw.offer = offerDigest f then s.sendNeed
  else
    let s := { s with fw := { s.fw.freshImage with offer := f, distState := 1, blocksRx := 0 } }
    ((s.updSlot s.spareSlot fun _ => { Slot.reset with
      state := 1, filling := 2, total := offerCount f * blockBytes }).keepBoot).sendNeed

/-- An OFFER that arrives (R585). -/
def State.onOffer (s : State) (k : Nat) (f : List Byte) : State :=
  if s.fw.distEnable = 1 ∧ s.fw.distUp.toNat = k ∧ s.distSlot.filling ≠ 1 ∧ 1 ≤ offerCount f ∧ offerCount f ≤ 256 then
    s.acceptOffer f
  else s.sendMaint k ([0x13, 2, 0, 0] ++ offerDigest f)

/-- A distribution frame arrives on a port in service. -/
def State.distFrame (s : State) (k : Nat) (f : List Byte) (h : State → State) : State :=
  if (s.link k).state = 5 then h (s.countFrame k f) else s

/-- OFFER. -/
def execOffer (port : Fin 6) (frame : List Byte) (s : State) : Host.Outcome State Fault Refusal :=
  guarded (frame.length == 80) (s.distFrame port frame fun s => s.onOffer port frame)

/-- A NEED that arrives: what the port asks for; blocks it still lacks after no progress are sent again. -/
def State.onNeed (s : State) (k : Nat) (f : List Byte) : State :=
  let digest := takeAt f 36 64
  match s.offerFrame with
  | none => s
  | some o =>
    if offerDigest o ≠ digest ∨ !s.downPorts.contains k then s
    else
      let w := (List.range 256).filter fun b => (leAt f 4 32).testBit b
      let progress := (Sparse.find s.fw.wanted k).any fun old => decide (w.length < old.length)
      let s := { s with fw := { s.fw with
          wanted := Sparse.put s.fw.wanted k w, window := Sparse.put s.fw.window k (leAt f 1 1),
          sent := if progress then s.fw.sent else Sparse.del s.fw.sent k } }
      (s.sendBlocks k).settleDist

/-- NEED. -/
def execNeed (port : Fin 6) (frame : List Byte) (s : State) : Host.Outcome State Fault Refusal :=
  guarded (frame.length == 100) (s.distFrame port frame fun s => s.onNeed port frame)

/-- NEED_PROGRESS_TIMEOUT: 10 ms without progress. -/
def execNeedProgressTimeout (s : State) : Host.Outcome State Fault Refusal :=
  .next (if s.receiving then s.sendNeed else s)

/-- Distribution fails: slot and dist_state (R587). -/
def State.failDist (s : State) : State :=
  let s := s.updSlot s.spareSlot fun x => { x with state := 5, filling := 0 }
  { s with fw := { s.fw with distState := 4 } }.keepBoot

/-- The image is whole: R572 judges it. -/
def State.finishDist (s : State) : State :=
  let s := (s.finishSlot s.spareSlot 0).keepBoot
  if s.distSlot.state = 2 then { s with fw := { s.fw with distState := 3 } }.settleDist
  else { s with fw := { s.fw with distState := 4 } }

/-- A PART that arrives (R586). -/
def State.onPart (s : State) (k : Nat) (f : List Byte) : State :=
  let b := leAt f 2 2
  let i := leAt f 4 2
  let x := s.distSlot
  if !s.receiving ∨ s.fw.distUp.toNat ≠ k ∨ takeAt f 8 8 ≠ (offerDigest s.fw.offer).take 8
      ∨ offerCount s.fw.offer ≤ b ∨ 512 ≤ i then s
  else
    let y := x.place (blockBytes * b + 128 * i) (takeAt f 16 128)
    let z := y.judgeFrom (leAt s.fw.offer 12 4) [b]
    let failed := ((List.range (offerCount s.fw.offer)).filter fun c => y.arrived c && !z.arrived c).length
    let s := s.updSlot s.spareSlot fun _ => z
    let s := { s with fw := { s.fw with
        blocksRx := BitVec.ofNat 16 z.fixed.length,
        crcErrors := s.fw.crcErrors + BitVec.ofNat 32 failed } }
    if z.fixed.length = x.fixed.length ∧ failed = 0 then s
    else
      let s := s.downPorts.foldl (fun s k => s.sendBlocks k) s.sendNeed
      if z.fixed.length = z.blocks then s.finishDist else s

/-- PART. -/
def execPart (port : Fin 6) (frame : List Byte) (s : State) : Host.Outcome State Fault Refusal :=
  guarded (frame.length == 144) (s.distFrame port frame fun s => s.onPart port frame)

/-- An ABORT that arrives: the upstream withdraws the image. -/
def State.onAbort (s : State) (k : Nat) (f : List Byte) : State :=
  if s.receiving ∧ s.fw.distUp.toNat = k ∧ leAt f 1 1 = 1 ∧ takeAt f 4 64 = offerDigest s.fw.offer then s.failDist
  else s

/-- ABORT. -/
def execAbort (port : Fin 6) (frame : List Byte) (s : State) : Host.Outcome State Fault Refusal :=
  guarded (frame.length == 68) (s.distFrame port frame fun s => s.onAbort port frame)

/-- UPSTREAM_SILENCE: 10 s. -/
def execUpstreamSilence (s : State) : Host.Outcome State Fault Refusal :=
  .next (if s.receiving then s.failDist else s)

/-! ### Attestation (R594 to R597) -/

/-- part_code (R564). -/
def Grade.code : Grade → Nat
  | .da512 => 0xDA51
  | .da448 => 0xDA44

/-- Milliseconds since reset (R564): a stitch is 1024 cycles of 850 MHz (R13). -/
def State.uptime (s : State) : Nat := s.power.ticks * 64 / 53125

/-- The 10 ms averaging window of R614 under way; windows are counted from reset
(DESIGN CHOICE, log entry 124). -/
def State.powerWindow (s : State) : Nat := s.uptime / 10

/-- The power limit of the window under way (R624): a limit written in it holds from the next one on. -/
def State.limitNow (s : State) : Word := if s.power.limitAt < s.powerWindow then s.power.limit else s.power.limitWas

/-- A write of power_limit. -/
def State.setLimit (s : State) (w : Word) : State :=
  { s with power := { s.power with limit := w, limitWas := s.limitNow, limitAt := s.powerWindow } }

/-- Bytes 0 to 255 of the report for partition p, as the module stands. -/
def State.reportBody (s : State) (p : Nat) (nonce : List Byte) : List Byte :=
  let q := s.part p
  let l := q.layout.live
  let x := s.slot s.fw.running
  let y := s.slot s.spareSlot
  leBytes 4 0x41545301 ++ leBytes 4 1536 ++ leBytes 8 Config.serial.toNat ++ leBytes 2 s.hw.grade.code
    ++ leBytes 1 s.hw.stepping.code ++ leBytes 1 p ++ takeAt nonce 0 32 ++ leBytes 4 s.fw.runVersion.toNat
    ++ leBytes 1 s.fw.running ++ leBytes 1 (s.slot 0).state ++ leBytes 1 (s.slot 1).state ++ [s.hw.keyRevoked]
    ++ leBytes 4 s.hw.securityCounter.toNat ++ takeAt x.digest 0 64
    ++ (if y.state = 2 ∨ y.state = 4 then takeAt y.digest 0 64 else List.replicate 64 0)
    ++ [l.first, l.count, l.hostPort, l.excl] ++ leBytes 2 l.tenant.toNat ++ [s.links.testMode, 0]
    ++ leBytes 8 s.uptime ++ leBytes 8 s.tb.count.toNat
    ++ leBytes 8 ((q.pattern.map fun t => t.patternId.toNat).getD 0) ++ List.replicate 32 0

/-- The signed report. -/
def State.signedReport (s : State) (p : Nat) (nonce : List Byte) : List Byte :=
  let b := s.reportBody p nonce
  b ++ (List.range 1280).map (Config.falconSign (shake256 b))

/-- A write to attest_nonce_p: the state is captured at this instant. -/
def State.attestNonce (s : State) (p : Nat) (nonce : List Byte) : State × Answer :=
  if (s.part p).attestState = 1 then (s, denied 10)
  else
    let r := s.signedReport p nonce
    let s := s.updPart p fun q => { q with nonce := takeAt nonce 0 32, attestState := 1, report := r }
    ({ s with fw := { s.fw with attestQueue := s.fw.attestQueue ++ [p] } }, (stDONE, 0))

/-- ATTEST_NONCE. -/
def execAttestNonce (part : Fin 16) (nonce : List Byte) (s : State) : Host.Outcome State Fault Refusal :=
  .next (s.attestNonce part nonce).1

/-- ATTEST_REPORT_DONE: reports are produced one at a time, in the order of their nonces. -/
def execAttestReportDone (part : Fin 16) (s : State) : Host.Outcome State Fault Refusal :=
  let p := part.val
  .next <|
    if s.fw.attestQueue.head? = some p then
      let s := s.updPart p fun q => { q with attestState := 2 }
      { s with fw := { s.fw with attestQueue := s.fw.attestQueue.drop 1 } }
    else s

end Sys2Proof.Machine
end

