-- ==== Sys2Proof/Machine/Power.lean ====
section
/-! DEFINITION. Machine/Power.lean: reset and start-up (R602 to R604, R619 to R621), input power (R608 to
R616), thermal faults (R615, R617) and the history (R623). -/

namespace Sys2Proof.Machine

/-! ### What a reset keeps -/

/-- What memory's wear programme holds across a reset: spares used and what waits for one. -/
def MemStat.restart (m : MemStat) : MemStat :=
  { State.reset.memStat with spareLines := m.spareLines, linesPending := m.linesPending,
                             repairsFree := m.repairsFree, repairsPending := m.repairsPending }

/-- What flash keeps of power and thermal history, what the input and the sensors still do, and the ballast under
way (R612, R623). -/
def Power.restart (w : Power) : Power :=
  { State.reset.power with
    overvolt := w.overvolt, settling := w.settling, thermalHold := w.thermalHold,
    stitchStartMw := w.stitchStartMw, stitchStartScale := w.stitchStartScale,
    ballastMw := w.ballastMw, ballastTaken := w.ballastTaken, historyTaken := w.historyTaken, history := w.history,
    lifetime := w.lifetime, powerLoss := w.powerLoss, strapId := w.strapId, strapSeg := w.strapSeg,
    strapRecovery := w.strapRecovery }

/-- A port dark again: its strand map and its marked strands stay (R487), and so does the heat of its engine. -/
def Link.restart (l : Link) (k : Nat) : Link :=
  { Link.reset k with spares := l.spares, strandMap := l.strandMap, marked := l.marked, hot := l.hot }

/-- A flash region after a reset: nobody fills it, and a slot is in the state that the boot record gives it (R577). -/
def Slot.restart (x : Slot) (i : Nat) (r : BootRec) : Slot :=
  { x with filling := 0, state := match i with | 0 => r.stateA | 1 => r.stateB | _ => x.state }

/-- The module as every reset leaves it, before the boot ROM runs: each register at its reset value; fuses, flash,
die maps, spares and marks as they were. -/
def State.restart (s : State) : State :=
  { State.reset with
    hw := s.hw,
    memStat := s.memStat.restart,
    power := s.power.restart,
    cores := (s.cores.filter fun c => c.2.marked).map fun c => (c.1, { Core.reset with marked := true }),
    coll := { State.reset.coll with unitSpares := s.coll.unitSpares, markedUnits := s.coll.markedUnits },
    links := { State.reset.links with ports := s.links.ports.map (fun l => (l.1, l.2.restart l.1)),
                                      sampled := s.links.sampled, preloaded := s.links.preloaded,
                                      shelvesOut := s.links.shelvesOut, pairsOut := s.links.pairsOut },
    host := { State.reset.host with ports := (s.host.ports.filter fun h => h.2.hot).map fun h =>
      (h.1, { HostPort.reset with hot := true }) },
    mgmt := { State.reset.mgmt with label := s.mgmt.label },
    fw := { State.reset.fw with slots := s.fw.slots.map (fun x => (x.1, x.2.restart x.1 s.fw.inForce)),
                                first := s.fw.first, second := s.fw.second,
                                active := s.fw.inForce.active, trials := s.fw.inForce.trials },
    jtag := s.jtag, out := s.out, freeCtr := s.freeCtr, pending := s.pending }

/-- Straps latched, with the defaults they give (R307, R565, R602). -/
def State.latch (s : State) (modid : BitVec 13) (segpos : BitVec 3) (recoveryN : Bool) : State :=
  { s with
    power := { s.power with strapId := modid, strapSeg := segpos, strapRecovery := !recoveryN },
    fabric := { s.fabric with route := ⟨RouteGroup.reset modid, RouteGroup.reset modid⟩ },
    mgmt := { s.mgmt with net := ⟨NetGroup.reset segpos, NetGroup.reset segpos⟩ } }

/-- A reset: RESET_N rises, straps are latched, and the boot ROM chooses a slot. A module without input stays
off. -/
def State.resetNow (s : State) (modid : BitVec 13) (segpos : BitVec 3) (recoveryN : Bool) : State :=
  if s.power.boot = .off then s else (s.restart.latch modid segpos recoveryN).chooseSlot

/-- RESET (R603): a pulse of 250 ns to 1 us may or may not reset the module. torn: it falls into a write of the boot
record, which leaves the previous one in force (R577). -/
def execReset (lowNs : Nat) (modid : BitVec 13) (segpos : BitVec 3) (recoveryN : Bool) (s : State)
    (torn : Bool := false) : Host.Outcome State Fault Refusal :=
  let fall := fun (s : State) =>
    (if torn && s.power.boot != .off then { s with fw := s.fw.torn } else s).resetNow modid segpos recoveryN
  .next <|
    if lowNs < 250 then s
    else if 1000 ≤ lowNs then fall s
    else
      let t := { s with freeCtr := s.freeCtr + 1 }
      if Config.freeBool s.freeCtr then fall t else t

/-! ### Start-up (R619) -/

/-- RAIL_BRING_UP: step 4 ends: all 40 domains are locked, enabled fabric ports may come up (R620), and the first minute
of the history begins (R623). -/
def execRailBringUp (s : State) : Host.Outcome State Fault Refusal :=
  .next <|
    if s.power.boot ≠ .booting then s
    else
      let s := { s with power := { s.power with boot := .railsUp, minuteEvents := 0 }, locked := 0xFFFFFFFFFF }
      (List.range 6).foldl (fun s k =>
        if s.portEnabled k ∧ (s.link k).state = 0 then s.updLink k fun l => { l with state := 1 } else s) s

/-- HBM_TRAINING: step 5: trained, and pending repairs applied (R112). -/
def execHbmTraining (s : State) : Host.Outcome State Fault Refusal :=
  .next <|
    if s.power.boot ≠ .railsUp then s
    else s.memStat.repairsPending.foldl State.repairRow { s with power := { s.power with boot := .hbmTrained } }

/-- MODULE_READY: steps 6 and 7: every HBM unit is zeroed, and trial firmware confirms (R579). A power input fault
delays it until the input settles. -/
def execModuleReady (s : State) : Host.Outcome State Fault Refusal :=
  .next <|
    if s.power.boot ≠ .hbmTrained ∨ s.power.settling then s
    else
      let s := { s with mem := memZero s.mem 0 hbmEnd, power := { s.power with boot := .ready } }
      if (s.slot s.fw.running).state = 3 then (s.confirm s.fw.running).keepBoot else s

/-! ### Input power (R608, R614, R615) -/

/-- INPUT_RISE: start-up begins; RESET_N is low and will rise. -/
def execInputRise (s : State) : Host.Outcome State Fault Refusal :=
  .next (if s.power.boot = .off ∧ !s.power.overvolt then { s with power := { s.power with boot := .waitReset } } else s)

/-- A record of R623. -/
def recordBytes (m : Meas) (events : Half) : List Byte :=
  leBytes 4 m.minute.toNat ++ leBytes 4 m.lowMv.toNat ++ leBytes 2 m.highW.toNat ++ leBytes 2 m.meanW.toNat
    ++ (List.range 4).flatMap (fun i => leBytes 2 (m.temps.getD i 0).toNat) ++ leBytes 2 events.toNat
    ++ List.replicate 10 0

/-- Every load cut at once: the module is off, without ballast (R608, R612). -/
def State.cut (s : State) : State :=
  let s := s.restart
  let w := { s.power with boot := .off, stitchStartMw := 0, stitchStartScale := 2 ^ 24, ballastMw := 0,
                          ballastTaken := 0 }
  { s with locked := 0, power := w }

/-- POWER_LOSS: one power-loss record goes to flash, then the module is off. -/
def execPowerLoss (m : Meas) (s : State) : Host.Outcome State Fault Refusal :=
  .next (if s.power.boot = .off then s
    else { s with power := { s.power with powerLoss := recordBytes m s.power.minuteEvents } }.cut)

/-- OVERVOLTAGE: the input switch opens. -/
def execOvervoltage (s : State) : Host.Outcome State Fault Refusal :=
  .next (if s.power.boot = .off then s
    else { s with power := { s.power with overvolt := true } }.cut)

/-- INPUT_FALLS_BELOW_54V: the switch closes again, and start-up begins. -/
def execInputFallsBelow54v (s : State) : Host.Outcome State Fault Refusal :=
  .next (if s.power.overvolt then { s with power := { s.power with overvolt := false, boot := .waitReset } } else s)

/-- A fault of class 10 counted for the minute's record. -/
def State.countEvent (s : State) : State :=
  { s with power := { s.power with minuteEvents := s.power.minuteEvents + 1 } }

/-- POWER_INPUT_FAULT: every partition stops, and none starts until the input has settled. -/
def execPowerInputFault (s : State) : Host.Outcome State Fault Refusal :=
  .next <|
    if s.power.boot = .off then s
    else { s with power := { s.power with faults := s.power.faults + 1, settling := true } }.countEvent.fault
      stPOWER_INPUT 10 0 0 allParts 0 0

/-- INPUT_SETTLED: in range for 1 s. -/
def execInputSettled (s : State) : Host.Outcome State Fault Refusal :=
  .next { s with power := { s.power with settling := false } }

/-- POWER_LIMIT_EXCEEDED: the mean of 10 ms exceeds the power_limit of that window (R614, R624). -/
def execPowerLimitExceeded (watts : Nat) (s : State) : Host.Outcome State Fault Refusal :=
  .next <|
    if s.power.boot = .off ∨ watts ≤ s.limitNow.toNat then s
    else { s with power := { s.power with faults := s.power.faults + 1 } }.countEvent.fault
      stPOWER_LIMIT 10 0 0 allParts 0 0

/-! ### Temperature (R615, R617) -/

/-- The unit a sensor's fault names (R491), or the port of an optical engine (R605): 6 and 7 are the Yepecy
ports. -/
def sensorUnit : Sensor → (Nat × Nat) ⊕ Nat
  | .compute d => .inl (2, d)
  | .hub h => .inl (6, h)
  | .hbm k => .inl (3, k)
  | .optical i => .inr ([0, 0, 0, 0, 2, 2, 4, 6, 7, 1, 1, 1, 1, 3, 3, 5].getD i 0)

/-- An optical engine trips: its port leaves service, and stays down while the engine is hot. -/
def State.tripPort (s : State) (k : Nat) : State :=
  if k < 6 then
    let s := s.updLink k fun l => { l with hot := true }
    let st := (s.link k).state.toNat
    if st = 5 then s.losePort k 0
    else if 2 ≤ st ∧ st ≤ 7 then s.setPort k 1 else s
  else
    let s := if (s.hport (k - 6)).state = 3 then s.loseHost (k - 6) else s
    s.updHport (k - 6) fun h => { h with hot := true, state := 0, hellos := 0 }

/-- THERMAL_TRIP. -/
def execThermalTrip (sensor : Sensor) (s : State) : Host.Outcome State Fault Refusal :=
  .next <|
    if s.power.boot = .off then s
    else
      let s := { s with power := { s.power with trips := s.power.trips + 1 } }.countEvent
      match sensorUnit sensor with
      | .inl u => { s with power := { s.power with thermalHold := true } }.fault stTHERMAL 10 u.1 u.2 allParts 0 0
      | .inr k => s.tripPort k

/-- THERMAL_WARNING: counted, and the history marked. -/
def execThermalWarning (_sensor : Sensor) (s : State) : Host.Outcome State Fault Refusal :=
  .next (if s.power.boot = .off then s
    else { s with power := { s.power with warnings := s.power.warnings + 1 } }.countEvent)

/-- THERMAL_HOLD_END: every sensor has cooled, or an optical engine has. -/
def execThermalHoldEnd (port : Option (Fin 8)) (s : State) : Host.Outcome State Fault Refusal :=
  .next <| match port with
  | none => { s with power := { s.power with thermalHold := false } }
  | some k =>
    if k.val < 6 then s.updLink k.val fun l => { l with hot := false }
    else s.updHport (k.val - 6) fun h => { h with hot := false }

/-! ### History (R623) -/

/-- The higher of two temperatures. -/
def hotter (a b : Half) : Half := if a.slt b then b else a

/-- The lifetime record after another record: the minute of the last one, and the extremes of every other field. -/
def lifetimeWith (old : List Byte) (first : Bool) (m : Meas) (events : Half) : List Byte :=
  if first then recordBytes m events
  else
    let h := fun o => BitVec.ofNat 16 (leAt old o 2)
    recordBytes
      { minute := m.minute, lowMv := BitVec.ofNat 32 (min (leAt old 4 4) m.lowMv.toNat),
        highW := BitVec.ofNat 16 (max (leAt old 8 2) m.highW.toNat),
        meanW := BitVec.ofNat 16 (max (leAt old 10 2) m.meanW.toNat),
        temps := (List.range 4).map fun i => hotter (h (12 + 2 * i)) (m.temps.getD i 0) }
      (BitVec.ofNat 16 (max (leAt old 20 2) events.toNat))

/-- HISTORY_RECORD: one record for each minute from the end of step 4. -/
def execHistoryRecord (m : Meas) (s : State) : Host.Outcome State Fault Refusal :=
  let w := s.power
  let up := w.boot = .railsUp ∨ w.boot = .hbmTrained ∨ w.boot = .ready
  .next <|
    if up then { s with power := { w with
      historyTaken := w.historyTaken + 1, history := pushRing 1440 w.history (recordBytes m w.minuteEvents),
      lifetime := lifetimeWith w.lifetime w.history.isEmpty m w.minuteEvents, minuteEvents := 0 } }
    else s

end Sys2Proof.Machine
end

