-- ==== Sys2Proof/Machine/Dict.lean ====
section
/-! DEFINITION. Machine/Dict.lean: the entries of the Asrel dictionary (R38, R84, R125 to R127, R307, R353, R404,
R422, R465, R495, R532, R564, R565, R599, R622): what each is, and the value it holds. -/

namespace Sys2Proof.Machine

/-! ### Types and access codes (R545, R546) -/

/-- The type of an entry, with the length of OCTETS and the greatest length of STRING and DOMAIN. -/
inductive EType where
  | u8
  | u16
  | u32
  | u64
  | i32
  | f32
  | octets (n : Nat)
  | string (n : Nat)
  | domain (n : Nat)
  deriving DecidableEq, Repr

/-- The access code of an entry. -/
inductive Access where
  | ro
  | rw
  | wo
  | const
  | rws
  deriving DecidableEq, Repr

/-- The type code of R545. -/
def typeCode : EType → Nat
  | .u8 => 1
  | .u16 => 2
  | .u32 => 3
  | .u64 => 4
  | .i32 => 5
  | .f32 => 6
  | .octets _ => 7
  | .string _ => 8
  | .domain _ => 9

/-- The length of a value, or the greatest. -/
def typeLen : EType → Nat
  | .u8 => 1
  | .u16 => 2
  | .u32 => 4
  | .u64 => 8
  | .i32 => 4
  | .f32 => 4
  | .octets n => n
  | .string n => n
  | .domain n => n

/-- The access code of R546. -/
def accessCode : Access → Nat
  | .ro => 1
  | .rw => 2
  | .wo => 3
  | .const => 4
  | .rws => 5

/-- Whom the subindices of a row belong to. -/
inductive Owner where
  | module
  | part
  | window
  deriving DecidableEq, Repr

/-- A row of a chapter's table: n subindices from lo, step apart. numbered: their names end in a number; record:
the bytes of one record of a DOMAIN, 0 where it has none. -/
structure EntryRow where
  lo : Nat
  n : Nat
  step : Nat
  name : String
  numbered : Bool
  typ : EType
  access : Access
  owner : Owner
  group : Bool
  record : Nat
  deriving DecidableEq, Repr

/-- A row of one subindex. -/
def one (lo : Nat) (name : String) (typ : EType) (access : Access) : EntryRow :=
  { lo := lo, n := 1, step := 1, name := name, numbered := false, typ := typ, access := access, owner := .module,
    group := false, record := 0 }

/-- A row of n subindices. -/
def many (lo n : Nat) (name : String) (typ : EType) (access : Access) : EntryRow :=
  { one lo name typ access with n := n, numbered := true }

/-- A row of one subindex for each partition. -/
def parts (lo : Nat) (name : String) (typ : EType) (access : Access) : EntryRow :=
  { many lo 16 name typ access with owner := .part }

/-- A row of one subindex for each window of each partition. -/
def windows (lo : Nat) (name : String) (typ : EType) (access : Access) : EntryRow :=
  { many lo 64 name typ access with owner := .window }

/-- A row of one subindex for each fabric port. -/
def ports (lo : Nat) (name : String) (typ : EType) (access : Access) : EntryRow :=
  { many lo 6 name typ access with step := 16 }

/-- A member of a commit group. -/
def EntryRow.grouped (r : EntryRow) : EntryRow := { r with group := true }

/-! ### The tables -/

/-- Index 0x1000. -/
def rows1000 : List EntryRow :=
  [one 0x00 "highest_sub" .u8 .const,
   one 0x01 "vendor_name" (.string 8) .const,
   one 0x02 "family_name" (.string 6) .const,
   one 0x03 "part_code" .u16 .const,
   one 0x04 "stepping" .u8 .const,
   one 0x05 "serial" .u64 .const,
   one 0x06 "build_date" .u32 .const,
   one 0x07 "mac_address" (.octets 6) .const,
   one 0x08 "asrel_version" .u16 .const,
   one 0x09 "uptime" .u64 .ro,
   one 0x0A "asset_label" (.string 32) .rw]

/-- Index 0x1100. -/
def rows1100 : List EntryRow :=
  [one 0x00 "highest_sub" .u8 .const,
   (one 0x01 "plca_enable" .u8 .rw).grouped,
   (one 0x02 "plca_node_id" .u8 .rw).grouped,
   (one 0x03 "plca_node_count" .u8 .rw).grouped,
   (one 0x04 "plca_to_timer" .u8 .rw).grouped,
   (one 0x05 "plca_burst_count" .u8 .rw).grouped,
   (one 0x06 "plca_burst_timer" .u8 .rw).grouped,
   (one 0x07 "unicast_addr" (.octets 16) .rw).grouped,
   (one 0x08 "prefix_length" .u8 .rw).grouped,
   (one 0x09 "asrel_port" .u16 .rw).grouped,
   (many 0x0A 4 "manager_" (.octets 16) .rw).grouped,
   one 0x0E "net_commit" .u8 .wo,
   one 0x0F "net_commit_status" .u16 .ro,
   one 0x10 "link_local" (.octets 16) .ro,
   one 0x11 "addr_state" .u8 .ro,
   one 0x12 "frames_rx" .u64 .ro,
   one 0x13 "frames_tx" .u64 .ro,
   one 0x14 "frame_errors" .u64 .ro,
   one 0x15 "requests_dropped" .u64 .ro,
   one 0x16 "requests_refused" .u64 .ro]

/-- Index 0x1200. -/
def rows1200 : List EntryRow :=
  [one 0x00 "highest_sub" .u8 .const,
   one 0x01 "running_slot" .u8 .ro,
   one 0x02 "running_version" .u32 .ro,
   one 0x03 "slot_state_a" .u8 .ro,
   one 0x04 "slot_state_b" .u8 .ro,
   one 0x05 "slot_version_a" .u32 .ro,
   one 0x06 "slot_version_b" .u32 .ro,
   one 0x07 "slot_digest_a" (.octets 64) .ro,
   one 0x08 "slot_digest_b" (.octets 64) .ro,
   one 0x09 "security_counter" .u32 .ro,
   one 0x0A "key_revoked" .u8 .ro,
   one 0x0B "recovery_reason" .u8 .ro,
   one 0x0C "activate" .u8 .wo,
   one 0x0D "activate_status" .u16 .ro,
   one 0x0E "erase" .u8 .wo,
   one 0x0F "slot_store_a" (.domain 16777216) .wo,
   one 0x10 "slot_store_b" (.domain 16777216) .wo,
   one 0x11 "staging_store" (.domain 16777216) .wo,
   one 0x12 "store_blocks" (.octets 96) .ro,
   one 0x13 "handovers" .u32 .ro,
   one 0x14 "handovers_rolled_back" .u32 .ro]

/-- Index 0x1201. -/
def rows1201 : List EntryRow :=
  [one 0x00 "highest_sub" .u8 .const,
   one 0x01 "identity_public_key" (.octets 1793) .const,
   one 0x02 "identity_certificate" (.domain 3100) .const,
   parts 0x03 "attest_nonce_" (.octets 32) .rw,
   parts 0x13 "attest_state_" .u8 .ro,
   parts 0x23 "attest_report_" (.domain 1536) .ro]

/-- Index 0x1202. -/
def rows1202 : List EntryRow :=
  [one 0x00 "highest_sub" .u8 .const,
   one 0x01 "dist_enable" .u8 .rw,
   one 0x02 "dist_upstream" .u8 .rw,
   one 0x03 "dist_downstream" .u8 .rw,
   one 0x04 "dist_state" .u8 .ro,
   one 0x05 "dist_blocks_rx" .u16 .ro,
   one 0x06 "dist_blocks_tx" .u32 .ro,
   one 0x07 "dist_crc_errors" .u32 .ro]

/-- Index 0x1300. -/
def rows1300 : List EntryRow :=
  [one 0x00 "highest_sub" .u8 .const,
   one 0x01 "module_state" .u8 .ro,
   one 0x02 "input_voltage" .u32 .ro,
   one 0x03 "input_current" .u32 .ro,
   one 0x04 "input_power" .u32 .ro,
   one 0x05 "power_estimate" .u32 .ro,
   one 0x06 "power_limit" .u32 .rw,
   one 0x07 "ballast_now" .u32 .ro,
   one 0x08 "ballast_stitches" .u64 .ro,
   one 0x09 "limiter_stalls" .u64 .ro,
   one 0x0A "weight_tensor" .u16 .const,
   one 0x0B "weight_vector" .u16 .const,
   one 0x0C "weight_row" .u16 .const,
   one 0x0D "weight_mover" .u16 .const,
   one 0x0E "temp_compute" (.octets 16) .ro,
   one 0x0F "temp_hub" (.octets 8) .ro,
   one 0x10 "temp_hbm" (.octets 24) .ro,
   one 0x11 "temp_optical" (.octets 32) .ro,
   one 0x12 "thermal_warnings" .u64 .ro,
   one 0x13 "power_faults" .u64 .ro,
   one 0x14 "thermal_trips" .u64 .ro]

/-- Index 0x1301. -/
def rows1301 : List EntryRow :=
  [one 0x00 "highest_sub" .u8 .const,
   one 0x01 "history_taken" .u32 .ro,
   one 0x02 "history" (.domain 46080) .ro,
   one 0x03 "lifetime" (.octets 32) .ro,
   one 0x04 "power_loss" (.octets 32) .ro]

/-- Index 0x1302. -/
def rows1302 : List EntryRow :=
  [one 0x00 "highest_sub" .u8 .const,
   one 0x01 "strap_module_id" .u16 .ro,
   one 0x02 "strap_segment" .u8 .ro,
   one 0x03 "strap_recovery" .u8 .ro]

/-- Index 0x2000. -/
def rows2000 : List EntryRow :=
  [one 0x00 "highest_sub" .u8 .const,
   one 0x01 "grade_name" (.string 6) .const,
   one 0x02 "shelf_count" .u8 .const,
   one 0x03 "core_count" .u16 .const,
   one 0x04 "shelves_per_die" .u8 .const,
   one 0x05 "cellar_bytes" .u64 .const,
   one 0x06 "hbm_stacks" .u8 .const,
   one 0x07 "hbm_bytes" .u64 .const,
   one 0x08 "sequence_limit" .u8 .const,
   one 0x09 "partition_limit" .u8 .const,
   one 0x0A "hub_count" .u8 .const,
   one 0x0B "fabric_strands" .u16 .const,
   one 0x0C "host_ports" .u8 .const,
   one 0x0D "reduction_units" .u8 .const,
   one 0x0E "descriptor_handles" .u16 .const,
   one 0x0F "tallies_per_core" .u16 .const]

/-- Index 0x2001. -/
def rows2001 : List EntryRow :=
  [one 0x00 "highest_sub" .u8 .const,
   one 0x01 "arith_clock" .u32 .const,
   one 0x02 "link_clock" .u32 .const,
   one 0x03 "hbm_ctrl_clock" .u32 .const,
   one 0x04 "ref_clock" .u32 .const,
   one 0x05 "momond_clock" .u32 .const,
   one 0x06 "domain_count" .u8 .const,
   one 0x07 "domain_locked" .u64 .ro]

/-- Index 0x2002. -/
def rows2002 : List EntryRow :=
  [one 0x00 "highest_sub" .u8 .const,
   many 0x01 8 "die_map_" (.octets 68) .ro]

/-- Index 0x2100. -/
def rows2100 : List EntryRow :=
  [one 0x00 "highest_sub" .u8 .const,
   one 0x01 "cellar_line_bytes" .u16 .const,
   one 0x02 "cellar_banks" .u8 .const,
   one 0x03 "cellar_spare_lines" .u32 .ro,
   one 0x04 "cellar_ecc_corrected" .u64 .ro,
   one 0x05 "cellar_ecc_uncorrected" .u64 .ro,
   one 0x06 "cellar_scrub_period" .u32 .rw,
   one 0x07 "hbm_line_bytes" .u16 .const,
   one 0x08 "hbm_pseudo_channels" .u16 .const,
   one 0x09 "hbm_ecc_corrected" .u64 .ro,
   one 0x0A "hbm_ecc_uncorrected" .u64 .ro,
   one 0x0B "hbm_parity_retries" .u64 .ro,
   one 0x0C "hbm_repairs_free" .u32 .ro,
   one 0x0D "hbm_repairs_pending" .u32 .ro,
   one 0x0E "hbm_end" .u32 .const]

/-- Index 0x2101. -/
def rows2101 : List EntryRow :=
  [one 0x00 "highest_sub" .u8 .const,
   (windows 0x01 "window_base_" .u32 .rws).grouped,
   (windows 0x41 "window_length_" .u32 .rws).grouped,
   parts 0x81 "window_commit_" .u8 .wo]

/-- Index 0x2102. -/
def rows2102 : List EntryRow :=
  [one 0x00 "highest_sub" .u8 .const,
   (parts 0x01 "larder_base_" .u32 .rws).grouped,
   (parts 0x11 "larder_length_" .u32 .rws).grouped,
   parts 0x21 "larder_commit_" .u8 .wo]

/-- Index 0x2103. -/
def rows2103 : List EntryRow :=
  [one 0x00 "highest_sub" .u8 .const,
   many 0x01 48 "larder_fill_" .u64 .ro,
   many 0x31 48 "larder_peak_" .u64 .ro,
   many 0x61 48 "larder_records_" .u16 .ro]

/-- Index 0x2200. -/
def rows2200 : List EntryRow :=
  [one 0x00 "highest_sub" .u8 .const,
   one 0x01 "round_mode_default" .u8 .rw,
   one 0x02 "subnormal_mode" .u8 .rw,
   one 0x03 "fp8_overflow" .u8 .rw,
   one 0x04 "compensation_default" .u8 .rw,
   one 0x05 "mx_block_elements" .u8 .const,
   parts 0x10 "sr_seed_" .u64 .rws]

/-- Index 0x2300. -/
def rows2300 : List EntryRow :=
  [one 0x00 "highest_sub" .u8 .const,
   (one 0x01 "module_id" .u16 .rw).grouped,
   (one 0x02 "size_x" .u8 .rw).grouped,
   (one 0x03 "size_y" .u8 .rw).grouped,
   (one 0x04 "size_z" .u8 .rw).grouped,
   (one 0x05 "seam_x" .u8 .rw).grouped,
   (one 0x06 "seam_y" .u8 .rw).grouped,
   (one 0x07 "seam_z" .u8 .rw).grouped,
   (one 0x08 "axis_mode" .u8 .rw).grouped,
   (one 0x09 "port_enable" .u8 .rw).grouped,
   one 0x0A "route_hold" .u8 .rw,
   one 0x0B "route_drained" .u8 .ro,
   one 0x0C "route_commit" .u8 .wo,
   one 0x0D "route_commit_status" .u16 .ro,
   one 0x0E "escape_patience" .u16 .rw,
   one 0x0F "transfer_timeout" .u32 .rw,
   one 0x10 "receive_contexts" .u16 .const,
   one 0x11 "skein_limit" .u16 .const,
   one 0x12 "skeins_open" .u16 .ro]

/-- Index 0x2301. -/
def rows2301 : List EntryRow :=
  [one 0x00 "highest_sub" .u8 .const,
   ports 0x01 "tx_packets_" .u64 .ro,
   ports 0x02 "tx_flits_" .u64 .ro,
   ports 0x03 "rx_packets_" .u64 .ro,
   ports 0x04 "rx_flits_" .u64 .ro,
   ports 0x05 "stall_request_" .u64 .ro,
   ports 0x06 "stall_reply_" .u64 .ro,
   ports 0x07 "stall_maint_" .u64 .ro,
   ports 0x08 "escape_taken_" .u64 .ro,
   ports 0x09 "seam_crossings_" .u64 .ro,
   ports 0x0A "depth_now_" (.octets 20) .ro,
   ports 0x0B "depth_peak_" (.octets 20) .ro,
   ports 0x0C "peak_clear_" .u8 .wo]

/-- Index 0x2302. -/
def rows2302 : List EntryRow :=
  [one 0x00 "highest_sub" .u8 .const,
   one 0x01 "packets_delivered" .u64 .ro,
   one 0x02 "transfers_completed" .u64 .ro,
   one 0x03 "early_last" .u64 .ro,
   one 0x04 "check_discards" .u64 .ro,
   one 0x05 "count_overruns" .u64 .ro,
   one 0x06 "transfer_timeouts" .u64 .ro,
   one 0x07 "hop_discards" .u64 .ro,
   one 0x08 "sched_unmatched" .u64 .ro,
   one 0x09 "stray_packets" .u64 .ro,
   one 0x0A "contexts_free" .u16 .ro]

/-- Index 0x2303. -/
def rows2303 : List EntryRow :=
  [one 0x00 "highest_sub" .u8 .const,
   one 0x01 "sample_point" .u8 .rw,
   one 0x02 "sample_classes" .u8 .rw,
   one 0x03 "sample_partitions" .u16 .rw,
   one 0x04 "sample_every" .u32 .rw,
   one 0x05 "sample_taken" .u32 .ro,
   one 0x06 "sample_ring" (.domain 2560) .ro]

/-- Index 0x2400. -/
def rows2400 : List EntryRow :=
  [one 0x00 "highest_sub" .u8 .const,
   one 0x01 "unit_pairs_x" .u8 .const,
   one 0x02 "unit_pairs_y" .u8 .const,
   one 0x03 "unit_pairs_z" .u8 .const,
   one 0x04 "member_limit" .u8 .const,
   one 0x05 "scalar_limit" .u8 .const,
   one 0x06 "unit_spares" .u8 .ro,
   one 0x07 "collectives_done" .u64 .ro,
   one 0x08 "late_exclusions" .u64 .ro,
   one 0x09 "quarantines" .u64 .ro,
   one 0x0A "digest_mismatches" .u64 .ro]

/-- Index 0x2401. -/
def rows2401 : List EntryRow :=
  [one 0x00 "highest_sub" .u8 .const,
   one 0x01 "event_taken" .u32 .ro,
   one 0x02 "event_ring" (.domain 2048) .ro,
   one 0x03 "digest_taken" .u32 .ro,
   one 0x04 "digest_ring" (.domain 10240) .ro]

/-- Index 0x2402. -/
def rows2402 : List EntryRow :=
  [one 0x00 "highest_sub" .u8 .const,
   one 0x01 "ledger_capacity" .u16 .const,
   one 0x02 "ledger_used" .u16 .ro,
   parts 0x03 "ledger_clear_" .u8 .rws,
   parts 0x13 "ledger_" (.domain 147456) .ro]

/-- Index 0x2403. -/
def rows2403 : List EntryRow :=
  [one 0x00 "highest_sub" .u8 .const,
   parts 0x01 "clip_norm_" .f32 .rws,
   { parts 0x11 "replay_table_" (.domain 768) .rws with record := 12 },
   parts 0x21 "norm_accum_" (.octets 32) .ro]

/-- Index 0x2500. -/
def rows2500 : List EntryRow :=
  [one 0x00 "highest_sub" .u8 .const,
   one 0x01 "timebase_role" .u8 .rw,
   one 0x02 "parent_port" .u8 .rw,
   one 0x03 "tb_state" .u8 .ro,
   one 0x04 "stitch_count" .u64 .ro,
   one 0x05 "parent_offset" .i32 .ro,
   one 0x06 "guard" .u16 .const,
   one 0x07 "stitch_cycles" .u16 .const,
   many 0x08 6 "link_latency_" .u32 .ro,
   one 0x0E "tb_faults" .u64 .ro]

/-- Index 0x2501. -/
def rows2501 : List EntryRow :=
  [one 0x00 "highest_sub" .u8 .const,
   one 0x01 "iface_versions" .u32 .const,
   one 0x02 "slip_lag_min" .u16 .const,
   one 0x03 "slip_lag_max" .u16 .const,
   one 0x04 "governor_limit" .u16 .const,
   one 0x05 "governor_scale" .f32 .rw,
   one 0x06 "slips_total" .u64 .ro,
   one 0x07 "governor_stitches" .u64 .ro,
   one 0x08 "holds_late" .u64 .ro,
   one 0x09 "manifest_depth" .u8 .const]

/-- Index 0x2502. -/
def rows2502 : List EntryRow :=
  [one 0x00 "highest_sub" .u8 .const,
   parts 0x01 "pattern_id_" .u64 .ro,
   parts 0x11 "pattern_stitch_" .u64 .ro,
   parts 0x21 "step_" .u32 .ro,
   parts 0x31 "slips_" .u64 .ro]

/-- Index 0x2503. -/
def rows2503 : List EntryRow :=
  [one 0x00 "highest_sub" .u8 .const,
   one 0x01 "slip_taken" .u32 .ro,
   one 0x02 "slip_log" (.domain 6144) .ro]

/-- Index 0x2600. -/
def rows2600 : List EntryRow :=
  [one 0x00 "highest_sub" .u8 .const,
   (parts 0x01 "first_shelf_" .u8 .rws).grouped,
   (parts 0x11 "shelves_" .u8 .rws).grouped,
   (parts 0x21 "host_port_" .u8 .rws).grouped,
   (parts 0x31 "tenant_" .u16 .rws).grouped,
   (parts 0x41 "exclusive_" .u8 .rws).grouped,
   (parts 0x51 "class_" .u8 .rws).grouped,
   (parts 0x61 "context_mask_" .u64 .rws).grouped,
   (parts 0x71 "unit_mask_" .u32 .rws).grouped,
   parts 0x81 "layout_commit_" .u8 .wo]

/-- Index 0x2601. -/
def rows2601 : List EntryRow :=
  [one 0x00 "highest_sub" .u8 .const,
   (parts 0x01 "inject_min_" .u32 .rws).grouped,
   (parts 0x11 "hbm_share_" .u8 .rws).grouped,
   (parts 0x21 "skein_min_" .u16 .rws).grouped,
   (parts 0x31 "rxctx_min_" .u16 .rws).grouped,
   (parts 0x41 "ledger_min_" .u16 .rws).grouped,
   (parts 0x51 "gather_min_" .u16 .rws).grouped,
   parts 0x61 "guarantee_commit_" .u8 .wo,
   parts 0x71 "inject_now_" .u32 .ro,
   parts 0x81 "hbm_now_" .u8 .ro]

/-- Index 0x2602. -/
def rows2602 : List EntryRow :=
  [one 0x00 "highest_sub" .u8 .const,
   (parts 0x01 "slice_tag_" .u32 .rws).grouped,
   (parts 0x11 "box_lo_" .u16 .rws).grouped,
   (parts 0x21 "box_size_" .u16 .rws).grouped,
   (parts 0x31 "peer_boxes_" (.octets 32) .rws).grouped,
   parts 0x41 "axis_modes_" .u8 .ro,
   parts 0x51 "placement_commit_" .u8 .wo]

/-- Index 0x2603. -/
def rows2603 : List EntryRow :=
  [one 0x00 "highest_sub" .u8 .const,
   one 0x01 "other_share" .u8 .rw,
   one 0x02 "sched_limit_x" .u32 .ro,
   one 0x03 "sched_limit_y" .u32 .ro,
   one 0x04 "sched_limit_z" .u32 .ro,
   one 0x05 "inject_capacity" .u32 .ro,
   one 0x06 "hbm_capacity" .u8 .ro,
   one 0x07 "drain_limit" .u32 .rw,
   one 0x08 "commit_status" .u16 .ro,
   one 0x09 "reduced_events" .u64 .ro,
   one 0x0A "tenancy_taken" .u32 .ro,
   one 0x0B "tenancy_ring" (.domain 1024) .ro,
   one 0x0C "privilege_refusals" .u64 .ro]

/-- Index 0x2700. -/
def rows2700 : List EntryRow :=
  [one 0x00 "highest_sub" .u8 .const,
   one 0x01 "fault_taken" .u32 .ro,
   one 0x02 "fault_ring" (.domain 4096) .ro,
   one 0x03 "shelves_out" .u64 .ro,
   one 0x04 "pairs_out" .u32 .ro,
   one 0x05 "core_spares_free" (.octets 8) .ro,
   one 0x06 "lines_pending" .u32 .ro,
   one 0x07 "cores_pending" .u16 .ro,
   one 0x08 "wear_strand_limit" .u32 .rw,
   one 0x09 "wear_line_limit" .u16 .rw,
   one 0x0A "wear_row_limit" .u16 .rw,
   one 0x0B "wear_core_limit" .u8 .rw,
   one 0x0C "module_faults" .u64 .ro,
   one 0x0D "test_mode" .u8 .ro]

/-- Index 0x2701. -/
def rows2701 : List EntryRow :=
  [one 0x00 "highest_sub" .u8 .const,
   ports 0x01 "port_state_" .u8 .ro,
   ports 0x02 "neighbour_id_" .u16 .ro,
   ports 0x03 "neighbour_port_" .u8 .ro,
   ports 0x04 "neighbour_serial_" .u64 .ro,
   ports 0x05 "link_version_" .u32 .ro,
   ports 0x06 "expected_serial_" .u64 .rw,
   ports 0x07 "spares_free_" .u8 .ro,
   ports 0x08 "strand_map_" (.octets 64) .ro,
   ports 0x09 "rx_power_" (.octets 144) .ro,
   ports 0x0A "laser_power_" (.octets 8) .ro,
   ports 0x0B "corrected_" .u64 .ro,
   ports 0x0C "uncorrectable_" .u64 .ro,
   ports 0x0D "retrain_" .u8 .wo]

/-- Index 0x2800. -/
def rows2800 : List EntryRow :=
  [one 0x00 "highest_sub" .u8 .const,
   one 0x01 "yl_version" .u32 .const,
   many 0x02 2 "yl_state_" .u8 .ro,
   many 0x04 2 "yl_link_version_" .u32 .ro,
   one 0x06 "directory_lines" .u32 .const,
   many 0x07 2 "lines_held_" .u32 .ro,
   one 0x09 "host_timeout" .u32 .rw,
   one 0x0A "hq_idle_timeout" .u32 .rw,
   one 0x0B "host_refusals" .u64 .ro,
   one 0x0C "recalls" .u64 .ro,
   one 0x0D "early_length" .u64 .ro,
   (parts 0x10 "host_aperture_base_" .u64 .rws).grouped,
   (parts 0x20 "host_aperture_length_" .u64 .rws).grouped,
   (parts 0x30 "cacheable_windows_" .u8 .rws).grouped,
   parts 0x40 "aperture_commit_" .u8 .wo]

/-- Index 0x2900. -/
def rows2900 : List EntryRow :=
  [one 0x00 "highest_sub" .u8 .const,
   one 0x01 "gather_records" .u16 .const,
   one 0x02 "gather_records_used" .u16 .ro,
   one 0x03 "gathers_forward" .u64 .ro,
   one 0x04 "gathers_backward" .u64 .ro,
   one 0x05 "gathers_attic" .u64 .ro,
   one 0x06 "stale_shards" .u64 .ro,
   one 0x07 "gather_table_full" .u64 .ro,
   one 0x08 "stats_ring_depth" .u8 .const]

/-- Index 0x2901. -/
def rows2901 : List EntryRow :=
  [one 0x00 "highest_sub" .u8 .const,
   parts 0x01 "stats_" (.domain 1024) .ro,
   parts 0x11 "stats_taken_" .u32 .ro,
   parts 0x21 "stats_clear_" .u8 .rws]

/-- The rows of an index; none for an index that no chapter defines. -/
def rowsOf (index : Nat) : List EntryRow :=
  match index with
  | 0x1000 => rows1000
  | 0x1100 => rows1100
  | 0x1200 => rows1200
  | 0x1201 => rows1201
  | 0x1202 => rows1202
  | 0x1300 => rows1300
  | 0x1301 => rows1301
  | 0x1302 => rows1302
  | 0x2000 => rows2000
  | 0x2001 => rows2001
  | 0x2002 => rows2002
  | 0x2100 => rows2100
  | 0x2101 => rows2101
  | 0x2102 => rows2102
  | 0x2103 => rows2103
  | 0x2200 => rows2200
  | 0x2300 => rows2300
  | 0x2301 => rows2301
  | 0x2302 => rows2302
  | 0x2303 => rows2303
  | 0x2400 => rows2400
  | 0x2401 => rows2401
  | 0x2402 => rows2402
  | 0x2403 => rows2403
  | 0x2500 => rows2500
  | 0x2501 => rows2501
  | 0x2502 => rows2502
  | 0x2503 => rows2503
  | 0x2600 => rows2600
  | 0x2601 => rows2601
  | 0x2602 => rows2602
  | 0x2603 => rows2603
  | 0x2700 => rows2700
  | 0x2701 => rows2701
  | 0x2800 => rows2800
  | 0x2900 => rows2900
  | 0x2901 => rows2901
  | _ => []

/-- Whether a row has a subindex. -/
def EntryRow.has (r : EntryRow) (sub : Nat) : Bool :=
  decide (r.lo ≤ sub) && (sub - r.lo) % r.step == 0 && decide ((sub - r.lo) / r.step < r.n)

/-- The row of an entry; none where the entry is not defined (R544 reason 1, R548, R563). -/
def rowOf (index sub : Nat) : Option EntryRow := (rowsOf index).find? fun r => r.has sub

/-- The place of a subindex in its row. -/
def EntryRow.at (r : EntryRow) (sub : Nat) : Nat := (sub - r.lo) / r.step

/-- The partition of a per-partition subindex. -/
def EntryRow.part (r : EntryRow) (sub : Nat) : Option Nat :=
  match r.owner with
  | .module => none
  | .part => some (r.at sub)
  | .window => some (r.at sub / 4)

/-- The decimal digits of a number below 100. -/
def digits (n : Nat) : String := if n < 10 then toString n else toString (n / 10) ++ toString (n % 10)

/-- The name of an entry (R546). -/
def EntryRow.nameAt (r : EntryRow) (sub : Nat) : String :=
  let i := r.at sub
  match r.numbered, r.owner with
  | false, _ => r.name
  | true, .window => r.name ++ digits (i / 4) ++ "_" ++ digits (i % 4)
  | true, _ => r.name ++ digits i

/-- The type of an entry; the lengths of a port's OCTETS at 0x2701 go by its strands. -/
def EntryRow.typeAt (r : EntryRow) (index sub : Nat) : EType :=
  match r.typ with
  | .octets n => if index = 0x2701 then .octets (n * strandsOf (r.at sub) / 64) else .octets n
  | t => t

/-- ASCII text as bytes. -/
def textBytes (t : String) : List Byte := t.toList.map fun c => BitVec.ofNat 8 c.toNat

/-! ### Values -/

/-- A measured value: what a sensor gives at this read, which the spec leaves open. -/
def State.measured (s : State) (index sub n : Nat) : List Byte :=
  (List.range n).map fun i => Config.freeByte s.freeCtr ((index * 256 + sub) * 256 + i)

/-- A ring as a read returns it: its records oldest first, places not yet written zero. -/
def ringBytes (n len : Nat) (ring : List (List Byte)) : List Byte :=
  let b := ring.flatten
  b ++ List.replicate (n * len - b.length) 0

/-- 64-bit counters. -/
def long (v : Long) : List Byte := leBytes 8 v.toNat

/-- identity_certificate (R595). -/
def State.certificate (s : State) : List Byte :=
  leBytes 4 0x49444301 ++ leBytes 8 Config.serial.toNat ++ leBytes 2 s.hw.grade.code ++ leBytes 1 s.hw.stepping.code
    ++ [0] ++ leBytes 4 Config.buildDate.toNat ++ leBytes 4 Config.vendorKeyId.toNat
    ++ (List.range 1793).map Config.identityKey ++ [0, 0, 0] ++ (List.range 1280).map Config.certificateSignature

/-- Index 0x1000. -/
def State.val1000 (s : State) (sub : Nat) : List Byte :=
  match sub with
  | 0x01 => textBytes "Nyrnaust"
  | 0x02 => textBytes "Denuri"
  | 0x03 => leBytes 2 s.hw.grade.code
  | 0x04 => leBytes 1 s.hw.stepping.code
  | 0x05 => leBytes 8 Config.serial.toNat
  | 0x06 => leBytes 4 Config.buildDate.toNat
  | 0x07 => (List.range 6).map macByte
  | 0x08 => leBytes 2 0x0100
  | 0x09 => leBytes 8 s.uptime
  | 0x0A => s.mgmt.label
  | _ => [0x0A]

/-- Index 0x1100. -/
def State.val1100 (s : State) (sh : Bool) (sub : Nat) : List Byte :=
  let g := if sh then s.mgmt.net.sh else s.mgmt.net.live
  match sub with
  | 0x01 => [g.plcaEnable]
  | 0x02 => [g.plcaNode]
  | 0x03 => [g.plcaCount]
  | 0x04 => [g.plcaTo]
  | 0x05 => [g.burstCount]
  | 0x06 => [g.burstTimer]
  | 0x07 => g.unicast
  | 0x08 => [g.plen]
  | 0x09 => leBytes 2 g.port.toNat
  | 0x0A => g.managers.getD 0 []
  | 0x0B => g.managers.getD 1 []
  | 0x0C => g.managers.getD 2 []
  | 0x0D => g.managers.getD 3 []
  | 0x0F => leBytes 2 s.mgmt.netStatus.toNat
  | 0x10 => linkLocal
  | 0x11 => [s.mgmt.addrState]
  | 0x12 => long s.mgmt.framesRx
  | 0x13 => long s.mgmt.framesTx
  | 0x14 => long s.mgmt.frameErrors
  | 0x15 => long s.mgmt.dropped
  | 0x16 => long s.mgmt.refusedCount
  | _ => [0x16]

/-- Index 0x1200. -/
def State.val1200 (s : State) (sub : Nat) : List Byte :=
  let slot := fun i => s.slot i
  let map := fun i => bitmapOf (slot i).fixed
  match sub with
  | 0x01 => leBytes 1 s.fw.running
  | 0x02 => leBytes 4 s.fw.runVersion.toNat
  | 0x03 => leBytes 1 (slot 0).state
  | 0x04 => leBytes 1 (slot 1).state
  | 0x05 => leBytes 4 (slot 0).version
  | 0x06 => leBytes 4 (slot 1).version
  | 0x07 => takeAt (slot 0).digest 0 64
  | 0x08 => takeAt (slot 1).digest 0 64
  | 0x09 => leBytes 4 s.hw.securityCounter.toNat
  | 0x0A => [s.hw.keyRevoked]
  | 0x0B => leBytes 1 s.fw.recovery
  | 0x0D => leBytes 2 s.fw.activateStatus.toNat
  | 0x12 => map 0 ++ map 1 ++ map 2
  | 0x13 => leBytes 4 s.fw.handovers.toNat
  | 0x14 => leBytes 4 s.fw.rolledBack.toNat
  | _ => [0x14]

/-- Index 0x1201. -/
def State.val1201 (s : State) (sub : Nat) : List Byte :=
  if sub = 0 then [0x32]
  else if sub = 1 then (List.range 1793).map Config.identityKey
  else if sub = 2 then s.certificate
  else
    let q := s.part ((sub - 3) % 16)
    match (sub - 3) / 16 with
    | 0 => q.nonce
    | 1 => leBytes 1 q.attestState
    | _ => if q.attestState = 2 then q.report else []

/-- Index 0x1202. -/
def State.val1202 (s : State) (sub : Nat) : List Byte :=
  match sub with
  | 1 => [s.fw.distEnable]
  | 2 => [s.fw.distUp]
  | 3 => [s.fw.distDown]
  | 4 => leBytes 1 s.fw.distState
  | 5 => leBytes 2 s.fw.blocksRx.toNat
  | 6 => leBytes 4 s.fw.blocksTx.toNat
  | 7 => leBytes 4 s.fw.crcErrors.toNat
  | _ => [7]

/-- module_state (0x1300:01). -/
def Power.moduleState (w : Power) : Nat :=
  match w.boot with
  | .off => 1
  | .waitReset => 1
  | .booting => 1
  | .railsUp => 2
  | .hbmTrained => 2
  | .ready => if w.settling || w.thermalHold then 5 else 3
  | .recovery => 4

/-- power_estimate in W (R611): nothing is estimated before the rails are up. -/
def State.estimateW (s : State) : Nat :=
  if s.power.moduleState = 1 then 0 else scaledMw (Config.idleMw + s.engineMw) s.scale24 / 1000

/-- Index 0x1300. -/
def State.val1300 (s : State) (sub : Nat) : List Byte :=
  let w := s.power
  let m := s.measured 0x1300 sub
  match sub with
  | 0x01 => leBytes 1 w.moduleState
  | 0x02 => m 4
  | 0x03 => m 4
  | 0x04 => m 4
  | 0x05 => leBytes 4 s.estimateW
  | 0x06 => leBytes 4 w.limit.toNat
  | 0x07 => leBytes 4 (w.ballastMw / 1000)
  | 0x08 => long w.ballastStitches
  | 0x09 => long w.limiterStalls
  | 0x0A => leBytes 2 3100
  | 0x0B => leBytes 2 600
  | 0x0C => leBytes 2 300
  | 0x0D => leBytes 2 200
  | 0x0E => m 16
  | 0x0F => m 8
  | 0x10 => m 24
  | 0x11 => m 32
  | 0x12 => long w.warnings
  | 0x13 => long w.faults
  | 0x14 => long w.trips
  | _ => [0x14]

/-- Index 0x1301. -/
def State.val1301 (s : State) (sub : Nat) : List Byte :=
  match sub with
  | 1 => leBytes 4 s.power.historyTaken.toNat
  | 2 => ringBytes 1440 32 s.power.history
  | 3 => s.power.lifetime
  | 4 => s.power.powerLoss
  | _ => [4]

/-- Index 0x1302. -/
def State.val1302 (s : State) (sub : Nat) : List Byte :=
  match sub with
  | 1 => leBytes 2 s.power.strapId.toNat
  | 2 => leBytes 1 s.power.strapSeg.toNat
  | 3 => [if s.power.strapRecovery then 1 else 0]
  | _ => [3]

/-- Index 0x2000. -/
def State.val2000 (s : State) (sub : Nat) : List Byte :=
  let g := s.hw.grade
  match sub with
  | 0x01 => textBytes (if g = .da512 then "DA-512" else "DA-448")
  | 0x02 => leBytes 1 g.shelves
  | 0x03 => leBytes 2 s.coreCount
  | 0x04 => leBytes 1 g.perDie
  | 0x05 => leBytes 8 (s.coreCount * 2 ^ 25)
  | 0x06 => [12]
  | 0x07 => leBytes 8 hbmEnd
  | 0x08 => [48]
  | 0x09 => [16]
  | 0x0A => [4]
  | 0x0B => leBytes 2 252
  | 0x0C => [2]
  | 0x0D => [56]
  | 0x0E => leBytes 2 1024
  | 0x0F => leBytes 2 256
  | _ => [0x0F]

/-- Index 0x2001. -/
def State.val2001 (s : State) (sub : Nat) : List Byte :=
  match sub with
  | 1 => leBytes 4 850000000
  | 2 => leBytes 4 1400000000
  | 3 => leBytes 4 1000000000
  | 4 => leBytes 4 156250000
  | 5 => leBytes 4 500000000
  | 6 => [40]
  | 7 => leBytes 8 s.locked.toNat
  | _ => [7]

/-- Index 0x2002. -/
def State.val2002 (s : State) (sub : Nat) : List Byte :=
  if sub = 0 then [8] else (s.hw.dieMap.getD (sub - 1) []).map fun b => BitVec.ofNat 8 b

/-- Spare lines left in the slices in service (0x2100:03). -/
def State.spareLinesLeft (s : State) : Nat :=
  let served := ((List.range s.coreCount).filter s.coreServed).length
  let used := ((s.memStat.spareLines.filter fun b => s.coreServed (b.1 / 16)).map fun b => 32 - b.2).sum
  served * 512 - used

/-- Index 0x2100. -/
def State.val2100 (s : State) (sub : Nat) : List Byte :=
  let m := s.memStat
  match sub with
  | 0x01 => leBytes 2 256
  | 0x02 => [16]
  | 0x03 => leBytes 4 s.spareLinesLeft
  | 0x04 => long m.eccCorrected
  | 0x05 => long m.eccUncorrected
  | 0x06 => leBytes 4 m.scrubPeriod.toNat
  | 0x07 => leBytes 2 256
  | 0x08 => leBytes 2 384
  | 0x09 => long m.hbmCorrected
  | 0x0A => long m.hbmUncorrected
  | 0x0B => long m.parityRetries
  | 0x0C => leBytes 4 m.repairsFree.sum
  | 0x0D => leBytes 4 m.repairsPending.length
  | 0x0E => leBytes 4 hbmUnits
  | _ => [0x0E]

/-- Index 0x2101. -/
def State.val2101 (s : State) (sh : Bool) (sub : Nat) : List Byte :=
  if sub = 0 then [0x90]
  else
    let i := (sub - 1) % 64
    let q := (s.part (i / 4)).windows
    let w := (if sh then q.sh else q.live).getD (i % 4) (0, 0)
    leBytes 4 (if sub ≤ 0x40 then w.1 else w.2).toNat

/-- Index 0x2102. -/
def State.val2102 (s : State) (sh : Bool) (sub : Nat) : List Byte :=
  if sub = 0 then [0x30]
  else
    let q := (s.part ((sub - 1) % 16)).larder
    let l := if sh then q.sh else q.live
    leBytes 4 (if sub ≤ 0x10 then l.base else l.len).toNat

/-- Index 0x2103. -/
def State.val2103 (s : State) (sub : Nat) : List Byte :=
  if sub = 0 then [0x90]
  else
    let x := s.ctx ((sub - 1) % 48)
    match (sub - 1) / 48 with
    | 0 => leBytes 8 x.fill
    | 1 => leBytes 8 x.peak
    | _ => leBytes 2 x.records.length

/-- Index 0x2200. -/
def State.val2200 (s : State) (sub : Nat) : List Byte :=
  match sub with
  | 0 => [0x1F]
  | 1 => [s.arith.round]
  | 2 => [s.arith.subnormal]
  | 3 => [s.arith.fp8]
  | 4 => [s.arith.comp]
  | 5 => [32]
  | _ => long (s.part (sub - 0x10)).seed

/-- Index 0x2300. -/
def State.val2300 (s : State) (sh : Bool) (sub : Nat) : List Byte :=
  let g := if sh then s.fabric.route.sh else s.fabric.route.live
  match sub with
  | 0x01 => leBytes 2 g.moduleId.toNat
  | 0x02 => [g.sizeX]
  | 0x03 => [g.sizeY]
  | 0x04 => [g.sizeZ]
  | 0x05 => [g.seamX]
  | 0x06 => [g.seamY]
  | 0x07 => [g.seamZ]
  | 0x08 => [g.axisMode]
  | 0x09 => [g.portEnable]
  | 0x0A => [if s.fabric.hold then 1 else 0]
  | 0x0B => [if s.routeDrained then 1 else 0]
  | 0x0D => leBytes 2 s.fabric.commitStatus.toNat
  | 0x0E => leBytes 2 s.fabric.patience.toNat
  | 0x0F => leBytes 4 s.fabric.timeout.toNat
  | 0x10 => leBytes 2 16384
  | 0x11 => leBytes 2 4096
  | 0x12 => leBytes 2 (s.fabric.skeins.filter (·.isOpen)).length
  | _ => [0x12]

/-- Index 0x2301. -/
def State.val2301 (s : State) (sub : Nat) : List Byte :=
  let c := Sparse.get PortCtr.reset s.fabric.ports (sub / 16)
  let halves := fun (l : List Half) => l.flatMap fun h => leBytes 2 h.toNat
  match sub % 16 with
  | 0x1 => long c.txPackets
  | 0x2 => long c.txFlits
  | 0x3 => long c.rxPackets
  | 0x4 => long c.rxFlits
  | 0x5 => long c.stallRequest
  | 0x6 => long c.stallReply
  | 0x7 => long c.stallMaint
  | 0x8 => long c.escapes
  | 0x9 => long c.seams
  | 0xA => halves c.depthNow
  | 0xB => halves c.depthPeak
  | _ => [0x5C]

/-- Index 0x2302. -/
def State.val2302 (s : State) (sub : Nat) : List Byte :=
  let f := s.fabric
  match sub with
  | 0x1 => long f.delivered
  | 0x2 => long f.completed
  | 0x3 => long f.earlyLast
  | 0x4 => long f.checkDiscards
  | 0x5 => long f.countOverruns
  | 0x6 => long f.timeouts
  | 0x7 => long f.hopDiscards
  | 0x8 => long f.schedUnmatched
  | 0x9 => long f.stray
  | 0xA => leBytes 2 s.contextsFree
  | _ => [0x0A]

/-- Index 0x2303. -/
def State.val2303 (s : State) (sub : Nat) : List Byte :=
  let f := s.fabric
  match sub with
  | 1 => [f.samplePoint]
  | 2 => [f.sampleClasses]
  | 3 => leBytes 2 f.sampleParts.toNat
  | 4 => leBytes 4 f.sampleEvery.toNat
  | 5 => leBytes 4 f.sampleTaken.toNat
  | 6 => ringBytes 64 40 f.sampleRing
  | _ => [6]

/-- Index 0x2400. -/
def State.val2400 (s : State) (sub : Nat) : List Byte :=
  match sub with
  | 0x1 => [16]
  | 0x2 => [8]
  | 0x3 => [4]
  | 0x4 => [32]
  | 0x5 => [56]
  | 0x6 => leBytes 1 s.coll.unitSpares.sum
  | 0x7 => long s.coll.done
  | 0x8 => long s.coll.lateExclusions
  | 0x9 => long s.coll.quarantines
  | 0xA => long s.coll.digestMismatches
  | _ => [0x0A]

/-- Index 0x2401. -/
def State.val2401 (s : State) (sub : Nat) : List Byte :=
  match sub with
  | 1 => leBytes 4 s.coll.eventTaken.toNat
  | 2 => ringBytes 64 32 s.coll.events
  | 3 => leBytes 4 s.coll.digestTaken.toNat
  | 4 => ringBytes 256 40 s.coll.digests
  | _ => [4]

/-- A ledger record (R354). -/
def Ledger.bytes (l : Ledger) : List Byte :=
  leBytes 4 l.bucket ++ leBytes 4 l.weight ++ leBytes 1 l.axes ++ [0, 0, 0]
    ++ (List.range 3).flatMap (fun a => leBytes 4 (l.masks.getD a 0))
    ++ (List.range 3).flatMap (fun a => leBytes 4 (l.quars.getD a 0))

/-- Index 0x2402. -/
def State.val2402 (s : State) (sub : Nat) : List Byte :=
  match sub with
  | 0 => [0x22]
  | 1 => leBytes 2 4096
  | 2 => leBytes 2 s.coll.ledger.length
  | n => if n < 0x13 then [0] else (s.coll.ledger.filter (·.part == n - 0x13)).flatMap Ledger.bytes

/-- Index 0x2403. -/
def State.val2403 (s : State) (sub : Nat) : List Byte :=
  if sub = 0 then [0x30]
  else
    let q := s.part ((sub - 1) % 16)
    match (sub - 1) / 16 with
    | 0 => leBytes 4 q.clip.toNat
    | 1 => q.replay
    | _ => pairBytes [q.reducedNorm, q.localNorm] ++ leBytes 4 1 ++ List.replicate 12 0

/-- The code of tb_state. -/
def tbCode : TbState → Nat
  | .free => 0
  | .acquiring => 1
  | .locked => 2
  | .holdover => 3
  | .master => 4

/-- Index 0x2500. -/
def State.val2500 (s : State) (sub : Nat) : List Byte :=
  match sub with
  | 0 => [0x0E]
  | 1 => [s.tb.role]
  | 2 => [s.tb.parent]
  | 3 => leBytes 1 (tbCode s.tb.state)
  | 4 => long s.tb.count
  | 5 => leBytes 4 s.tb.offsetPs.toNat
  | 6 => leBytes 2 68
  | 7 => leBytes 2 1024
  | 0xE => long s.tb.faults
  | n => leBytes 4 (s.tb.latency.getD (n - 8) 0).toNat

/-- Index 0x2501. -/
def State.val2501 (s : State) (sub : Nat) : List Byte :=
  match sub with
  | 1 => leBytes 4 0x00010002
  | 2 => leBytes 2 2
  | 3 => leBytes 2 1024
  | 4 => leBytes 2 150
  | 5 => leBytes 4 s.tb.governorScale.toNat
  | 6 => long s.tb.slipsTotal
  | 7 => long s.tb.governorStitches
  | 8 => long s.tb.holdsLate
  | 9 => [4]
  | _ => [9]

/-- pattern_id_p: the loaded pattern's, zero without one. -/
def Part.patternId (q : Part) : Nat := (q.pattern.map fun t => t.patternId.toNat).getD 0

/-- Index 0x2502. -/
def State.val2502 (s : State) (sub : Nat) : List Byte :=
  if sub = 0 then [0x40]
  else
    let q := s.part ((sub - 1) % 16)
    match (sub - 1) / 16 with
    | 0 => leBytes 8 q.patternId
    | 1 => leBytes 8 q.sched.pstitch
    | 2 => leBytes 4 q.sched.step
    | _ => long q.sched.slipTotal

/-- Index 0x2503. -/
def State.val2503 (s : State) (sub : Nat) : List Byte :=
  match sub with
  | 1 => leBytes 4 s.tb.slipTaken.toNat
  | 2 => ringBytes 256 24 s.tb.slipLog
  | _ => [2]

/-- Index 0x2600. -/
def State.val2600 (s : State) (sh : Bool) (sub : Nat) : List Byte :=
  if sub = 0 then [0x90]
  else
    let q := (s.part ((sub - 1) % 16)).layout
    let l := if sh then q.sh else q.live
    match (sub - 1) / 16 with
    | 0 => [l.first]
    | 1 => [l.count]
    | 2 => [l.hostPort]
    | 3 => leBytes 2 l.tenant.toNat
    | 4 => [l.excl]
    | 5 => [l.cls]
    | 6 => long l.ctxMask
    | _ => leBytes 4 l.unitMask.toNat

/-- Index 0x2601. -/
def State.val2601 (s : State) (sh : Bool) (sub : Nat) : List Byte :=
  if sub = 0 then [0x90]
  else
    let q := s.part ((sub - 1) % 16)
    let g := if sh then q.guar.sh else q.guar.live
    match (sub - 1) / 16 with
    | 0 => leBytes 4 g.inject.toNat
    | 1 => [g.hbm]
    | 2 => leBytes 2 g.skein.toNat
    | 3 => leBytes 2 g.rxctx.toNat
    | 4 => leBytes 2 g.ledger.toNat
    | 5 => leBytes 2 g.gather.toNat
    | 7 => leBytes 4 q.injectNow.toNat
    | _ => [q.hbmNow]

/-- Index 0x2602. -/
def State.val2602 (s : State) (sh : Bool) (sub : Nat) : List Byte :=
  if sub = 0 then [0x60]
  else
    let q := s.part ((sub - 1) % 16)
    let g := if sh then q.place.sh else q.place.live
    match (sub - 1) / 16 with
    | 0 => leBytes 4 g.tag.toNat
    | 1 => leBytes 2 g.lo.toNat
    | 2 => leBytes 2 g.size.toNat
    | 3 => g.peers
    | _ => [q.axisModes]

/-- Index 0x2603. -/
def State.val2603 (s : State) (sub : Nat) : List Byte :=
  let t := s.tenancy
  match sub with
  | 0x1 => [t.otherShare]
  | 0x2 => leBytes 4 (s.schedLimit 0)
  | 0x3 => leBytes 4 (s.schedLimit 1)
  | 0x4 => leBytes 4 (s.schedLimit 2)
  | 0x5 => leBytes 4 s.injectCapacity
  | 0x6 => leBytes 1 hbmCapacity
  | 0x7 => leBytes 4 t.drainLimit.toNat
  | 0x8 => leBytes 2 s.mgmt.layoutStatus.toNat
  | 0x9 => long t.reduced
  | 0xA => leBytes 4 t.taken.toNat
  | 0xB => ringBytes 64 16 t.ring
  | 0xC => long t.refusals
  | _ => [0x0C]

/-- Index 0x2700. -/
def State.val2700 (s : State) (sub : Nat) : List Byte :=
  let l := s.links
  match sub with
  | 0x1 => leBytes 4 l.faultTaken.toNat
  | 0x2 => ringBytes 128 32 l.faultRing
  | 0x3 => long l.shelvesOut
  | 0x4 => leBytes 4 l.pairsOut.toNat
  | 0x5 => (List.range 8).map fun d => BitVec.ofNat 8 ((s.hw.dieMap.getD d []).count 0xFD)
  | 0x6 => leBytes 4 s.memStat.linesPending.length
  | 0x7 => leBytes 2 (s.cores.filter fun c => c.2.marked).length
  | 0x8 => leBytes 4 l.wearStrand.toNat
  | 0x9 => leBytes 2 l.wearLine.toNat
  | 0xA => leBytes 2 l.wearRow.toNat
  | 0xB => [l.wearCore]
  | 0xC => long l.moduleFaults
  | 0xD => [l.testMode]
  | _ => [0x0D]

/-- Index 0x2701. -/
def State.val2701 (s : State) (sub : Nat) : List Byte :=
  let k := sub / 16
  let l := s.link k
  let w := strandsOf k
  match sub % 16 with
  | 0x1 => [l.state]
  | 0x2 => leBytes 2 l.neighbourId.toNat
  | 0x3 => [l.neighbourPort]
  | 0x4 => long l.neighbourSerial
  | 0x5 => leBytes 4 l.version.toNat
  | 0x6 => long l.expected
  | 0x7 => leBytes 1 l.spares
  | 0x8 => l.strandMap.map fun x => BitVec.ofNat 8 x
  | 0x9 => if l.state = 0 then List.replicate (2 * (w + w / 8)) 0 else s.measured 0x2701 sub (2 * (w + w / 8))
  | 0xA => if l.state = 0 then List.replicate (w / 8) 0 else s.measured 0x2701 sub (w / 8)
  | 0xB => long l.correctedSum
  | 0xC => long l.uncorrectable
  | _ => [0x5D]

/-- Index 0x2800. -/
def State.val2800 (s : State) (sh : Bool) (sub : Nat) : List Byte :=
  let h := s.host
  match sub with
  | 0x0 => [0x4F]
  | 0x1 => leBytes 4 s.hw.stepping.hostVersion
  | 0x2 => leBytes 1 (s.hport 0).state
  | 0x3 => leBytes 1 (s.hport 1).state
  | 0x4 => leBytes 4 (s.hport 0).version.toNat
  | 0x5 => leBytes 4 (s.hport 1).version.toNat
  | 0x6 => leBytes 4 directoryLines
  | 0x7 => leBytes 4 (s.hport 0).directory.length
  | 0x8 => leBytes 4 (s.hport 1).directory.length
  | 0x9 => leBytes 4 h.timeout.toNat
  | 0xA => leBytes 4 h.hqIdle.toNat
  | 0xB => long h.refusals
  | 0xC => long h.recalls
  | 0xD => long h.earlyLength
  | n =>
    let q := (s.part ((n - 0x10) % 16)).aper
    let a := if sh then q.sh else q.live
    match (n - 0x10) / 16 with
    | 0 => long a.base
    | 1 => long a.len
    | _ => [a.cacheable]

/-- Index 0x2900. -/
def State.val2900 (s : State) (sub : Nat) : List Byte :=
  let t := s.train
  match sub with
  | 1 => leBytes 2 8192
  | 2 => leBytes 2 t.records.length
  | 3 => long t.forward
  | 4 => long t.backward
  | 5 => long t.attic
  | 6 => long t.stale
  | 7 => long t.full
  | 8 => [16]
  | _ => [8]

/-- Index 0x2901. -/
def State.val2901 (s : State) (sub : Nat) : List Byte :=
  if sub = 0 then [0x30]
  else
    let q := s.part ((sub - 1) % 16)
    match (sub - 1) / 16 with
    | 0 => q.stats.flatten
    | 1 => leBytes 4 q.statsTaken.toNat
    | _ => [0]

/-- The value of a defined entry, live or (for a member of a commit group) shadow. -/
def State.value (s : State) (sh : Bool) (index sub : Nat) : List Byte :=
  match index with
  | 0x1000 => s.val1000 sub
  | 0x1100 => s.val1100 sh sub
  | 0x1200 => s.val1200 sub
  | 0x1201 => s.val1201 sub
  | 0x1202 => s.val1202 sub
  | 0x1300 => s.val1300 sub
  | 0x1301 => s.val1301 sub
  | 0x1302 => s.val1302 sub
  | 0x2000 => s.val2000 sub
  | 0x2001 => s.val2001 sub
  | 0x2002 => s.val2002 sub
  | 0x2100 => s.val2100 sub
  | 0x2101 => s.val2101 sh sub
  | 0x2102 => s.val2102 sh sub
  | 0x2103 => s.val2103 sub
  | 0x2200 => s.val2200 sub
  | 0x2300 => s.val2300 sh sub
  | 0x2301 => s.val2301 sub
  | 0x2302 => s.val2302 sub
  | 0x2303 => s.val2303 sub
  | 0x2400 => s.val2400 sub
  | 0x2401 => s.val2401 sub
  | 0x2402 => s.val2402 sub
  | 0x2403 => s.val2403 sub
  | 0x2500 => s.val2500 sub
  | 0x2501 => s.val2501 sub
  | 0x2502 => s.val2502 sub
  | 0x2503 => s.val2503 sub
  | 0x2600 => s.val2600 sh sub
  | 0x2601 => s.val2601 sh sub
  | 0x2602 => s.val2602 sh sub
  | 0x2603 => s.val2603 sub
  | 0x2700 => s.val2700 sub
  | 0x2701 => s.val2701 sub
  | 0x2800 => s.val2800 sh sub
  | 0x2900 => s.val2900 sub
  | 0x2901 => s.val2901 sub
  | _ => []

end Sys2Proof.Machine
end

