-- ==== Sys2Proof/Machine/Asrel.lean ====
section
/-! DEFINITION. Machine/Asrel.lean: the Asrel protocol (R541 to R556), what writes do, the mailbox's service (R559),
the network group and the IPv6 node (R538, R560 to R566). -/

namespace Sys2Proof.Machine

/-! ### Writes of entries, after the checks that every write meets -/

/-- A write carried out. -/
def carried (s : State) : State × Answer := (s, (stDONE, 0))

/-- A write carried out where its value is legal, else refused as out of range (R544 reason 4). -/
def whenLegal (ok : Bool) (s t : State) : State × Answer := if ok then carried t else (s, denied 4)

/-- A commit entry: a write of 1 commits, any other value is out of range. -/
def whenOne (v : Nat) (s : State) (f : State → State × Answer) : State × Answer :=
  if v = 1 then f s else (s, denied 4)

/-- Whether n lies from lo to hi. -/
def within (n lo hi : Nat) : Bool := decide (lo ≤ n) && decide (n ≤ hi)

/-- The network group's shadow updated. -/
def State.netShadow (s : State) (f : NetGroup → NetGroup) : State :=
  s.updMgmt fun m => { m with net := ⟨f m.net.sh, m.net.live⟩ }

/-- The bytes that may follow in a UTF-8 sequence: how many, and the range of the first of them. -/
def utf8Tail (b : Nat) : Option (Nat × Nat × Nat) :=
  if b < 0x80 then some (0, 0x80, 0xBF)
  else if 0xC2 ≤ b ∧ b ≤ 0xDF then some (1, 0x80, 0xBF)
  else if b = 0xE0 then some (2, 0xA0, 0xBF)
  else if b = 0xED then some (2, 0x80, 0x9F)
  else if 0xE1 ≤ b ∧ b ≤ 0xEF then some (2, 0x80, 0xBF)
  else if b = 0xF0 then some (3, 0x90, 0xBF)
  else if b = 0xF4 then some (3, 0x80, 0x8F)
  else if 0xF1 ≤ b ∧ b ≤ 0xF3 then some (3, 0x80, 0xBF)
  else none

/-- Whether bytes are valid UTF-8, with n bytes of a sequence still to come, the next from lo to hi. -/
def utf8Ok : List Byte → Nat → Nat → Nat → Bool
  | [], n, _, _ => n == 0
  | b :: bs, 0, _, _ => match utf8Tail b.toNat with
    | some (n, lo, hi) => utf8Ok bs n lo hi
    | none => false
  | b :: bs, n + 1, lo, hi => within b.toNat lo hi && utf8Ok bs n 0x80 0xBF

/-- The used entries of a manager list. -/
def NetGroup.used (g : NetGroup) : List (List Byte) := g.managers.filter fun m => m.any (· != 0)

/-- The source address of a network path. -/
def sourceOf : Path → Option (List Byte)
  | .net d => some d.frame.source
  | .mailbox _ => none

/-- A frame sent to the management segment, counted in frames_tx. -/
def State.sendNet (s : State) (o : Out) : State :=
  (s.updMgmt fun m => { m with framesTx := m.framesTx + 1 }).send o

/-- The status of a commit of the network group made by a path (R561, R566). -/
def netCommitStatus (g : NetGroup) (path : Path) : Half :=
  let shut := match sourceOf path with
    | some a => !g.used.isEmpty && !g.used.contains a
    | none => false
  if shut || g.used.any multicast || multicast g.unicast
      || (g.plcaEnable == 1 && g.plcaNode != 0 && decide (g.plcaCount.toNat ≤ g.plcaNode.toNat)) then stCONFIG
  else stDONE

/-- The new values apply; a changed unicast_addr leaves use, and its detection starts (R538, R561). -/
def State.applyNet (s : State) : State :=
  let old := s.mgmt.net.live.unicast
  let g := s.mgmt.net.sh
  let s := s.updMgmt fun m => { m with net := ⟨g, g⟩ }
  if g.unicast = old then s
  else
    let any := g.unicast.any (· != 0)
    let s := s.updMgmt fun m => { m with addrState := m.addrState &&& 0xF9, detecting := any }
    if any then s.sendNet (.solicit s.access g.unicast) else s

/-- net_commit. -/
def State.commitNet (s : State) (path : Path) : State × Answer :=
  let st := netCommitStatus s.mgmt.net.sh path
  let s := s.updMgmt fun m => { m with netStatus := st }
  if st = stDONE then carried s.applyNet else (s, (st, 7))

/-- NET_COMMIT. -/
def execNetCommit (path : Path) (s : State) : Host.Outcome State Fault Refusal := .next (s.commitNet path).1

/-- A write at 0x1100. -/
def State.write1100 (s : State) (path : Path) (sub : Nat) (bs : List Byte) : State × Answer :=
  let v := ofLe bs
  let b : Byte := BitVec.ofNat 8 v
  match sub with
  | 0x01 => whenLegal (v ≤ 1) s (s.netShadow fun g => { g with plcaEnable := b })
  | 0x02 => whenLegal (v ≤ 254) s (s.netShadow fun g => { g with plcaNode := b })
  | 0x03 => whenLegal (1 ≤ v) s (s.netShadow fun g => { g with plcaCount := b })
  | 0x04 => whenLegal (1 ≤ v) s (s.netShadow fun g => { g with plcaTo := b })
  | 0x05 => carried (s.netShadow fun g => { g with burstCount := b })
  | 0x06 => whenLegal (1 ≤ v) s (s.netShadow fun g => { g with burstTimer := b })
  | 0x07 => carried (s.netShadow fun g => { g with unicast := bs })
  | 0x08 => whenLegal (within v 1 128) s (s.netShadow fun g => { g with plen := b })
  | 0x09 => whenLegal (1024 ≤ v) s (s.netShadow fun g => { g with port := BitVec.ofNat 16 v })
  | 0x0E => whenOne v s fun s => s.commitNet path
  | n => carried (s.netShadow fun g => { g with managers := g.managers.set (n - 0x0A) bs })

/-- A write at 0x1200; the image stores take their segments apart. -/
def State.write1200 (s : State) (sub v : Nat) : State × Answer :=
  match sub with
  | 0x0C => if v = 1 then s.activateLive else if v = 2 then s.activateAtReset else (s, denied 4)
  | 0x0E => if within v 1 3 then s.eraseSlot (v - 1) else (s, denied 4)
  | _ => (s, denied 4)

/-- A write at 0x1202 (R600). -/
def State.write1202 (s : State) (sub v : Nat) : State × Answer :=
  let b : Byte := BitVec.ofNat 8 v
  if s.fw.distState = 1 ∨ s.fw.distState = 2 then (s, denied 4)
  else match sub with
    | 1 => whenLegal (v ≤ 1) s { s with fw := { s.fw with distEnable := b } }
    | 2 => whenLegal (v ≤ 5 || v == 0xFF) s { s with fw := { s.fw with distUp := b } }
    | _ => whenLegal (v < 64 && !(v.testBit s.fw.distUp.toNat)) s { s with fw := { s.fw with distDown := b } }

/-- A write at 0x2101: a window's shadow, or a commit. -/
def State.write2101 (s : State) (sub v : Nat) : State × Answer :=
  if 0x81 ≤ sub then whenOne v s fun s => s.commitWindows (sub - 0x81)
  else
    let i := (sub - 1) % 64
    let w : Word := BitVec.ofNat 32 v
    carried (s.updPart (i / 4) fun q =>
      let old := q.windows.sh.getD (i % 4) (0, 0)
      { q with windows := ⟨q.windows.sh.set (i % 4) (if sub ≤ 0x40 then (w, old.2) else (old.1, w)), q.windows.live⟩ })

/-- A write at 0x2102. -/
def State.write2102 (s : State) (sub v : Nat) : State × Answer :=
  let p := (sub - 1) % 16
  let w : Word := BitVec.ofNat 32 v
  let put := fun (f : LarderArea → LarderArea) =>
    carried (s.updPart p fun q => { q with larder := ⟨f q.larder.sh, q.larder.live⟩ })
  match (sub - 1) / 16 with
  | 0 => put fun a => { a with base := w }
  | 1 => put fun a => { a with len := w }
  | _ => whenOne v s fun s => s.commitLarder p

/-- A write at 0x2200 (R85). -/
def State.write2200 (s : State) (sub v : Nat) : State × Answer :=
  let b : Byte := BitVec.ofNat 8 v
  match sub with
  | 1 => whenLegal (v ≤ 4) s { s with arith := { s.arith with round := b } }
  | 2 => whenLegal (v ≤ 3) s { s with arith := { s.arith with subnormal := b } }
  | 3 => whenLegal (v ≤ 1) s { s with arith := { s.arith with fp8 := b } }
  | 4 => whenLegal (v ≤ 1) s { s with arith := { s.arith with comp := b } }
  | n => carried (s.updPart (n - 0x10) fun q => { q with seed := BitVec.ofNat 64 v })

/-- route_hold ends: replies and CLOSEs that it kept back leave, then maintenance packets, and waiting transfers go
on (R299). -/
def State.releaseHold (s : State) : State :=
  let t := s.fabric.held.foldl State.inject (s.updFabric fun f => { f with hold := false, held := [] })
  t.flushMaint.pump

/-- A write at 0x2300 (R309). -/
def State.write2300 (s : State) (sub v : Nat) : State × Answer :=
  let b : Byte := BitVec.ofNat 8 v
  let put := fun (f : RouteGroup → RouteGroup) =>
    carried (s.updFabric fun x => { x with route := ⟨f x.route.sh, x.route.live⟩ })
  match sub with
  | 0x01 => put fun g => { g with moduleId := BitVec.ofNat 16 v }
  | 0x02 => put fun g => { g with sizeX := b }
  | 0x03 => put fun g => { g with sizeY := b }
  | 0x04 => put fun g => { g with sizeZ := b }
  | 0x05 => put fun g => { g with seamX := b }
  | 0x06 => put fun g => { g with seamY := b }
  | 0x07 => put fun g => { g with seamZ := b }
  | 0x08 => put fun g => { g with axisMode := b }
  | 0x09 => put fun g => { g with portEnable := b }
  | 0x0A => if v = 1 then carried (s.updFabric fun f => { f with hold := true })
            else if v = 0 then carried s.releaseHold else (s, denied 4)
  | 0x0C => whenOne v s State.commitRoute
  | 0x0E => whenLegal (within v 1 4096) s (s.updFabric fun f => { f with patience := BitVec.ofNat 16 v })
  | _ => whenLegal (within v 16 1000000) s (s.updFabric fun f => { f with timeout := BitVec.ofNat 32 v })

/-- A write at 0x2303. -/
def State.write2303 (s : State) (sub v : Nat) : State × Answer :=
  let b : Byte := BitVec.ofNat 8 v
  match sub with
  | 1 => whenLegal (v ≤ 7) s (s.updFabric fun f => { f with samplePoint := b })
  | 2 => whenLegal (v < 16) s (s.updFabric fun f => { f with sampleClasses := b })
  | 3 => carried (s.updFabric fun f => { f with sampleParts := BitVec.ofNat 16 v })
  | _ => carried (s.updFabric fun f => { f with sampleEvery := BitVec.ofNat 32 v })

/-- The keys of a replay table: bucket and axis. -/
def replayKeys (bs : List Byte) : List (Nat × Nat) :=
  (List.range (bs.length / 12)).map fun i => (leAt bs (12 * i) 4, leAt bs (12 * i + 4) 1)

/-- Whether a replay table is legal (R355). -/
def replayLegal (bs : List Byte) : Bool :=
  (replayKeys bs).all (fun k => decide (k.2 ≤ 2)) && decide ((replayKeys bs).Nodup)

/-- Bytes whose records of n bytes keep zero at offsets lo up to hi - 1: reserved fields ignore what is written
to them and read zero (R11). -/
def zeroIn (n lo hi : Nat) (bs : List Byte) : List Byte :=
  bs.zipIdx.map fun b => if lo ≤ b.2 % n ∧ b.2 % n < hi then 0 else b.1

/-- A write at 0x2403. -/
def State.write2403 (s : State) (sub : Nat) (bs : List Byte) : State × Answer :=
  let p := (sub - 1) % 16
  let w : Word := BitVec.ofNat 32 (ofLe bs)
  if sub ≤ 0x10 then whenLegal (epsOk w) s (s.updPart p fun q => { q with clip := w })
  else whenLegal (replayLegal bs) s (s.updPart p fun q => { q with replay := zeroIn 12 5 8 bs })

/-- A write at 0x2500: role and parent, while no partition has a pattern armed or running (R405). A new role or
parent starts the follower's states anew. -/
def State.write2500 (s : State) (sub v : Nat) : State × Answer :=
  let b : Byte := BitVec.ofNat 8 v
  if s.anyPatterned then (s, denied 4)
  else if sub = 1 then
    whenLegal (v ≤ 1) s (if s.tb.role = b then s else { s with tb := { s.tb with
      role := b, state := if v = 1 then .master else .free, good := 0, missed := 0 } })
  else whenLegal (v ≤ 5) s (if s.tb.parent = b then s else { s with tb := { s.tb with
      parent := b, state := if s.tb.role = 1 then .master else .free, good := 0, missed := 0 } })

/-- A write at 0x2600: a shadow of the layout, or a commit. -/
def State.write2600 (s : State) (sub v : Nat) : State × Answer :=
  let p := (sub - 1) % 16
  let b : Byte := BitVec.ofNat 8 v
  let put := fun (f : Layout → Layout) =>
    carried (s.updPart p fun q => { q with layout := ⟨f q.layout.sh, q.layout.live⟩ })
  match (sub - 1) / 16 with
  | 0 => put fun l => { l with first := b }
  | 1 => put fun l => { l with count := b }
  | 2 => put fun l => { l with hostPort := b }
  | 3 => put fun l => { l with tenant := BitVec.ofNat 16 v }
  | 4 => put fun l => { l with excl := b }
  | 5 => put fun l => { l with cls := b }
  | 6 => put fun l => { l with ctxMask := BitVec.ofNat 64 v }
  | 7 => put fun l => { l with unitMask := BitVec.ofNat 32 v }
  | _ => whenOne v s fun s => s.commitLayout p

/-- A write at 0x2601. -/
def State.write2601 (s : State) (sub v : Nat) : State × Answer :=
  let p := (sub - 1) % 16
  let h : Half := BitVec.ofNat 16 v
  let put := fun (f : Guar → Guar) =>
    carried (s.updPart p fun q => { q with guar := ⟨f q.guar.sh, q.guar.live⟩ })
  match (sub - 1) / 16 with
  | 0 => put fun g => { g with inject := BitVec.ofNat 32 v }
  | 1 => put fun g => { g with hbm := BitVec.ofNat 8 v }
  | 2 => put fun g => { g with skein := h }
  | 3 => put fun g => { g with rxctx := h }
  | 4 => put fun g => { g with ledger := h }
  | 5 => put fun g => { g with gather := h }
  | _ => whenOne v s fun s => s.commitGuarantee p

/-- A write at 0x2602. -/
def State.write2602 (s : State) (sub : Nat) (bs : List Byte) : State × Answer :=
  let p := (sub - 1) % 16
  let v := ofLe bs
  let put := fun (f : Place → Place) =>
    carried (s.updPart p fun q => { q with place := ⟨f q.place.sh, q.place.live⟩ })
  match (sub - 1) / 16 with
  | 0 => put fun g => { g with tag := BitVec.ofNat 32 v }
  | 1 => put fun g => { g with lo := BitVec.ofNat 16 v }
  | 2 => put fun g => { g with size := BitVec.ofNat 16 v }
  | 3 => put fun g => { g with peers := zeroIn 8 6 8 bs }
  | _ => whenOne v s fun s => s.commitPlacement p

/-- A write at 0x2603 (R453, R467). -/
def State.write2603 (s : State) (sub v : Nat) : State × Answer :=
  match sub with
  | 1 => whenLegal (within v 1 8 && !s.anyPatterned) s
      (s.afterCapacity { s with tenancy := { s.tenancy with otherShare := BitVec.ofNat 8 v } })
  | _ => whenLegal (within v 1000 10000000) s { s with tenancy := { s.tenancy with drainLimit := BitVec.ofNat 32 v } }

/-- A write at 0x2700 (R496). -/
def State.write2700 (s : State) (sub v : Nat) : State × Answer :=
  match sub with
  | 0x8 => whenLegal (within v 16 1000000) s { s with links := { s.links with wearStrand := BitVec.ofNat 32 v } }
  | 0x9 => whenLegal (within v 1 1024) s { s with links := { s.links with wearLine := BitVec.ofNat 16 v } }
  | 0xA => whenLegal (within v 1 4096) s { s with links := { s.links with wearRow := BitVec.ofNat 16 v } }
  | _ => whenLegal (within v 1 16) s { s with links := { s.links with wearCore := BitVec.ofNat 8 v } }

/-- A write at 0x2701. -/
def State.write2701 (s : State) (sub v : Nat) : State × Answer :=
  let k := sub / 16
  if sub % 16 = 6 then carried (s.updLink k fun l => { l with expected := BitVec.ofNat 64 v })
  else whenOne v s fun s => s.retrain k

/-- A write at 0x2800 (R533). -/
def State.write2800 (s : State) (sub v : Nat) : State × Answer :=
  let put := fun (f : Aper → Aper) =>
    carried (s.updPart ((sub - 0x10) % 16) fun q => { q with aper := ⟨f q.aper.sh, q.aper.live⟩ })
  match sub with
  | 0x9 => whenLegal (within v 10 10000) s { s with host := { s.host with timeout := BitVec.ofNat 32 v } }
  | 0xA => whenLegal (within v 16 1000000) s { s with host := { s.host with hqIdle := BitVec.ofNat 32 v } }
  | n => match (n - 0x10) / 16 with
    | 0 => put fun a => { a with base := BitVec.ofNat 64 v }
    | 1 => put fun a => { a with len := BitVec.ofNat 64 v }
    | 2 => put fun a => { a with cacheable := BitVec.ofNat 8 v }
    | _ => whenOne v s fun s => s.commitAperture ((n - 0x10) % 16)

/-- A whole value written to a writable entry. -/
def State.writeValue (s : State) (path : Path) (index sub : Nat) (bs : List Byte) : State × Answer :=
  let v := ofLe bs
  match index with
  | 0x1000 => carried (s.updMgmt fun m => { m with label := bs })
  | 0x1100 => s.write1100 path sub bs
  | 0x1200 => s.write1200 sub v
  | 0x1201 => s.attestNonce (sub - 3) bs
  | 0x1202 => s.write1202 sub v
  | 0x1300 => whenLegal (within v 1000 2600) s (s.setLimit (BitVec.ofNat 32 v))
  | 0x2100 => whenLegal (within v 10 3600) s { s with memStat := { s.memStat with scrubPeriod := BitVec.ofNat 32 v } }
  | 0x2101 => s.write2101 sub v
  | 0x2102 => s.write2102 sub v
  | 0x2200 => s.write2200 sub v
  | 0x2300 => s.write2300 sub v
  | 0x2301 => whenOne v s fun s =>
      carried (s.updCtr (sub / 16) fun c => { c with depthPeak := c.depthNow })
  | 0x2303 => s.write2303 sub v
  | 0x2402 => whenOne v s fun s =>
      carried { s with coll := { s.coll with ledger := s.coll.ledger.filter (·.part != sub - 3) } }
  | 0x2403 => s.write2403 sub bs
  | 0x2500 => s.write2500 sub v
  | 0x2501 => whenLegal (within v 0x3F000000 0x40000000) s
      { s with tb := { s.tb with governorScale := BitVec.ofNat 32 v } }
  | 0x2600 => s.write2600 sub v
  | 0x2601 => s.write2601 sub v
  | 0x2602 => s.write2602 sub bs
  | 0x2603 => s.write2603 sub v
  | 0x2700 => s.write2700 sub v
  | 0x2701 => s.write2701 sub v
  | 0x2800 => s.write2800 sub v
  | 0x2901 => whenOne v s fun s => carried (s.updPart (sub - 0x21) fun q => { q with stats := [] })
  | _ => (s, denied 2)

/-! ### Frames and answers (R541 to R544) -/

/-- Whether a request is malformed (R543): a wrong opcode, too much data, a reserved field set; in a mailbox frame
also what the network would drop. -/
def malformedReq (r : AReq) (op : Nat) : Bool :=
  decide (op < 1) || decide (4 < op) || decide (1024 < r.dataBytes.toNat) || decide (2 ≤ r.flags.toNat)
    || r.status != 0 || r.reason != 0 || r.typ != 0 || r.reserved != 0

/-- Whether a frame is dropped on the network. -/
def droppedReq (r : AReq) : Bool :=
  r.magic != 0x4153 || r.version != 1 || decide (r.data.length < r.dataBytes.toNat)

/-- Whether R560 lets a path send a request. -/
def State.permitted (s : State) (path : Path) (op index : Nat) : Bool :=
  match sourceOf path with
  | none => true
  | some a =>
    let used := s.mgmt.net.live.used
    used.isEmpty || used.contains a || ((op == 1 || op == 3) && index == 0x1000)

/-- Whether recovery serves an entry (R580). -/
def recoveryServes (index sub : Nat) : Bool :=
  index == 0x1000 || index == 0x1200 || (index == 0x1201 && (sub == 1 || sub == 2))

/-- Whether a path may use an entry (R439). -/
def State.inScope (s : State) (path : Path) (op index sub : Nat) (e : EntryRow) : Bool :=
  match path with
  | .net _ => true
  | .mailbox k =>
    if (op == 1 || op == 3) && e.access == .const then true
    else match e.part sub with
      | some p => s.boundTo p k && !(op == 2 && decide (0x2600 ≤ index) && decide (index ≤ 0x2603))
      | none => false

/-- DESCRIBE (R546). -/
def describeEntry (e : EntryRow) (index sub : Nat) : Reply :=
  let t := e.typeAt index sub
  { status := stDONE, reason := 0, typ := typeCode t, total := none,
    data := leBytes 1 (typeCode t) ++ leBytes 1 (accessCode e.access) ++ [if e.group then 1 else 0, 0]
      ++ leBytes 4 (typeLen t) ++ (textBytes (e.nameAt sub)).take 32 }

/-- Whether an entry's value can be a snapshot: OCTETS, STRING, DOMAIN. -/
def isBlock (t : EType) : Bool := decide (7 ≤ typeCode t)

/-- Whether two requests come from one requester: a source address, or a mailbox (R552, R553). -/
def sameRequester : Path → Path → Bool
  | .net a, .net b => a.frame.source == b.frame.source
  | .mailbox j, .mailbox k => j == k
  | _, _ => false

/-- Whether two requests come from one requester and one UDP port (R552). -/
def samePort : Path → Path → Bool
  | .net a, .net b => a.frame.source == b.frame.source && a.sport == b.sport
  | a, b => sameRequester a b

/-- Whether a snapshot is the one of a key. -/
def Snapshot.is (x : Snapshot) (path : Path) (index : Half) (sub : Byte) (shadow : Bool) : Bool :=
  samePort x.path path && x.index == index && x.sub == sub && x.shadow == shadow

/-- READ (R551, R552): the state, and the reply. Every read measures anew what is measured. -/
def State.readEntry (s : State) (path : Path) (r : AReq) (e : EntryRow) : State × Reply :=
  let index := r.index.toNat
  let sub := r.sub.toNat
  let t := e.typeAt index sub
  let shadow := r.flags == 1
  let off := r.offset.toNat
  let mine := fun (x : Snapshot) => x.is path r.index r.sub shadow
  let others := s.mgmt.snapshots.filter fun x => !mine x
  let give := fun (s : State) (v : List Byte) =>
    (s, ({ status := stDONE, reason := 0, typ := typeCode t, data := (v.drop off).take 1024,
           total := some v.length } : Reply))
  if e.access = .wo then (s, (denied 3).reply)
  else if off = 0 then
    let v := s.value (shadow && e.group) index sub
    let s := { s with freeCtr := s.freeCtr + 1 }
    if isBlock t && decide (1024 < v.length) then
      let snap : Snapshot := { path := path, index := r.index, sub := r.sub, shadow := shadow, value := v }
      let kept := if others.length < 4 then others else others.drop 1
      give (s.updMgmt fun m => { m with snapshots := kept ++ [snap] }) v
    else give s v
  else match s.mgmt.snapshots.find? mine with
    | none => (s, (denied 9).reply)
    | some x =>
      if x.value.length ≤ off then (s.updMgmt fun m => { m with snapshots := others ++ [x] }, (denied 4).reply)
      else
        give (s.updMgmt fun m => { m with
          snapshots := if x.value.length ≤ off + 1024 then others else others ++ [x] }) x.value

/-- Whether the rws check refuses a write (R549). -/
def State.rwsRefused (s : State) (e : EntryRow) (sub : Nat) : Bool :=
  e.access == .rws && (match e.part sub with
    | some p => (s.part p).active
    | none => false)

/-- Whether a value's length breaks R547. -/
def lengthWrong (e : EntryRow) (t : EType) (n : Nat) : Bool :=
  match t with
  | .string m => decide (m < n)
  | .domain m => decide (m < n) || (e.record != 0 && n % e.record != 0)
  | t => n != typeLen t

/-- A whole value written, under every rule a single WRITE meets. -/
def State.writeWhole (s : State) (path : Path) (r : AReq) (e : EntryRow) (bs : List Byte) : State × Answer :=
  let index := r.index.toNat
  let sub := r.sub.toNat
  let t := e.typeAt index sub
  if lengthWrong e t bs.length then (s, denied 6)
  else if (match t with | .string _ => !utf8Ok bs 0 0 0 | _ => false) then (s, denied 4)
  else s.writeValue path index sub bs

/-- Whether a session is the one of a key: path, source address, index, subindex (R553). -/
def Session.is (x : Session) (path : Path) (index : Half) (sub : Byte) : Bool :=
  sameRequester x.path path && x.index == index && x.sub == sub

/-- A segment of a value (R553). -/
def State.writeSegment (s : State) (path : Path) (r : AReq) (e : EntryRow) : State × Answer :=
  let bs := r.data.take r.dataBytes.toNat
  let total := r.total.toNat
  let mine := fun (x : Session) => x.is path r.index r.sub
  let others := s.mgmt.sessions.filter fun x => !mine x
  let keep := fun (s : State) (l : List Session) => s.updMgmt fun m => { m with sessions := l }
  if r.offset = 0 then
    if 4096 < total ∨ 4 ≤ others.length then (s, denied 10)
    else carried (keep s (others ++ [{ path := path, index := r.index, sub := r.sub, data := bs, total := total }]))
  else match s.mgmt.sessions.find? mine with
    | none => (s, denied 8)
    | some x =>
      let got := x.data ++ bs
      if r.offset.toNat ≠ x.data.length ∨ total ≠ x.total ∨ total < got.length then (keep s others, denied 8)
      else if got.length < total then carried (keep s (others ++ [{ x with data := got }]))
      else (keep s others).writeWhole path r e got

/-- WRITE. -/
def State.writeEntry (s : State) (path : Path) (r : AReq) (e : EntryRow) : State × Answer :=
  let index := r.index.toNat
  let sub := r.sub.toNat
  let bs := r.data.take r.dataBytes.toNat
  if e.access = .ro ∨ e.access = .const then (s, denied 2)
  else if s.rwsRefused e sub then (s, denied 5)
  else if index = 0x1200 ∧ 0x0F ≤ sub ∧ sub ≤ 0x11 then s.storeWrite (sub - 0x0F) r.offset.toNat r.total.toNat bs
  else if bs.length < r.total.toNat then s.writeSegment path r e
  else if r.offset ≠ 0 then (s, denied 4)
  else s.writeWhole path r e bs

/-- ABORT: the requester's sessions and snapshots of the entry are discarded. -/
def State.abortEntry (s : State) (path : Path) (r : AReq) : State :=
  s.updMgmt fun m => { m with
    sessions := m.sessions.filter (fun x => !x.is path r.index r.sub),
    snapshots := m.snapshots.filter fun x =>
      !(sameRequester x.path path && x.index == r.index && x.sub == r.sub) }

/-- A request served: the state, and its reply. -/
def State.serve (s : State) (path : Path) (op : Nat) (r : AReq) : State × Reply :=
  let index := r.index.toNat
  let sub := r.sub.toNat
  if malformedReq r op ∨ droppedReq r then (s, (denied 13).reply)
  else if !s.permitted path op index then (s, Answer.reply (stPRIVILEGE, 11))
  else if s.inRecovery ∧ !recoveryServes index sub then (s, (denied 1).reply)
  else match rowOf index sub with
    | none => (s, (denied 1).reply)
    | some e =>
      if !s.inScope path op index sub e then (s, Answer.reply (stPRIVILEGE, 12))
      else match op with
        | 1 => s.readEntry path r e
        | 2 => let x := s.writeEntry path r e; (x.1, Answer.reply x.2)
        | 3 => (s, describeEntry e index sub)
        | _ => (s.abortEntry path r, Answer.reply (stDONE, 0))

/-- The partition whose commit a request has set to wait: of its windows for zeroing, or of its aperture group, true,
for lines of a host (R507, R551, R554). -/
def waitsFor (s t : State) (op : Nat) (r : AReq) : Option (Nat × Bool) :=
  let p := r.sub.toNat - 0x81
  let a := r.sub.toNat - 0x40
  if op = 2 ∧ r.index = 0x2101 ∧ 0x81 ≤ r.sub.toNat ∧ (s.part p).waitingWindows.isNone
      ∧ (t.part p).waitingWindows.isSome then some (p, false)
  else if op = 2 ∧ r.index = 0x2800 ∧ 0x40 ≤ r.sub.toNat ∧ (s.part a).waitingAper.isNone
      ∧ (t.part a).waitingAper.isSome then some (a, true)
  else none

/-! ### The IPv6 node's addresses (R538) -/

/-- The solicited-node group of an address. -/
def solicitedNode (a : List Byte) : List Byte :=
  [0xFF, 2, 0, 0, 0, 0, 0, 0, 0, 0, 0, 1, 0xFF] ++ takeAt a 13 3

/-- Whether a destination reaches the module: an address in use, all nodes, or the solicited-node group of one of
its addresses, the one under detection among them. -/
def State.reachesMe (s : State) (d : List Byte) : Bool :=
  s.addressInUse d || d == [0xFF, 2, 0, 0, 0, 0, 0, 0, 0, 0, 0, 0, 0, 0, 0, 1] || d == solicitedNode linkLocal
    || ((bit s.mgmt.addrState 1 || s.mgmt.detecting) && d == solicitedNode s.mgmt.net.live.unicast)

/-! ### Sending the answer (R540, R555, R559) -/

/-- A source becomes the most recent one; 16 are remembered. -/
def recentSource (kept : List (List Byte × List Kept)) (a : List Byte) : List (List Byte × List Kept) :=
  let mine := ((kept.find? fun k => k.1 == a).map (·.2)).getD []
  ((a, mine) :: kept.filter fun k => k.1 != a).take 16

/-- A request carried out and answered, unless its commit waits. -/
def State.carryOut (s : State) (path : Path) (op : Nat) (r : AReq) : State :=
  let x := s.serve path op r
  match waitsFor s x.1 op r with
  | some w => x.1.updMgmt fun m => { m with
      waiting := m.waiting ++ [{ path := path, req := r, part := w.1, aper := w.2 }] }
  | none => x.1.deliverAnswer s path op r x.2

/-- A frame from the management segment (R535, R539): one of a wrong length or FCS is counted in frame_errors, one
that is tagged, one that carries an extension header and one for another node are discarded. -/
def State.fromFrame (s : State) (f : Frame) (h : State → State) : State :=
  if !s.served then s
  else if f.fcs ≠ f.crc ∨ f.length < 64 ∨ 1518 < f.length then
    s.updMgmt fun m => { m with frameErrors := m.frameErrors + 1 }
  else if f.tagged then s
  else
    let s := s.updMgmt fun m => { m with framesRx := m.framesRx + 1 }
    if f.extended || !s.reachesMe f.dest then s else h s

/-- Whether a datagram is discarded (R539): its checksum zero or wrong, or its port another than asrel_port. -/
def State.discardsDgram (s : State) (d : Dgram) : Bool :=
  d.checksum == 0 || d.checksum != d.computed || d.dport != s.mgmt.net.live.port

/-- A request of a source served: answered again (R555), or carried out. -/
def State.serveNet (s : State) (d : Dgram) (op : Nat) (r : AReq) : State :=
    let a := d.frame.source
    let s := s.updMgmt fun m => { m with kept := recentSource m.kept a }
    match (((s.mgmt.kept.headD (a, [])).2).find? fun (k : Kept) =>
        k.reqId == r.reqId && k.opcode == op && k.index == r.index && k.sub == r.sub) with
    | some k => s.sendFrame s d k.answer
    | none => s.carryOut (.net d) op r

/-- Network requests that wait (R543). -/
def State.netWaiting (s : State) : Nat := (s.mgmt.queue.filter fun w => (sourceOf w.path).isSome).length

/-- A request that waits for the handover to end. -/
def State.enqueue (s : State) (path : Path) (op : Nat) (r : AReq) : State :=
  s.updMgmt fun m => { m with queue := m.queue ++ [{ path := path, opcode := op, req := r }] }

/-- A request of a source that the module takes: dropped, as is one of fewer than 28 bytes and one that finds sixteen
waiting (R543), waiting while the controller is paused, or served. -/
def State.takeRequest (s : State) (d : Dgram) (op : Nat) (r : AReq) (short : Bool) : State :=
  if short || droppedReq r || decide (16 ≤ s.netWaiting) then s.updMgmt fun m => { m with dropped := m.dropped + 1 }
  else if s.fw.paused then s.enqueue (.net d) op r
  else s.serveNet d op r

/-- A request that arrives over the network. -/
def State.fromNetwork (s : State) (d : Dgram) (op : Nat) (r : AReq) (short : Bool) : State :=
  s.fromFrame d.frame fun s => if s.discardsDgram d then s else s.takeRequest d op r short

/-- A request submitted through the mailbox of a port: refused while the mailbox is busy or holds a response
(R559). -/
def State.fromMailbox (s : State) (k : Fin 2) (op : Nat) (r : AReq) : State :=
  let b := (s.hport k.val).mbox
  if (s.hport k.val).state ≠ 3 ∨ !s.served then s
  else if b.busy || b.ready then s.updHport k.val fun h => { h with mbox := { h.mbox with refused := true } }
  else
    let s := s.updHport k.val fun h => { h with mbox := { h.mbox with busy := true } }
    if s.fw.paused then s.enqueue (.mailbox k) op r else s.carryOut (.mailbox k) op r

/-- A request by its path. -/
def State.request (s : State) (path : Path) (op : Nat) (r : AReq) (form : ReqForm) : State :=
  match path with
  | .net d => s.fromNetwork d (form.opcodeOr op) r form.short
  | .mailbox k => s.fromMailbox k (form.opcodeOr op) r

/-- ASREL_READ. -/
def execAsrelRead (path : Path) (r : AReq) (s : State) (form : ReqForm := .whole) :
    Host.Outcome State Fault Refusal := .next (s.request path 1 r form)

/-- ASREL_WRITE. -/
def execAsrelWrite (path : Path) (r : AReq) (s : State) (form : ReqForm := .whole) :
    Host.Outcome State Fault Refusal := .next (s.request path 2 r form)

/-- DESCRIBE. -/
def execDescribe (path : Path) (r : AReq) (s : State) (form : ReqForm := .whole) :
    Host.Outcome State Fault Refusal := .next (s.request path 3 r form)

/-- ASREL_ABORT. -/
def execAsrelAbort (path : Path) (r : AReq) (s : State) (form : ReqForm := .whole) :
    Host.Outcome State Fault Refusal := .next (s.request path 4 r form)

/-- The requests that waited are served, in order of arrival (R554, R591). -/
def State.serveQueue (s : State) : State :=
  s.mgmt.queue.foldl (fun s w => match w.path with
    | .net d => s.serveNet d w.opcode w.req
    | .mailbox k => s.carryOut (.mailbox k) w.opcode w.req) (s.updMgmt fun m => { m with queue := [] })

/-- HANDOVER: the whole of it, or, begins, its first two steps alone, after which the controller is paused until the
next (R590, R592; DESIGN CHOICE, log entry 6). -/
def execHandover (ok : Bool) (s : State) (begins : Bool := false) : Host.Outcome State Fault Refusal :=
  .next (if begins then s.beginHandover
    else if s.fw.paused then (s.handover ok).serveQueue else s.handover ok)

/-- ZEROING_COMPLETE: the clearing ends, windows that waited take effect, and their commit is answered. -/
def execZeroingComplete (part : Fin 16) (s : State) : Host.Outcome State Fault Refusal :=
  .next (if (s.part part).clearing then (s.zeroingDone part).answerWaiting part false else s)

/-- SNAPSHOT_EXPIRY: 1 s without a READ of it. -/
def execSnapshotExpiry (n : Fin 4) (s : State) : Host.Outcome State Fault Refusal :=
  .next (s.updMgmt fun m => { m with snapshots := m.snapshots.eraseIdx n })

/-- SESSION_EXPIRY: idle for 1 s. -/
def execSessionExpiry (n : Fin 4) (s : State) : Host.Outcome State Fault Refusal :=
  .next (s.updMgmt fun m => { m with sessions := m.sessions.eraseIdx n })

/-! ### The mailbox (R557 to R559) -/

/-- Bytes of a request as the mailbox holds them. -/
def MBox.frame (b : MBox) (n : Nat) : List Byte :=
  takeAt ((List.range 263).flatMap fun i => leBytes 4 (Sparse.get 0 b.request i).toNat) 0 n

/-- The fields of a frame. -/
def parseRequest (f : List Byte) : Nat × AReq :=
  let b := fun o => (BitVec.ofNat 8 (leAt f o 1) : Byte)
  let h := fun o => (BitVec.ofNat 16 (leAt f o 2) : Half)
  let w := fun o => (BitVec.ofNat 32 (leAt f o 4) : Word)
  (leAt f 3 1,
   { magic := h 0, version := b 2, reqId := w 4, index := h 8, sub := b 10, flags := b 11, status := h 12,
     reason := b 14, typ := b 15, dataBytes := h 16, reserved := h 18, offset := w 20, total := w 24,
     data := f.drop 28 })

/-- A write of MB_SUBMIT. -/
def State.submit (s : State) (k : Fin 2) (v : Word) : State :=
  let n := fld v 0 11
  let refuse := fun (s : State) => s.updHport k.val fun h => { h with mbox := { h.mbox with refused := true } }
  if n < 28 ∨ 1052 < n then (if s.served then refuse s else s)
  else
    let x := parseRequest ((s.hport k.val).mbox.frame n)
    s.fromMailbox k x.1 x.2

/-- MB_SUBMIT. -/
def execMbSubmit (port : Fin 2) (value : Word) (s : State) : Host.Outcome State Fault Refusal :=
  .next (s.submit port value)

/-- MB_CLEAR bit 0: ready, and with it response_bytes. -/
def State.clearReady (s : State) (k : Nat) : State :=
  s.updHport k fun h => { h with mbox := { h.mbox with ready := false } }

/-- MB_CLEAR_READY. -/
def execMbClearReady (port : Fin 2) (s : State) : Host.Outcome State Fault Refusal := .next (s.clearReady port)

/-- MB_CLEAR bit 1: submit_refused. -/
def State.clearRefused (s : State) (k : Nat) : State :=
  s.updHport k fun h => { h with mbox := { h.mbox with refused := false } }

/-- MB_CLEAR_REFUSED. -/
def execMbClearRefused (port : Fin 2) (s : State) : Host.Outcome State Fault Refusal := .next (s.clearRefused port)

/-! ### The IPv6 node (R538, R561) -/

/-- Detection finds unicast_addr in use: it stays unused (R561). -/
def State.duplicate (s : State) : State :=
  s.updMgmt fun m => { m with detecting := false, addrState := (m.addrState &&& 0xF9) ||| 4 }

/-- NEIGHBOR_SOLICITATION: answered for an address in use; one from the unspecified address for the address under
detection finds it duplicate. -/
def execNeighborSolicitation (f : Frame) (target : List Byte) (s : State) : Host.Outcome State Fault Refusal :=
  .next <| s.fromFrame f fun s =>
    if s.mgmt.detecting && target == s.mgmt.net.live.unicast && f.source.all (· == 0) then s.duplicate
    else if s.addressInUse target then s.sendNet (.advertise s.access target)
    else s

/-- NEIGHBOR_ADVERTISEMENT: one for the address under detection finds it duplicate. -/
def execNeighborAdvertisement (a : Advert) (s : State) : Host.Outcome State Fault Refusal :=
  .next <| s.fromFrame a.frame fun s =>
    if s.mgmt.detecting && a.target == s.mgmt.net.live.unicast then s.duplicate else s

/-- ICMP_ECHO_REQUEST: the reply carries its identifier, its sequence number and its data unchanged. -/
def execIcmpEchoRequest (f : Frame) (ident : Word) (data : List Byte) (s : State) : Host.Outcome State Fault Refusal :=
  .next <| s.fromFrame f fun s => s.sendNet (.echoIcmp s.access f.source ident data)

/-- DAD_TIMEOUT: 1 s with no duplicate found: unicast_addr enters use. -/
def execDadTimeout (s : State) : Host.Outcome State Fault Refusal :=
  .next (if s.mgmt.detecting then
      s.updMgmt fun m => { m with detecting := false, addrState := m.addrState ||| 2 } else s)

end Sys2Proof.Machine
end

