-- ==== Sys2Proof/Machine/Registers.lean ====
section
/-! DEFINITION. Machine/Registers.lean: the control and status region as a host sees it (R93, R170 to R173, R402,
R403, R461 to R463, R530, R557), the write of one of its registers, and the host's RD and WR (R499 to R503). -/

namespace Sys2Proof.Machine

/-! ### Halves of 64-bit registers -/

def loWord (x : Long) : Word := x.setWidth 32
def hiWord (x : Long) : Word := (x >>> 32).setWidth 32
def setLo (x : Long) (v : Word) : Long := (x &&& 0xFFFFFFFF00000000) ||| v.setWidth 64
def setHi (x : Long) (v : Word) : Long := (x &&& 0x00000000FFFFFFFF) ||| (v.setWidth 64 <<< 32)

/-- A word register from its number. -/
def regW (n : Nat) : Word := BitVec.ofNat 32 n

/-! ### The block of a core (R170 to R173) -/

/-- The state field of QUEUE_STATUS: 2 while the partition neither runs nor drains. -/
def State.queueCode (s : State) (c : Nat) : Nat :=
  if !s.coreActive c then 2
  else match (s.core c).qstate with
    | .running => 0
    | .stopped => 1
    | .partStopped => 2

/-- QUEUE_STATUS. -/
def State.queueWord (s : State) (c : Nat) : Word :=
  let k := s.core c
  regW ((if k.overflow then 2 ^ 23 else 0) + (if k.refused then 2 ^ 22 else 0) + s.queueCode c * 2 ^ 20
    + s.outstanding c % 128 * 2 ^ 8 + k.queue.length % 128)

/-- DESC_STATUS. -/
def Core.descWord (k : Core) : Word :=
  regW ((if k.busy then 2 ^ 31 else 0) + (if k.busyRefused then 2 ^ 30 else 0) + k.descStatus.toNat)

/-- The bits of a first operand word that hold a value (R152). -/
def slotMask : Word := 0xC00003FF

/-- The bits of a word after the header that hold a value in a block of a kind (R152, R153, R207); n is the instruction
count of a VECTOR. -/
def bodyMask (kind n i : Nat) : Word :=
  if 1 ≤ kind ∧ kind ≤ 4 ∧ (i = 8 ∨ i = 12) then slotMask
  else match kind, i with
    | 1, 16 | 2, 16 | 2, 20 | 3, 16 | 6, 8 | 6, 12 => slotMask
    | 1, 20 => 0x000FFF7F
    | 2, 24 => 0x0000007F
    | 2, i => if 25 ≤ i ∧ i < 25 + n then 0xFFFFFFFC else 0xFFFFFFFF
    | 3, 20 => 0x000003FF
    | 4, 16 => 0xFFFF03F7
    | 4, 18 => 0x03FFFFFF
    | 4, 19 => 0x0000FFFF
    | 5, 5 => 0x0000000F
    | 5, 6 => 0x000003FF
    | 6, 5 => 0xFFFF3FFF
    | 6, 6 => 0x0000FFFF
    | 6, 9 | 6, 10 | 6, 11 | 6, 13 | 6, 14 | 6, 15 => 0
    | 6, 16 => 0x800000FF
    | _, _ => 0xFFFFFFFF

/-- Word i of BLOCK_STAGE as a read gives it: the fields that are reserved in a block of the staged kind read zero (R11;
DEDUCED, log entry 116). -/
def Core.stageWord (k : Core) (i : Nat) : Word :=
  let w := fun j => Sparse.get 0 k.stage j
  w i &&& bodyMask (fld (w 0) 28 4) (fld (w 24) 0 7) i

/-- A read at offset o of the block of core c. -/
def State.coreRead (s : State) (c o : Nat) : Word :=
  let k := s.core c
  if o < 0x180 then k.stageWord (o / 4)
  else if o = 0x184 then s.queueWord c
  else if o = 0x18C then k.stopInfo
  else if o = 0x190 then loWord k.cpl.live.base
  else if o = 0x194 then hiWord k.cpl.live.base
  else if o = 0x198 then k.cpl.live.entries
  else if o = 0x19C then k.cplStatus.setWidth 32
  else if o = 0x1A0 then k.producer
  else if o = 0x1A4 then k.consumer
  else if o = 0x1A8 then k.lost
  else if 0x400 ≤ o ∧ o < 0x480 then Sparse.get 0 k.descStage ((o - 0x400) / 4)
  else if o = 0x484 then k.descWord
  else if 0x800 ≤ o ∧ o < 0xC00 then s.tallyOf c ((o - 0x800) / 4)
  else if o = 0x8190 then loWord k.cpl.sh.base
  else if o = 0x8194 then hiWord k.cpl.sh.base
  else if o = 0x8198 then k.cpl.sh.entries
  else 0

/-- Word i of DESC_STAGE as written: reserved fields and the partition field take nothing (R11, R139). -/
def descStageWord (i : Nat) (v : Word) : Word :=
  if i = 0 then v &&& 0xFFF00000 else if i = 3 ∨ 28 ≤ i then 0 else v

/-- A write of DESC_STAGE (R143, R144). -/
def State.writeDescStage (s : State) (c i : Nat) (v : Word) : State :=
  s.updCore c fun k =>
    if k.busy then { k with busyRefused := true }
    else { k with descStage := Sparse.set 0 k.descStage i (descStageWord i v) }

/-- A write of a register of the completion-ring group: into its shadow (R173, R174). -/
def State.writeCpl (s : State) (c : Nat) (f : Cpl → Cpl) : State :=
  s.updCore c fun k => { k with cpl := ⟨f k.cpl.sh, k.cpl.live⟩ }

/-- A write of QUEUE_CTRL: flush, clear_sticky, resume, in that order (R172). -/
def State.writeQueueCtrl (s : State) (c : Nat) (v : Word) : State :=
  let s := if bit v 1 then s.queueFlush c else s
  let s := if bit v 2 then s.queueClearSticky c else s
  if bit v 0 then s.queueResume c else s

/-- The bits of a staged word that hold a value: the reserved fields of the header, which stand at one place in
every kind of block, read zero (R11, R150; DEDUCED, log entry 116). -/
def headerMask : Nat → Word
  | 0 => 0xFFF0FFFF
  | 1 => 0xC00000FF
  | 3 => 0xFFC0FFFF
  | 4 => 0x000007F7
  | _ => 0xFFFFFFFF

/-- A write at offset o of the block of core c. -/
def State.coreWrite (s : State) (c o : Nat) (v : Word) : State :=
  if o < 0x180 then s.updCore c fun k => { k with stage := Sparse.set 0 k.stage (o / 4) (v &&& headerMask (o / 4)) }
  else if o = 0x180 then s.startWrite c v
  else if o = 0x188 then s.writeQueueCtrl c v
  else if o = 0x190 then s.writeCpl c fun g => { g with base := setLo g.base v }
  else if o = 0x194 then s.writeCpl c fun g => { g with base := setHi g.base v }
  else if o = 0x198 then s.writeCpl c fun g => { g with entries := v &&& 0x1F }
  else if o = 0x19C then s.cplCommit c
  else if o = 0x1A4 then s.updCore c fun k => { k with consumer := v }
  else if 0x400 ≤ o ∧ o < 0x480 then s.writeDescStage c ((o - 0x400) / 4) v
  else if o = 0x480 then s.descCommit c (fld v 0 10)
  else if o = 0x488 then s.descRead c (fld v 0 10)
  else if 0x800 ≤ o ∧ o < 0xC00 then s.tallyValueWrite c ((o - 0x800) / 4) v
  else if 0xC00 ≤ o ∧ o < 0x1000 then s.tallyAddWrite c ((o - 0xC00) / 4) v
  else s

/-! ### The pattern block (R402, R403) -/

/-- The state field of PAT_STATE. -/
def PatState.code : PatState → Nat
  | .empty => 0
  | .checking => 1
  | .loaded => 2
  | .armed => 3
  | .running => 4
  | .faulted => 5

/-- Manifests committed whose step has not begun (R395). -/
def Sched.manifestsPending (d : Sched) : Nat := d.nextStep - d.begun

/-- A read at offset o of the pattern block of a partition. -/
def Part.patRead (q : Part) (o : Nat) : Word :=
  let r := q.regs
  if o = 0x000 then loWord r.base.live
  else if o = 0x004 then hiWord r.base.live
  else if o = 0x008 then r.bytes.live
  else if o = 0x00C then r.commitStatus.setWidth 32
  else if o = 0x010 then regW (q.patState.code * 2 ^ 28 + q.loadStatus.toNat)
  else if o = 0x018 then loWord r.start.live
  else if o = 0x01C then hiWord r.start.live
  else if o = 0x020 then r.startStatus.setWidth 32
  else if o = 0x028 then loWord r.man.live
  else if o = 0x02C then hiWord r.man.live
  else if o = 0x030 then r.manStatus.setWidth 32
  else if o = 0x034 then regW (q.sched.manifestsPending % 16 * 2 ^ 16 + r.manStatus.toNat)
  else if o = 0x040 then regW q.sched.pstitch
  else if o = 0x044 then regW (q.sched.pstitch / 2 ^ 32)
  else if o = 0x048 then regW q.sched.step
  else if o = 0x04C then q.sched.slips
  else if o = 0x800 then loWord r.base.sh
  else if o = 0x804 then hiWord r.base.sh
  else if o = 0x808 then r.bytes.sh
  else if o = 0x818 then loWord r.start.sh
  else if o = 0x81C then hiWord r.start.sh
  else if o = 0x828 then loWord r.man.sh
  else if o = 0x82C then hiWord r.man.sh
  else 0

/-- A shadow of the pattern block written (R174). -/
def PatRegs.shadow (r : PatRegs) (o : Nat) (v : Word) : PatRegs :=
  if o = 0x000 then { r with base := ⟨setLo r.base.sh v, r.base.live⟩ }
  else if o = 0x004 then { r with base := ⟨setHi r.base.sh v, r.base.live⟩ }
  else if o = 0x008 then { r with bytes := ⟨v, r.bytes.live⟩ }
  else if o = 0x018 then { r with start := ⟨setLo r.start.sh v, r.start.live⟩ }
  else if o = 0x01C then { r with start := ⟨setHi r.start.sh v, r.start.live⟩ }
  else if o = 0x028 then { r with man := ⟨setLo r.man.sh v, r.man.live⟩ }
  else if o = 0x02C then { r with man := ⟨setHi r.man.sh v, r.man.live⟩ }
  else r

/-- A write at offset o of the pattern block of partition p. -/
def State.patWrite (s : State) (p o : Nat) (v : Word) : State :=
  if o = 0x00C then s.patCommit p
  else if o = 0x020 then s.startCommit p
  else if o = 0x030 then s.manCommit p
  else s.updPart p fun q => { q with regs := q.regs.shadow o v }

/-! ### The partition block (R461 to R463) -/

/-- The state field of PART_STATE. -/
def PState.code : PState → Nat
  | .absent => 0
  | .zeroing => 1
  | .stopped => 2
  | .running => 3
  | .draining => 4

/-- PART_STATE. -/
def Part.stateWord (q : Part) : Word :=
  let l := q.layout.live
  regW (q.state.code * 2 ^ 28 + l.excl.toNat % 2 * 2 ^ 27 + l.hostPort.toNat % 2 * 2 ^ 26
    + l.cls.toNat % 4 * 2 ^ 24 + (if q.drainStep.isSome then 2 ^ 23 else 0) + l.count.toNat % 128 * 2 ^ 16
    + q.ctrlStatus.toNat)

/-- A read at offset o of the partition block. -/
def Part.partRead (q : Part) (o : Nat) : Word :=
  if o = 0 then q.stateWord else if o = 8 then q.drainReg else if o = 0xC then q.stopCause.setWidth 32 else 0

/-- A write at offset o of the block of partition p. -/
def State.partWrite (s : State) (p o : Nat) (v : Word) : State :=
  if o = 4 then s.partCtrl p (bit v 0) (bit v 1) (bit v 2)
  else if o = 8 then s.updPart p fun q => { q with drainReg := v }
  else s

/-! ### The Yepecy block (R530, R557, R558) -/

/-- MB_STATUS: response_bytes is 0 without a response. -/
def MBox.statusWord (b : MBox) : Word :=
  regW ((if b.busy then 2 ^ 31 else 0) + (if b.ready then 2 ^ 30 + b.response.length % 2048 else 0)
    + (if b.refused then 2 ^ 29 else 0))

/-- A read at offset o of queue x's registers. -/
def HQueue.read (x : HQueue) (o : Nat) : Word :=
  if o = 0x00 then loWord x.base.live
  else if o = 0x04 then hiWord x.base.live
  else if o = 0x08 then x.size.live
  else if o = 0x0C then x.bind.live
  else if o = 0x10 then x.commitStatus.setWidth 32
  else if o = 0x18 then regW (x.state * 2 ^ 28 + x.lastStatus.toNat)
  else if o = 0x1C then x.delivered
  else if o = 0x20 then x.released
  else if o = 0x24 then regW x.fill
  else if o = 0x28 then regW x.free
  else if o = 0x2C then x.discards
  else 0

/-- A read of the shadow at offset o of queue x's registers. -/
def HQueue.readShadow (x : HQueue) (o : Nat) : Word :=
  if o = 0x00 then loWord x.base.sh
  else if o = 0x04 then hiWord x.base.sh
  else if o = 0x08 then x.size.sh
  else if o = 0x0C then x.bind.sh
  else 0

/-- A shadow of queue x written; reserved bits take nothing. -/
def HQueue.shadow (x : HQueue) (o : Nat) (v : Word) : HQueue :=
  if o = 0x00 then { x with base := ⟨setLo x.base.sh v, x.base.live⟩ }
  else if o = 0x04 then { x with base := ⟨setHi x.base.sh v, x.base.live⟩ }
  else if o = 0x08 then { x with size := ⟨v &&& 0x1F, x.size.live⟩ }
  else if o = 0x0C then { x with bind := ⟨v &&& 0x1FFFFFFF, x.bind.live⟩ }
  else x

/-- A read at offset o of vector x's registers. -/
def IVec.read (x : IVec) (o : Nat) : Word :=
  if o = 0x00 then loWord x.addr
  else if o = 0x04 then hiWord x.addr
  else if o = 0x08 then x.data
  else if o = 0x0C then x.causes
  else if o = 0x10 then x.coalesce
  else if o = 0x14 then x.pending
  else 0

/-- A write at offset o of vector x's registers. -/
def IVec.write (x : IVec) (o : Nat) (v : Word) : IVec :=
  if o = 0x00 then { x with addr := setLo x.addr v }
  else if o = 0x04 then { x with addr := setHi x.addr v }
  else if o = 0x08 then { x with data := v }
  else if o = 0x0C then { x with causes := v &&& 0xFFFF003F }
  else if o = 0x10 then { x with coalesce := v &&& 0xFFFF }
  else if o = 0x14 then { x with pending := x.pending &&& ~~~v }
  else x

/-- A read at offset o of port k's half of the block. -/
def State.yepecyRead (s : State) (k o : Nat) : Word :=
  let h := s.hport k
  if 0x100 ≤ o ∧ o < 0x200 then Sparse.get 0 h.dbBind ((o - 0x100) / 4)
  else if 0x1000 ≤ o ∧ o < 0x1800 then
    let q := (o - 0x1000) / 0x40
    if s.queueReached k q then (s.hqueue k q).read ((o - 0x1000) % 0x40) else 0
  else if 0x2000 ≤ o ∧ o < 0x2400 then
    (Sparse.get IVec.reset h.vecs ((o - 0x2000) / 0x20)).read ((o - 0x2000) % 0x20)
  else if 0x4000 ≤ o ∧ o < 0x441C then Sparse.get 0 h.mbox.request ((o - 0x4000) / 4)
  else if 0x4800 ≤ o ∧ o < 0x4C1C then regW (leAt h.mbox.response (o - 0x4800) 4)
  else if o = 0x4F04 then h.mbox.statusWord
  else if 0x41000 ≤ o ∧ o < 0x41800 then
    let q := (o - 0x41000) / 0x40
    if s.queueReached k q then (s.hqueue k q).readShadow ((o - 0x41000) % 0x40) else 0
  else 0

/-- A write at offset o of a queue's registers. -/
def State.queueWrite (s : State) (k q o : Nat) (v : Word) : State :=
  if !s.queueReached k q then s
  else if o = 0x10 then s.commitQueue k q
  else if o = 0x14 then (if bit v 0 then s.flushQueue k q else s)
  else if o ≤ 0x0C then s.updQueue k q fun x => x.shadow o v
  else s

/-- A write at offset o of port k's half of the block. -/
def State.yepecyWrite (s : State) (k : Fin 2) (o : Nat) (v : Word) : State :=
  if o < 0x100 then s.ring k (o / 4) v
  else if o < 0x200 then s.bindDoorbell k ((o - 0x100) / 4) v
  else if 0x1000 ≤ o ∧ o < 0x1800 then s.queueWrite k ((o - 0x1000) / 0x40) ((o - 0x1000) % 0x40) v
  else if 0x2000 ≤ o ∧ o < 0x2400 then
    s.updHport k fun h => { h with
      vecs := Sparse.set IVec.reset h.vecs ((o - 0x2000) / 0x20)
        ((Sparse.get IVec.reset h.vecs ((o - 0x2000) / 0x20)).write ((o - 0x2000) % 0x20) v) }
  else if 0x4000 ≤ o ∧ o < 0x441C then
    s.updHport k fun h => { h with mbox := { h.mbox with request := Sparse.set 0 h.mbox.request ((o - 0x4000) / 4) v } }
  else if o = 0x4F00 then s.submit k v
  else if o = 0x4F08 then
    let s := if bit v 0 then s.clearReady k else s
    if bit v 1 then s.clearRefused k else s
  else s

/-! ### The region (R93, R436) -/

/-- A block that a register lies in. -/
inductive RegBlock where
  | core (c : Nat)
  | pattern (p : Nat)
  | stitch
  | part (p : Nat)
  | yepecy (k : Nat)
  | none
  deriving DecidableEq, Repr

/-- The block of an offset of the region, and the offset in it. -/
def regBlockOf (off : Nat) : RegBlock × Nat :=
  if off < 0x2000000 then (.core (off / 0x10000), off % 0x10000)
  else if 0x5000000 ≤ off ∧ off < 0x5010000 then (.pattern ((off - 0x5000000) / 0x1000), off % 0x1000)
  else if off = 0x5010000 ∨ off = 0x5010004 then (.stitch, off % 0x1000)
  else if 0x6000000 ≤ off ∧ off < 0x6010000 then (.part ((off - 0x6000000) / 0x1000), off % 0x1000)
  else if 0x7000000 ≤ off ∧ off < 0x7100000 then (.yepecy ((off - 0x7000000) / 0x80000), off % 0x80000)
  else (.none, off)

/-- Whether a host access through port k reaches a block. -/
def State.reachesBlock (s : State) (k : Nat) : RegBlock → Bool
  | .core c => match s.partOf c with | some p => s.boundTo p k | none => false
  | .pattern p => s.boundTo p k
  | .stitch => true
  | .part p => s.boundTo p k
  | .yepecy j => j == k
  | .none => false

/-- A refusal counted in privilege_refusals. -/
def State.countRefusal (s : State) : State :=
  { s with tenancy := { s.tenancy with refusals := s.tenancy.refusals + 1 } }

/-- What a register holds. -/
def State.regValue (s : State) (off : Nat) : Word :=
  match regBlockOf off with
  | (.core c, o) => s.coreRead c o
  | (.pattern p, o) => (s.part p).patRead o
  | (.stitch, o) => if o = 0 then loWord s.tb.count else hiWord s.tb.count
  | (.part p, o) => (s.part p).partRead o
  | (.yepecy k, o) => s.yepecyRead k o
  | (.none, _) => 0

/-- A read of the region by the host of port k. -/
def State.regRead (s : State) (k off : Nat) : State × Word :=
  if s.reachesBlock k (regBlockOf off).1 then (s, s.regValue off) else (s.countRefusal, 0)

/-- A write of the region by the host of port k. -/
def State.regWrite (s : State) (k : Fin 2) (off : Nat) (v : Word) : State :=
  if !s.reachesBlock k (regBlockOf off).1 then s.countRefusal
  else match regBlockOf off with
    | (.core c, o) => if s.coreOpen c then s.coreWrite c o v else s
    | (.pattern p, o) => s.patWrite p o v
    | (.stitch, _) => s
    | (.part p, o) => s.partWrite p o v
    | (.yepecy _, o) => s.yepecyWrite k o v
    | (.none, _) => s

/-- REGISTER_WRITE: 4 bytes at an offset of the region; one that is not aligned is refused (R502, R503). -/
def execRegisterWrite (port : Fin 2) (offset : BitVec 27) (value : Word) (s : State) :
    Host.Outcome State Fault Refusal :=
  .next (if offset.toNat % 4 ≠ 0 then s.refuseHost else s.regWrite port offset.toNat value)

/-! ### RD and WR (R499 to R503) -/

/-- Where a host access goes. -/
inductive HostPlace where
  | memory (a : Nat)
  | register (off : Nat)
  | refused
  | closed
  deriving DecidableEq, Repr

/-- The place of an access of n bytes by the host of port k (R437, R500, R502). -/
def State.hostPlace (s : State) (k a n : Nat) : HostPlace :=
  if n = 0 ∨ 256 < n ∨ 256 < a % 256 + n then .refused
  else match addrRegion a with
    | 0 => if (List.range 16).any fun p => s.boundTo p k && s.inWindow p a n then .memory a else .refused
    | 1 =>
      match s.partOf (cellarCore a) with
      | some p => if s.boundTo p k then .memory a else .refused
      | none => .refused
    | 3 => if n = 4 ∧ a % 4 = 0 ∧ addrOffset a < 2 ^ 27 then .register (addrOffset a) else .refused
    | _ => .refused

/-- Whether the crossings to a register of the region are open. -/
def State.regOpen (s : State) (off : Nat) : Bool :=
  match (regBlockOf off).1 with
  | .core c => s.coreOpen c
  | _ => true

/-- The place that an access reaches over the crossings that are open (R29). -/
def State.hostReach (s : State) (k a n : Nat) : HostPlace :=
  match s.hostPlace k a n with
  | .memory x => if s.memOpen x then .memory x else .closed
  | .register off => if s.regOpen off then .register off else .closed
  | x => x

/-- A host's RD answered. -/
def State.onRd (s : State) (k : Nat) (p : HPkt) (ecc : Ecc) : State :=
  match s.hostReach k (addrLocal p.addr.toNat) p.len with
  | .memory a => (s.hostRead k p a p.len ecc).1
  | .register off => let r := s.regRead k off; r.1.respond k p stDONE (leBytes 4 r.2.toNat)
  | .refused => s.refuseRead k p
  | .closed => s

/-- RD. -/
def execRd (port : Fin 2) (p : HPkt) (ecc : Ecc) (s : State) : Host.Outcome State Fault Refusal :=
  guarded (p.isKind 0) (s.hostArrival port p fun s => s.onRd port p ecc)

/-- A host's WR applied. -/
def State.onWr (s : State) (k : Fin 2) (p : HPkt) (ecc : Ecc) : State :=
  match s.hostReach k (addrLocal p.addr.toNat) p.len with
  | .memory a => s.hostWrite k a p.payload ecc
  | .register off => s.regWrite k off (BitVec.ofNat 32 (ofLe p.payload))
  | .refused => s.refuseHost
  | .closed => s

/-- WR. -/
def execWr (port : Fin 2) (p : HPkt) (s : State) (ecc : Ecc := .clean) : Host.Outcome State Fault Refusal :=
  guarded (p.isKind 3) (s.hostArrival port p fun s => s.onWr port p ecc)

end Sys2Proof.Machine
end

