-- ==== Sys2Proof/Machine/Maint.lean ====
section
/-! DEFINITION. Machine/Maint.lean: maintenance packets as they arrive (R265, R271, R273, R282, R473, R583). -/

namespace Sys2Proof.Machine

/-- An echo request in a packet (R477): the link cycle of its arrival is a free value. -/
def State.maintEcho (s : State) (k : Nat) : State :=
  let r := s.freeWord
  if (s.link k).answers then r.1.answerEcho k (BitVec.ofNat 64 r.2) else s

/-- An echo reply in a packet: the round trip, of link cycles, is a free value; the turnaround is what its two
counts tell (log entry 112). -/
def State.maintReply (s : State) (k : Nat) (f : List Byte) : State :=
  let r := s.freeWord
  let turn := leAt f 16 8 - leAt f 8 8
  if (s.link k).answers then r.1.onEcho k (r.2 - turn) else s

/-- A distribution frame acts only on a port in service (R583). -/
def State.maintDist (s : State) (k : Nat) (h : State → State) : State := if (s.link k).state = 5 then h s else s

/-- The frame of a maintenance packet, by the type in its first byte. -/
def State.onMaintFrame (s : State) (k : Nat) (f : List Byte) : State :=
  match leAt f 0 1, f.length with
  | 0x01, 64 => s.onIdentity k f
  | 0x02, _ => s.maintEcho k
  | 0x03, _ => s.maintReply k f
  | 0x10, 80 => s.maintDist k fun s => s.onOffer k f
  | 0x11, 100 => s.maintDist k fun s => s.onNeed k f
  | 0x12, 144 => s.maintDist k fun s => s.onPart k f
  | 0x13, 68 => s.maintDist k fun s => s.onAbort k f
  | _, _ => s.discardPkt

/-- A maintenance packet arrives on a port from stage 3 on. -/
def State.onMaint (s : State) (k : Nat) (p : Pkt) : State :=
  let st := (s.link k).state.toNat
  if st < 3 ∨ 7 < st then s
  else
    let s := s.countRx k p.flits 3 (min p.channel.toNat 1)
    if p.check ≠ p.crc ∨ p.cls ≠ 3 ∨ p.kind ≠ 0xC ∨ 2 ≤ p.channel.toNat then s.discardPkt
    else ((s.updFabric fun f => { f with delivered := f.delivered + 1 }).sample 6 3 (some p.part.toNat)
      p.bytes).onMaintFrame k p.payload

/-- MAINT. -/
def execMaint (port : Fin 6) (p : Pkt) (s : State) : Host.Outcome State Fault Refusal :=
  guarded (decide (p.payload.length ≤ 256)) (s.onMaint port p)

end Sys2Proof.Machine
end

