-- ==== Sys2Proof/Machine/Dispatch.lean ====
section
/-! DEFINITION. Machine/Dispatch.lean: one arm per command, each a direct call of its meaning. -/

namespace Sys2Proof.Machine

/-- The effect of a command on everything but the queue. -/
def exec (i : Instr) (s : State) : Host.Outcome State Fault Refusal :=
  match i with
  | .reset lowNs modid segpos recoveryN torn => Sys2Proof.Machine.execReset lowNs modid segpos recoveryN s torn
  | .railBringUp => Sys2Proof.Machine.execRailBringUp s
  | .hbmTraining => Sys2Proof.Machine.execHbmTraining s
  | .moduleReady => Sys2Proof.Machine.execModuleReady s
  | .inputRise => Sys2Proof.Machine.execInputRise s
  | .powerLoss m => Sys2Proof.Machine.execPowerLoss m s
  | .overvoltage => Sys2Proof.Machine.execOvervoltage s
  | .powerInputFault => Sys2Proof.Machine.execPowerInputFault s
  | .inputSettled => Sys2Proof.Machine.execInputSettled s
  | .powerLimitExceeded watts => Sys2Proof.Machine.execPowerLimitExceeded watts s
  | .thermalTrip sensor => Sys2Proof.Machine.execThermalTrip sensor s
  | .thermalWarning sensor => Sys2Proof.Machine.execThermalWarning sensor s
  | .historyRecord m => Sys2Proof.Machine.execHistoryRecord m s
  | .domainLockLoss domain => Sys2Proof.Machine.execDomainLockLoss domain s
  | .parityError unit => Sys2Proof.Machine.execParityError unit s
  | .stitchBoundary ecc symbols => Sys2Proof.Machine.execStitchBoundary s ecc symbols
  | .drainEnd part => Sys2Proof.Machine.execDrainEnd part s
  | .drainTimeout part => Sys2Proof.Machine.execDrainTimeout part s
  | .spanEndShort part resv => Sys2Proof.Machine.execSpanEndShort part resv s
  | .atticHoldEnd part handle => Sys2Proof.Machine.execAtticHoldEnd part handle s
  | .patternStart part ecc => Sys2Proof.Machine.execPatternStart part s ecc
  | .stitchMarker port m offsetCycles => Sys2Proof.Machine.execStitchMarker port m offsetCycles s
  | .timebaseLock => Sys2Proof.Machine.execTimebaseLock s
  | .holdover => Sys2Proof.Machine.execHoldover s
  | .waitCycle part => Sys2Proof.Machine.execWaitCycle part s
  | .start port core value => Sys2Proof.Machine.execStart port core value s
  | .streamEnqueue core => Sys2Proof.Machine.execStreamEnqueue core s
  | .gate core => Sys2Proof.Machine.execGate core s
  | .gateOpen core => Sys2Proof.Machine.execGateOpen core s
  | .segment core => Sys2Proof.Machine.execSegment core s
  | .body core => Sys2Proof.Machine.execBody core s
  | .endStep core => Sys2Proof.Machine.execEndStep core s
  | .issueChecks core => Sys2Proof.Machine.execIssueChecks core s
  | .matmul core => Sys2Proof.Machine.execMatmul core s
  | .tileStart core ecc => Sys2Proof.Machine.execTileStart core ecc s
  | .accumulatorDrain core ecc => Sys2Proof.Machine.execAccumulatorDrain core ecc s
  | .vector core ecc => Sys2Proof.Machine.execVector core ecc s
  | .fnTableCheck core => Sys2Proof.Machine.execFnTableCheck core s
  | .layernormFwd core ecc => Sys2Proof.Machine.execLayernormFwd core ecc s
  | .rmsnormFwd core ecc => Sys2Proof.Machine.execRmsnormFwd core ecc s
  | .softmaxFwd core ecc => Sys2Proof.Machine.execSoftmaxFwd core ecc s
  | .layernormBwd core ecc => Sys2Proof.Machine.execLayernormBwd core ecc s
  | .rmsnormBwd core ecc => Sys2Proof.Machine.execRmsnormBwd core ecc s
  | .softmaxBwd core ecc => Sys2Proof.Machine.execSoftmaxBwd core ecc s
  | .copy core ecc => Sys2Proof.Machine.execCopy core ecc s
  | .larderPush core ecc => Sys2Proof.Machine.execLarderPush core ecc s
  | .larderRead core ecc => Sys2Proof.Machine.execLarderRead core ecc s
  | .larderRelease core => Sys2Proof.Machine.execLarderRelease core s
  | .wait core => Sys2Proof.Machine.execWait core s
  | .fence core => Sys2Proof.Machine.execFence core s
  | .tallyAdd core => Sys2Proof.Machine.execTallyAdd core s
  | .tallySet core => Sys2Proof.Machine.execTallySet core s
  | .publish core => Sys2Proof.Machine.execPublish core s
  | .rsSum core => Sys2Proof.Machine.execRsSum core s
  | .rsSumCont core => Sys2Proof.Machine.execRsSumCont core s
  | .rsMean core => Sys2Proof.Machine.execRsMean core s
  | .rsMeanCont core => Sys2Proof.Machine.execRsMeanCont core s
  | .arSum core => Sys2Proof.Machine.execArSum core s
  | .arSumCont core => Sys2Proof.Machine.execArSumCont core s
  | .arMean core => Sys2Proof.Machine.execArMean core s
  | .arMeanCont core => Sys2Proof.Machine.execArMeanCont core s
  | .allGather core => Sys2Proof.Machine.execAllGather core s
  | .scalarSum core => Sys2Proof.Machine.execScalarSum core s
  | .scalarMax core => Sys2Proof.Machine.execScalarMax core s
  | .normReduce core => Sys2Proof.Machine.execNormReduce core s
  | .quarantineScan core resv ecc => Sys2Proof.Machine.execQuarantineScan core resv s ecc
  | .collectiveDeadline core resv ecc => Sys2Proof.Machine.execCollectiveDeadline core resv s ecc
  | .commandComplete core engine landing => Sys2Proof.Machine.execCommandComplete core engine s landing
  | .queueResume port core => Sys2Proof.Machine.execQueueResume port core s
  | .queueFlush port core => Sys2Proof.Machine.execQueueFlush port core s
  | .queueClearSticky port core => Sys2Proof.Machine.execQueueClearSticky port core s
  | .descCommit port core handle => Sys2Proof.Machine.execDescCommit port core handle s
  | .descCopyDone core => Sys2Proof.Machine.execDescCopyDone core s
  | .descRead port core handle => Sys2Proof.Machine.execDescRead port core handle s
  | .cplCommit port core => Sys2Proof.Machine.execCplCommit port core s
  | .tallyValueWrite port core tally value => Sys2Proof.Machine.execTallyValueWrite port core tally value s
  | .tallyAddRegister port core tally value => Sys2Proof.Machine.execTallyAddRegister port core tally value s
  | .registerWrite port offset value => Sys2Proof.Machine.execRegisterWrite port offset value s
  | .cellarScrub line found => Sys2Proof.Machine.execCellarScrub line found s
  | .cellarLineSpare line => Sys2Proof.Machine.execCellarLineSpare line s
  | .hbmRowRepair row => Sys2Proof.Machine.execHbmRowRepair row s
  | .spareCoreSubstitution core => Sys2Proof.Machine.execSpareCoreSubstitution core s
  | .unitSpareSubstitution unit => Sys2Proof.Machine.execUnitSpareSubstitution unit s
  | .windowCommit part => Sys2Proof.Machine.execWindowCommit part s
  | .larderCommit part => Sys2Proof.Machine.execLarderCommit part s
  | .zeroingComplete part => Sys2Proof.Machine.execZeroingComplete part s
  | .patCommit port part => Sys2Proof.Machine.execPatCommit port part s
  | .patternLoadDone part => Sys2Proof.Machine.execPatternLoadDone part s
  | .startCommit port part => Sys2Proof.Machine.execStartCommit port part s
  | .manCommit port part => Sys2Proof.Machine.execManCommit port part s
  | .partStart port part => Sys2Proof.Machine.execPartStart port part s
  | .partStop port part => Sys2Proof.Machine.execPartStop port part s
  | .partDrain port part => Sys2Proof.Machine.execPartDrain port part s
  | .layoutCommit part => Sys2Proof.Machine.execLayoutCommit part s
  | .guaranteeCommit part => Sys2Proof.Machine.execGuaranteeCommit part s
  | .placementCommit part => Sys2Proof.Machine.execPlacementCommit part s
  | .ledgerClear part => Sys2Proof.Machine.execLedgerClear part s
  | .statsClear part => Sys2Proof.Machine.execStatsClear part s
  | .routeHold => Sys2Proof.Machine.execRouteHold s
  | .routeCommit => Sys2Proof.Machine.execRouteCommit s
  | .peakClear port => Sys2Proof.Machine.execPeakClear port s
  | .write port p ecc => Sys2Proof.Machine.execWrite port p s ecc
  | .read port p ecc => Sys2Proof.Machine.execRead port p s ecc
  | .tally port p => Sys2Proof.Machine.execTally port p s
  | .fabOpen port p => Sys2Proof.Machine.execFabOpen port p s
  | .fabClose port p => Sys2Proof.Machine.execFabClose port p s
  | .readData port p ecc => Sys2Proof.Machine.execReadData port p s ecc
  | .ack port p => Sys2Proof.Machine.execAck port p s
  | .grant port p => Sys2Proof.Machine.execGrant port p s
  | .nack port p => Sys2Proof.Machine.execNack port p s
  | .openRetry skein => Sys2Proof.Machine.execOpenRetry skein s
  | .openTimeout skein => Sys2Proof.Machine.execOpenTimeout skein s
  | .transferTimeout skein tno => Sys2Proof.Machine.execTransferTimeout skein tno s
  | .receiveContextExpiry src skein tno => Sys2Proof.Machine.execReceiveContextExpiry src skein tno s
  | .skeinIdleClose skein => Sys2Proof.Machine.execSkeinIdleClose skein s
  | .packetRoute port p credits waited ecc => Sys2Proof.Machine.execPacketRoute port p credits waited s ecc
  | .escape port p => Sys2Proof.Machine.execEscape port p s
  | .schedMove port p landing ecc => Sys2Proof.Machine.execSchedMove port p landing s ecc
  | .collective port p ecc => Sys2Proof.Machine.execCollective port p s ecc
  | .maint port p => Sys2Proof.Machine.execMaint port p s
  | .portLight port farIdle host => Sys2Proof.Machine.execPortLight port s farIdle host
  | .training port failed host => Sys2Proof.Machine.execTraining port failed s host
  | .stageTimeout port lost => Sys2Proof.Machine.execStageTimeout port lost s
  | .identity port frame => Sys2Proof.Machine.execIdentity port frame s
  | .identitySend port => Sys2Proof.Machine.execIdentitySend port s
  | .echoRequest port arrival => Sys2Proof.Machine.execEchoRequest port arrival s
  | .echoReply port roundTrip turnaround => Sys2Proof.Machine.execEchoReply port roundTrip turnaround s
  | .codewordUncorrectable port strand => Sys2Proof.Machine.execCodewordUncorrectable port strand s
  | .lightLoss port strand => Sys2Proof.Machine.execLightLoss port strand s
  | .retrain port => Sys2Proof.Machine.execRetrain port s
  | .extest => Sys2Proof.Machine.execExtest s
  | .idcode => Sys2Proof.Machine.execIdcode s
  | .samplePreload pins preload => Sys2Proof.Machine.execSamplePreload s pins preload
  | .bypass => Sys2Proof.Machine.execBypass s
  | .hello port version check => Sys2Proof.Machine.execHello port version s check
  | .helloSend port => Sys2Proof.Machine.execHelloSend port s
  | .rd port p ecc => Sys2Proof.Machine.execRd port p ecc s
  | .rdShared port p ecc => Sys2Proof.Machine.execRdShared port p ecc s
  | .rdOwn port p ecc => Sys2Proof.Machine.execRdOwn port p ecc s
  | .wr port p ecc => Sys2Proof.Machine.execWr port p s ecc
  | .wb port p ecc => Sys2Proof.Machine.execWb port p s ecc
  | .ylFence port p => Sys2Proof.Machine.execYlFence port p s
  | .hAck port p => Sys2Proof.Machine.execHAck port p s
  | .hResp port p ecc => Sys2Proof.Machine.execHResp port p s ecc
  | .recall port line => Sys2Proof.Machine.execRecall port line s
  | .recallTimeout port line => Sys2Proof.Machine.execRecallTimeout port line s
  | .hostTimeout port tag => Sys2Proof.Machine.execHostTimeout port tag s
  | .hostLinkFault port => Sys2Proof.Machine.execHostLinkFault port s
  | .doorbell port n value => Sys2Proof.Machine.execDoorbell port n value s
  | .dbBind port n value => Sys2Proof.Machine.execDbBind port n value s
  | .interrupt part cause => Sys2Proof.Machine.execInterrupt part cause s
  | .coalesceExpiry port vec => Sys2Proof.Machine.execCoalesceExpiry port vec s
  | .hqCommit port queue => Sys2Proof.Machine.execHqCommit port queue s
  | .hqFlush port queue => Sys2Proof.Machine.execHqFlush port queue s
  | .hqIdleTimeout port queue => Sys2Proof.Machine.execHqIdleTimeout port queue s
  | .apertureCommit part => Sys2Proof.Machine.execApertureCommit part s
  | .asrelRead path r form => Sys2Proof.Machine.execAsrelRead path r s form
  | .asrelWrite path r form => Sys2Proof.Machine.execAsrelWrite path r s form
  | .describe path r form => Sys2Proof.Machine.execDescribe path r s form
  | .asrelAbort path r form => Sys2Proof.Machine.execAsrelAbort path r s form
  | .snapshotExpiry n => Sys2Proof.Machine.execSnapshotExpiry n s
  | .sessionExpiry n => Sys2Proof.Machine.execSessionExpiry n s
  | .mbSubmit port value => Sys2Proof.Machine.execMbSubmit port value s
  | .mbClearReady port => Sys2Proof.Machine.execMbClearReady port s
  | .mbClearRefused port => Sys2Proof.Machine.execMbClearRefused port s
  | .netCommit path => Sys2Proof.Machine.execNetCommit path s
  | .neighborSolicitation f target => Sys2Proof.Machine.execNeighborSolicitation f target s
  | .neighborAdvertisement a => Sys2Proof.Machine.execNeighborAdvertisement a s
  | .icmpEchoRequest f ident data => Sys2Proof.Machine.execIcmpEchoRequest f ident data s
  | .dadTimeout => Sys2Proof.Machine.execDadTimeout s
  | .activateLive => Sys2Proof.Machine.execActivateLive s
  | .activateAtReset => Sys2Proof.Machine.execActivateAtReset s
  | .handover ok begins => Sys2Proof.Machine.execHandover ok s begins
  | .erase which => Sys2Proof.Machine.execErase which s
  | .imageStoreWrite store offset total data => Sys2Proof.Machine.execImageStoreWrite store offset total data s
  | .reconstruct => Sys2Proof.Machine.execReconstruct s
  | .offer port frame => Sys2Proof.Machine.execOffer port frame s
  | .offerSend => Sys2Proof.Machine.execOfferSend s
  | .need port frame => Sys2Proof.Machine.execNeed port frame s
  | .needProgressTimeout => Sys2Proof.Machine.execNeedProgressTimeout s
  | .part port frame => Sys2Proof.Machine.execPart port frame s
  | .abort port frame => Sys2Proof.Machine.execAbort port frame s
  | .upstreamSilence => Sys2Proof.Machine.execUpstreamSilence s
  | .attestNonce part nonce => Sys2Proof.Machine.execAttestNonce part nonce s
  | .attestReportDone part => Sys2Proof.Machine.execAttestReportDone part s
  | .thermalHoldEnd port => Sys2Proof.Machine.execThermalHoldEnd port s
  | .inputFallsBelow54v => Sys2Proof.Machine.execInputFallsBelow54v s
  | .testLogicReset => Sys2Proof.Machine.execTestLogicReset s

end Sys2Proof.Machine
end

