-- ==== Sys2Proof/WellFormed.lean ====
section
/-! DEFINITION. WellFormed.lean: which commands an agent can send: each packet, frame and address within its wire
format. A command that breaks one of these checks is answered with the fault malformedCommand where its format
cannot carry it (a packet or frame), and is no command of any agent otherwise (an address of another length). -/

namespace Sys2Proof

/-- At most n elements. -/
def fits {α : Type} (l : List α) (n : Nat) : Bool := decide (l.length ≤ n)

/-- An IPv6 address. -/
def isAddress (a : List Byte) : Bool := a.length == 16

/-- A frame whose packet has a source and a destination address. -/
def Frame.wf (f : Frame) : Bool := isAddress f.source && isAddress f.dest

/-- A path whose frame is well formed. -/
def Path.wf : Path → Bool
  | .net d => d.frame.wf
  | .mailbox _ => true

/-- Whether a command is well formed. -/
def Instr.wf : Instr → Bool
  | .reset _ _ _ _ _ => true
  | .railBringUp => true
  | .hbmTraining => true
  | .moduleReady => true
  | .inputRise => true
  | .powerLoss _ => true
  | .overvoltage => true
  | .powerInputFault => true
  | .inputSettled => true
  | .powerLimitExceeded _ => true
  | .thermalTrip _ => true
  | .thermalWarning _ => true
  | .historyRecord _ => true
  | .domainLockLoss _ => true
  | .parityError _ => true
  | .stitchBoundary _ _ => true
  | .drainEnd _ => true
  | .drainTimeout _ => true
  | .spanEndShort _ _ => true
  | .atticHoldEnd _ _ => true
  | .patternStart _ _ => true
  | .stitchMarker _ m _ => fits m.slices 16 && fits m.holds 32
  | .timebaseLock => true
  | .holdover => true
  | .waitCycle _ => true
  | .start _ _ _ => true
  | .streamEnqueue _ => true
  | .gate _ => true
  | .gateOpen _ => true
  | .segment _ => true
  | .body _ => true
  | .endStep _ => true
  | .issueChecks _ => true
  | .matmul _ => true
  | .tileStart _ _ => true
  | .accumulatorDrain _ _ => true
  | .vector _ _ => true
  | .fnTableCheck _ => true
  | .layernormFwd _ _ => true
  | .rmsnormFwd _ _ => true
  | .softmaxFwd _ _ => true
  | .layernormBwd _ _ => true
  | .rmsnormBwd _ _ => true
  | .softmaxBwd _ _ => true
  | .copy _ _ => true
  | .larderPush _ _ => true
  | .larderRead _ _ => true
  | .larderRelease _ => true
  | .wait _ => true
  | .fence _ => true
  | .tallyAdd _ => true
  | .tallySet _ => true
  | .publish _ => true
  | .rsSum _ => true
  | .rsSumCont _ => true
  | .rsMean _ => true
  | .rsMeanCont _ => true
  | .arSum _ => true
  | .arSumCont _ => true
  | .arMean _ => true
  | .arMeanCont _ => true
  | .allGather _ => true
  | .scalarSum _ => true
  | .scalarMax _ => true
  | .normReduce _ => true
  | .quarantineScan _ _ _ => true
  | .collectiveDeadline _ _ _ => true
  | .commandComplete _ _ _ => true
  | .queueResume _ _ => true
  | .queueFlush _ _ => true
  | .queueClearSticky _ _ => true
  | .descCommit _ _ _ => true
  | .descCopyDone _ => true
  | .descRead _ _ _ => true
  | .cplCommit _ _ => true
  | .tallyValueWrite _ _ _ _ => true
  | .tallyAddRegister _ _ _ _ => true
  | .registerWrite _ _ _ => true
  | .cellarScrub _ _ => true
  | .cellarLineSpare _ => true
  | .hbmRowRepair _ => true
  | .spareCoreSubstitution _ => true
  | .unitSpareSubstitution _ => true
  | .windowCommit _ => true
  | .larderCommit _ => true
  | .zeroingComplete _ => true
  | .patCommit _ _ => true
  | .patternLoadDone _ => true
  | .startCommit _ _ => true
  | .manCommit _ _ => true
  | .partStart _ _ => true
  | .partStop _ _ => true
  | .partDrain _ _ => true
  | .layoutCommit _ => true
  | .guaranteeCommit _ => true
  | .placementCommit _ => true
  | .ledgerClear _ => true
  | .statsClear _ => true
  | .routeHold => true
  | .routeCommit => true
  | .peakClear _ => true
  | .write _ p _ => p.isKind 1 0
  | .read _ p _ => p.isKind 1 1
  | .tally _ p => p.isKind 1 2
  | .fabOpen _ p => p.isKind 1 3
  | .fabClose _ p => p.isKind 1 4
  | .readData _ p _ => p.isKind 2 8
  | .ack _ p => p.isKind 2 9
  | .grant _ p => p.isKind 2 0xA
  | .nack _ p => p.isKind 2 0xB
  | .openRetry _ => true
  | .openTimeout _ => true
  | .transferTimeout _ _ => true
  | .receiveContextExpiry _ _ _ => true
  | .skeinIdleClose _ => true
  | .packetRoute _ p _ _ _ => fits p.payload 256
  | .escape _ p => fits p.payload 256
  | .schedMove _ p _ _ => p.kind != 0xD && fits p.payload 512
  | .collective _ p _ => p.kind != 0xE && fits p.payload 512
  | .maint _ p => fits p.payload 256
  | .portLight _ _ _ => true
  | .training _ _ _ => true
  | .stageTimeout _ _ => true
  | .identity _ f => f.length == 64
  | .identitySend _ => true
  | .echoRequest _ _ => true
  | .echoReply _ _ _ => true
  | .codewordUncorrectable _ _ => true
  | .lightLoss _ _ => true
  | .retrain _ => true
  | .extest => true
  | .idcode => true
  | .samplePreload _ _ => true
  | .bypass => true
  | .hello _ _ _ => true
  | .helloSend _ => true
  | .rd _ p _ => p.isKind 0
  | .rdShared _ p _ => p.isKind 1
  | .rdOwn _ p _ => p.isKind 2
  | .wr _ p _ => p.isKind 3
  | .wb _ p _ => p.isKind 4
  | .ylFence _ p => p.isKind 5
  | .hAck _ p => p.isKind 6
  | .hResp _ p _ => p.isKind 7
  | .recall _ _ => true
  | .recallTimeout _ _ => true
  | .hostTimeout _ _ => true
  | .hostLinkFault _ => true
  | .doorbell _ _ _ => true
  | .dbBind _ _ _ => true
  | .interrupt _ _ => true
  | .coalesceExpiry _ _ => true
  | .hqCommit _ _ => true
  | .hqFlush _ _ => true
  | .hqIdleTimeout _ _ => true
  | .apertureCommit _ => true
  | .asrelRead w _ _ => w.wf
  | .asrelWrite w _ _ => w.wf
  | .describe w _ _ => w.wf
  | .asrelAbort w _ _ => w.wf
  | .snapshotExpiry _ => true
  | .sessionExpiry _ => true
  | .mbSubmit _ _ => true
  | .mbClearReady _ => true
  | .mbClearRefused _ => true
  | .netCommit w => w.wf
  | .neighborSolicitation f a => f.wf && isAddress a
  | .neighborAdvertisement a => a.frame.wf && isAddress a.target
  | .icmpEchoRequest f _ _ => f.wf
  | .dadTimeout => true
  | .activateLive => true
  | .activateAtReset => true
  | .handover _ _ => true
  | .erase _ => true
  | .imageStoreWrite _ _ _ _ => true
  | .reconstruct => true
  | .offer _ f => f.length == 80
  | .offerSend => true
  | .need _ f => f.length == 100
  | .needProgressTimeout => true
  | .part _ f => f.length == 144
  | .abort _ f => f.length == 68
  | .upstreamSilence => true
  | .attestNonce _ n => n.length == 32
  | .attestReportDone _ => true
  | .thermalHoldEnd _ => true
  | .inputFallsBelow54v => true
  | .testLogicReset => true

end Sys2Proof
end

