-- ==== Sys2Proof/Safety.lean ====
section
/-! DEFINITION. Safety.lean: what a safe state, a safe command and a safe step are, in the terms the statements
use. -/

namespace Sys2Proof.Machine

/-- The invariant of the model: memory stands in its canonical form, addresses strictly rising and no byte listed
that reads as an unlisted one does. -/
def State.Inv (s : State) : Prop := memWf s.mem = true

/-- A command completes on a state: it answers a next state. -/
def Completes (c : Instr) (s : State) : Prop := ∃ t, exec c s = .next t

/-- Every command that waits is one an agent can send. -/
def State.queueWf (s : State) : Prop := ∀ c ∈ s.pending, c.wf = true

/-- The checked head k of core c, of partition p, issues: R132 lets it, it is no no-op, and neither a hold nor the
limiter of R611 keeps it back. -/
def State.Issues (s : State) (p c : Nat) (k : Checked) : Prop :=
  s.ready c = some (p, k) ∧ k.noop = false ∧ s.holdOf p k = .go ∧ s.overRise k.entry.kind = false

/-- The rows that issue the head of a core's queue, each with the entries it takes (R132, R153). -/
def headRows (core : Fin 512) (ecc : Ecc) : List (Instr × (Entry → Bool)) :=
  let sync := fun (op : Nat) (e : Entry) => e.kind == 5 && e.syncOp == op
  let row := fun (op : Nat) (e : Entry) => e.kind == 3 && e.rowOp == op
  let move := fun (op : Nat) (e : Entry) => e.kind == 4 && e.moveOp == op
  let coll := fun (op : Nat) (e : Entry) => e.kind == 6 && e.collOp == op
  [(.matmul core, fun e => e.kind == 1), (.vector core ecc, fun e => e.kind == 2),
    (.layernormFwd core ecc, row 0), (.rmsnormFwd core ecc, row 1), (.softmaxFwd core ecc, row 2),
    (.layernormBwd core ecc, row 8), (.rmsnormBwd core ecc, row 9), (.softmaxBwd core ecc, row 10),
    (.copy core ecc, move 0), (.larderPush core ecc, move 1), (.larderRead core ecc, move 2),
    (.larderRelease core, move 3),
    (.wait core, sync 0), (.fence core, sync 1), (.tallyAdd core, sync 2), (.tallySet core, sync 3),
    (.publish core, sync 4),
    (.rsSum core, coll 0), (.rsSumCont core, coll 1), (.rsMean core, coll 2), (.rsMeanCont core, coll 3),
    (.arSum core, coll 4), (.arSumCont core, coll 5), (.arMean core, coll 6), (.arMeanCont core, coll 7),
    (.allGather core, coll 8), (.scalarSum core, coll 9), (.scalarMax core, coll 10), (.normReduce core, coll 11)]

/-- What the request-class traffic of a MOVE needs at issue: none is sent, or the skein to the one module it goes to is
open, and the module lies in the sizes and has the remote core that the command names (R157, R281, R284). -/
def State.MayMove (s : State) (p : Nat) (k : Checked) : Prop :=
  k.requestClass = false ∨ remoteModule k = none ∨ ∃ d sk, remoteModule k = some d ∧ s.routable k = true ∧
    s.skeinTo p d = some sk ∧ sk.isOpen = true ∧ s.remoteCoreAbsent p k = false

/-- The shelf of core c lies in partition p, bound to port k (R436). -/
def State.Owns (s : State) (k c p : Nat) : Prop := s.partOf c = some p ∧ s.boundTo p k = true

/-- Port k may reach the control block of core c: it lies in a partition bound to the port (R436), and no loss of lock
has closed the way to it (R29). -/
def State.Reaches (s : State) (k c p : Nat) : Prop := s.Owns k c p ∧ s.coreOpen c = true

/-- A packet that stands on fabric port k for this module: the port is in service and has room for it, its channel
code is none that is reserved, every offset to its destination is zero and its check is right. -/
def State.Delivers (s : State) (k : Nat) (p : Pkt) : Prop :=
  (s.link k).state = 5 ∧ p.channel ≠ 3 ∧ s.fits k p = true ∧ s.isHere p.dest.toNat = true ∧ p.check = p.crc

/-- A packet of a port delivered here, before its handler acts: counted as received and delivered, the partition's
stitch marked as one in which it worked (R164), and sampled. -/
def State.received (s : State) (k : Nat) (p : Pkt) : State :=
  (s.countRx k p.flits p.cls.toNat p.channel.toNat).takeIn p

/-- The count of fault records after n more faults: they are written at once, or, while a handover pauses the
controller, queued (R491, R592). -/
def State.faultsAfter (s : State) (n : Nat) : Word :=
  if s.fw.paused then s.links.faultTaken else s.links.faultTaken + BitVec.ofNat 32 n

/-- The module takes a frame of the management segment: it serves management, and the frame has the right FCS, a legal
length, no tag, no extension header and a destination that is this node (R535, R539). -/
def State.Hears (s : State) (f : Frame) : Prop :=
  s.served = true ∧ f.fcs = f.crc ∧ 64 ≤ f.length ∧ f.length ≤ 1518 ∧ f.tagged = false ∧ f.extended = false ∧
    s.reachesMe f.dest = true

/-- The response to a datagram as it leaves: none where the address it would come from is not in use (R540, R561). -/
def State.answerOf (s : State) (d : Dgram) (frame : List Byte) : List Out := (s.asrelOut d frame).toList

/-- From state s to state t a maintenance frame of this module goes to a fabric port: it leaves by it at once where no
route hold, no frame before it and no want of credits keeps it (R267, R299), and waits there otherwise. -/
def State.Hands (s t : State) (k : Nat) (frame : List Byte) : Prop :=
  ∀ p, p = maintPacket (s.neighbourOf k) s.myId frame →
    (s.maintRoom k p.flits = true → t.out = s.out ++ [.fabric k p]) ∧
    (s.maintRoom k p.flits = false → t.out = s.out ∧ t.fabric.maintWaiting = s.fabric.maintWaiting ++ [.fabric k p])

/-- Nothing waits for lines that a host holds: no aperture commit, no manifest, no collective (R505, R507). -/
def State.NoneWaits (s : State) : Prop :=
  (∀ p, (s.part p).waitingAper = none ∧ (s.part p).waitingMan = none) ∧ ∀ r ∈ s.coll.runs, r.judged = none

/-- A host port has no RECALL and no interrupt that waits for a tag. -/
def HostPort.OwesNothing (h : HostPort) : Prop := h.owed = [] ∧ ∀ x ∈ h.vecs, x.2.owed = false

/-- A host access that R436 refuses: ignored and counted. -/
def State.refusedAccess (s : State) : State :=
  { s with tenancy := { s.tenancy with refusals := s.tenancy.refusals + 1 } }

end Sys2Proof.Machine

namespace Sys2Proof

/-! ### What a row may touch

Rows outside a list leave that part of the state as it was. -/

/-- The rows whose effect can end in a stop of a partition, or in a command of an engine that does, and which may so
reach every part of the state that work in flight occupies (R122, R429, R481 to R483). -/
def Instr.mayStop : Instr → Bool
  | .reset .. | .powerLoss .. | .overvoltage | .powerInputFault | .powerLimitExceeded .. | .thermalTrip ..
  | .domainLockLoss .. | .parityError .. | .stitchBoundary .. | .drainEnd .. | .drainTimeout ..
  | .spanEndShort .. | .patternStart .. | .stitchMarker .. | .waitCycle .. | .vector .. | .layernormFwd ..
  | .rmsnormFwd .. | .softmaxFwd .. | .layernormBwd .. | .rmsnormBwd .. | .softmaxBwd .. | .copy ..
  | .larderPush .. | .larderRead .. | .quarantineScan .. | .collectiveDeadline .. | .commandComplete ..
  | .registerWrite .. | .partStart .. | .partStop .. | .partDrain .. | .routeCommit | .write .. | .read ..
  | .readData .. | .ack .. | .nack .. | .openTimeout .. | .transferTimeout .. | .packetRoute .. | .escape ..
  | .schedMove .. | .collective .. | .maint .. | .identity .. | .codewordUncorrectable .. | .lightLoss ..
  | .extest | .hello .. | .rd .. | .rdShared .. | .rdOwn .. | .wr .. | .wb .. | .ylFence .. | .hAck ..
  | .hResp .. | .recallTimeout .. | .hostTimeout .. | .hostLinkFault .. | .asrelRead .. | .asrelWrite ..
  | .describe .. | .asrelAbort .. | .mbSubmit .. | .handover .. => true
  | _ => false

/-- The rows that may change the hub and the reduction units. -/
def Instr.touchesColl (c : Instr) : Bool := c.mayStop || match c with
  | .issueChecks .. | .matmul .. | .fnTableCheck .. | .larderRelease .. | .wait .. | .fence .. | .tallyAdd ..
  | .tallySet .. | .publish .. | .rsSum .. | .rsSumCont .. | .rsMean .. | .rsMeanCont .. | .arSum ..
  | .arSumCont .. | .arMean .. | .arMeanCont .. | .allGather .. | .scalarSum .. | .scalarMax ..
  | .normReduce .. | .unitSpareSubstitution .. | .patCommit .. | .ledgerClear .. => true
  | _ => false

/-- The rows that may change a core. -/
def Instr.touchesCores (c : Instr) : Bool := c.mayStop || match c with
  | .start .. | .streamEnqueue .. | .gate .. | .gateOpen .. | .segment .. | .body .. | .endStep ..
  | .issueChecks .. | .matmul .. | .tileStart .. | .accumulatorDrain .. | .fnTableCheck .. | .larderRelease ..
  | .wait .. | .fence .. | .tallyAdd .. | .tallySet .. | .publish .. | .rsSum .. | .rsSumCont .. | .rsMean ..
  | .rsMeanCont .. | .arSum .. | .arSumCont .. | .arMean .. | .arMeanCont .. | .allGather .. | .scalarSum ..
  | .scalarMax .. | .normReduce .. | .queueResume .. | .queueFlush .. | .queueClearSticky .. | .descCommit ..
  | .descCopyDone .. | .descRead .. | .cplCommit .. | .tallyValueWrite .. | .tallyAddRegister ..
  | .spareCoreSubstitution .. | .patCommit .. | .layoutCommit .. | .tally .. | .doorbell .. => true
  | _ => false

/-- The rows that may change a larder context. -/
def Instr.touchesCtxs (c : Instr) : Bool := c.mayStop || match c with
  | .patCommit .. => true
  | _ => false

/-- The rows that may change the fabric. -/
def Instr.touchesFabric (c : Instr) : Bool := c.mayStop || match c with
  | .issueChecks .. | .matmul .. | .fnTableCheck .. | .larderRelease .. | .wait .. | .fence .. | .tallyAdd ..
  | .tallySet .. | .publish .. | .rsSum .. | .rsSumCont .. | .rsMean .. | .rsMeanCont .. | .arSum ..
  | .arSumCont .. | .arMean .. | .arMeanCont .. | .allGather .. | .scalarSum .. | .scalarMax ..
  | .normReduce .. | .tallyValueWrite .. | .tallyAddRegister .. | .routeHold | .peakClear .. | .tally ..
  | .fabOpen .. | .fabClose .. | .grant .. | .openRetry .. | .receiveContextExpiry .. | .skeinIdleClose ..
  | .training .. | .identitySend .. | .echoRequest .. | .echoReply .. | .doorbell .. | .offer .. | .offerSend
  | .need .. | .needProgressTimeout | .part .. | .abort .. => true
  | _ => false

/-- The rows that may change memory. -/
def Instr.touchesMem (c : Instr) : Bool := c.mayStop || match c with
  | .moduleReady | .issueChecks .. | .matmul .. | .tileStart .. | .accumulatorDrain .. | .fnTableCheck ..
  | .larderRelease .. | .wait .. | .fence .. | .tallyAdd .. | .tallySet .. | .publish .. | .rsSum ..
  | .rsSumCont .. | .rsMean .. | .rsMeanCont .. | .arSum .. | .arSumCont .. | .arMean .. | .arMeanCont ..
  | .allGather .. | .scalarSum .. | .scalarMax .. | .normReduce .. | .spareCoreSubstitution ..
  | .zeroingComplete .. | .patCommit .. | .layoutCommit .. => true
  | _ => false

/-- The rows that may change gathers and the training state. -/
def Instr.touchesTrain (c : Instr) : Bool := c.mayStop || match c with
  | .matmul .. | .accumulatorDrain .. | .larderRelease .. | .wait .. | .fence .. | .tallyAdd .. | .tallySet ..
  | .publish .. | .rsSum .. | .rsSumCont .. | .rsMean .. | .rsMeanCont .. | .arSum .. | .arSumCont ..
  | .arMean .. | .arMeanCont .. | .allGather .. | .scalarSum .. | .scalarMax .. | .normReduce ..
  | .patCommit .. => true
  | _ => false

/-- The rows that may change the state of the memories (R101 to R112). -/
def Instr.touchesMemStat (c : Instr) : Bool := c.mayStop || match c with
  | .hbmTraining | .issueChecks .. | .matmul .. | .tileStart .. | .accumulatorDrain .. | .fnTableCheck ..
  | .larderRelease .. | .wait .. | .fence .. | .tallyAdd .. | .tallySet .. | .publish .. | .rsSum ..
  | .rsSumCont .. | .rsMean .. | .rsMeanCont .. | .arSum .. | .arSumCont .. | .arMean .. | .arMeanCont ..
  | .allGather .. | .scalarSum .. | .scalarMax .. | .normReduce .. | .cellarScrub .. | .cellarLineSpare ..
  | .hbmRowRepair .. | .spareCoreSubstitution .. | .layoutCommit .. => true
  | _ => false

/-- The rows that may change a partition. -/
def Instr.touchesParts (c : Instr) : Bool := c.mayStop || match c with
  | .atticHoldEnd .. | .issueChecks .. | .matmul .. | .fnTableCheck .. | .larderRelease .. | .wait ..
  | .fence .. | .tallyAdd .. | .tallySet .. | .publish .. | .rsSum .. | .rsSumCont .. | .rsMean ..
  | .rsMeanCont .. | .arSum .. | .arSumCont .. | .arMean .. | .arMeanCont .. | .allGather .. | .scalarSum ..
  | .scalarMax .. | .normReduce .. | .descCopyDone .. | .tallyValueWrite .. | .tallyAddRegister ..
  | .spareCoreSubstitution .. | .windowCommit .. | .larderCommit .. | .zeroingComplete .. | .patCommit ..
  | .patternLoadDone .. | .startCommit .. | .manCommit .. | .layoutCommit .. | .guaranteeCommit ..
  | .placementCommit .. | .statsClear .. | .tally .. | .fabOpen .. | .fabClose .. | .grant .. | .portLight ..
  | .training .. | .stageTimeout .. | .echoReply .. | .retrain .. | .doorbell .. | .apertureCommit ..
  | .attestNonce .. | .attestReportDone .. => true
  | _ => false

/-- The rows that may change the Yepecy ports. -/
def Instr.touchesHost (c : Instr) : Bool := c.mayStop || match c with
  | .streamEnqueue .. | .gate .. | .gateOpen .. | .segment .. | .body .. | .endStep .. | .issueChecks ..
  | .matmul .. | .tileStart .. | .accumulatorDrain .. | .fnTableCheck .. | .larderRelease .. | .wait ..
  | .fence .. | .tallyAdd .. | .tallySet .. | .publish .. | .rsSum .. | .rsSumCont .. | .rsMean ..
  | .rsMeanCont .. | .arSum .. | .arSumCont .. | .arMean .. | .arMeanCont .. | .allGather .. | .scalarSum ..
  | .scalarMax .. | .normReduce .. | .tallyValueWrite .. | .tallyAddRegister .. | .cellarScrub ..
  | .spareCoreSubstitution .. | .zeroingComplete .. | .patCommit .. | .patternLoadDone .. | .manCommit ..
  | .layoutCommit .. | .tally .. | .portLight .. | .training .. | .recall .. | .doorbell .. | .dbBind ..
  | .interrupt .. | .coalesceExpiry .. | .hqCommit .. | .hqFlush .. | .hqIdleTimeout .. | .apertureCommit ..
  | .mbClearReady .. | .mbClearRefused .. | .thermalHoldEnd .. => true
  | _ => false

/-- The rows that may change the arithmetic defaults of 0x2200. -/
def Instr.touchesArith : Instr → Bool
  | .reset .. | .powerLoss .. | .overvoltage | .registerWrite .. | .wr .. | .asrelRead .. | .asrelWrite ..
  | .describe .. | .asrelAbort .. | .mbSubmit .. | .handover .. => true
  | _ => false

/-- The rows that may change the fuses and the maps of dies. -/
def Instr.touchesHw : Instr → Bool
  | .moduleReady | .spareCoreSubstitution .. | .handover .. => true
  | _ => false

/-- The rows that may change the test port. -/
def Instr.touchesJtag : Instr → Bool
  | .extest | .idcode | .samplePreload .. | .bypass | .testLogicReset => true
  | _ => false

/-- The rows that may change the lock bits. -/
def Instr.touchesLocked : Instr → Bool
  | .reset .. | .railBringUp | .powerLoss .. | .overvoltage | .domainLockLoss .. => true
  | _ => false

/-- The rows that may change a fabric port. -/
def Instr.touchesPorts : Instr → Bool
  | .reset .. | .railBringUp | .powerLoss .. | .overvoltage | .thermalTrip .. | .domainLockLoss ..
  | .parityError .. | .stitchBoundary .. | .stitchMarker .. | .registerWrite .. | .routeCommit | .maint ..
  | .portLight .. | .training .. | .stageTimeout .. | .identity .. | .echoReply .. | .codewordUncorrectable ..
  | .lightLoss .. | .retrain .. | .extest | .wr .. | .asrelRead .. | .asrelWrite .. | .describe ..
  | .asrelAbort .. | .mbSubmit .. | .handover .. | .thermalHoldEnd .. => true
  | _ => false

/-- The rows that may change the timebase. -/
def Instr.touchesTb : Instr → Bool
  | .reset .. | .powerLoss .. | .overvoltage | .stitchBoundary .. | .patternStart .. | .stitchMarker ..
  | .timebaseLock | .holdover | .registerWrite .. | .maint .. | .echoReply .. | .wr .. | .asrelRead ..
  | .asrelWrite .. | .describe .. | .asrelAbort .. | .mbSubmit .. | .handover .. => true
  | _ => false

/-- The rows that may change flash and the firmware. -/
def Instr.touchesFw : Instr → Bool
  | .reset .. | .moduleReady | .powerLoss .. | .overvoltage | .registerWrite .. | .layoutCommit .. | .maint ..
  | .wr .. | .asrelRead .. | .asrelWrite .. | .describe .. | .asrelAbort .. | .mbSubmit .. | .activateLive
  | .activateAtReset | .handover .. | .erase .. | .imageStoreWrite .. | .reconstruct | .offer .. | .need ..
  | .part .. | .abort .. | .upstreamSilence | .attestNonce .. | .attestReportDone .. => true
  | _ => false

/-- The rows that may change management. -/
def Instr.touchesMgmt : Instr → Bool
  | .reset .. | .powerLoss .. | .overvoltage | .thermalTrip .. | .domainLockLoss .. | .registerWrite ..
  | .zeroingComplete .. | .layoutCommit .. | .guaranteeCommit .. | .placementCommit .. | .hello .. | .rd ..
  | .rdShared .. | .rdOwn .. | .wr .. | .wb .. | .ylFence .. | .hAck .. | .hResp .. | .recallTimeout ..
  | .hostTimeout .. | .hostLinkFault .. | .apertureCommit .. | .asrelRead .. | .asrelWrite .. | .describe ..
  | .asrelAbort .. | .snapshotExpiry .. | .sessionExpiry .. | .mbSubmit .. | .netCommit ..
  | .neighborSolicitation .. | .neighborAdvertisement .. | .icmpEchoRequest .. | .dadTimeout | .handover .. => true
  | _ => false

/-- The rows that may change power, temperature and the boot state. -/
def Instr.touchesPower : Instr → Bool
  | .reset .. | .railBringUp | .hbmTraining | .moduleReady | .inputRise | .powerLoss .. | .overvoltage
  | .powerInputFault | .inputSettled | .powerLimitExceeded .. | .thermalTrip .. | .thermalWarning ..
  | .historyRecord .. | .stitchBoundary .. | .matmul .. | .vector .. | .layernormFwd .. | .rmsnormFwd ..
  | .softmaxFwd .. | .layernormBwd .. | .rmsnormBwd .. | .softmaxBwd .. | .copy .. | .larderPush ..
  | .larderRead .. | .larderRelease .. | .wait .. | .fence .. | .tallyAdd .. | .tallySet .. | .publish ..
  | .rsSum .. | .rsSumCont .. | .rsMean .. | .rsMeanCont .. | .arSum .. | .arSumCont .. | .arMean ..
  | .arMeanCont .. | .allGather .. | .scalarSum .. | .scalarMax .. | .normReduce .. | .registerWrite ..
  | .wr .. | .asrelRead .. | .asrelWrite .. | .describe .. | .asrelAbort .. | .mbSubmit .. | .activateAtReset
  | .handover .. | .thermalHoldEnd .. | .inputFallsBelow54v => true
  | _ => false

/-- The rows that may change the shares and counts of 0x2603. -/
def Instr.touchesTenancy : Instr → Bool
  | .reset .. | .powerLoss .. | .overvoltage | .thermalTrip .. | .domainLockLoss .. | .parityError ..
  | .stitchMarker .. | .start .. | .queueResume .. | .queueFlush .. | .queueClearSticky .. | .descCommit ..
  | .descRead .. | .cplCommit .. | .tallyValueWrite .. | .tallyAddRegister .. | .registerWrite ..
  | .spareCoreSubstitution .. | .zeroingComplete .. | .patCommit .. | .startCommit .. | .manCommit ..
  | .partStart .. | .partStop .. | .partDrain .. | .layoutCommit .. | .guaranteeCommit .. | .routeCommit
  | .maint .. | .portLight .. | .training .. | .stageTimeout .. | .identity .. | .echoReply ..
  | .codewordUncorrectable .. | .lightLoss .. | .retrain .. | .extest | .rd .. | .wr .. | .dbBind ..
  | .asrelRead .. | .asrelWrite .. | .describe .. | .asrelAbort .. | .mbSubmit .. | .handover .. => true
  | _ => false

end Sys2Proof
end

