-- ==== Sys2Proof/Certificates/Slice0/Obligations.lean ====
section
/-! DEFINITION. Certificates/Slice0/Obligations.lean: the statements for the provers. -/

open Sys2Proof Sys2Proof.Machine

/-! ### Reset, start-up, input power and temperature -/

/-- RESET (R603, R602, R619, R307, R565): the three lengths of a RESET_N pulse; what a reset leaves of queues, tallies
and partitions, the straps it latches, and what fuses and flash keep, whether or not it tears a write of the boot
record (R577). Choices of the model it rests on: entries 9, 10, 11 and 142. -/
def Obligations.ResetRestartsTheModule : Prop :=
  ∀ (lowNs : Nat) (id : BitVec 13) (seg : BitVec 3) (recN torn : Bool) (s : State),
    (lowNs < 250 ∨ (1000 ≤ lowNs ∧ s.power.boot = .off) → exec (.reset lowNs id seg recN torn) s = .next s) ∧
    (250 ≤ lowNs → lowNs < 1000 →
      exec (.reset lowNs id seg recN torn) s = .next { s with freeCtr := s.freeCtr + 1 } ∨
      exec (.reset lowNs id seg recN torn) s =
        exec (.reset 1000 id seg recN torn) { s with freeCtr := s.freeCtr + 1 }) ∧
    (1000 ≤ lowNs → s.power.boot ≠ .off → ∃ t, exec (.reset lowNs id seg recN torn) s = .next t ∧
      (∀ c, (t.core c).queue = [] ∧ (t.core c).qstate = .running ∧ (t.core c).tallies = [] ∧
        (t.core c).tensor = none ∧ (t.core c).mover = none) ∧
      (∀ p, t.part p = Part.reset) ∧
      t.fabric.route.live = RouteGroup.reset id ∧ t.mgmt.net.live = NetGroup.reset seg ∧
      t.power.strapId = id ∧ t.power.strapSeg = seg ∧
      (t.power.boot = .booting ∨ t.power.boot = .recovery) ∧
      (recN = false → t.power.boot = .recovery ∧ t.fw.recovery = 1) ∧
      t.hw = s.hw ∧ t.power.history = s.power.history ∧ t.power.powerLoss = s.power.powerLoss ∧
      t.mgmt.label = s.mgmt.label)

/-- The start-up rows (R619, R620, R433, R579, R608): each step, in the state it starts from, leads to the next;
RAIL_BRING_UP locks all 40 domains and begins the first minute of the history (R623), MODULE_READY zeroes every HBM
byte and confirms trial firmware. The cuts of input power (R608, R612, R623): POWER_LOSS writes one record to flash
and leaves the module off, without ballast; OVERVOLTAGE opens the switch until INPUT_FALLS_BELOW_54V closes it and
start-up begins again. Choices of the model it rests on: entries 2, 6, 11 and 84. -/
def Obligations.StartUpAndInputCuts : Prop :=
  (∀ s : State,
    (s.power.boot = .off → s.power.overvolt = false → ∃ t, exec .inputRise s = .next t ∧ t.power.boot = .waitReset ∧
      t.mem = s.mem) ∧
    (s.power.boot = .booting → ∃ t, exec .railBringUp s = .next t ∧ t.power.boot = .railsUp ∧
      t.locked = 0xFFFFFFFFFF ∧ t.power.minuteEvents = 0 ∧ t.mem = s.mem ∧ t.cores = s.cores ∧
      ∀ k < 6, (t.link k).state = if s.portEnabled k ∧ (s.link k).state = 0 then 1 else (s.link k).state) ∧
    (s.power.boot = .railsUp → ∃ t, exec .hbmTraining s = .next t ∧ t.power.boot = .hbmTrained ∧ t.mem = s.mem) ∧
    (s.power.boot = .hbmTrained → s.power.settling = false → ∃ t, exec .moduleReady s = .next t ∧
      t.power.boot = .ready ∧ (∀ a < hbmEnd, memRead t.mem a = 0) ∧
      (∀ a, hbmEnd ≤ a → memRead t.mem a = memRead s.mem a) ∧
      ((s.slot s.fw.running).state = 3 → (t.slot s.fw.running).state = 4 ∧ t.fw.trials = 0))) ∧
  (∀ (m : Meas) (s : State), s.power.boot ≠ .off →
    (∃ t, exec (.powerLoss m) s = .next t ∧ t.power.boot = .off ∧ t.power.ballastMw = 0 ∧
      t.power.powerLoss = recordBytes m s.power.minuteEvents ∧ (∀ p, t.part p = Part.reset) ∧
      t.power.history = s.power.history) ∧
    (∃ t, exec .overvoltage s = .next t ∧ t.power.boot = .off ∧ t.power.overvolt = true ∧ t.power.ballastMw = 0 ∧
      t.power.powerLoss = s.power.powerLoss ∧
      (exec .inputRise t = .next t) ∧
      ∃ u, exec .inputFallsBelow54v t = .next u ∧ u.power.overvolt = false ∧ u.power.boot = .waitReset))

/-- The faults of class 10 (R615): POWER_INPUT_FAULT, POWER_LIMIT_EXCEEDED above the power_limit in force, and
THERMAL_TRIP of a compute, hub or HBM sensor stop every partition and count; the first keeps partitions from
starting until INPUT_SETTLED, the last until THERMAL_HOLD_END. The thermal history (R605, R615, R617, R623): the
trip of an optical engine puts its fabric port out of service and marks it hot until it has cooled; a warning is
counted and marks the minute; each minute one record goes to the ring and the marks of the minute start again.
Choices of the model it rests on: entries 6, 84, 86 and 87. -/
def Obligations.PowerAndThermalEvents : Prop :=
  (∀ (s : State), s.power.boot ≠ .off →
    (∃ t, exec .powerInputFault s = .next t ∧ (∀ p < 16, (t.part p).active = false) ∧ t.power.settling = true ∧
      t.power.faults = s.power.faults + 1 ∧ t.power.minuteEvents = s.power.minuteEvents + 1) ∧
    (∃ t, exec .inputSettled s = .next t ∧ t.power.settling = false ∧ t.parts = s.parts) ∧
    (∀ watts, s.limitNow.toNat < watts → ∃ t, exec (.powerLimitExceeded watts) s = .next t ∧
      (∀ p < 16, (t.part p).active = false) ∧ t.power.settling = s.power.settling ∧
      t.power.faults = s.power.faults + 1) ∧
    (∀ watts, watts ≤ s.limitNow.toNat → exec (.powerLimitExceeded watts) s = .next s) ∧
    (∀ sensor u, sensorUnit sensor = .inl u → ∃ t, exec (.thermalTrip sensor) s = .next t ∧
      (∀ p < 16, (t.part p).active = false) ∧ t.power.thermalHold = true ∧ t.power.trips = s.power.trips + 1) ∧
    (∃ t, exec (.thermalHoldEnd none) s = .next t ∧ t.power.thermalHold = false ∧ t.parts = s.parts)) ∧
  (∀ (s : State),
    (s.power.boot ≠ .off → ∀ (i : Fin 16) (k : Nat), sensorUnit (.optical i) = .inr k → k < 6 →
      ∃ t, exec (.thermalTrip (.optical i)) s = .next t ∧ t.power.trips = s.power.trips + 1 ∧
        t.power.thermalHold = s.power.thermalHold ∧ (t.link k).hot = true ∧ (t.link k).state ≠ 5) ∧
    (∀ k : Fin 8, k.val < 6 → ∃ t, exec (.thermalHoldEnd (some k)) s = .next t ∧ (t.link k).hot = false ∧
      ∀ j, j ≠ k.val → t.link j = s.link j) ∧
    (s.power.boot ≠ .off → ∀ sensor, ∃ t, exec (.thermalWarning sensor) s = .next t ∧
      t.power.warnings = s.power.warnings + 1 ∧ t.power.minuteEvents = s.power.minuteEvents + 1 ∧
      t.parts = s.parts ∧ t.cores = s.cores ∧ t.mem = s.mem) ∧
    (∀ m, s.power.boot = .railsUp ∨ s.power.boot = .hbmTrained ∨ s.power.boot = .ready →
      ∃ t, exec (.historyRecord m) s = .next t ∧ t.power.historyTaken = s.power.historyTaken + 1 ∧
        t.power.history = pushRing 1440 s.power.history (recordBytes m s.power.minuteEvents) ∧
        t.power.minuteEvents = 0 ∧ t.parts = s.parts ∧ t.mem = s.mem))

/-! ### The test port, bring-up, faults and the wear programme -/

/-- The test port (R493): an 8-bit code selects EXTEST, IDCODE, SAMPLE/PRELOAD or, every other, BYPASS; BYPASS, IDCODE
and Test-Logic-Reset select a register and disturb nothing; SAMPLE/PRELOAD takes the pins into the cells, and what
is shifted in; EXTEST drives from the cells what was preloaded and, on entry, takes the module into test mode:
every partition stops and every port leaves service. Choices of the model it rests on: entries 54 and 95. -/
def Obligations.TestPortInstructions : Prop :=
  (jtagCommand 0x00 = .extest ∧ jtagCommand 0x01 = .idcode ∧ jtagCommand 0x02 = .samplePreload ∧
    ∀ code : BitVec 8, 2 < code.toNat → jtagCommand code = .bypass) ∧
  ∀ s : State,
    exec .bypass s = .next { s with jtag := .bypass } ∧
    exec .idcode s = .next { s with jtag := .idcode } ∧
    (∀ pins pre : Pins, exec (.samplePreload pins pre) s = .next { s with
      jtag := .sample, links := { s.links with sampled := pins, preloaded := pre } }) ∧
    exec .testLogicReset s = .next { s with jtag := .idcode } ∧
    (s.jtag = .extest → exec .extest s = .next s) ∧
    (s.jtag ≠ .extest → ∃ t, exec .extest s = .next t ∧ t.jtag = .extest ∧ t.links.testMode = 1 ∧
      t.cellsDriven = some s.links.preloaded ∧
      (∀ p < 16, (t.part p).active = false) ∧ (∀ k < 6, (t.link k).state ≠ 5) ∧
      t.links.moduleFaults = s.links.moduleFaults + 1)

/-- The first stages of bring-up (R472, R473, R478, R487, R498): light starts training unless a patterned slice at
either end forbids it, training that finds its strands sends an identity frame, and a port that runs out of spares
goes to state 9 with a fault record; a Yepecy port trains the same way, without spares. The later stages of
bring-up (R475, R476, R477): the third good identity frame in a row opens stage 4 with an echo request; a frame
that fails a check holds the port; echo requests are answered with the cycle of their arrival; the sixteenth
exchange sets link_latency to half the median round trip and puts the port into service. A frame that the neighbour
has no room for, or that route_hold keeps (R267, R299), waits. Choices of the model it rests on: entries 6, 51, 52,
53, 87, 112, 117 and 136. -/
def Obligations.PortsComeUp : Prop :=
  (∀ (k : Fin 6) (failed : List Nat) (s : State),
    ((s.link k).state = 1 ∨ (s.link k).state = 8 → s.retrainOk k = true →
      (∃ t, exec (.portLight k true) s = .next t ∧ (t.link k).state = 2 ∧
        (∀ j, j ≠ k.val → t.link j = s.link j) ∧ t.mem = s.mem ∧ t.cores = s.cores) ∧
      exec (.portLight k false) s = .next s) ∧
    (∀ (far : Bool) (h : Fin 2), (s.hport h).state = 0 → s.hostMayRise h = true →
      exec (.portLight k far (some h)) s = .next (s.updHport h fun x => { x with state := 1 })) ∧
    (∀ h : Fin 2, (s.hport h).state = 1 → exec (.training k failed (some h)) s =
      .next (s.updHport h fun x => { x with state := if failed = [] then 2 else 0, hellos := 0 })) ∧
    (∀ l, (s.link k).state = 2 → (s.link k).bringSpares k failed = some l → s.maintRoom k 6 = true →
      ∃ t, exec (.training k failed) s = .next t ∧ (t.link k).state = 3 ∧ (t.link k).strandMap = l.strandMap ∧
        (t.link k).spares = l.spares ∧ (t.link k).frames = 0 ∧ (∀ j, j ≠ k.val → t.link j = s.link j) ∧
        ∃ p, t.out = s.out ++ [.fabric k p] ∧ p.cls = 3 ∧ p.payload.length = 64 ∧
          p.payload.take 2 = [0x01, BitVec.ofNat 8 k.val]) ∧
    ((s.link k).state = 2 → (s.link k).bringSpares k failed = none →
      ∃ t, exec (.training k failed) s = .next t ∧ (t.link k).state = 9 ∧
        t.links.faultTaken = s.faultsAfter 1) ∧
    (3 ≤ (s.link k).state.toNat → (s.link k).state.toNat ≤ 7 → ((s.link k).state = 4 → (s.link k).echoes ≠ []) →
      ∃ t p, exec (.identitySend k) s = .next t ∧ t.links = s.links ∧ t.parts = s.parts ∧ t.mem = s.mem ∧
        p.cls = 3 ∧ p.payload = s.identityFrame k ∧
        (s.maintRoom k 6 = true → t.out = s.out ++ [.fabric k p]) ∧
        (s.maintRoom k 6 = false → t.out = s.out ∧
          t.fabric.maintWaiting = s.fabric.maintWaiting ++ [.fabric k p])) ∧
    ((s.link k).state = 4 → (s.link k).echoes = [] → s.maintRoom k 9 = true →
      ∃ t p, exec (.identitySend k) s = .next t ∧ t.links = s.links ∧ t.parts = s.parts ∧ t.mem = s.mem ∧
        p.cls = 3 ∧ p.payload = s.identityFrame k ∧ t.out = s.out ++ [.fabric k p, .echo k false 0 0])) ∧
  (∀ (k : Fin 6) (f : List Byte) (s : State),
    (f.length = 64 → (s.link k).state = 3 → s.judgeFrame k f = .pass →
      ∃ t, exec (.identity k f) s = .next t ∧ (t.link k).good = (s.link k).good + 1 ∧
        (t.link k).state = (if (s.link k).good + 1 < 3 then 3 else 4) ∧
        (2 ≤ (s.link k).good → s.maintRoom k 3 = true → t.out = s.out ++ [.echo k false 0 0]) ∧
        (t.link k).neighbourSerial = BitVec.ofNat 64 (leAt f 16 8)) ∧
    (f.length = 64 → (s.link k).state = 3 → s.judgeFrame k f ≠ .pass →
      ∃ t, exec (.identity k f) s = .next t ∧ (t.link k).good = 0 ∧
        (t.link k).state = (if s.judgeFrame k f = .version then 7 else 6) ∧
        t.links.faultTaken = s.faultsAfter 1) ∧
    (∀ a, (s.link k).answers = true → s.maintRoom k 4 = true →
      ∃ t leaving, exec (.echoRequest k a) s = .next t ∧ t.out = s.out ++ [.echo k true a leaving] ∧
        t.links = s.links ∧ t.parts = s.parts) ∧
    (∀ r d, (s.link k).state = 4 → (s.link k).echoes.length < 15 → s.maintRoom k 3 = true →
      ∃ t, exec (.echoReply k r d) s = .next t ∧ (t.link k).echoes = (s.link k).echoes ++ [r - d] ∧
        (t.link k).state = 4 ∧ t.out = s.out ++ [.echo k false 0 0]) ∧
    (∀ r d, (s.link k).state = 4 → (s.link k).echoes.length = 15 → s.tb.latency.length = 6 →
      ∃ t, exec (.echoReply k r d) s = .next t ∧ (t.link k).state = 5 ∧
        t.tb.latency[k.val]? = some (BitVec.ofNat 32 (latencyOf ((s.link k).echoes ++ [r - d])))))

/-- Port faults (R472, R478, R481, R487, R490): a stage that overruns its limit starts again, stage 4 only once an echo
has been answered; an uncorrectable codeword is counted and takes a port in service out of it; loss of light marks
its strand and takes the port out of service, or starts its bring-up again; RETRAIN starts a port again unless a
patterned slice of this end uses it, or one of the far end that the neighbour's last marker named. Choices of the
model it rests on: entries 51, 53 and 87. -/
def Obligations.PortFaultsLeaveService : Prop :=
  ∀ (k : Fin 6) (s : State),
    (∀ lost, 2 ≤ (s.link k).state.toNat → (s.link k).state.toNat ≤ 4 →
      ((s.link k).state = 4 → (s.link k).echoes ≠ []) →
      ∃ t, exec (.stageTimeout k lost) s = .next t ∧ (t.link k).state = 1 ∧
        (t.link k).uncorrectable = (s.link k).uncorrectable + (if lost = 0 then 0 else 1)) ∧
    (∀ lost, (s.link k).state = 4 → (s.link k).echoes = [] → exec (.stageTimeout k lost) s = .next s) ∧
    (∀ strand, ∃ t, exec (.codewordUncorrectable k strand) s = .next t ∧
      (t.link k).uncorrectable = (s.link k).uncorrectable + 1 ∧
      (t.link k).state = (if (s.link k).state = 5 then 8 else (s.link k).state)) ∧
    (∀ strand, ∃ t, exec (.lightLoss k strand) s = .next t ∧
      (t.link k).marked = insertNat (s.link k).marked strand.toNat ∧
      (t.link k).state = (if (s.link k).state = 5 then 8
        else if 2 ≤ (s.link k).state.toNat ∧ (s.link k).state.toNat ≤ 7 then 1 else (s.link k).state)) ∧
    (s.portParts k = [] → (s.link k).state ≠ 0 → ((s.link k).state = 5 → (s.link k).farSlices = []) →
      ∃ t, exec (.retrain k) s = .next t ∧ (t.link k).state = 1 ∧ (∀ j, j ≠ k.val → t.link j = s.link j)) ∧
    (s.portParts k ≠ [] ∨ ((s.link k).state = 5 ∧ (s.link k).farSlices ≠ []) → exec (.retrain k) s = .next s)

/-- Loss of lock and parity errors (R25, R29, R194, R481): the lock bit clears; a compute or cellar domain stops the
partitions with a shelf on its die, a fabric port's domain takes that port out of service, the Momond domain ends
management and stops nothing, every other one is a module fault; a parity error in an accumulator or a core counts
for that core and stops its partition, one in a reduction unit marks it and stops the partitions it serves, and one
in a hub is a module fault. Choices of the model it rests on: entries 54 and 55. -/
def Obligations.LockLossAndParity : Prop :=
  ∀ (s : State),
    (∀ d : Fin 40, s.locked.toNat.testBit d = true →
      ∃ t, exec (.domainLockLoss d) s = .next t ∧ t.locked = s.locked &&& ~~~((1 : BitVec 40) <<< d.val) ∧
        (d.val < 16 → ∀ p ∈ s.partsOnDie (d.val % 8), (t.part p).active = false) ∧
        (28 ≤ d.val → d.val < 34 →
          (t.link (d.val - 28)).state = if (s.link (d.val - 28)).state = 0 then 0 else 8) ∧
        (d.val = 39 → t.links.mgmtLost = true ∧ ∀ p, (t.part p).active = (s.part p).active) ∧
        (16 ≤ d.val → (d.val < 28 ∨ 34 ≤ d.val) → d.val ≠ 39 →
          (∀ p < 16, (t.part p).active = false) ∧ t.links.dark = true)) ∧
    (∀ (c : Fin 512) (p : Nat), s.partOf c = some p →
      (∀ (reader : Fin 512) (e : Engine), ∃ t, exec (.parityError (.accumulator c reader e)) s = .next t ∧
        (t.part p).active = false ∧ (t.core c).coreFaults = (s.core c).coreFaults + 1) ∧
      (∃ t, exec (.parityError (.core c)) s = .next t ∧ (t.part p).active = false ∧
        (t.core c).coreFaults = (s.core c).coreFaults + 1)) ∧
    (∀ u : Fin 56, ∃ t, exec (.parityError (.reduction u)) s = .next t ∧
      t.coll.markedUnits = insertNat s.coll.markedUnits u ∧ ∀ p ∈ s.partsOnUnit u, (t.part p).active = false) ∧
    (∀ h : Fin 4, ∃ t, exec (.parityError (.hub h)) s = .next t ∧ (∀ p < 16, (t.part p).active = false) ∧
      t.links.dark = true)

/-- The wear programme (R21, R39, R103, R104, R112, R311, R487, R488, R489): a scrub counts a corrected line and
poisons an uncorrectable one; a marked line, row, core or unit gives way to a spare when nothing uses it; a core
substituted has the state after reset, its index on the first spare of its die, and the partition that has its
shelf reads zeroing. Choices of the model it rests on: entries 6, 56, 57 and 87. -/
def Obligations.WearProgramme : Prop :=
  ∀ (s : State),
    (∀ line : BitVec 26, cellarCore (cellarBase + 256 * line.toNat) < s.coreCount →
      exec (.cellarScrub line .clean) s = .next s ∧
      (∃ t, exec (.cellarScrub line .corrected) s = .next t ∧
        t.memStat.eccCorrected = s.memStat.eccCorrected + 1 ∧ t.memStat.poison = s.memStat.poison ∧ t.mem = s.mem) ∧
      (∃ t, exec (.cellarScrub line .uncorrectable) s = .next t ∧
        t.memStat.eccUncorrected = s.memStat.eccUncorrected + 1 ∧
        t.memStat.poison = insertNat s.memStat.poison line.toNat ∧ t.parts = s.parts ∧ t.mem = s.mem)) ∧
    (∀ line : BitVec 26, line.toNat ∈ s.memStat.linesPending → s.shelfIdle (line.toNat / 131072 / 8) = true →
      s.sparesOf (bankOf line.toNat) ≠ 0 →
      ∃ t, exec (.cellarLineSpare line) s = .next t ∧ line.toNat ∉ t.memStat.linesPending ∧
        t.sparesOf (bankOf line.toNat) = s.sparesOf (bankOf line.toNat) - 1 ∧ t.mem = s.mem) ∧
    (∀ row, row ∈ s.memStat.repairsPending → (∀ p < 16, (s.part p).active = false) →
      s.memStat.repairsFree.getD (row % 384 % 12) 0 ≠ 0 →
      ∃ t, exec (.hbmRowRepair row) s = .next t ∧ row ∉ t.memStat.repairsPending ∧
        t.memStat.repairsFree.getD (row % 384 % 12) 0 = s.memStat.repairsFree.getD (row % 384 % 12) 0 - 1 ∧
        t.mem = s.mem) ∧
    (∀ (c : Fin 512) (m : List Nat), (s.core c).marked = true → s.shelfIdle (c / 8) = true → c.val < s.coreCount →
      substitute (s.hw.dieMap.getD (c / (8 * s.hw.grade.perDie)) []) (c % (8 * s.hw.grade.perDie)) = some m →
      ∃ t, exec (.spareCoreSubstitution c) s = .next t ∧ t.core c = Core.reset ∧
        (∀ p, s.partOfShelf (c / 8) = some p → (t.part p).state = .zeroing) ∧
        t.hw.dieMap = s.hw.dieMap.set (c / (8 * s.hw.grade.perDie)) m ∧
        (∀ d, d ≠ c.val → t.core d = s.core d)) ∧
    (∀ u : Fin 56, u.val ∈ s.coll.markedUnits →
      (∀ p < 16, (s.part p).layout.live.unitMask.toNat.testBit (unitBit (unitPlus u)) = true →
        (s.part p).patterned = false) →
      ∃ t, exec (.unitSpareSubstitution u) s = .next t ∧ u.val ∉ t.coll.markedUnits ∧
        (s.coll.unitSpares.getD (unitGroup u) 0 = 0 →
          t.links.pairsOut = s.links.pairsOut ||| 1 <<< unitBit (unitPlus u)) ∧
        (s.coll.unitSpares.getD (unitGroup u) 0 ≠ 0 →
          t.coll.unitSpares = s.coll.unitSpares.set (unitGroup u) (s.coll.unitSpares.getD (unitGroup u) 0 - 1)))

/-! ### The block as a whole -/

/-- A step takes the command at the front of the queue and runs it on the state with the queue's rest; with no command
waiting the block idles (entry 1, the model's choice). Choices of the model it rests on: entries 1 and 94. -/
def Obligations.StepRunsTheFrontCommand : Prop :=
  ∀ s : State,
    (∀ (c : Instr) (rest : List Instr), s.pending = c :: rest → step s = exec c { s with pending := rest }) ∧
    (s.pending = [] → step s = .next s)

/-- Every command that an agent can send completes and leaves the queue of commands that wait as it was, and a command
that does not complete is one that no agent can send, such as a packet or frame longer or shorter than its wire
format (R270, R272, R473, R499, R583 to R586), and is answered with the model's own fault, malformedCommand.
Choices of the model it rests on: entries 7 and 94. -/
def Obligations.EveryCommandCompletes : Prop :=
  ∀ (c : Instr) (s : State),
    (c.wf = true → ∃ t, exec c s = .next t) ∧
    (∀ t, exec c s = .next t → t.pending = s.pending) ∧
    (¬ Completes c s → exec c s = .fault .malformedCommand ∧ c.wf = false)

/-- The module right after reset (R602, R619): its registers as the spec gives them, no partition, empty queues,
tallies of zero, no port and no skein, no clock domain locked but that of Momond, which runs the boot ROM (entry
145). The invariant of the model holds at reset: memory lists no byte twice, in rising order, and none that reads
as an unlisted byte does. Choices of the model it rests on: entries 2, 3, 4, 12 and 145. -/
def Obligations.ResetState : Prop :=
  (State.reset.pending = [] ∧
  (∀ c, (State.reset.core c).queue = [] ∧ (State.reset.core c).producer = 0 ∧
    (∀ t, State.reset.tallyOf c t = 0)) ∧
  (∀ p < 16, (State.reset.part p).active = false ∧ (State.reset.part p).descs = [] ∧
    (State.reset.part p).patState = .empty) ∧
  (∀ k < 6, (State.reset.link k).state = 0 ∧ (State.reset.link k).strandMap = List.range (strandsOf k)) ∧
  State.reset.fabric.patience = 64 ∧ State.reset.fabric.timeout = 2000 ∧ State.reset.fabric.skeins = [] ∧
  State.reset.arith = { round := 0, subnormal := 0, fp8 := 1, comp := 1 } ∧
  State.reset.tb.state = .free ∧ State.reset.tb.governorScale = 0x3F800000 ∧
  State.reset.locked = 0x8000000000 ∧ State.reset.power.limit = 2600) ∧
  (State.reset.Inv)

/-- Every step keeps memory in its canonical form, whatever command it runs, from every state in which it is. Choices
of the model it rests on: entry 2. -/
def Obligations.StepKeepsMemoryCanonical : Prop :=
  ∀ s t : State, s.Inv → step s = .next t → t.Inv

/-- Whatever command runs, the fuses only advance, and confirmation of an image alone alters them (R573): they stay as
they are but where MODULE_READY or a HANDOVER confirms the image of a slot, which raises the security counter to
the version of the image if that is higher and revokes its keys; and the grade and the stepping never change (R1,
R4). A slot still at its factory image has no image bytes to read (the model's choice, entry 76): its confirmation
alters nothing. Choices of the model it rests on: entry 76. -/
def Obligations.FusesOnlyAdvance : Prop :=
  ∀ s t : State, step s = .next t →
    s.hw.securityCounter.toNat ≤ t.hw.securityCounter.toNat ∧
    (∀ i, s.hw.keyRevoked.toNat.testBit i = true → t.hw.keyRevoked.toNat.testBit i = true) ∧
    t.hw.grade = s.hw.grade ∧ t.hw.stepping = s.hw.stepping ∧
    ((t.hw.securityCounter = s.hw.securityCounter ∧ t.hw.keyRevoked = s.hw.keyRevoked) ∨
      (∃ c rest i, s.pending = c :: rest ∧ (c = .moduleReady ∨ c = .handover true) ∧
        (s.mgmt.queue = [] → (t.slot i).state = 4) ∧ (s.slot i).factory = false ∧
        t.hw.securityCounter = BitVec.ofNat 32 (max s.hw.securityCounter.toNat (s.slot i).security) ∧
        t.hw.keyRevoked = s.hw.keyRevoked ||| BitVec.ofNat 8 ((s.slot i).le 21 1 % 16)))

/-- A fabric port enters service (state 5) by an echo reply alone, in ECHO_REPLY or in a maintenance packet whose first
byte says so, and from stage 4 alone (R472, R477). Choices of the model it rests on: entries 6 and 51. -/
def Obligations.PortsEnterServiceByEchoAlone : Prop :=
  ∀ (c : Instr) (s t : State) (k : Nat), exec c s = .next t → (t.link k).state = 5 → (s.link k).state ≠ 5 →
    (s.link k).state = 4 ∧ ∃ q : Fin 6, q.val = k ∧
      ((∃ r d : Nat, c = .echoReply q r d) ∨ ∃ p : Pkt, c = .maint q p ∧ leAt p.payload 0 1 = 3)

/-! ### The command queue and the control block of a core -/

/-- START (R130, R155, R436): a good START copies the staged words to the queue's tail; a wrong magic, more than 96
words or a running pattern sets start_refused, a full queue start_overflow, each whatever else holds, and nothing
enters the queue; a port the partition is not bound to is ignored and counted; over a crossing that a loss of lock
has closed (R29) nothing comes. Choices of the model it rests on: entries 67 and 97. -/
def Obligations.StartEnqueuesTheStagedBlock : Prop :=
  ∀ (port : Fin 2) (core : Fin 512) (v : Word) (s : State),
    (∀ p, s.Reaches port core p →
      (∀ bad full : Bool,
        (bad = true ↔ fld v 16 16 ≠ 0x5354 ∨ 96 < fld v 0 7 ∨ (s.part p).patState = .running) →
        (full = true ↔ 64 ≤ (s.core core).queue.length) → bad = true ∨ full = true →
        exec (.start port core v) s = .next (s.updCore core fun k =>
          { k with refused := k.refused || bad, overflow := k.overflow || full })) ∧
      (fld v 16 16 = 0x5354 → fld v 0 7 ≤ 96 → (s.core core).queue.length < 64 → (s.part p).patState ≠ .running →
        ∃ e : Entry, e.words = (List.range (fld v 0 7)).map (Sparse.get 0 (s.core core).stage) ∧
          e.fromStream = false ∧
          exec (.start port core v) s = .next (s.updCore core fun k => { k with queue := k.queue ++ [e] }))) ∧
    ((∀ p, ¬ s.Owns port core p) → exec (.start port core v) s = .next s.refusedAccess) ∧
    (∀ p, s.Owns port core p → s.coreOpen core = false → exec (.start port core v) s = .next s)

/-- QUEUE_CTRL (R172): QUEUE_RESUME, QUEUE_FLUSH and QUEUE_CLEAR_STICKY do one bit each; one write of several bits acts
in the order flush, clear_sticky, resume, and resume acts in state 1 alone, which a core of a running partition has
once a status has stopped its queue; a flush lets such a queue issue again as well (R136). Choices of the model it
rests on: entry 109. -/
def Obligations.QueueControl : Prop :=
  ∀ (port : Fin 2) (core : Fin 512) (s : State) (p : Nat), s.Reaches port core p →
    (∃ t, exec (.queueFlush port core) s = .next t ∧ (∀ c, c ≠ core.val → t.core c = s.core c) ∧
      t.parts = s.parts ∧ t.mem = s.mem ∧
      t.core core = { s.core core with
        queue := [], head := none, fnChecked := false, limited := false,
        qstate := if (s.part p).active = true ∧ (s.core core).qstate = .stopped then .running
          else (s.core core).qstate }) ∧
    exec (.queueClearSticky port core) s = .next (s.updCore core fun k =>
      { k with overflow := false, refused := false }) ∧
    ((s.part p).active = true → (s.core core).qstate = .stopped →
      exec (.queueResume port core) s = .next (s.updCore core fun k => { k with qstate := .running })) ∧
    ((s.part p).active = false ∨ (s.core core).qstate ≠ .stopped → exec (.queueResume port core) s = .next s) ∧
    (∀ v : Word, ∃ t, exec (.registerWrite port (BitVec.ofNat 27 (core * 0x10000 + 0x188)) v) s = .next t ∧
      t.core core = (let a := s.core core
          let a := if v.getLsbD 1 then { a with queue := [], head := none, fnChecked := false, limited := false } else a
          let a := if v.getLsbD 2 then { a with overflow := false, refused := false } else a
          if (v.getLsbD 0 ∨ v.getLsbD 1) ∧ (s.part p).active = true ∧ (s.core core).qstate = .stopped
            then { a with qstate := .running } else a) ∧
        ∀ c, c ≠ core.val → t.core c = s.core c)

/-- The descriptor registers (R143, R144, R170): while busy, every write to DESC_STAGE, DESC_COMMIT and DESC_READ is
ignored and sets busy_refused alone, which the next accepted commit or read clears; a commit that passes its checks
keeps the block busy until DESC_COPY_DONE puts the descriptor into the partition's table; DESC_READ copies a
committed handle into DESC_STAGE, and answers HANDLE_INVALID for another. -/
def Obligations.DescriptorRegisters : Prop :=
  ∀ (port : Fin 2) (core : Fin 512) (h : BitVec 10) (s : State) (p : Nat), s.Reaches port core p →
    ((s.core core).busy = true →
      exec (.descCommit port core h) s = .next (s.updCore core fun k => { k with busyRefused := true }) ∧
      exec (.descRead port core h) s = .next (s.updCore core fun k => { k with busyRefused := true }) ∧
      ∀ (i : Fin 32) (v : Word), exec (.registerWrite port (BitVec.ofNat 27 (core * 0x10000 + 0x400 + 4 * i)) v) s
        = .next (s.updCore core fun k => { k with busyRefused := true })) ∧
    ((s.core core).busy = false → ∀ d, d = Desc.ofWords p (fun i => Sparse.get 0 (s.core core).descStage i) →
      ∃ t, exec (.descCommit port core h) s = .next t ∧ (t.core core).descStatus = s.descStatus p d ∧
        (t.core core).busy = decide (s.descStatus p d = stDONE) ∧ (t.core core).busyRefused = false ∧
        t.parts = s.parts ∧ (∀ c, c ≠ core.val → t.core c = s.core c) ∧
        (s.descStatus p d = stDONE →
          ∃ u, exec (.descCopyDone core) t = .next u ∧ (u.core core).busy = false ∧
            Sparse.find (u.part p).descs h.toNat = some d ∧
            (∀ g, g ≠ h.toNat → Sparse.find (u.part p).descs g = Sparse.find (s.part p).descs g) ∧
            u.mem = s.mem)) ∧
    ((s.core core).busy = false → ∀ d, Sparse.find (s.part p).descs h.toNat = some d →
      ∃ t, exec (.descRead port core h) s = .next t ∧ (t.core core).descStatus = stDONE ∧
        (∀ i, i < 32 → Sparse.get 0 (t.core core).descStage i = d.words.getD i 0) ∧
        (t.core core).busyRefused = false ∧ t.parts = s.parts) ∧
    ((s.core core).busy = false → Sparse.find (s.part p).descs h.toNat = none →
      ∃ t, exec (.descRead port core h) s = .next t ∧ (t.core core).descStatus = stHANDLE_INVALID ∧
        (t.core core).descStage = (s.core core).descStage ∧ (t.core core).busyRefused = false ∧ t.parts = s.parts)

/-- CPL_COMMIT (R173, R175): the ring of the shadow goes into force, empty, where its size is legal, its base is
aligned and in memory of the partition on this module, and no command is outstanding; else the status alone
changes. TALLY_VALUE and TALLY_ADD (R159, R170): a write of TALLY_VALUE sets the tally while the partition does not
run and is ignored while it runs; a write of TALLY_ADD adds modulo 2^32, and 0 has no effect. No other tally
changes. Choices of the model it rests on: entries 59, 60 and 67. -/
def Obligations.RingAndTallyRegisters : Prop :=
  (∀ (port : Fin 2) (core : Fin 512) (s : State) (p : Nat), s.Reaches port core p →
    let g := (s.core core).cpl.sh
    let n := fld g.entries 0 5
    let st : Half :=
      if (n ≠ 0 ∧ n < 4) ∨ 16 < n ∨ g.base.toNat % (16 * 2 ^ n) ≠ 0 ∨ s.outstanding core ≠ 0 then stCONFIG
      else if s.namesPlace g.base.toNat = false ∨ (n ≠ 0 ∧
        s.inPlaces p g.base.toNat (16 * 2 ^ n) = false) then stPRIVILEGE
      else stDONE
    (st = stDONE → exec (.cplCommit port core) s = .next (s.updCore core fun k =>
      { k with cplStatus := stDONE, cpl := ⟨k.cpl.sh, k.cpl.sh⟩, producer := 0, consumer := 0 })) ∧
    (st ≠ stDONE → exec (.cplCommit port core) s = .next (s.updCore core fun k => { k with cplStatus := st }))) ∧
  (∀ (port : Fin 2) (core : Fin 512) (n : BitVec 8) (v : Word) (s : State) (p : Nat), s.Reaches port core p →
    ((s.part p).active = false → ∃ t, exec (.tallyValueWrite port core n v) s = .next t ∧
      t.tallyOf core n.toNat = v ∧ t.mem = s.mem ∧
      ∀ c m, (c, m) ≠ (core.val, n.toNat) → t.tallyOf c m = s.tallyOf c m) ∧
    ((s.part p).active = true → exec (.tallyValueWrite port core n v) s = .next s) ∧
    (∃ t, exec (.tallyAddRegister port core n v) s = .next t ∧
      t.tallyOf core n.toNat = s.tallyOf core n.toNat + v ∧ t.mem = s.mem ∧
      ∀ c m, (c, m) ≠ (core.val, n.toNat) → t.tallyOf c m = s.tallyOf c m) ∧
    (v = 0 → exec (.tallyAddRegister port core n v) s = .next s))

/-! ### Issue and SYNC -/

/-- ISSUE_CHECKS (R137, R146, R156): an entry that passes becomes the head that may issue; one that fails leaves the
queue and completes with the status of its check, and neither its signal nor any other effect happens: every tally
and every descriptor is as before; a COLLECTIVE counts as one completed (R312, R353). One whose remote core cannot
be judged before a skein to its module is open waits, and the skein is asked for (R157, R284). -/
def Obligations.AFailedCheckHasNoSideEffect : Prop :=
  ∀ (core : Fin 512) (s : State) (p : Nat) (e : Entry) (rest : List Entry),
    s.partOf core = some p → (s.part p).active = true → (s.core core).qstate = .running →
    (s.core core).queue = e :: rest → (s.core core).head = none →
    let k : Checked := { entry := e, descs := s.readDescs p e }
    (∀ d, s.checkWaits p k = some d →
      exec (.issueChecks core) s = .next (if (s.skeinTo p d).isSome then s else s.openSkein p d)) ∧
    (s.checkWaits p k = none → s.issueStatus p core k = stDONE →
      exec (.issueChecks core) s = .next (s.updCore core fun x => { x with head := some k })) ∧
    (s.checkWaits p k = none → s.issueStatus p core k ≠ stDONE → ∃ t, exec (.issueChecks core) s = .next t ∧
      t = (s.popHead core).complete p core e (s.issueStatus p core k) 0 false ∧
      (t.core core).queue = rest ∧ (t.core core).head = none ∧ (∀ c n, t.tallyOf c n = s.tallyOf c n) ∧
      t.parts = s.parts ∧ t.fabric = s.fabric ∧
      t.coll = { s.coll with done := s.coll.done + if e.kind = 6 then 1 else 0 } ∧
      (stopsQueue (s.issueStatus p core k) = true → (t.core core).qstate = .stopped ∧
        (t.core core).stopInfo = BitVec.ofNat 32 ((s.issueStatus p core k).toNat <<< 16 ||| e.tag)) ∧
      (∀ c, c ≠ core.val → (t.core c).queue = (s.core c).queue ∧ (t.core c).head = (s.core c).head ∧
        (t.core c).tensor = (s.core c).tensor ∧ (t.core c).mover = (s.core c).mover))

/-- What stands before an issue (R132, R160, R176, R125, R412, R414, R611), for the head of every kind: while its
header wait is not met, or its resource is not free, no row that takes heads and no FN_TABLE_CHECK does anything.
Once it may issue, a no-op completes with DONE; one that a hold keeps back stays, and RECALLs go out for the lines
of its operands that a host owns; a write that a hold refuses completes with STALE_SHARD, without its signal, and
frees the record of a backward gather; and one that would raise the power estimate too far stays and is counted
once. Once (value - target) modulo 2^32 lies below 2^31 WAIT, FENCE and TALLY_ADD leave the queue and complete with
DONE. Choices of the model it rests on: entries 6, 13, 34, 120, 137 and 141. -/
def Obligations.WaitsHoldUntilTheirTally : Prop :=
  (∀ (core : Fin 512) (ecc : Ecc) (s : State) (p : Nat) (k : Checked),
    s.partOf core = some p → (s.core core).head = some k →
    ((k.entry.waitEnable = true ∧ 2 ^ 31 ≤ (s.tallyOf core k.entry.waitTally - k.entry.waitTarget).toNat) ∨
      s.resourceFree core k.entry = false) →
    ∀ c, c ∈ (headRows core ecc).map (·.1) ∨ c = .fnTableCheck core → exec c s = .next s) ∧
  (∀ (core : Fin 512) (ecc : Ecc) (s : State) (p : Nat) (k : Checked), s.ready core = some (p, k) →
    ∀ c ∈ headRows core ecc, c.2 k.entry = true →
      (k.noop = true → exec c.1 s = .next
        (((s.popHead core).noteIssued p k.entry).complete p core k.entry stDONE 0 true)) ∧
      (k.noop = false → s.holdOf p k = .stall → exec c.1 s = .next (s.recallOperands k)) ∧
      (∀ gather, k.noop = false → s.holdOf p k = .stale gather → exec c.1 s = .next
        ((((s.noteStale gather).dropBackward p k).popHead core).complete p core k.entry stSTALE_SHARD 0 false)) ∧
      (k.noop = false → s.holdOf p k = .go → s.overRise k.entry.kind = true → ∃ t, exec c.1 s = .next t ∧
        t.power.limiterStalls = s.power.limiterStalls + (if (s.core core).limited then 0 else 1) ∧
        (t.core core).limited = true ∧ (t.core core).head = some k ∧ t.mem = s.mem)) ∧
  (∀ (core : Fin 512) (s : State) (p : Nat) (k : Checked),
    s.partOf core = some p → (s.core core).head = some k → k.entry.kind = 5 →
    (s.part p).active = true → (s.core core).qstate = .running →
    (k.entry.waitEnable = true →
      (s.tallyOf core k.entry.waitTally - k.entry.waitTarget).toNat < 2 ^ 31) →
    k.noop = false → s.holdOf p k = .go →
    (k.entry.syncOp = 0 →
      exec (.wait core) s = .next ((s.popHead core).complete p core k.entry stDONE 0 true)) ∧
    (k.entry.syncOp = 1 → s.outstanding core = 0 →
      exec (.fence core) s = .next ((s.popHead core).complete p core k.entry stDONE 0 true)) ∧
    (k.entry.syncOp = 1 → s.outstanding core ≠ 0 → exec (.fence core) s = .next s) ∧
    (k.entry.syncOp = 2 →
      exec (.tallyAdd core) s = .next ((s.popHead core).complete p core k.entry stDONE 0 true)))

/-- What completion does (R135, R136, R166 to R168): the signal adds signal_increment to its tally, then the record
goes into the ring, or is counted as lost; a status other than DONE, NONFINITE and DEADLINE stops the queue.
Choices of the model it rests on: entry 19. -/
def Obligations.CompletionSignalsRecordsAndStops : Prop :=
  ∀ (p c : Nat) (e : Entry) (st flags : Half) (signal : Bool) (s : State),
    ((signal && e.sigEnable) = true → ∀ d n, d = e.sigCore (s.part p).layout.live.first.toNat → n = e.sigTally →
      (s.complete p c e st flags signal).tallyOf d n = s.tallyOf d n + BitVec.ofNat 32 e.sigIncrement) ∧
    ((signal && e.sigEnable) = false → ∀ d n, (s.complete p c e st flags signal).tallyOf d n = s.tallyOf d n) ∧
    (st = stDONE → e.record = false → (s.complete p c e st flags signal).mem = s.mem ∧
      ((s.complete p c e st flags signal).core c).producer = (s.core c).producer ∧
      ((s.complete p c e st flags signal).core c).lost = (s.core c).lost) ∧
    ((st ≠ stDONE ∨ e.record = true) → (s.core c).ringFree < (if stopsQueue st then 1 else 2) →
      ((s.complete p c e st flags signal).core c).lost = (s.core c).lost + 1 ∧
      (s.complete p c e st flags signal).mem = s.mem) ∧
    ((st ≠ stDONE ∨ e.record = true) → (if stopsQueue st then 1 else 2) ≤ (s.core c).ringFree →
      ((s.complete p c e st flags signal).core c).producer = (s.core c).producer + 1 ∧
      ∀ a, a = addrLocal (s.core c).cpl.live.base.toNat
          + 16 * ((s.core c).producer.toNat % 2 ^ fld (s.core c).cpl.live.entries 0 5) →
        (∀ i < 16, memRead (s.complete p c e st flags signal).mem (a + i)
          = (recordOf c e.kind e.tag s.stitch32 st flags).getD i 0) ∧
        (∀ b, b < a ∨ a + 16 ≤ b → memRead (s.complete p c e st flags signal).mem b = memRead s.mem b)) ∧
    (stopsQueue st = true → (s.core c).qstate = .running →
      ((s.complete p c e st flags signal).core c).qstate = .stopped) ∧
    (stopsQueue st = false → ((s.complete p c e st flags signal).core c).qstate = (s.core c).qstate)

/-- TALLY_SET and PUBLISH (R124, R153, R154, R163): TALLY_SET sets a tally of its core, then completes, its signal on
top of what it set; PUBLISH of a versioned handle exchanges base and twin, moves the scales of an MX descriptor
with them and counts the version up by one; of an unversioned handle it completes with CONFIG, and of an
uncommitted one with HANDLE_INVALID, without its signal or any other effect; while the attic of its handle is held
it waits. Choices of the model it rests on: entries 6 and 13. -/
def Obligations.TallySetAndPublish : Prop :=
  ∀ (core : Fin 512) (s : State) (p : Nat) (k : Checked), s.Issues p core k → k.entry.kind = 5 →
    (k.entry.syncOp = 3 → ∃ t, exec (.tallySet core) s = .next t ∧
      (∀ c n, t.tallyOf c n =
        (if c = core.val ∧ n = k.entry.syncOperand % 256 then k.entry.w 7 else s.tallyOf c n)
          + (if k.entry.sigEnable = true ∧ c = k.entry.sigCore (s.part p).layout.live.first.toNat ∧ n = k.entry.sigTally
             then BitVec.ofNat 32 k.entry.sigIncrement else 0)) ∧
      (t.core core).queue = (s.core core).queue.drop 1 ∧ (k.entry.record = false → t.mem = s.mem)) ∧
    (k.entry.syncOp = 4 →
      ((s.part p).patState = .running → ∀ a ∈ (s.part p).attic, a.handle ≠ k.entry.syncOperand) →
      (∀ d, Sparse.find (s.part p).descs k.entry.syncOperand = some d → d.versioned = true →
        ∃ t x, exec (.publish core) s = .next t ∧ Sparse.find (t.part p).descs k.entry.syncOperand = some x ∧
          x.base = d.twin ∧ x.twin = d.base ∧ x.version = d.version + 1 ∧
          x.scale = (if isMx d.fmt then d.scale + (d.twin - d.base) else d.scale) ∧
          (∀ g, g ≠ k.entry.syncOperand → Sparse.find (t.part p).descs g = Sparse.find (s.part p).descs g) ∧
          (t.core core).queue = (s.core core).queue.drop 1) ∧
      (∀ d, Sparse.find (s.part p).descs k.entry.syncOperand = some d → d.versioned = false →
        exec (.publish core) s = .next ((s.popHead core).complete p core k.entry stCONFIG 0 false)) ∧
      (Sparse.find (s.part p).descs k.entry.syncOperand = none →
        exec (.publish core) s = .next ((s.popHead core).complete p core k.entry stHANDLE_INVALID 0 false))) ∧
    (k.entry.syncOp = 4 → (s.part p).patState = .running →
      (∃ a ∈ (s.part p).attic, a.handle = k.entry.syncOperand) → exec (.publish core) s = .next s)

/-! ### The engines of a core -/

/-- MATMUL (R132, R179, R180): it takes the idle array, with as many tiles as its outer trips give, and neither memory
nor a tally changes yet. TILE_START (R51, R52, R74, R180, R181, R191, R199): a tile starts only while its bank is
free of every command; each cell of its bank then holds the groups of every iteration added in order to its start
value, the old bank where the command accumulates, else zero; no byte outside the bank changes; a read that fails
is noted, starts no further tile and leaves its bank busy, and COMMAND_COMPLETE then fails the command and stops
its partition (R102, R196). ACCUMULATOR_DRAIN (R189, R190, R195): the oldest tile not yet drained goes to D, each
element at its place by the bytes R189 gives, and no other byte of memory changes; where a hold has come to keep
its place, or a read of the drain fails, nothing is stored, no further tile is drained and every bank not yet
drained stays busy, and the command ends with STALE_SHARD (R125, R414) or fails (R196); with no such tile nothing
happens. Choices of the model it rests on: entries 8, 13, 14, 15 and 87. -/
def Obligations.MatmulRuns : Prop :=
  (∀ (core : Fin 512) (s : State) (p : Nat) (k : Checked), s.Issues p core k → k.entry.kind = 1 →
    ∃ t, exec (.matmul core) s = .next t ∧
      (t.core core).tensor = some { chk := k, tiles := k.entry.tileCount, next := 0, undrained := [], kept := [],
                                    flags := 0, bad := none, stale := false } ∧
      (t.core core).queue = (s.core core).queue.drop 1 ∧ (t.core core).tallies = (s.core core).tallies ∧
      t.mem = s.mem ∧ t.parts = s.parts ∧ ∀ c, c ≠ core.val → t.core c = s.core c) ∧
  ((∀ (core : Fin 512) (ecc : Ecc) (s : State),
    ((s.core core).tensor = none → exec (.tileStart core ecc) s = .next s) ∧
    ∀ (r : TensorRun) (a b : Desc), (s.core core).tensor = some r → r.chk.desc 8 = some a → r.chk.desc 12 = some b →
      (s.tileReady core r = false → exec (.tileStart core ecc) s = .next s) ∧
      (s.tileReady core r = true → ∃ t x, exec (.tileStart core ecc) s = .next t ∧ (t.core core).tensor = some x ∧
        x.next = r.next + 1 ∧ x.chk = r.chk ∧ (t.core core).tallies = (s.core core).tallies ∧ t.parts = s.parts ∧
        (∀ c, c ≠ core.val → (t.core c).tensor = (s.core c).tensor ∧ (t.core c).tallies = (s.core c).tallies) ∧
        (∀ n, n < bankAddr core (r.chk.entry.bank r.next) 0 0 ∨
          bankAddr core (r.chk.entry.bank r.next) 0 0 + 0x8000 ≤ n → memRead t.mem n = memRead s.mem n) ∧
        ((∃ iv ∈ r.chk.entry.tileVectors r.next, s.badRead ecc (iterRanges r.chk a b iv) = true) →
          x.bad ≠ none ∧ x.undrained = r.undrained ∧ t.tileReady core x = false ∧
          (r.chk.entry.drain ≠ 0 → x.kept = r.kept ++ [r.next]) ∧
          ∀ p, s.partOf core = some p → (s.part p).active = true → r.undrained = [] →
            ∃ u, exec (.commandComplete core .tensor) t = .next u ∧ (u.part p).active = false ∧
              (u.part p).stopCause = stECC) ∧
        ((∀ iv ∈ r.chk.entry.tileVectors r.next, s.badRead ecc (iterRanges r.chk a b iv) = false) →
          x.bad = none ∧ (r.chk.entry.drain ≠ 0 → x.undrained = r.undrained ++ [r.next]) ∧
          ∀ i < 64, ∀ j < 64, ∀ start,
            start = (if r.chk.entry.accumulate
              then s.bankElem core (r.chk.entry.bank r.next) (a.fmt == 5) i j
              else if a.fmt = 5 then Acc.int 0 else Acc.pair PairN.zero) →
            match (cellRun r.chk a b (memReader s.mem) (s.envOf core r.chk.entry)
                (r.chk.entry.tileVectors r.next) start i j).1 with
            | .pair v => memWord t.mem (bankAddr core (r.chk.entry.bank r.next) i j)
                = BitVec.ofNat 32 (encode fp32 v.s)
            | .int v => memWord t.mem (bankAddr core (r.chk.entry.bank r.next) i j) = BitVec.ofNat 32 (unsigned 32 v)))) ∧
  (∀ (core : Fin 512) (ecc : Ecc) (s : State) (r : TensorRun), (s.core core).tensor = some r →
    (r.undrained = [] → exec (.accumulatorDrain core ecc) s = .next s) ∧
    (∀ n rest d a, r.undrained = n :: rest → r.chk.desc 16 = some d → r.chk.desc 8 = some a →
      s.badRead ecc (drainRanges r.chk d n) = true →
      ∃ t x, exec (.accumulatorDrain core ecc) s = .next t ∧ (t.core core).tensor = some x ∧ x.bad ≠ none ∧
        x.undrained = [] ∧ x.kept = r.kept ++ r.undrained ∧ t.mem = s.mem ∧ t.parts = s.parts) ∧
    (∀ n rest d a, r.undrained = n :: rest → r.chk.desc 16 = some d → r.chk.desc 8 = some a →
      s.badRead ecc (drainRanges r.chk d n) = false →
      ∀ w h, w = s.drainWrites core r.chk (a.fmt == 5) d (s.envOf core r.chk.entry) n →
      h = s.heldAgainst core s.gatherHolds ((toLocal w.1).map fun b => (b.1, 1)) →
      ∃ t, exec (.accumulatorDrain core ecc) s = .next t ∧ t.parts = s.parts ∧
        (h = none → (t.core core).tensor = some { r with undrained := rest, flags := r.flags ||| w.2 } ∧
          ∀ i, memRead t.mem i = (((toLocal w.1).reverse.find? (·.1 == i)).map (·.2)).getD (memRead s.mem i)) ∧
        (h ≠ none → (t.core core).tensor = some { r with stale := true, undrained := [], kept := r.kept ++ r.undrained } ∧
          ∀ i, memRead t.mem i = memRead s.mem i) ∧
        ∀ c, c ≠ core.val → (t.core c).tensor = (s.core c).tensor ∧ (t.core c).tallies = (s.core c).tallies)))

/-- FN_TABLE_CHECK and FNLOAD (R221, R223, R224, R630): a command that names a table not loaded completes with
CONFIG_INCONSISTENT and no side effect; FNLOAD of a legal image holds the engine with the image, and the table
changes when the command completes, not before; an illegal image ends it with CONFIG_INCONSISTENT. Choices of the
model it rests on: entries 6 and 13. -/
def Obligations.FunctionTables : Prop :=
  ∀ (core : Fin 512) (ecc : Ecc) (s : State) (p : Nat) (k : Checked), s.Issues p core k → k.entry.kind = 2 →
    ((s.core core).fnChecked = false → (s.core core).tablesLoaded k.entry = true →
      exec (.fnTableCheck core) s = .next (s.updCore core fun x => { x with fnChecked := true })) ∧
    ((s.core core).fnChecked = false → (s.core core).tablesLoaded k.entry = false →
      exec (.fnTableCheck core) s = .next ((s.popHead core).complete p core k.entry stCONFIG 0 false)) ∧
    (∀ w d, k.entry.instrs = [w] → vOp w = 25 → k.desc (8 + 4 * vSlot w) = some d →
      s.badRead ecc (tableRanges d) = false →
      ∃ t r, exec (.vector core ecc) s = .next t ∧ (t.core core).vector = some r ∧ r.chk = k ∧ t.mem = s.mem ∧
        (t.core core).fn0 = (s.core core).fn0 ∧ (t.core core).fn1 = (s.core core).fn1 ∧
        (tableOk (s.tableImage d) = true → r.status = stDONE ∧ r.image = some (vB w % 2, s.tableImage d) ∧
          ∃ u, exec (.commandComplete core .vector) t = .next u ∧ (u.core core).vector = none ∧
            (if vB w % 2 = 0 then (u.core core).fn0 else (u.core core).fn1) = some (s.tableImage d)) ∧
        (tableOk (s.tableImage d) = false → r.status = stCONFIG ∧ r.image = none))

/-- VECTOR (R203 to R212): with its tables judged and no read that fails, it runs its iterations in order, each on
fresh registers, leaves its contexts as they end, holds the engine with the flags raised, and changes no byte of
memory but those that its stores write: bytes of the written operands at the positions of its lanes. Choices of the
model it rests on: entries 13, 14, 15, 16, 17, 87 and 127. -/
def Obligations.VectorRunsItsIterations : Prop :=
  ∀ (core : Fin 512) (ecc : Ecc) (s : State) (p : Nat) (k : Checked), s.Issues p core k → k.entry.kind = 2 →
    (k.entry.namesTable = true → (s.core core).fnChecked = true) → k.entry.isFnload = false →
    ∀ v : VecRun, v = { chk := k, env := s.envOf core k.entry, wide := k.entry.instrs.any vWide,
                        fn0 := (s.core core).fn0, fn1 := (s.core core).fn1 } →
    ∀ x : VecAcc, x = (indexVectors k.entry.trips).zipIdx.foldl (v.iteration ecc core) ⟨s.popHead core, 0, [], false⟩ →
    (x.st.readErrors x.reads ecc).2 = none →
    ∃ t r, exec (.vector core ecc) s = .next t ∧ (t.core core).vector = some r ∧ r.chk = k ∧ r.status = stDONE ∧
      r.image = none ∧ t.mem = x.st.mem ∧ r.flags = x.flags ∧ (t.core core).contexts = (x.st.core core).contexts ∧
      (t.core core).queue = (s.core core).queue.drop 1 ∧ (t.core core).tallies = (s.core core).tallies ∧
      (t.core core).fn0 = (s.core core).fn0 ∧ t.parts = s.parts ∧
      (∀ c, c ≠ core.val → (t.core c).queue = (s.core c).queue ∧ (t.core c).vector = (s.core c).vector ∧
        (t.core c).tallies = (s.core c).tallies) ∧
      ∀ n, (∀ w ∈ k.entry.instrs, vWrites w = true → ∀ d, k.desc (8 + 4 * vSlot w) = some d →
          ∀ rd e (batch : List (Pos × Sys2Proof.Machine.Num)), (∀ y ∈ batch, ∃ iv ∈ indexVectors k.entry.trips,
            ∃ j < v.width,
            y.1 = lanePos k (8 + 4 * vSlot w) iv j) →
          ∀ b ∈ (d.storeBatch rd e batch).1, addrLocal b.1 ≠ n) →
        memRead t.mem n = memRead s.mem n

/-- The ROW commands (R227 to R234, R248 to R251): each operation runs its rows in order on the idle row engine; a
forward one writes side-memory entries and tags each with the context its command names, a backward one whose tag
differs ends with SIDE_TAG_MISMATCH; no byte changes but those of Y at the positions of its rows and, forward, of
the side-memory entries named. Choices of the model it rests on: entries 13, 14, 15 and 87. -/
def Obligations.RowCommandsRunTheirRows : Prop :=
  ∀ (core : Fin 512) (ecc : Ecc) (s : State) (p : Nat) (k : Checked) (x y : Desc) (c : Instr),
    s.Issues p core k → k.entry.kind = 3 → k.desc 8 = some x → k.desc 12 = some y →
    ((c = .layernormFwd core ecc ∧ k.entry.rowOp = 0) ∨ (c = .rmsnormFwd core ecc ∧ k.entry.rowOp = 1) ∨
      (c = .softmaxFwd core ecc ∧ k.entry.rowOp = 2) ∨ (c = .layernormBwd core ecc ∧ k.entry.rowOp = 8) ∨
      (c = .rmsnormBwd core ecc ∧ k.entry.rowOp = 9) ∨ (c = .softmaxBwd core ecc ∧ k.entry.rowOp = 10)) →
    (∀ iv ∈ indexVectors k.entry.trips, s.badRead ecc (rowReads k iv) = false) →
    ∃ t r, exec c s = .next t ∧ (t.core core).row = some r ∧ r.chk = k ∧
      (∀ z : RowState, z = (indexVectors k.entry.trips).zipIdx.foldl
          (rowStep core k (s.envOf core k.entry) x y) (⟨s.popHead core, 0, stDONE, 0⟩ : RowState) →
        t.mem = z.st.mem ∧ r.flags = z.flags ∧ r.status = z.status ∧
        (t.core core).tags = (z.st.core core).tags) ∧
      (k.entry.rowOp < 8 → ∀ i, i + 1 = (indexVectors k.entry.trips).length →
        Sparse.find (t.core core).tags (k.entry.rowBase + i) = some k.entry.rowCtx) ∧
      (8 ≤ k.entry.rowOp → (∃ n < (indexVectors k.entry.trips).length,
          Sparse.find (s.core core).tags (k.entry.rowBase + n) ≠ some k.entry.rowCtx) → r.status = stSIDE_TAG) ∧
      (t.core core).queue = (s.core core).queue.drop 1 ∧ (t.core core).tallies = (s.core core).tallies ∧
      t.parts = s.parts ∧
      (∀ d, d ≠ core.val → (t.core d).queue = (s.core d).queue ∧ (t.core d).row = (s.core d).row) ∧
      ∀ n, (∀ rd e (batch : List (Pos × Sys2Proof.Machine.Num)), (∀ b ∈ batch, ∃ iv ∈ indexVectors k.entry.trips,
            ∃ q < 2, ∃ j, b.1 = rowPos k 12 q iv j) →
          ∀ w ∈ (y.storeBatch rd e batch).1, addrLocal w.1 ≠ n) →
        (k.entry.rowOp < 8 → ∀ i < (indexVectors k.entry.trips).length,
          n < sideAddr core (k.entry.rowBase + i) ∨ sideAddr core (k.entry.rowBase + i) + 8 ≤ n) →
        memRead t.mem n = memRead s.mem n

/-- COPY (R61, R153, R284, R384, R409 to R412): with reservation 0 and both tensors on this module the elements of the
destination are written from the source, no other byte changes, and the mover waits for its completion; one whose
own read fails stops its partition; one with a reservation waits for its occurrence and writes nothing yet. To
another module it goes once its skein is open: it is asked for, waited for, and then as many transfers go as carry
the elements, which wait while route_hold is set; from another module or from the host the elements are read first.
A gather runs from the buffer that its record chooses, holds that buffer, and is refused where no record is free,
or none fits. Choices of the model it rests on: entries 13, 15, 17, 18, 87, 106, 107 and 135. -/
def Obligations.CopyMovesElements : Prop :=
  (∀ (core : Fin 512) (ecc : Ecc) (s : State) (p : Nat) (k : Checked) (sd dd : Desc),
    s.Issues p core k → k.entry.kind = 4 → k.entry.moveOp = 0 → k.desc 8 = some sd → k.desc 12 = some dd →
    sd.versioned = false → sd.loc ≠ 8 → sd.loc ≠ 4 → s.MayMove p k →
    (dd.loc = 8 ∨ dd.loc = 4 → k.destReads = []) →
    let bad := (s.accessErrors (copyReadRanges k sd dd) (copyWriteRanges k dd) ecc).2
    ∀ w, w = (copyWrites k sd dd (s.moveReader []) (s.envOf core k.entry)).1 →
    (k.entry.moveResv = 0 → dd.loc ≠ 8 → dd.loc ≠ 4 → bad = none →
      s.heldAgainst core (s.gatherHoldsBut core) ((toLocal (w.map (·.2))).map fun b => (b.1, 1)) = none →
      ∃ t m, exec (.copy core ecc) s = .next t ∧ (t.core core).mover = some m ∧ m.chk = k ∧
      m.phase = .done ∧ m.status = stDONE ∧ (t.core core).queue = (s.core core).queue.drop 1 ∧ t.parts = s.parts ∧
      (∀ n, memRead t.mem n = ((w.reverse.find? fun x => addrLocal x.2.1 == n).map (·.2.2)).getD (memRead s.mem n)) ∧
      ∀ c, c ≠ core.val → (t.core c).queue = (s.core c).queue ∧ (t.core c).mover = (s.core c).mover) ∧
    (k.entry.moveResv = 0 → bad ≠ none → ∃ t, exec (.copy core ecc) s = .next t ∧ (t.part p).active = false ∧
      (t.part p).stopCause = stECC ∧ t.links.faultTaken = s.faultsAfter 1) ∧
    (k.entry.moveResv ≠ 0 →
      (∀ o ∈ (s.part p).sched.occs, o.awaits = true → o.resv.number = k.entry.moveResv → o.core ≠ core.val) →
      ∃ t m, exec (.copy core ecc) s = .next t ∧ (t.core core).mover = some m ∧ m.chk = k ∧
      m.phase = .scheduled ∧ (t.part p).sched.issued = (s.part p).sched.issued ++ [k.entry.moveResv] ∧ t.mem = s.mem) ∧
    (k.entry.moveResv = 0 → dd.loc = 8 → s.routableTo (addrModule dd.base.toNat) = true → bad = none →
      ∀ xs, xs = writeXfers (addrModule dd.base.toNat)
        (copyWrites k sd dd (s.moveReader []) (s.envOf core k.entry)).1 (remoteTallyOf k (some dd)) →
      ∃ t m, exec (.copy core ecc) s = .next t ∧ (t.core core).mover = some m ∧ m.chk = k ∧ m.live = xs.length ∧
        m.phase = (if xs = [] then .done else .writing) ∧ t.mem = s.mem ∧
        (t.core core).queue = (s.core core).queue.drop 1 ∧
        (s.fabric.hold = true → t.fabric.waiting = s.fabric.waiting ++ xs.map fun x =>
          { part := p, core := some core.val, xfer := x }))) ∧
  (∀ (core : Fin 512) (ecc : Ecc) (s : State) (p : Nat) (k : Checked) (d : Nat),
    s.Issues p core k → k.entry.kind = 4 → k.entry.moveOp = 0 → k.requestClass = true → remoteModule k = some d →
    s.routable k = true →
    (s.skeinTo p d = none → exec (.copy core ecc) s = .next (s.openSkein p d)) ∧
    (∀ sk, s.skeinTo p d = some sk → sk.isOpen = false → exec (.copy core ecc) s = .next s)) ∧
  (∀ (core : Fin 512) (ecc : Ecc) (s : State) (p : Nat) (k : Checked) (sd dd : Desc),
    s.Issues p core k → k.entry.kind = 4 → k.entry.moveOp = 0 → k.desc 8 = some sd → k.desc 12 = some dd →
    sd.versioned = false → s.MayMove p k → k.entry.moveResv = 0 → dd.loc ≠ 8 → dd.loc ≠ 4 →
    ∀ inb, inb = (copyElems k dd).filter (fun e => sd.inBounds e.2.1) → inb ≠ [] →
    (sd.loc = 8 → ∃ t m, exec (.copy core ecc) s = .next t ∧ (t.core core).mover = some m ∧ m.chk = k ∧
      m.phase = .reading ∧ 0 < m.live ∧ m.hostLive = 0 ∧ (t.core core).queue = (s.core core).queue.drop 1 ∧
      (landsDirect k sd dd = false → t.mem = s.mem) ∧
      (landsDirect k sd dd = true → ∀ n, (∀ e ∈ copyElems k dd, sd.inBounds e.2.1 = false →
        n < addrLocal (dd.addrOf e.2.2) ∨ addrLocal (dd.addrOf e.2.2) + elemBits dd.fmt / 8 ≤ n) →
        memRead t.mem n = memRead s.mem n)) ∧
    (sd.loc = 4 → ∃ t m, exec (.copy core ecc) s = .next t ∧ (t.core core).mover = some m ∧ m.chk = k ∧
      m.phase = .reading ∧ m.live = 0 ∧ 0 < m.hostLive ∧ t.mem = s.mem ∧
      (t.core core).queue = (s.core core).queue.drop 1)) ∧
  (∀ (core : Fin 512) (ecc : Ecc) (s : State) (p : Nat) (k : Checked) (sd dd : Desc),
    s.Issues p core k → k.entry.kind = 4 → k.entry.moveOp = 0 → k.desc 8 = some sd → k.desc 12 = some dd →
    sd.versioned = true → sd.loc ≠ 8 → sd.loc ≠ 4 → s.MayMove p k →
    (dd.loc = 8 ∨ dd.loc = 4 → k.destReads = []) →
    ∀ dest gid, dest = s.gatherDest k → gid = k.entry.recordId % 2 ^ 15 →
    (s.gatherPlan p dest k sd = .full → ∃ t, exec (.copy core ecc) s = .next t ∧
      t.train.full = s.train.full + 1 ∧ t.train.records = s.train.records ∧ (t.core core).mover = (s.core core).mover ∧
      (t.core core).queue = (s.core core).queue.drop 1 ∧ ∀ c n, t.tallyOf c n = s.tallyOf c n) ∧
    (s.gatherPlan p dest k sd = .stale → ∃ t, exec (.copy core ecc) s = .next t ∧
      t.train.stale = s.train.stale + 1 ∧ t.gatherOf p dest k.entry.moveCtx gid = none ∧
      (t.core core).mover = (s.core core).mover ∧ (t.core core).queue = (s.core core).queue.drop 1 ∧
      ∀ c n, t.tallyOf c n = s.tallyOf c n) ∧
    (∀ d attic, s.gatherPlan p dest k sd = .reads d attic →
      (s.accessErrors (copyReadRanges k d dd) (copyWriteRanges k dd) ecc).2 = none →
      ∃ t m, exec (.copy core ecc) s = .next t ∧ (t.core core).mover = some m ∧ m.chk = k ∧ m.src = some d ∧
        m.gatherKey = some (dest, k.entry.moveCtx, gid, k.entry.recordId / 2 ^ 15) ∧
        m.held = (d.allExtents d.elemBytes).map (fun x => (addrLocal x.1, x.2)) ∧
        t.train.attic = s.train.attic + (if attic then 1 else 0) ∧
        (k.entry.recordId < 2 ^ 15 → t.gatherOf p dest k.entry.moveCtx gid =
          some { part := p, dest := dest, ctx := k.entry.moveCtx, gid := gid, tag := d.version })))

/-- The larder (R115, R117 to R120, R125, R141, R414, R505, R626): a push takes its place at the top of its context's
stack at issue, writes the packed bytes of its tensor there and becomes readable when it completes; one that does
not fit completes with LARDER_FULL; one whose place a hold keeps completes with STALE_SHARD and has no effect; a
read of the latest readable record of its id writes its bytes in order, once the hosts have given back its lines,
of none is refused with LARDER_ORDER, and of one too short with CONFIG_INCONSISTENT; a release of the top record
takes it away, and its bytes with it, once no push and no read of it is in flight. A context that is joined to the
one before takes none of them. Choices of the model it rests on: entries 13, 19, 20, 34, 87, 108 and 135. -/
def Obligations.LarderIsAStack : Prop :=
  ∀ (core : Fin 512) (ecc : Ecc) (s : State) (p : Nat) (k : Checked), s.Issues p core k → k.entry.kind = 4 →
    remoteModule k = none → ∀ n, n = k.entry.moveCtx →
    ((s.ctx n).joinedTo = true → ∀ c, (c = .larderPush core ecc ∧ k.entry.moveOp = 1 ∧ (k.desc 8).isSome = true) ∨
        (c = .larderRead core ecc ∧ k.entry.moveOp = 2 ∧ (k.desc 12).isSome = true) ∨
        (c = .larderRelease core ∧ k.entry.moveOp = 3) →
      exec c s = .next ((s.popHead core).complete p core k.entry stLARDER_ORDER 0 false)) ∧
    ((s.ctx n).joinedTo = false →
    (∀ d len, k.entry.moveOp = 1 → k.desc 8 = some d → d.loc ≠ 8 → d.loc ≠ 4 →
      len = ceilDiv d.packedBytes 256 * 256 →
      (∀ u a bs, s.pushInto p n k.entry.segClass k.entry.recordId len = some u →
        a = u.recordAddr p n (s.ctx n).records.length → bs = d.packedData (s.moveReader []) →
        (∀ counted, s.heldAgainst core s.gatherHolds [(a, d.packedBytes)] = some counted →
          exec (.larderPush core ecc) s =
            .next (((s.noteStale counted).popHead core).complete p core k.entry stSTALE_SHARD 0 false)) ∧
        (s.heldAgainst core s.gatherHolds [(a, d.packedBytes)] = none →
          s.heldAgainst core (s.gatherHoldsBut core) [(a, bs.length)] = none →
          (s.accessErrors (d.packedRuns.map fun r => (addrLocal r.1, r.2)) [(a, bs.length)] ecc).2 = none →
          ∃ t v, exec (.larderPush core ecc) s = .next t ∧
            (t.ctx n).records = (s.ctx n).records ++
              [{ id := k.entry.recordId, offset := (s.ctx n).fill, len := len, readable := false }] ∧
            (t.ctx n).fill = (s.ctx n).fill + len ∧ (t.core core).queue = (s.core core).queue.drop 1 ∧
            (k.entry.moveResv = 0 → t.parts = s.parts) ∧
            (∀ x, memRead t.mem x = if a ≤ x ∧ x < a + bs.length then bs.getD (x - a) 0 else memRead s.mem x) ∧
            exec (.commandComplete core .mover) t = .next v ∧ (v.core core).mover = none ∧
            (v.ctx n).records = (s.ctx n).records ++
              [{ id := k.entry.recordId, offset := (s.ctx n).fill, len := len, readable := true }])) ∧
      (s.pushInto p n k.entry.segClass k.entry.recordId len = none →
        exec (.larderPush core ecc) s = .next ((s.popHead core).complete p core k.entry stLARDER_FULL 0 true)) ∧
      ((s.part p).pattern = none → (s.ctx n).joined = false →
        (s.pushInto p n k.entry.segClass k.entry.recordId len = none ↔
          256 ≤ (s.ctx n).records.length ∨
          (if (s.ctx n).records.isEmpty then (s.part p).regionLen n else (s.ctx n).quota)
            < (s.ctx n).fill + len))) ∧
    (∀ d, k.entry.moveOp = 2 → k.desc 12 = some d → d.loc ≠ 8 → d.loc ≠ 4 →
      (s.findRecord n k.entry.recordId = none →
        exec (.larderRead core ecc) s = .next ((s.popHead core).complete p core k.entry stLARDER_ORDER 0 false)) ∧
      (∀ i r mv, s.findRecord n k.entry.recordId = some i → (s.ctx n).records[i]? = some r →
        mv = packedMoves d ((s.part p).regionBase n + r.offset) →
        (r.len < d.packedBytes →
          exec (.larderRead core ecc) s = .next ((s.popHead core).complete p core k.entry stCONFIG 0 false)) ∧
        (d.packedBytes ≤ r.len → (mv.any fun x => s.lineHeld x.2.1 x.2.2 false) = true →
          ∃ t, exec (.larderRead core ecc) s = .next t ∧ t.mem = s.mem ∧ t.cores = s.cores ∧ t.ctxs = s.ctxs) ∧
        (d.packedBytes ≤ r.len → (mv.any fun x => s.lineHeld x.2.1 x.2.2 false) = false →
          (s.accessErrors (mv.map fun x => (x.2.1, x.2.2)) (mv.map fun x => (addrLocal x.1, x.2.2)) ecc).2 = none →
          s.heldAgainst core (s.gatherHoldsBut core)
            ((toLocal ((mv.flatMap fun x => tagged 0 x.1 (memBytes s.mem x.2.1 x.2.2)).map (·.2))).map
              fun b => (b.1, 1)) = none →
          ∃ t m, exec (.larderRead core ecc) s = .next t ∧ (t.core core).mover = some m ∧ m.phase = .done ∧
            m.record = some (n, i) ∧ t.ctxs = s.ctxs ∧
            ∀ a, memRead t.mem a = (((mv.flatMap fun x => tagged 0 x.1 (memBytes s.mem x.2.1 x.2.2)).reverse.find?
              fun x => addrLocal x.2.1 == a).map (·.2.2)).getD (memRead s.mem a)))) ∧
    (k.entry.moveOp = 3 →
      (∀ r, (s.ctx n).records.getLast? = some r → r.id = k.entry.recordId →
        s.onRecord 3 n ((s.ctx n).records.length - 1) = false →
        ∃ t, exec (.larderRelease core) s = .next t ∧ t.ctxs = s.ctxs ∧ t.mem = s.mem ∧
          (t.releasable n ((s.ctx n).records.length - 1) = false →
            exec (.commandComplete core .mover) t = .next t) ∧
          (t.releasable n ((s.ctx n).records.length - 1) = true →
            ∃ v, exec (.commandComplete core .mover) t = .next v ∧
              (v.ctx n).records = (s.ctx n).records.dropLast ∧ (v.ctx n).fill = r.offset ∧
              (v.core core).mover = none)) ∧
      ((s.ctx n).records = [] ∨ (∃ r, (s.ctx n).records.getLast? = some r ∧ r.id ≠ k.entry.recordId) →
        exec (.larderRelease core) s = .next ((s.popHead core).complete p core k.entry stLARDER_ORDER 0 false))))

/-- COMMAND_COMPLETE of an engine (R135): a MATMUL completes with DONE once its last tile is drained and waits until
then; a VECTOR or ROW command completes with the status it ended with; a move waits for its answers; the engine is
then free. A MATMUL whose read failed stops its partition once the drain under way has ended (R102, R196); one that
a hold has refused ends with STALE_SHARD, without its signal (R414, R421). A scheduled MOVE that the module where
it lands refuses ends with that refusal (R145). COMMAND_COMPLETE of the hub (R135, R338, R343, R344, R353, R354): a
collective that has done everything leaves the hub and is counted; one that reports NONFINITE or DEADLINE_DROP
leaves an event, and its queue goes on; one that a hold has refused ends with STALE_SHARD, without its signal; one
that found no ledger entry ends with LEDGER_MISS and stops its partition; one not over stays. Choices of the model
it rests on: entries 6, 13, 14, 19, 24 and 140. -/
def Obligations.CommandsComplete : Prop :=
  (∀ (core : Fin 512) (s : State) (p : Nat), s.partOf core = some p →
    (∀ r, (s.core core).tensor = some r →
      (r.bad = none → r.stale = false → r.tiles ≤ r.next → r.undrained = [] →
        exec (.commandComplete core .tensor) s = .next
          (((s.updCore core fun x => { x with tensor := none }).noteAccum p r.chk).complete p core r.chk.entry stDONE
            r.flags true)) ∧
      (r.bad = none → r.stale = true → exec (.commandComplete core .tensor) s = .next
        ((s.updCore core fun x => { x with tensor := none }).complete p core r.chk.entry stSTALE_SHARD r.flags false)) ∧
      (r.bad = none → r.stale = false → (r.next < r.tiles ∨ r.undrained ≠ []) →
        exec (.commandComplete core .tensor) s = .next s) ∧
      (r.bad.isSome = true → r.undrained ≠ [] → exec (.commandComplete core .tensor) s = .next s) ∧
      (r.bad.isSome = true → r.undrained = [] → (s.part p).active = true → ∃ t,
        exec (.commandComplete core .tensor) s = .next t ∧
        (t.part p).active = false ∧ (t.part p).stopCause = stECC ∧ t.links.faultTaken = s.faultsAfter 1 ∧
        ∀ c n, t.tallyOf c n = s.tallyOf c n)) ∧
    (∀ r, (s.core core).vector = some r → ∃ x, x.vector = none ∧ x.tallies = (s.core core).tallies ∧
      exec (.commandComplete core .vector) s = .next
        ((s.setCore core x).complete p core r.chk.entry r.status r.flags true)) ∧
    (∀ r, (s.core core).row = some r → exec (.commandComplete core .row) s = .next
      ((s.updCore core fun x => { x with row := none }).complete p core r.chk.entry r.status r.flags true)) ∧
    (∀ m landing, (s.core core).mover = some m → m.phase ≠ .done →
      exec (.commandComplete core .mover landing) s = .next s) ∧
    (∀ m landing st, (s.core core).mover = some m → m.phase = .done → m.chk.entry.moveOp = 0 → m.gatherKey = none →
      st = (if m.status = stDONE ∧ m.chk.entry.moveResv ≠ 0 ∧ m.dst.any (·.loc == 8) = true ∧
        landing ∈ [stENGINE_ABSENT, stPRIVILEGE, stCONFIG, stSTALE_SHARD] then landing else m.status) →
      (m.chk.entry.remoteSignal = false ∨ st ≠ stDONE) →
      exec (.commandComplete core .mover landing) s = .next
        ((s.updCore core fun x => { x with mover := none }).complete p core m.chk.entry st m.flags
          (st != stSTALE_SHARD)))) ∧
  (∀ (core : Fin 512) (n : Half) (s : State) (p : Nat), s.partOf core = some p →
    ((∀ r ∈ s.coll.runs, r.core = core.val → r.resv = n.toNat → r.over = false) →
      exec (.commandComplete core (.hubColl n)) s = .next s) ∧
    (∀ i r, (s.coll.runs.findIdx? fun x => x.core == core.val && x.resv == n.toNat && x.over) = some i →
      s.coll.runs[i]? = some r → r.chk.entry.kind = 6 →
      (r.status = stLEDGER_MISS → (s.part r.part).active = true → ∃ t,
        exec (.commandComplete core (.hubColl n)) s = .next t ∧ t.coll.done = s.coll.done + 1 ∧
        t.coll.eventTaken = s.coll.eventTaken + 1 ∧ (t.part r.part).active = false ∧
        (t.part r.part).stopCause = stLEDGER_MISS ∧ t.links.faultTaken = s.faultsAfter 1 ∧
        ∀ d m, t.tallyOf d m = s.tallyOf d m) ∧
      (r.status ≠ stLEDGER_MISS → ∃ t, exec (.commandComplete core (.hubColl n)) s = .next t ∧
        t.coll.runs = s.coll.runs.eraseIdx i ∧ t.coll.done = s.coll.done + 1 ∧
        t.coll.eventTaken = s.coll.eventTaken + (if r.status = stDONE then 0 else 1) ∧
        (r.status ≠ stSTALE_SHARD → (t.core core).qstate = (s.core core).qstate) ∧
        (t.part p).state = (s.part p).state ∧
        (r.chk.entry.sigEnable = false ∨ r.status = stSTALE_SHARD → ∀ d m, t.tallyOf d m = s.tallyOf d m) ∧
        (r.chk.entry.sigEnable = true → r.status ≠ stSTALE_SHARD → ∀ d m,
          d = r.chk.entry.sigCore (s.part r.part).layout.live.first.toNat →
          m = r.chk.entry.sigTally → t.tallyOf d m = s.tallyOf d m + BitVec.ofNat 32 r.chk.entry.sigIncrement))))

/-! ### Streams, stitches and the schedule -/

/-- The stream fetcher of a core while its pattern runs (R131, R155, R368, R394, R396): STREAM_ENQUEUE puts the next
block at the queue's tail, with the magic it was given, and waits on a full queue; GATE stops at a gate and
GATE_OPEN goes on once the gate's stitch has come; SEGMENT is entered or skipped by the class the step's manifest
gives; BODY marks where each step begins, and END_STEP goes back there once the next step has its manifest and
stops after the last step of a drain (R457). Nothing but the core changes. Where a host owns a line of the words
that the fetcher reads, it is recalled, and the fetcher waits (R505). Choices of the model it rests on: entries 6,
40 and 137. -/
def Obligations.StreamFetcher : Prop :=
  ∀ (core : Fin 512) (s : State) (p : Nat) (pat : Pattern) (x f : Fetcher),
    s.partOf core = some p → (s.part p).pattern = some pat → (s.part p).patState = .running →
    (s.part p).active = true → (s.core core).fetch = some x → f = x.norm →
    let a := f.base + 4 * f.pos
    let n := 4 * s.fetchWords f
    (s.lineHeld a n false = true → ∀ c, c = .streamEnqueue core ∨ c = .gate core ∨ c = .gateOpen core ∨
      c = .segment core ∨ c = .body core ∨ c = .endStep core → exec c s = .next (s.recallFor a n false)) ∧
    (s.lineHeld a n false = false →
    (f.wait = .go → f.pos < f.len → fld (s.streamWord f f.pos) 28 4 ≠ 15 → (s.core core).queue.length < 64 →
      ∃ t e, exec (.streamEnqueue core) s = .next t ∧ (t.core core).queue = (s.core core).queue ++ [e] ∧
        e.words = (List.range (fld (s.streamWord f f.pos) 21 7)).map (fun i => s.streamWord f (f.pos + i)) ∧
        e.fromStream = true ∧
        e.badMagic = (fld (s.streamWord f (f.pos + fld (s.streamWord f f.pos) 21 7)) 16 16 != 0x5354) ∧
        (t.core core).fetch = some { f with pos := f.pos + fld (s.streamWord f f.pos) 21 7 + 1 } ∧
        t.mem = s.mem ∧ t.parts = s.parts ∧ ∀ c, c ≠ core.val → t.core c = s.core c) ∧
    (64 ≤ (s.core core).queue.length → exec (.streamEnqueue core) s = .next s) ∧
    (f.wait = .go → s.atControl f 1 = true →
      exec (.gate core) s = .next (s.updCore core fun k => { k with fetch := some { f with wait := .gate } })) ∧
    (f.wait = .gate → (s.part p).sched.slipNow = false → s.gateStitch pat (s.part p).sched f < (s.part p).sched.next →
      exec (.gateOpen core) s = .next (s.updCore core fun k =>
        { k with fetch := some { f with wait := .go, pos := f.pos + 2 } })) ∧
    (f.wait = .gate → (s.part p).sched.next < s.gateStitch pat (s.part p).sched f →
      exec (.gateOpen core) s = .next s) ∧
    (f.wait = .go → s.atControl f 2 = true → f.step < (s.part p).sched.nextStep →
      ∃ u, exec (.segment core) s = .next (s.updCore core fun k => { k with fetch := some u }) ∧ u.wait = .go ∧
        (if pat.classOf ((s.part p).sched.manifestOf f.step) (fld (s.streamWord f f.pos) 0 16)
            = fld (s.streamWord f f.pos) 16 2
         then u.pos = f.pos + 2 ∧ u.seg = some (f.pos + 2 + (s.streamWord f (f.pos + 1)).toNat,
            fld (s.streamWord f f.pos) 16 2, fld (s.streamWord f f.pos) 0 16)
         else u.pos = f.pos + 2 + (s.streamWord f (f.pos + 1)).toNat ∧ u.seg = f.seg)) ∧
    (f.wait = .go → s.atControl f 3 = true → exec (.body core) s = .next (s.updCore core fun k =>
      { k with fetch := some { f with pos := f.pos + 1, body := some (f.pos + 1) } })) ∧
    (∀ b, f.body = some b → f.wait = .go ∨ f.wait = .endStep → s.atControl f 4 = true →
      f.step + 1 < (s.part p).sched.nextStep → (∀ n, (s.part p).drainStep = some n → f.step < n) →
      exec (.endStep core) s = .next (s.updCore core fun k =>
        { k with fetch := some { f with wait := .go, pos := b, step := f.step + 1 } })) ∧
    (∀ b, f.body = some b → f.wait = .go ∨ f.wait = .endStep → s.atControl f 4 = true →
      (s.part p).sched.nextStep ≤ f.step + 1 ∨ (∃ n, (s.part p).drainStep = some n ∧ n ≤ f.step) →
      exec (.endStep core) s = .next (s.updCore core fun k => { k with fetch := some { f with wait := .endStep } })))

/-- STITCH_BOUNDARY (R356, R359, R361, R382): the stitch count goes up by one; a running pattern advances to its next
pattern stitch, or, where a hold names this stitch, stays where it is and counts a slip; a marker with the count
leaves every port in service; a stitch in which no marker of the parent came breaks the row of 64 (R361); the
symbols corrected on the strands of a port that is lit are counted (R470). Without power or in reset no boundary
comes. Choices of the model it rests on: entries 6, 38 and 49. -/
def Obligations.StitchBoundaries : Prop :=
  ∀ (ecc : Ecc) (symbols : List (Nat × Nat × Nat)) (s : State),
    (s.clocked = false → exec (.stitchBoundary ecc symbols) s = .next s) ∧
    (s.clocked = true → ∃ t, exec (.stitchBoundary ecc symbols) s = .next t ∧ t.tb.count = s.tb.count + 1 ∧
      t.power.ticks = s.power.ticks + 1 ∧ (s.tb.missed ≠ 0 → t.tb.good = 0) ∧
      (∀ p < 16, ∀ pat, (s.part p).pattern = some pat → (s.part p).patState = .running → (s.part p).active = true →
        ((∃ h ∈ (s.part p).sched.holds, h.target = (s.tb.count + 1).toNat) →
          (t.part p).sched.pstitch = (s.part p).sched.pstitch ∧
          (t.part p).sched.slips = (s.part p).sched.slips + 1) ∧
        ((∀ h ∈ (s.part p).sched.holds, h.target ≠ (s.tb.count + 1).toNat) →
          (t.part p).sched.pstitch = (s.part p).sched.next ∧
          (t.part p).sched.slips = (s.part p).sched.slips)) ∧
      (∀ k < 6, ∀ strand < strandsOf k + strandsOf k / 8, 2 ≤ (s.link k).state.toNat → (s.link k).state.toNat ≤ 7 →
        Sparse.get 0 (t.link k).corrected strand = Sparse.get 0 (s.link k).corrected strand
          + BitVec.ofNat 64 ((symbols.filter fun x => x.1 == k && x.2.1 == strand).map fun x => x.2.2).sum) ∧
      (∀ k, s.portEnabled k = true → k < 6 → (s.link k).state = 5 →
        ∃ m, Out.marker k m ∈ t.out ∧ m.count = s.tb.count + 1))

/-- PATTERN_START (R379, R426, R430, R615): at its start stitch, and only then, an armed pattern starts at pattern
stitch 0 with a fetcher in every core that has a stream and that a loss of lock has not cut off (R29); where power,
temperature or zeroing forbid it the pattern is disarmed and start_status says CONFIG. Slices held together by
markers (R381, R387, R389): a marker of a count at which the slice ran here, whose entry of it is only armed or
names another pattern stitch, stops the partition, and so does one without an entry of the slice; at a count at
which it ran no pattern stitch here there is nothing to compare (entry 49); a hold for a stitch still to come is
kept once, one for a stitch already begun stops the partition and is counted late; each marker tells which slices
the far end has (R478, R480). Choices of the model it rests on: entries 6, 37, 38, 39 and 49. -/
def Obligations.SlicesStartAndHoldTogether : Prop :=
  (∀ (p : Fin 16) (ecc : Ecc) (s : State) (pat : Pattern), (s.part p).pattern = some pat →
    ((s.part p).patState ≠ .armed ∨ (s.part p).armed ≠ some s.tb.count.toNat →
      exec (.patternStart p ecc) s = .next s) ∧
    ((s.part p).patState = .armed → (s.part p).armed = some s.tb.count.toNat →
      (s.mayStart = false ∨ (s.part p).state = .zeroing ∨ (s.part p).state = .absent) →
      ∃ t, exec (.patternStart p ecc) s = .next t ∧ (t.part p).armed = none ∧ (t.part p).patState = .loaded ∧
        (t.part p).regs.startStatus = stCONFIG ∧ (t.part p).state = (s.part p).state ∧ t.mem = s.mem ∧
        t.cores = s.cores) ∧
    ((s.part p).patState = .armed → (s.part p).armed = some s.tb.count.toNat → s.mayStart = true →
      ((s.part p).state = .stopped ∨ (s.part p).state = .running) → (∀ r ∈ s.coll.runs, r.part ≠ p.val) →
      (∀ r ∈ pat.resvs, (s.core (s.resvCore p r)).mover = none ∨
        ((s.part p).state = .running ∧ s.resvCore p r ∈ s.coresOf p)) →
      ∃ t, exec (.patternStart p ecc) s = .next t ∧ (t.part p).armed = none ∧ (t.part p).patState = .running ∧
        (t.part p).active = true ∧ (t.part p).sched.pstitch = 0 ∧
        ∀ x ∈ pat.streams, s.coreOpen (8 * (s.part p).layout.live.first.toNat + x.1) = true →
          (t.core (8 * (s.part p).layout.live.first.toNat + x.1)).fetch.isSome = true)) ∧
  (∀ (k : Fin 6) (m : Marker) (s : State) (p : Nat), (s.link k).state = 5 → m.crc = m.sum →
    (s.tb.role ≠ 0 ∨ s.tb.parent.toNat ≠ k.val) → s.joinedParts k = [p] → (s.part p).patState = .running →
    (s.part p).state = .running →
    (∀ e, m.slices = [e] → m.holds = [] →
      (e.tag = (s.part p).place.live.tag →
        (∀ own, s.pstitchAt p m.count.toNat = some own → e.state ≠ 1 ∧ e.pstitch.toNat = own) →
        exec (.stitchMarker k m 0) s = .next (s.keepMark k m)) ∧
      ((e.tag ≠ (s.part p).place.live.tag ∨
          ∃ own, s.pstitchAt p m.count.toNat = some own ∧ (e.state = 1 ∨ e.pstitch.toNat ≠ own)) →
        ∃ t, exec (.stitchMarker k m 0) s = .next t ∧ (t.part p).active = false ∧
          (t.part p).stopCause = stOUT_OF_STEP)) ∧
    (∀ h e, m.holds = [h] → m.slices = [e] → e.tag = (s.part p).place.live.tag → e.state = 2 →
      (∀ own, s.pstitchAt p m.count.toNat = some own → e.pstitch.toNat = own) → h.tag = (s.part p).place.live.tag →
      ((s.part p).sched.isSlip h.target.toNat = true → exec (.stitchMarker k m 0) s = .next (s.keepMark k m)) ∧
      ((s.part p).sched.isSlip h.target.toNat = false → s.tb.count.toNat < h.target.toNat →
        ∃ t, exec (.stitchMarker k m 0) s = .next t ∧ (t.part p).sched.isSlip h.target.toNat = true ∧
        (t.part p).sched.holds.length = (s.part p).sched.holds.length + 1 ∧ (t.part p).state = .running) ∧
      ((s.part p).sched.isSlip h.target.toNat = false → h.target.toNat ≤ s.tb.count.toNat → ∃ t,
        exec (.stitchMarker k m 0) s = .next t ∧
        (t.part p).active = false ∧ t.tb.holdsLate = s.tb.holdsLate + 1)))

/-- The ends of a running partition (R165, R256, R390, R457, R459): a quiet drain stops it with its pattern loaded; a
drain that overruns its limit and an occurrence whose bytes have not left at the end of its span are faults; 64
idle-waiting stitches in a row stop it with WAIT_CYCLE; ATTIC_HOLD_END frees the attic of its handle alone. Choices
of the model it rests on: entries 6, 50, 58 and 86. -/
def Obligations.PartitionsEnd : Prop :=
  ∀ (p : Fin 16) (s : State),
    ((s.part p).state = .draining → s.quiet p = true → ∃ t, exec (.drainEnd p) s = .next t ∧
      (t.part p).active = false ∧ (t.part p).stopCause = stDONE ∧
      ((s.part p).patState = .running → (t.part p).patState = .loaded) ∧
      (∀ q, q ≠ p.val → (t.part q).state = (s.part q).state)) ∧
    ((s.part p).state ≠ .draining ∨ s.quiet p = false → exec (.drainEnd p) s = .next s) ∧
    (∀ d, (s.part p).state = .draining → (s.part p).drainAt = some d →
      (d + s.tenancy.drainLimit.toNat ≤ s.power.ticks → ∃ t, exec (.drainTimeout p) s = .next t ∧
        (t.part p).active = false ∧ (t.part p).stopCause = stOUT_OF_STEP ∧
        t.links.faultTaken = s.faultsAfter 1) ∧
      (s.power.ticks < d + s.tenancy.drainLimit.toNat → exec (.drainTimeout p) s = .next s)) ∧
    (∀ (n : Half) (o : Occ), (s.part p).active = true → o ∈ (s.part p).sched.occs → o.resv.number = n.toNat →
      o.start + o.resv.span ≤ (s.part p).sched.pstitch → o.over = false →
      ∃ t, exec (.spanEndShort p n) s = .next t ∧ (t.part p).active = false ∧
        (t.part p).stopCause = stOUT_OF_STEP ∧ t.links.faultTaken = s.faultsAfter 1) ∧
    ((s.part p).active = true → 64 ≤ (s.part p).idleTicks → ∃ t, exec (.waitCycle p) s = .next t ∧
      (t.part p).active = false ∧ (t.part p).stopCause = stWAIT_CYCLE ∧
      (∀ c n, t.tallyOf c n = s.tallyOf c n) ∧ t.links.faultTaken = s.links.faultTaken) ∧
    ((s.part p).active = false ∨ (s.part p).idleTicks < 64 → exec (.waitCycle p) s = .next s) ∧
    (∀ h : BitVec 10, ∃ t, exec (.atticHoldEnd p h) s = .next t ∧
      (∀ a, a ∈ (t.part p).attic ↔ a ∈ (s.part p).attic ∧
        ¬ (a.handle = h.toNat ∧ a.release ≤ (s.part p).sched.pstitch)) ∧
      (t.part p).descs = (s.part p).descs ∧ t.mem = s.mem ∧ t.cores = s.cores)

/-- The timebase (R360, R361, R365, R480): the parent's marker steers a follower; 64 stitches in a row with one within
2 link cycles let it lock; 16 stitches without one put it into holdover, and the next one ends holdover; a marker
of the parent more than 28 link cycles away is a timebase fault, which stops every patterned partition with
SLICE_OUT_OF_STEP and makes it acquire again, locked before or in holdover; a marker that fails its check is a port
fault, which takes the port out of service (R492); a port not in service hears none. -/
def Obligations.TimebaseFollowsItsParent : Prop :=
  ∀ (s : State),
    (s.tb.state = .acquiring → 64 ≤ s.tb.good →
      exec .timebaseLock s = .next { s with tb := { s.tb with state := .locked } }) ∧
    ((s.tb.state ≠ .acquiring ∨ s.tb.good < 64) → exec .timebaseLock s = .next s) ∧
    (s.tb.state = .locked → 16 ≤ s.tb.missed →
      exec .holdover s = .next { s with tb := { s.tb with state := .holdover } }) ∧
    ((s.tb.state ≠ .locked ∨ s.tb.missed < 16) → exec .holdover s = .next s) ∧
    (∀ (k : Fin 6) (m : Marker) (off : Int), m.slices.length ≤ 16 → m.holds.length ≤ 32 →
      ((s.link k).state ≠ 5 → exec (.stitchMarker k m off) s = .next s) ∧
      ((s.link k).state = 5 → m.crc ≠ m.sum → ∃ t, exec (.stitchMarker k m off) s = .next t ∧
        (∀ p ∈ s.portParts k, (t.part p).active = false) ∧ t.links.faultTaken = s.faultsAfter 1 ∧
        (t.link k).state = 8 ∧ t.tb = s.tb) ∧
      ((s.link k).state = 5 → m.crc = m.sum → m.slices = [] → m.holds = [] → s.anyPatterned = false →
        s.tb.role = 0 → s.tb.parent.toNat = k.val →
        (s.tb.state = .free → ∃ t, exec (.stitchMarker k m off) s = .next t ∧ t.tb.state = .acquiring ∧
          t.tb.count = m.count ∧ t.tb.missed = 0) ∧
        (s.tb.state = .acquiring → ∃ t, exec (.stitchMarker k m off) s = .next t ∧ t.tb.state = .acquiring ∧
          t.tb.good = (if 2 < off.natAbs then 0 else if s.tb.missed = 0 then s.tb.good else s.tb.good + 1) ∧
          t.tb.count = m.count) ∧
        (s.tb.state = .locked ∨ s.tb.state = .holdover → off.natAbs ≤ 28 →
          ∃ t, exec (.stitchMarker k m off) s = .next t ∧
          t.tb.state = .locked ∧ t.tb.missed = 0 ∧ t.tb.count = s.tb.count)) ∧
      ((s.link k).state = 5 → m.crc = m.sum → s.tb.role = 0 →
        s.tb.parent.toNat = k.val → s.tb.state = .locked ∨ s.tb.state = .holdover → 28 < off.natAbs →
        ∃ t, exec (.stitchMarker k m off) s = .next t ∧ t.tb.state = .acquiring ∧
          t.tb.faults = s.tb.faults + 1 ∧
          (m.holds = [] → (∀ p ∈ s.joinedParts k, (s.part p).patState ≠ .running ∨ (s.part p).active = false) →
            t.links.faultTaken = s.faultsAfter 1) ∧
          ∀ p < 16, (s.part p).patterned = true → (t.part p).active = false ∧
            ((s.part p).patState = .armed → (t.part p).patterned = false) ∧
            ((s.part p).active = true → (t.part p).patterned = false ∧ (t.part p).stopCause = stOUT_OF_STEP)))

/-! ### Partitions -/

/-- PART_CTRL (R428, R429, R434, R457, R458, R615): start of a stopped partition with shelves and no armed pattern,
while power and temperature let it, latches the arithmetic defaults and leaves its cores running with banks of
zero, no table and no tag; a start or a drain that may not be is refused with CONFIG and changes nothing else; a
drain notes its step; another port's access is ignored and counted. Choices of the model it rests on: entries 37,
59 and 67. -/
def Obligations.PartitionStartAndDrain : Prop :=
  ∀ (port : Fin 2) (p : Fin 16) (s : State),
    (s.boundTo p port = true →
      ((s.part p).state = .stopped → (s.part p).patState ≠ .armed → (s.part p).layout.live.count ≠ 0 →
        s.mayStart = true → ∃ t, exec (.partStart port p) s = .next t ∧ (t.part p).state = .running ∧
          (t.part p).ctrlStatus = stDONE ∧
          (t.part p).latched = ⟨s.arith.round.toNat, s.arith.subnormal.toNat, s.arith.fp8.toNat, s.arith.comp.toNat,
            (s.part p).seed⟩ ∧ (t.part p).localNorm = ⟨0, 0⟩ ∧ (t.part p).descs = (s.part p).descs ∧
          (∀ c ∈ s.coresOf p, s.coreOpen c = true → (t.core c).qstate = .running ∧ (t.core c).fn0 = none ∧
            (t.core c).fn1 = none ∧
            (t.core c).tags = [] ∧ (t.core c).tallies = (s.core c).tallies ∧
            ∀ n < 0x10000, memRead t.mem (privAddr c 0x640000 + n) = 0) ∧
          (∀ q, q ≠ p.val → t.part q = s.part q)) ∧
      ((s.part p).state ≠ .stopped ∨ (s.part p).patState = .armed ∨ (s.part p).layout.live.count = 0 ∨
          s.mayStart = false →
        exec (.partStart port p) s = .next (s.updPart p fun q => { q with ctrlStatus := stCONFIG })) ∧
      ((s.part p).drainOk = true → ∃ t, exec (.partDrain port p) s = .next t ∧
        t.part p = { s.part p with drainStep := some (s.part p).drainReg.toNat, ctrlStatus := stDONE } ∧
        (∀ q, q ≠ p.val → t.part q = s.part q) ∧ t.cores = s.cores ∧ t.mem = s.mem) ∧
      ((s.part p).drainOk = false →
        exec (.partDrain port p) s = .next (s.updPart p fun q => { q with ctrlStatus := stCONFIG }))) ∧
    (s.boundTo p port = false → exec (.partStart port p) s = .next s.refusedAccess ∧
      exec (.partStop port p) s = .next s.refusedAccess ∧ exec (.partDrain port p) s = .next s.refusedAccess)

/-- A stop (R122, R258, R287, R378, R415, R429, R483): the partition is stopped with its cause, its pattern disarmed;
its cores hold no entry and run no command, their tallies as they were; its collectives, gathers, attic holds,
larder records and waiting transfers are gone; no other partition's state changes. Choices of the model it rests
on: entries 8, 28 and 58. -/
def Obligations.StopDiscardsWorkInFlight : Prop :=
  ∀ (port : Fin 2) (p : Fin 16) (s : State), s.boundTo p port = true →
    ((s.part p).active = false →
      exec (.partStop port p) s = .next (s.updPart p fun q => { q with ctrlStatus := stDONE })) ∧
    ((s.part p).active = true → ∃ t, exec (.partStop port p) s = .next t ∧ (t.part p).state = .stopped ∧
      (t.part p).stopCause = stDONE ∧ (t.part p).ctrlStatus = stDONE ∧ (t.part p).armed = none ∧
      (t.part p).attic = [] ∧ (t.part p).descs = (s.part p).descs ∧
      (∀ c ∈ s.coresOf p, (t.core c).queue = [] ∧ (t.core c).head = none ∧ (t.core c).qstate = .partStopped ∧
        (t.core c).tensor = none ∧ (t.core c).vector = none ∧ (t.core c).row = none ∧ (t.core c).mover = none ∧
        (t.core c).fetch = none) ∧
      (∀ c n, t.tallyOf c n = s.tallyOf c n) ∧
      (∀ r ∈ t.coll.runs, r.part ≠ p.val) ∧ (∀ g ∈ t.train.records, g.part ≠ p.val) ∧
      (∀ w ∈ t.fabric.waiting, w.part ≠ p.val) ∧
      (∀ n < 48, (s.part p).layout.live.ctxMask.toNat.testBit n = true → (t.ctx n).records = [] ∧ (t.ctx n).fill = 0) ∧
      (∀ q, q ≠ p.val → (t.part q).state = (s.part q).state ∧ (t.part q).stopCause = (s.part q).stopCause))

/-- LAYOUT_COMMIT and ZEROING_COMPLETE (R431, R432, R434, R466, R551, R621): a commit that passes puts the shadow into
force and zeros every shelf that leaves, changes tenant or port, or joins for the first time; the partition reads
zeroing until the clearing ends. Before ready and while the partition runs nothing changes; a commit that fails
notes its status alone. Choices of the model it rests on: entries 2, 6, 60 and 91. -/
def Obligations.LayoutCommitZeroesShelves : Prop :=
  ∀ (p : Fin 16) (s : State),
    (s.isReady = false ∨ (s.part p).active = true → exec (.layoutCommit p) s = .next s) ∧
    (s.isReady = true → (s.part p).active = false → s.layoutStatus p ≠ stDONE →
      exec (.layoutCommit p) s = .next { s with mgmt := { s.mgmt with layoutStatus := s.layoutStatus p } }) ∧
    (s.isReady = true → (s.part p).active = false → s.layoutStatus p = stDONE →
      ∃ t, exec (.layoutCommit p) s = .next t ∧ t.mgmt.layoutStatus = stDONE ∧
        (t.part p).layout.live = (s.part p).layout.sh ∧
        (∀ x ∈ s.shelvesToZero p, ∀ i < 8, (t.core (8 * x + i)).tallies = [] ∧ (t.core (8 * x + i)).queue = [] ∧
          (t.core (8 * x + i)).tags = [] ∧
          (∀ n < 2 ^ 25, memRead t.mem (cellarBase + (8 * x + i) * 2 ^ 25 + n) = 0) ∧
          ∀ n < 0x650000, memRead t.mem (privAddr (8 * x + i) n) = 0) ∧
        (s.shelvesToZero p ≠ [] → (t.part p).state = .zeroing ∧ (t.part p).clearing = true) ∧
        (s.shelvesToZero p = [] → (s.part p).clearing = false → (t.part p).state =
          if (s.part p).layout.sh.count = 0 then .absent else .stopped) ∧
        ((s.part p).layout.live.count = 0 → (t.part p).descs = []) ∧
        (∀ q, q ≠ p.val → t.part q = s.part q)) ∧
    ((s.part p).clearing = true → (s.part p).state = .zeroing → (s.part p).waitingWindows = none →
      ∃ t, exec (.zeroingComplete p) s = .next t ∧ (t.part p).clearing = false ∧
        (t.part p).state = (if (s.part p).layout.live.count = 0 then .absent else .stopped) ∧ t.mem = s.mem) ∧
    ((s.part p).clearing = false → exec (.zeroingComplete p) s = .next s)

/-- WINDOW_COMMIT and LARDER_COMMIT (R128, R433, R434): windows that remove no memory take effect at once; others wait
until the units they remove have been zeroed, and then read zero; the larder area takes effect where it lies inside
a window; a refused commit, and one before ready or while the partition runs, changes nothing. GUARANTEE_COMMIT,
PLACEMENT_COMMIT and APERTURE_COMMIT (R445, R446, R449, R455, R456, R532, R533): a commit that passes puts its
shadow into force and forms what follows from it, an aperture commit once no host holds a line of a window that it
clears of its cacheable bit (R507); one that fails leaves the live group as it was; neither acts while the
partition runs, and no aperture commit while another waits. Choices of the model it rests on: entries 2, 60 and 91.
-/
def Obligations.GroupCommits : Prop :=
  (∀ (p : Fin 16) (s : State),
    (s.isReady = false ∨ (s.part p).active = true →
      exec (.windowCommit p) s = .next s ∧ exec (.larderCommit p) s = .next s) ∧
    (s.isReady = true → (s.part p).active = false →
      (s.larderStatus p = stDONE → exec (.larderCommit p) s = .next (s.updPart p fun q =>
        { q with larder := ⟨q.larder.sh, q.larder.sh⟩ })) ∧
      (s.larderStatus p ≠ stDONE → exec (.larderCommit p) s = .next s) ∧
      ((s.part p).waitingWindows.isSome = true → exec (.windowCommit p) s = .next s) ∧
      ((s.part p).waitingWindows = none → s.windowStatus p ≠ stDONE → exec (.windowCommit p) s = .next s) ∧
      ((s.part p).waitingWindows = none → s.windowStatus p = stDONE →
        removedUnits (s.part p).windows.live (s.part p).windows.sh = [] →
        exec (.windowCommit p) s = .next (s.updPart p fun q => { q with windows := ⟨q.windows.sh, q.windows.sh⟩ })) ∧
      ((s.part p).waitingWindows = none → s.windowStatus p = stDONE →
        removedUnits (s.part p).windows.live (s.part p).windows.sh ≠ [] →
        ∃ t u, exec (.windowCommit p) s = .next t ∧ (t.part p).windows = (s.part p).windows ∧
          ((s.part p).state = .stopped → (t.part p).state = .zeroing) ∧ t.mem = s.mem ∧
          exec (.zeroingComplete p) t = .next u ∧ (u.part p).windows.live = (s.part p).windows.sh ∧
          ∀ r ∈ removedUnits (s.part p).windows.live (s.part p).windows.sh, ∀ n,
            r.1 * 262144 ≤ n → n < r.2 * 262144 → memRead u.mem n = 0))) ∧
  (∀ (p : Fin 16) (s : State),
    ((s.part p).active = true → exec (.guaranteeCommit p) s = .next s ∧ exec (.placementCommit p) s = .next s ∧
      exec (.apertureCommit p) s = .next s) ∧
    (s.isReady = false → exec (.guaranteeCommit p) s = .next s ∧ exec (.placementCommit p) s = .next s) ∧
    ((s.part p).active = false →
      (s.isReady = true → s.guaranteeStatus p = stDONE → ∃ t, exec (.guaranteeCommit p) s = .next t ∧
        (t.part p).guar.live = (s.part p).guar.sh ∧ t.mgmt.layoutStatus = stDONE ∧
        (t.part p).injectNow = (s.part p).guar.sh.inject ∧ (t.part p).hbmNow = (s.part p).guar.sh.hbm) ∧
      (s.isReady = true → s.guaranteeStatus p ≠ stDONE → ∃ t, exec (.guaranteeCommit p) s = .next t ∧
        t.parts = s.parts ∧ t.mgmt.layoutStatus = s.guaranteeStatus p) ∧
      (s.isReady = true → s.placementStatus p = stDONE → ∃ t, exec (.placementCommit p) s = .next t ∧
        (t.part p).place.live = (s.part p).place.sh ∧
        (t.part p).axisModes = s.axisModes (s.part p).place.sh ∧ t.mgmt.layoutStatus = stDONE ∧
        ∀ q, q ≠ p.val → t.part q = s.part q) ∧
      (s.isReady = true → s.placementStatus p ≠ stDONE → ∃ t, exec (.placementCommit p) s = .next t ∧
        t.parts = s.parts ∧ t.mgmt.layoutStatus = s.placementStatus p) ∧
      ((s.part p).waitingAper.isSome = true → exec (.apertureCommit p) s = .next s) ∧
      ((s.part p).waitingAper = none → s.apertureStatus p = stDONE → ∃ t, exec (.apertureCommit p) s = .next t ∧
        ((∀ r ∈ (s.part p).uncached (s.part p).aper.sh, s.lineHeld r.1 r.2 true = false) →
          (t.part p).aper.live = (s.part p).aper.sh ∧ (t.part p).waitingAper = none) ∧
        ((∃ r ∈ (s.part p).uncached (s.part p).aper.sh, s.lineHeld r.1 r.2 true = true) →
          (t.part p).aper = (s.part p).aper ∧ (t.part p).waitingAper = some (s.part p).aper.sh) ∧
        t.mem = s.mem ∧ ∀ q, q ≠ p.val → t.part q = s.part q) ∧
      (s.apertureStatus p ≠ stDONE → exec (.apertureCommit p) s = .next s)))

/-- Loading a pattern (R122, R159, R336, R349, R375, R376, R415, R423): PAT_COMMIT, unless one is armed, running or
being checked, forgets the last pattern, zeroes the tallies and frees the contexts, ledger, gathers and attic;
PATTERN_LOAD_DONE then reports the status of the checks and, when it is DONE, loads the pattern. An image of which
a host owns a line is recalled, and checked once the line is back (R505). Choices of the model it rests on: entries
6, 37, 58 and 137. -/
def Obligations.PatternLoad : Prop :=
  ∀ (port : Fin 2) (p : Fin 16) (s : State), s.boundTo p port = true →
    ((s.part p).patState = .armed ∨ (s.part p).patState = .running ∨ (s.part p).patState = .checking →
      exec (.patCommit port p) s = .next (s.updPart p fun q =>
        { q with loadStatus := stCONFIG, regs := { q.regs with commitStatus := stCONFIG } })) ∧
    ((s.part p).patState = .empty ∨ (s.part p).patState = .loaded ∨ (s.part p).patState = .faulted →
      ∃ t, exec (.patCommit port p) s = .next t ∧ (t.part p).patState = .checking ∧ (t.part p).pattern = none ∧
        (t.part p).attic = [] ∧ (t.part p).stats = [] ∧ (t.part p).descs = (s.part p).descs ∧
        (∀ c ∈ s.coresOf p, (∀ n, t.tallyOf c n = 0) ∧ (t.core c).fn0 = none ∧ (t.core c).tags = []) ∧
        (∀ g ∈ t.train.records, g.part ≠ p.val) ∧ (∀ g ∈ t.coll.ledger, g.part ≠ p.val) ∧
        ((∀ h < 2, (s.hport h).directory = []) → (t.part p).loadResult.isSome = true) ∧
        ((t.part p).loadResult = none →
          (t.part p).loadFrom = some ((s.part p).regs.base.sh.toNat, (s.part p).regs.bytes.sh.toNat)) ∧
        ∀ r, (t.part p).loadResult = some r →
        ∃ u, exec (.patternLoadDone p) t = .next u ∧ (u.part p).regs.commitStatus = r.1 ∧
          (u.part p).loadStatus = r.1 ∧
          (r.1 = stDONE → (u.part p).patState = .loaded ∧ (u.part p).pattern = r.2 ∧
            (u.part p).regs.base.live = (s.part p).regs.base.sh ∧
            (u.part p).regs.bytes.live = (s.part p).regs.bytes.sh) ∧
          (r.1 ≠ stDONE → (u.part p).patState = .empty)) ∧
    (∀ x, (s.part p).patState = .checking → (s.part p).loadResult = none → (s.part p).loadFrom = some x →
      (s.lineHeld (addrLocal x.1) x.2 false = true →
        exec (.patternLoadDone p) s = .next (s.recallFor (addrLocal x.1) x.2 false)) ∧
      (s.lineHeld (addrLocal x.1) x.2 false = false →
        ∃ u, exec (.patternLoadDone p) s = .next u ∧ (u.part p).loadStatus = (s.loadChecks p x.1 x.2).1 ∧
          (u.part p).pattern = (s.loadChecks p x.1 x.2).2 ∧ (u.part p).loadFrom = none ∧
          (u.part p).patState = if (s.loadChecks p x.1 x.2).1 = stDONE then .loaded else .empty)) ∧
    ((s.part p).patState ≠ .checking → exec (.patternLoadDone p) s = .next s)

/-- START_COMMIT and MAN_COMMIT (R378, R380, R394 to R396, R458): a start at least slip_lag and 16 stitches ahead arms
a loaded pattern on an aligned module, start 0 disarms it; a manifest of the next step, legal and not too far
ahead, is added; whatever else is refused with its status and changes nothing else; a manifest of which a host owns
a line waits for it (R505). Choices of the model it rests on: entries 37 and 137. -/
def Obligations.StartAndManifestCommit : Prop :=
  ∀ (port : Fin 2) (p : Fin 16) (s : State), s.boundTo p port = true →
    (∀ pat, (s.part p).pattern = some pat → (s.part p).patState = .loaded ∨ (s.part p).patState = .armed →
      (s.part p).regs.start.sh ≠ 0 →
      (s.aligned = true → s.tb.count.toNat + pat.slipLag + 16 ≤ (s.part p).regs.start.sh.toNat →
        ∃ t, exec (.startCommit port p) s = .next t ∧ (t.part p).patState = .armed ∧
          (t.part p).armed = some (s.part p).regs.start.sh.toNat ∧ (t.part p).regs.startStatus = stDONE ∧
          t.cores = s.cores ∧ t.mem = s.mem) ∧
      (s.aligned = true → (s.part p).regs.start.sh.toNat < s.tb.count.toNat + pat.slipLag + 16 →
        exec (.startCommit port p) s = .next (s.updPart p fun q =>
          { q with regs := { q.regs with startStatus := stCONFIG } })) ∧
      (s.aligned = false → exec (.startCommit port p) s = .next (s.updPart p fun q =>
          { q with regs := { q.regs with startStatus := stUNALIGNED } }))) ∧
    ((s.part p).patState = .armed → (s.part p).regs.start.sh = 0 → ∃ t, exec (.startCommit port p) s = .next t ∧
      (t.part p).patState = .loaded ∧ (t.part p).armed = none) ∧
    ((s.part p).patState ≠ .loaded → (s.part p).patState ≠ .armed →
      exec (.startCommit port p) s = .next (s.updPart p fun q =>
        { q with regs := { q.regs with startStatus := stCONFIG } })) ∧
    (∀ base, base = (s.part p).regs.man.sh →
      (s.manHeld p base.toNat = none → s.manStatus p base.toNat = stDONE →
        ∃ t man, exec (.manCommit port p) s = .next t ∧
        (t.part p).sched.manifests = (s.part p).sched.manifests ++ [man] ∧ man.step = (s.part p).sched.nextStep ∧
        (t.part p).sched.nextStep = (s.part p).sched.nextStep + 1 ∧ (t.part p).regs.manStatus = stDONE ∧
        (s.part p).sched.nextStep < (s.part p).sched.begun + 4 ∧ t.mem = s.mem ∧ t.cores = s.cores) ∧
      (s.manHeld p base.toNat = none → s.manStatus p base.toNat ≠ stDONE →
        exec (.manCommit port p) s = .next (s.updPart p fun q =>
          { q with waitingMan := none, regs := { q.regs with manStatus := s.manStatus p base.toNat } })) ∧
      (∀ x, s.manHeld p base.toNat = some x → ∃ t, exec (.manCommit port p) s = .next t ∧
        (t.part p).waitingMan = some base ∧ (t.part p).sched = (s.part p).sched ∧ t.mem = s.mem ∧ t.cores = s.cores))

/-- ROUTE_HOLD, ROUTE_COMMIT and the small clears (R299, R300, R303, R308, R336, R423): ROUTE_HOLD sets route_hold and
nothing else; a commit of the route group, once the fabric has drained under it and the shadow is legal, puts the
shadow into force, starts the ports newly enabled and takes the others out, else it leaves CONFIG; LEDGER_CLEAR
frees the partition's ledger entries and STATS_CLEAR empties its ring, neither while it runs; PEAK_CLEAR lets the
ten peak depths of its port alone start again, each from the depth now. -/
def Obligations.RouteCommitAndClears : Prop :=
  ∀ (p : Fin 16) (k : Fin 6) (s : State),
    (s.isReady = false → exec .routeCommit s = .next s) ∧
    (s.isReady = true → (s.routeDrained = false ∨ s.fabric.route.sh.ok = false) →
      exec .routeCommit s = .next { s with fabric := { s.fabric with commitStatus := stCONFIG } }) ∧
    (s.isReady = true → s.routeDrained = true → s.fabric.route.sh.ok = true → ∃ t, exec .routeCommit s = .next t ∧
      t.fabric.route.live = s.fabric.route.sh ∧ t.fabric.commitStatus = stDONE ∧ t.fabric.hold = s.fabric.hold ∧
      (t.link k).state = (if s.fabric.route.sh.portEnable.toNat.testBit k
          = s.fabric.route.live.portEnable.toNat.testBit k then (s.link k).state
        else if s.fabric.route.sh.portEnable.toNat.testBit k then 1 else 0) ∧
      (t.part p).state = (s.part p).state ∧ (t.part p).pattern = (s.part p).pattern ∧ t.coll = s.coll ∧
      (s.fabric.waiting = [] → t.mem = s.mem ∧ t.cores = s.cores ∧ t.out = s.out ∧
        (t.part p).sched = (s.part p).sched)) ∧
    ((s.part p).active = true → exec (.ledgerClear p) s = .next s ∧ exec (.statsClear p) s = .next s) ∧
    ((s.part p).active = false →
      exec (.statsClear p) s = .next (s.updPart p fun q => { q with stats := [] }) ∧
      ∃ t, exec (.ledgerClear p) s = .next t ∧ t.parts = s.parts ∧
        ∀ g, g ∈ t.coll.ledger ↔ g ∈ s.coll.ledger ∧ g.part ≠ p.val) ∧
    (∃ t, exec (.peakClear k) s = .next t ∧
      (Sparse.get PortCtr.reset t.fabric.ports k.val).depthPeak
        = (Sparse.get PortCtr.reset s.fabric.ports k.val).depthNow ∧
      (Sparse.get PortCtr.reset t.fabric.ports k.val).depthNow = (Sparse.get PortCtr.reset s.fabric.ports k.val).depthNow ∧
      (∀ j, j ≠ k.val → Sparse.get PortCtr.reset t.fabric.ports j = Sparse.get PortCtr.reset s.fabric.ports j) ∧
      t.links = s.links ∧ t.parts = s.parts) ∧
    exec .routeHold s = .next { s with fabric := { s.fabric with hold := true } }

/-! ### Packets on the torus -/

/-- Every request and reply packet on a port (R164, R263, R265 to R267, R273, R278): a port not in service hears
nothing; a packet of the reserved channel code is counted as received, discarded and counted; one for which the
port has no room is not taken; one for another module is kept and counted; one whose check fails is discarded and
counted, memory, cores and partitions as before in each case. One that is delivered completes: it is counted as
received and delivered, marks its partition's stitch as one that is not idle, is sampled, and its handler acts.
Choices of the model it rests on: entries 26, 35 and 119. -/
def Obligations.PacketsOnAPort : Prop :=
  ∀ (k : Fin 6) (p : Pkt) (ecc : Ecc) (c : Instr) (s : State),
    ((c = .write k p ecc ∧ p.isKind 1 0 = true) ∨ (c = .read k p ecc ∧ p.isKind 1 1 = true) ∨
      (c = .tally k p ∧ p.isKind 1 2 = true) ∨ (c = .fabOpen k p ∧ p.isKind 1 3 = true) ∨
      (c = .fabClose k p ∧ p.isKind 1 4 = true) ∨ (c = .readData k p ecc ∧ p.isKind 2 8 = true) ∨
      (c = .ack k p ∧ p.isKind 2 9 = true) ∨ (c = .grant k p ∧ p.isKind 2 0xA = true) ∨
      (c = .nack k p ∧ p.isKind 2 0xB = true)) →
    ((s.link k).state ≠ 5 → exec c s = .next s) ∧
    ((s.link k).state = 5 → p.channel = 3 → ∃ t, exec c s = .next t ∧
      t.fabric.checkDiscards = s.fabric.checkDiscards + 1 ∧ t.fabric.delivered = s.fabric.delivered ∧
      (Sparse.get PortCtr.reset t.fabric.ports k.val).rxPackets
        = (Sparse.get PortCtr.reset s.fabric.ports k.val).rxPackets + 1 ∧ t.fabric.transit = s.fabric.transit ∧
      t.mem = s.mem ∧ t.cores = s.cores ∧ t.parts = s.parts ∧ t.fabric.skeins = s.fabric.skeins) ∧
    ((s.link k).state = 5 → p.channel ≠ 3 → s.fits k p = false → exec c s = .next s) ∧
    ((s.link k).state = 5 → p.channel ≠ 3 → s.fits k p = true → s.isHere p.dest.toNat = false →
      ∃ t, exec c s = .next t ∧ (some k.val, { p with owner := none }) ∈ t.fabric.transit ∧
      (Sparse.get PortCtr.reset t.fabric.ports k.val).rxPackets
        = (Sparse.get PortCtr.reset s.fabric.ports k.val).rxPackets + 1 ∧
      t.mem = s.mem ∧ t.cores = s.cores ∧ t.parts = s.parts ∧ t.fabric.skeins = s.fabric.skeins) ∧
    ((s.link k).state = 5 → p.channel ≠ 3 → s.fits k p = true → s.isHere p.dest.toNat = true → p.check ≠ p.crc →
      ∃ t, exec c s = .next t ∧
      t.fabric.checkDiscards = s.fabric.checkDiscards + 1 ∧ t.fabric.delivered = s.fabric.delivered ∧
      t.fabric.transit = s.fabric.transit ∧
      t.mem = s.mem ∧ t.cores = s.cores ∧ t.parts = s.parts ∧ t.fabric.skeins = s.fabric.skeins) ∧
    (s.Delivers k p → ∀ r, r = s.received k p →
      r.fabric.delivered = s.fabric.delivered + 1 ∧ r.mem = s.mem ∧ r.cores = s.cores ∧
      ((s.part p.part.toNat).active = true → (r.part p.part.toNat).changed = true) ∧
      (∀ q, q ≠ p.part.toNat → r.part q = s.part q) ∧
      (c = .write k p ecc → exec c s = .next (r.onWrite (some k.val) p ecc)) ∧
      (c = .read k p ecc → exec c s = .next (r.onRead (some k.val) p ecc)) ∧
      (c = .tally k p → exec c s = .next (r.onTally (some k.val) p)) ∧
      (c = .fabOpen k p → exec c s = .next (r.onOpen (some k.val) p)) ∧
      (c = .fabClose k p → exec c s = .next (r.onClose (some k.val) p)) ∧
      (c = .readData k p ecc → exec c s = .next (r.onReadData (some k.val) p ecc)) ∧
      (c = .ack k p → exec c s = .next (r.onAck (some k.val) p)) ∧
      (c = .grant k p → exec c s = .next (r.onGrant (some k.val) p)) ∧
      (c = .nack k p → exec c s = .next (r.onNack (some k.val) p)))

/-- WRITE (R29, R110, R125, R289, R290, R292, R294, R295, R297, R414, R447, R484): the one packet of a transfer to a
partition that runs and accepts its source, in a context granted, stores its payload and no other byte, and is
answered with an ACK of its status; where the address may not be written, or a hold keeps it, nothing is stored; a
write whose parity fails a fourth time stops the partition; the first of several packets leaves a context; a count
that does not agree is answered with COUNT_OVERRUN; a stopped partition's packet and one without a grant, or of a
transfer that is finished, are strays; an absent partition's and one of a source that the partition does not accept
are answered with NACK; one for a partition that serves it and that meets a busy bank or a closed crossing waits at
its port. Choices of the model it rests on: entries 26, 30, 33, 34, 120 and 130. -/
def Obligations.WritesAreStoredAndAcknowledged : Prop :=
  ∀ (k : Fin 6) (p : Pkt) (ecc : Ecc) (s : State), p.isKind 1 0 = true → s.Delivers k p →
    (s.serves p = true → s.writeStalls p = true → ∃ t, exec (.write k p ecc) s = .next t ∧
      (some k.val, { p with owner := none }) ∈ t.fabric.transit ∧ t.fabric.completed = s.fabric.completed ∧
      t.mem = s.mem ∧ t.parts = (s.touchPart p.part.toNat).parts ∧ t.cores = s.cores) ∧
    (s.turnsAway p.part.toNat p.src.toNat = true →
      ∃ t q, exec (.write k p ecc) s = .next t ∧ t.fabric.transit = s.fabric.transit ++ [(none, q)] ∧ q.kind = 0xB ∧
        q.status = stPRIVILEGE ∧ q.dest = p.src ∧ t.mem = s.mem) ∧
    (s.turnsAway p.part.toNat p.src.toNat = false →
      (s.part p.part.toNat).active = false ∨ (s.grantOf p = none ∧ s.writeStalls p = false) →
      ∃ t, exec (.write k p ecc) s = .next t ∧ t.fabric.stray = s.fabric.stray + 1 ∧
        t.mem = s.mem ∧ t.fabric.transit = s.fabric.transit) ∧
    (∀ g, s.serves p = true → s.writeStalls p = false → s.grantOf p = some g →
      (∀ x ∈ s.fabric.contexts, x.isOf p false = false) →
      (p.tno.toNat ∈ (g.see p.tno.toNat).done → ∃ t, exec (.write k p ecc) s = .next t ∧
        t.fabric.stray = s.fabric.stray + 1 ∧ t.mem = s.mem ∧ t.fabric.transit = s.fabric.transit) ∧
      (p.tno.toNat ∉ (g.see p.tno.toNat).done →
        (s.fabric.contexts.filter fun x => !x.isReply && x.src == g.src && x.skein == g.skein).length < g.count →
        (p.tbytes.toNat < p.payload.length ∨ p.tpackets = 0 → ∃ t q, exec (.write k p ecc) s = .next t ∧
          t.fabric.transit = s.fabric.transit ++ [(none, q)] ∧ q.kind = 9 ∧ q.status = stOVERRUN ∧ t.mem = s.mem ∧
          t.fabric.countOverruns = s.fabric.countOverruns + 1) ∧
        (∀ st held bad, st = s.accessStatus p.part.toNat p.addr.toNat p.payload.length →
          held = meetAny [(addrLocal p.addr.toNat, p.payload.length)] (s.gatherHolds ++ s.atticHolds p.part.toNat) →
          bad = (s.accessErrors [] [(addrLocal p.addr.toNat, p.payload.length)] ecc).2 →
          (p.tpackets = 1 → p.tbytes.toNat = p.payload.length → st ≠ stDONE ∨ held = true ∨ bad = none →
            ∃ t q, exec (.write k p ecc) s = .next t ∧
            t.fabric.transit = s.fabric.transit ++ [(none, q)] ∧ q.cls = 2 ∧ q.kind = 9 ∧ q.dest = p.src ∧
            q.tno = p.tno ∧ q.skein = p.skein ∧ t.fabric.completed = s.fabric.completed + 1 ∧
            t.parts = (s.touchPart p.part.toNat).parts ∧
            q.status = (if st ≠ stDONE then st else if held then stSTALE_SHARD else stDONE) ∧
            (q.status = stDONE → ∀ a, memRead t.mem a =
              if addrLocal p.addr.toNat ≤ a ∧ a < addrLocal p.addr.toNat + p.payload.length
              then p.payload.getD (a - addrLocal p.addr.toNat) 0 else memRead s.mem a) ∧
            (q.status ≠ stDONE → t.mem = s.mem)) ∧
          (p.tpackets = 1 → p.tbytes.toNat = p.payload.length → st = stDONE → held = false → bad ≠ none →
            ∃ t q, exec (.write k p ecc) s = .next t ∧ (none, q) ∈ t.fabric.transit ∧ q.kind = 9 ∧
            q.status = stECC ∧ (t.part p.part.toNat).active = false ∧ t.links.faultTaken = s.faultsAfter 1) ∧
          (1 < p.tpackets.toNat → p.payload.length ≤ p.tbytes.toNat → st ≠ stDONE ∨ held = true ∨ bad = none →
            ∃ t x, exec (.write k p ecc) s = .next t ∧
            x ∈ t.fabric.contexts ∧ x.isOf p false = true ∧ x.packets = 1 ∧ x.bytes = p.payload.length ∧
            t.fabric.transit = s.fabric.transit))))

/-- TALLY and READ (R29, R102, R109, R110, R288, R290, R291, R297, R481, R505): the TALLY that completes a transfer
adds its increment to the tally it names in the partition, an absent core or another partition's is answered with
its status instead, and one for a core of a closed die waits; a READ of memory the partition holds is answered with
READ_DATA packets of its bytes, 256 in each, once the crossing is open and the hosts have given back its lines; one
whose bytes cannot be corrected is answered with NACK, and is a fault that stops the partition; any other is
answered with NACK. Memory does not change. Choices of the model it rests on: entries 22, 26, 30, 31, 34, 120 and
130. -/
def Obligations.TallyAndReadArePerformed : Prop :=
  ∀ (k : Fin 6) (p : Pkt) (ecc : Ecc) (s : State), s.Delivers k p → s.serves p = true →
    ∀ g, s.grantOf p = some g → p.tno.toNat ∉ (g.see p.tno.toNat).done →
    (p.isKind 1 2 = true → ∀ w : Word, w = BitVec.ofNat 32 (leAt p.payload 0 4) →
      (s.coreOpen (leAt p.payload 0 4 % 512) = false → ∃ t, exec (.tally k p) s = .next t ∧
        (some k.val, { p with owner := none }) ∈ t.fabric.transit ∧ t.mem = s.mem ∧ t.cores = s.cores) ∧
      (s.coreOpen (leAt p.payload 0 4 % 512) = true → (∀ x ∈ s.fabric.contexts, x.isOf p false = false) →
        (s.fabric.contexts.filter fun x => !x.isReply && x.src == g.src && x.skein == g.skein).length < g.count →
        p.tpackets = 1 → p.tbytes.toNat = p.payload.length → ∃ t q, exec (.tally k p) s = .next t ∧
        (none, q) ∈ t.fabric.transit ∧ q.kind = 9 ∧ q.tno = p.tno ∧
        q.status = s.tallyStatus p.part.toNat (fld w 0 9) ∧ t.mem = s.mem ∧
        (q.status = stDONE → t.tallyOf (fld w 0 9) (fld w 16 8)
          = s.tallyOf (fld w 0 9) (fld w 16 8) + BitVec.ofNat 32 (fld w 24 8)) ∧
        (q.status ≠ stDONE → ∀ c n, t.tallyOf c n = s.tallyOf c n))) ∧
    (p.isKind 1 1 = true → ∀ st a n, st = s.accessStatus p.part.toNat p.addr.toNat p.tbytes.toNat →
      a = addrLocal p.addr.toNat → n = p.tbytes.toNat →
      (st = stDONE → s.extOpen a n = false ∨ s.lineHeld a n false = true → ∃ t, exec (.read k p ecc) s = .next t ∧
        (some k.val, { p with owner := none }) ∈ t.fabric.transit ∧ t.mem = s.mem ∧ t.cores = s.cores) ∧
      (st = stDONE → s.extOpen a n = true → s.lineHeld a n false = false →
        ((s.readErrors [(a, n)] ecc).2 = none →
          ∃ t, exec (.read k p ecc) s = .next t ∧ t.mem = s.mem ∧ t.parts = (s.touchPart p.part.toNat).parts ∧
            t.fabric.transit = s.fabric.transit ++ (s.readAnswer p).map (fun q => (none, q)) ∧
            (s.readAnswer p).flatMap (·.payload) = memBytes s.mem a n ∧
            ∀ q ∈ s.readAnswer p, q.kind = 8 ∧ q.dest = p.src ∧ q.payload.length ≤ 256) ∧
        ((s.readErrors [(a, n)] ecc).2 ≠ none →
          ∃ t q, exec (.read k p ecc) s = .next t ∧ (none, q) ∈ t.fabric.transit ∧
            q.kind = 0xB ∧ q.status = stECC ∧ (t.part p.part.toNat).active = false ∧
            t.links.faultTaken = s.faultsAfter 1)) ∧
      (st ≠ stDONE → ∃ t q, exec (.read k p ecc) s = .next t ∧
        t.fabric.transit = s.fabric.transit ++ [(none, q)] ∧ q.kind = 0xB ∧ q.status = st ∧ t.mem = s.mem))

/-- OPEN, GRANT and CLOSE (R283, R285, R287, R299, R441, R447, R484): OPEN of a source the partition accepts is
answered with a GRANT of at most 16 contexts, which it then holds, and the core count of this module; CLOSE returns
them; a GRANT or a CLOSE of this module waits while route_hold is set. An absent partition or one that takes none
of the source answers with NACK, a stopped one discards. A GRANT opens the skein that waits for it; a GRANT of 0
leaves it closed, to try again. The timers of transfers (R283, R287, R295): OPEN is sent again a stitch after a
GRANT of 0; an OPEN, and a transfer whose packets have all left, without an answer for transfer_timeout stitches
lose their skein, whose number rests, and are traffic faults of their partition; a receive context that has seen no
packet as long is freed; an open skein with nothing outstanding for 16 stitches is closed. Choices of the model it
rests on: entries 6, 26, 27, 28, 30 and 86. -/
def Obligations.SkeinsAndTheirTimers : Prop :=
  (∀ (k : Fin 6) (p : Pkt) (s : State), s.Delivers k p →
    (s.turnsAway p.part.toNat p.src.toNat = true → ∀ c, (c = .fabOpen k p ∧ p.isKind 1 3 = true) ∨
        (c = .fabClose k p ∧ p.isKind 1 4 = true) →
      ∃ t q, exec c s = .next t ∧ t.fabric.transit = s.fabric.transit ++ [(none, q)] ∧ q.kind = 0xB ∧
        q.status = stPRIVILEGE ∧ t.fabric.grants = s.fabric.grants) ∧
    (s.turnsAway p.part.toNat p.src.toNat = false → (s.part p.part.toNat).active = false →
      ∀ c, (c = .fabOpen k p ∧ p.isKind 1 3 = true) ∨ (c = .fabClose k p ∧ p.isKind 1 4 = true) →
      ∃ t, exec c s = .next t ∧ t.fabric.transit = s.fabric.transit ∧ t.fabric.stray = s.fabric.stray + 1 ∧
        t.fabric.grants = s.fabric.grants) ∧
    (s.turnsAway p.part.toNat p.src.toNat = false → (s.part p.part.toNat).active = true →
      (p.isKind 1 3 = true →
        ∃ t q n, exec (.fabOpen k p) s = .next t ∧ q.kind = 0xA ∧
          (s.fabric.hold = false → t.fabric.transit = s.fabric.transit ++ [(none, q)]) ∧
          (s.fabric.hold = true → t.fabric.transit = s.fabric.transit ∧ t.fabric.held = s.fabric.held ++ [q]) ∧
          q.dest = p.src ∧ n ≤ 16 ∧ leAt q.payload 0 2 = n ∧ leAt q.payload 2 2 = s.coreCount ∧
          (0 < n → ∃ g ∈ t.fabric.grants, g.src = p.src.toNat ∧ g.skein = p.skein.toNat ∧ g.count = n) ∧
          t.mem = s.mem ∧ t.parts = (s.touchPart p.part.toNat).parts) ∧
      (p.isKind 1 4 = true → ∃ t, exec (.fabClose k p) s = .next t ∧
        (∀ g, g ∈ t.fabric.grants ↔ g ∈ s.fabric.grants ∧ ¬ (g.src = p.src.toNat ∧ g.skein = p.skein.toNat)) ∧
        t.mem = s.mem ∧ t.parts = (s.touchPart p.part.toNat).parts ∧ t.cores = s.cores ∧
        t.fabric.skeins = s.fabric.skeins)) ∧
    (∀ x, p.isKind 2 0xA = true → s.skein p.skein.toNat = some x → x.isOpen = false → x.dest = p.src.toNat →
      (leAt p.payload 0 1 = 0 → ∃ t y, exec (.grant k p) s = .next t ∧ t.skein p.skein.toNat = some y ∧
        y.isOpen = false ∧ y.retry = true ∧ y.openSentAt = s.power.ticks) ∧
      (leAt p.payload 0 1 ≠ 0 → s.fabric.hold = true ∨ s.fabric.waiting = [] → ∃ t y, exec (.grant k p) s = .next t ∧
        t.skein p.skein.toNat = some y ∧ y.isOpen = true ∧ y.granted = min (leAt p.payload 0 1) 16 ∧
        y.cores = leAt p.payload 2 2))) ∧
  (∀ (n : BitVec 12) (x : Skein) (s : State), s.skein n.toNat = some x →
    (x.retry = true → s.fabric.hold = false → x.openSentAt < s.power.ticks →
      ∃ t y q, exec (.openRetry n) s = .next t ∧ t.skein n.toNat = some y ∧
        y.retry = false ∧ t.fabric.transit = s.fabric.transit ++ [(none, q)] ∧ q.cls = 1 ∧ q.kind = 3 ∧
        t.mem = s.mem ∧ t.cores = s.cores ∧ t.parts = s.parts) ∧
    (x.retry = false ∨ s.fabric.hold = true ∨ s.power.ticks ≤ x.openSentAt → exec (.openRetry n) s = .next s) ∧
    (x.isOpen = false → x.retry = false → x.openSentAt + s.fabric.timeout.toNat ≤ s.power.ticks →
      ∃ t, exec (.openTimeout n) s = .next t ∧ (t.part x.part).active = false ∧ t.skein n.toNat = none ∧
        t.fabric.timeouts = s.fabric.timeouts + 1 ∧ t.links.faultTaken = s.faultsAfter 1 ∧
        (n.toNat, s.power.ticks + 2 * s.fabric.timeout.toNat) ∈ t.fabric.retired ∧
        ∀ c m, c ∈ s.waitingMovers x → (s.core c).mover = some m → (t.core c).mover = none) ∧
    ((x.isOpen = true ∨ x.retry = true ∨ s.power.ticks < x.openSentAt + s.fabric.timeout.toNat) →
      exec (.openTimeout n) s = .next s) ∧
    (∀ l tno, (x.live.find? fun y => y.tno == tno) = some l →
      (l.left = 0 → l.sentAt + s.fabric.timeout.toNat ≤ s.power.ticks →
        ∃ t, exec (.transferTimeout n tno) s = .next t ∧
        (t.part x.part).active = false ∧ t.skein n.toNat = none ∧ t.fabric.timeouts = s.fabric.timeouts + 1 ∧
        t.links.faultTaken = s.faultsAfter 1 ∧
        (n.toNat, s.power.ticks + 2 * s.fabric.timeout.toNat) ∈ t.fabric.retired) ∧
      (l.left ≠ 0 ∨ s.power.ticks < l.sentAt + s.fabric.timeout.toNat →
        exec (.transferTimeout n tno) s = .next s)) ∧
    (x.isOpen = true → x.live = [] → x.idleSince + 16 ≤ s.power.ticks →
      exec (.skeinIdleClose n) s = .next (s.closeSkein x).pump ∧
      (s.fabric.waiting = [] ∨ s.fabric.hold = true → ∃ t q, exec (.skeinIdleClose n) s = .next t ∧
        t.skein n.toNat = none ∧ q.cls = 1 ∧ q.kind = 4 ∧
        (s.fabric.hold = false → t.fabric.transit = s.fabric.transit ++ [(none, q)]) ∧
        (s.fabric.hold = true → t.fabric.transit = s.fabric.transit ∧ t.fabric.held = s.fabric.held ++ [q]) ∧
        t.mem = s.mem ∧ t.cores = s.cores ∧ t.parts = s.parts)) ∧
    ((x.isOpen = false ∨ x.live ≠ [] ∨ s.power.ticks < x.idleSince + 16) → exec (.skeinIdleClose n) s = .next s)) ∧
  (∀ (src : BitVec 13) (n : BitVec 12) (tno : Byte) (y : RxCtx) (s : State),
    (s.fabric.contexts.find? fun z => z.src == src.toNat && z.skein == n.toNat && z.tno == tno.toNat && !z.isReply)
      = some y →
    (y.seenAt + s.fabric.timeout.toNat ≤ s.power.ticks → ∃ t, exec (.receiveContextExpiry src n tno) s = .next t ∧
      y ∉ t.fabric.contexts ∧ t.mem = s.mem ∧ t.cores = s.cores ∧ t.parts = s.parts) ∧
    (s.power.ticks < y.seenAt + s.fabric.timeout.toNat → exec (.receiveContextExpiry src n tno) s = .next s))

/-- ACK, NACK and READ_DATA at the sender (R288, R290, R292, R297): an ACK ends the live transfer it names, and a
packet that names none is a stray; a NACK of an OPEN takes its skein away; READ_DATA lands at its address, other
bytes as they were, and its last packet ends the READ; one whose write meets parity a fourth time stops the
partition (R110). Choices of the model it rests on: entries 26, 28 and 29. -/
def Obligations.RepliesEndTransfers : Prop :=
  ∀ (k : Fin 6) (p : Pkt) (ecc : Ecc) (s : State), s.Delivers k p →
    (p.isKind 2 9 = true → s.liveOf p = none → ∃ t, exec (.ack k p) s = .next t ∧
      t.fabric.stray = s.fabric.stray + 1 ∧ t.fabric.skeins = s.fabric.skeins ∧ t.mem = s.mem ∧ t.cores = s.cores) ∧
    (∀ x l, p.isKind 2 9 = true → s.liveOf p = some (x, l) → l.xfer.isRead = false → p.status = stDONE →
      s.fabric.waiting = [] → l.core = none → ∃ t, exec (.ack k p) s = .next t ∧ t.liveOf p = none ∧
        t.mem = s.mem ∧ t.cores = s.cores ∧ t.parts = (s.touchPart p.part.toNat).parts) ∧
    (∀ x l c m, p.isKind 2 9 = true → s.liveOf p = some (x, l) → l.xfer.isRead = false → p.status = stDONE →
      s.fabric.waiting = [] → l.core = some c → (s.core c).mover = some m → m.phase = .writing → m.live = 1 →
      m.hostLive = 0 → s.partOf c ≠ none → ∃ t n, exec (.ack k p) s = .next t ∧ (t.core c).mover = some n ∧
        n.phase = .done ∧ n.chk = m.chk ∧ t.mem = s.mem) ∧
    (∀ x, p.isKind 2 0xB = true → s.skein p.skein.toNat = some x → x.dest = p.src.toNat → x.isOpen = false →
      ∃ t, exec (.nack k p) s = .next t ∧ t.skein p.skein.toNat = none ∧
        ∀ c ∈ s.waitingCores x.part x.dest, (t.core c.1).queue = (s.core c.1).queue.drop 1) ∧
    (∀ x l y, p.isKind 2 8 = true → s.liveOf p = some (x, l) →
      (s.fabric.contexts.find? fun z => z.isOf p true) = some y → y.packets = 0 → y.bytes = 0 →
      p.payload.length ≤ p.tbytes.toNat → addrModule p.addr.toNat = s.myId →
      (∀ bad, (s.accessErrors [] [(addrLocal p.addr.toNat, p.payload.length)] ecc).2 = some bad →
        0 < p.tpackets.toNat → (s.part x.part).active = true →
        ∃ t, exec (.readData k p ecc) s = .next t ∧ (t.part x.part).active = false ∧
        (t.part x.part).stopCause = stECC ∧ t.links.faultTaken = s.faultsAfter 1 ∧ t.liveOf p = none) ∧
      ((s.accessErrors [] [(addrLocal p.addr.toNat, p.payload.length)] ecc).2 = none →
        (∀ c, l.core = some c →
          s.heldAgainst c (s.gatherHoldsBut c) [(addrLocal p.addr.toNat, p.payload.length)] = none) →
        (1 < p.tpackets.toNat →
          ∃ t z, exec (.readData k p ecc) s = .next t ∧ z ∈ t.fabric.contexts ∧ z.packets = 1 ∧
          z.bytes = p.payload.length ∧ z.isReply = true ∧ ∀ a, memRead t.mem a =
            if addrLocal p.addr.toNat ≤ a ∧ a < addrLocal p.addr.toNat + p.payload.length
            then p.payload.getD (a - addrLocal p.addr.toNat) 0 else memRead s.mem a) ∧
        (p.tpackets.toNat = 1 → p.tbytes.toNat = p.payload.length → l.core = none → s.fabric.waiting = [] →
          ∃ t, exec (.readData k p ecc) s = .next t ∧ t.liveOf p = none ∧
          t.fabric.completed = s.fabric.completed + 1 ∧ ∀ a, memRead t.mem a =
            if addrLocal p.addr.toNat ≤ a ∧ a < addrLocal p.addr.toNat + p.payload.length
            then p.payload.getD (a - addrLocal p.addr.toNat) 0 else memRead s.mem a)))

/-- Routing (R263, R267, R273 to R275, R278 to R280, R442): a packet for another module leaves by a port that brings it
nearer, with one more link crossed, once credits that have come back are counted; the adaptive move takes the
productive port that has most credits of those in service with credits for the whole packet; without one it waits
in its place, and after escape_patience turns to the escape channels, in dimension order, on the low channel before
the seam and the high one after it, where it stays even while they have no credits; a packet that has crossed 63
links is discarded and counted; a packet of this module waits while a partition that goes before its own has one
that can leave. ESCAPE is that turn once the patience is over. Choices of the model it rests on: entries 26, 36,
87, 119 and 133. -/
def Obligations.PacketsAreRouted : Prop :=
  ∀ (port : Option (Fin 6)) (from' : Option Nat) (p : Pkt) (credits : List Nat) (waited : Nat) (ecc : Ecc) (s u : State),
    from' = port.map (·.val) → u = s.returnCredits credits → p.payload.length ≤ 256 →
    (from', p) ∈ s.fabric.transit → p.legal = true → s.isHere p.dest.toNat = false → s.atHead from' p = true →
    (port.isSome = true → p.hops = 63 → ∃ t, exec (.packetRoute port p credits waited ecc) s = .next t ∧
      t.fabric.hopDiscards = s.fabric.hopDiscards + 1 ∧ t.out = s.out ∧ t.mem = s.mem) ∧
    exec (.escape port p) s = exec (.packetRoute port p [] s.fabric.patience.toNat .clean) s ∧
    ((port.isSome = true → p.hops ≠ 63) →
      (port = none → ∀ x q r, (none, x) ∈ s.fabric.transit → p.owner = some q → x.owner = some r → r ≠ q →
        u.goesBefore r q = true → u.canLeave x = true →
        exec (.packetRoute port p credits waited ecc) s = .next u) ∧
      ((port = none → u.mayInject p = true) →
        ∀ a q, ((List.range 3).find? fun a => s.offsetTo a p.dest.toNat != 0) = some a →
        q = portToward a (s.offsetTo a p.dest.toNat) →
        (u.takes q p (s.escapeChannel p a) = true →
          (p.esc = true ∨ ((∀ j ∈ s.portsToward p.dest.toNat, u.takes j p 2 = false) ∧
            s.fabric.patience.toNat ≤ waited)) →
          ∃ t, exec (.packetRoute port p credits waited ecc) s = .next t ∧
            t.out = s.out ++ [.fabric q { p with channel := if s.crossedSeam p a then 1 else 0, esc := true,
                                                 hops := p.hops + 1, owner := none }] ∧
            t.mem = s.mem ∧ t.cores = s.cores) ∧
        (u.takes q p (s.escapeChannel p a) = false → p.esc = false → s.fabric.patience.toNat ≤ waited →
          (∀ j ∈ s.portsToward p.dest.toNat, u.takes j p 2 = false) →
          ∃ t, exec (.packetRoute port p credits waited ecc) s = .next t ∧
            (from', { p with esc := true }) ∈ t.fabric.transit ∧
            t.fabric.transit.length = s.fabric.transit.length ∧ t.out = s.out ∧ t.mem = s.mem ∧ t.cores = s.cores) ∧
        (p.esc = true ∧ u.takes q p (s.escapeChannel p a) = false ∨
            p.esc = false ∧ waited < s.fabric.patience.toNat ∧
              (∀ j ∈ s.portsToward p.dest.toNat, u.takes j p 2 = false) →
          ∃ t, exec (.packetRoute port p credits waited ecc) s = .next t ∧ t.fabric.transit = s.fabric.transit ∧
            t.out = s.out ∧ t.mem = s.mem ∧ t.cores = s.cores) ∧
        (p.esc = false → (∃ j ∈ s.portsToward p.dest.toNat, u.takes j p 2 = true) →
          ∃ t j, exec (.packetRoute port p credits waited ecc) s = .next t ∧
            t.out = s.out ++ [.fabric j { p with channel := 2, esc := false, hops := p.hops + 1, owner := none }] ∧
            j ∈ s.portsToward p.dest.toNat ∧ u.takes j p 2 = true ∧
            (∀ i ∈ s.portsToward p.dest.toNat, u.takes i p 2 = true →
              u.credits i ({ p with channel := 2 } : Pkt).lane ≤ u.credits j ({ p with channel := 2 } : Pkt).lane) ∧
            t.mem = s.mem ∧ t.cores = s.cores)) ∧
      ((port = none → s.mayInject p = true) →
        ∀ a q, ((List.range 3).find? fun a => s.offsetTo a p.dest.toNat != 0) = some a →
          q = portToward a (s.offsetTo a p.dest.toNat) →
          s.takes q p (s.escapeChannel p a) = true →
          (p.esc = true ∨ ∀ j ∈ s.portsToward p.dest.toNat, s.takes j p 2 = false) →
          ∃ t, exec (.escape port p) s = .next t ∧
            t.out = s.out ++ [.fabric q { p with channel := if s.crossedSeam p a then 1 else 0, esc := true,
                                                 hops := p.hops + 1, owner := none }] ∧
            t.mem = s.mem ∧ t.cores = s.cores))

/-! ### Collectives and scheduled packets -/

/-- COLLECTIVE at issue (R132, R336 to R338): each operation hands the command to the hub; a start operation takes or
resets its bucket's ledger entry, a continue operation needs one, ALL_GATHER, the operations from SCALAR on and
those of count 0 (R176) touch none; without it, or with no entry left in the pool (R441), the command runs on as
one that has missed it, is not scanned, and waits for no readiness; COMMAND_COMPLETE then ends it with LEDGER_MISS.
Choices of the model it rests on: entry 45. -/
def Obligations.CollectivesAreHandedOver : Prop :=
  ∀ (core : Fin 512) (s : State) (p : Nat) (k : Checked) (c : Instr), s.Issues p core k → k.entry.kind = 6 →
    ((c = .rsSum core ∧ k.entry.collOp = 0) ∨ (c = .rsSumCont core ∧ k.entry.collOp = 1) ∨
      (c = .rsMean core ∧ k.entry.collOp = 2) ∨ (c = .rsMeanCont core ∧ k.entry.collOp = 3) ∨
      (c = .arSum core ∧ k.entry.collOp = 4) ∨ (c = .arSumCont core ∧ k.entry.collOp = 5) ∨
      (c = .arMean core ∧ k.entry.collOp = 6) ∨ (c = .arMeanCont core ∧ k.entry.collOp = 7) ∨
      (c = .allGather core ∧ k.entry.collOp = 8) ∨ (c = .scalarSum core ∧ k.entry.collOp = 9) ∨
      (c = .scalarMax core ∧ k.entry.collOp = 10) ∨ (c = .normReduce core ∧ k.entry.collOp = 11)) →
    ((8 ≤ k.entry.collOp ∨ k.entry.count = 0 ∨ (s.ledgerOf p k.entry.bucket).isSome = true ∨ (k.entry.collOp % 2 = 0 ∧
        poolOk 4096 s.ledgerHeld (fun q => (s.part q).guar.live.ledger.toNat) p 1 = true)) →
      ∃ t r, exec c s = .next t ∧ t.coll.runs = s.coll.runs ++ [r] ∧ r.core = core.val ∧ r.part = p ∧ r.chk = k ∧
        r.miss = false ∧ r.begun = false ∧ r.due = none ∧ (t.core core).queue = (s.core core).queue.drop 1 ∧
        (t.core core).tallies = (s.core core).tallies ∧ t.mem = s.mem ∧ t.parts = s.parts ∧
        (k.entry.collOp < 8 → k.entry.count ≠ 0 → (t.ledgerOf p k.entry.bucket).isSome = true) ∧
        (k.entry.collOp < 8 → k.entry.count ≠ 0 → k.entry.collOp % 2 = 0 →
          t.ledgerOf p k.entry.bucket = some ⟨p, k.entry.bucket, 0, 0, [0, 0, 0], [0, 0, 0]⟩) ∧
        (8 ≤ k.entry.collOp ∨ k.entry.count = 0 ∨ k.entry.collOp % 2 = 1 → t.coll.ledger = s.coll.ledger)) ∧
    (k.entry.collOp < 8 → k.entry.count ≠ 0 → s.ledgerOf p k.entry.bucket = none →
      k.entry.collOp % 2 = 1 ∨ poolOk 4096 s.ledgerHeld (fun q => (s.part q).guar.live.ledger.toNat) p 1 = false →
      ∃ t r, exec c s = .next t ∧ t.coll.runs = s.coll.runs ++ [r] ∧ r.core = core.val ∧ r.part = p ∧ r.chk = k ∧
        r.miss = true ∧ r.scan = 0 ∧ r.waits = false ∧ r.status = stLEDGER_MISS ∧ r.begun = false ∧ r.due = none ∧
        t.coll.ledger = s.coll.ledger ∧ t.mem = s.mem ∧ t.parts = s.parts ∧
        (t.core core).queue = (s.core core).queue.drop 1 ∧ ∀ d n, t.tallyOf d n = s.tallyOf d n)

/-- QUARANTINE_SCAN and COLLECTIVE_DEADLINE (R318, R332, R333, R342, R505): the scan ends, once the trigger is reached,
with the first element that is not finite or with none; at the start of stitch due + deadline, and not before, a
member that is not ready is excluded late and counted, and its streams begin either way. Lines of its source that a
host owns are recalled first: the scan and the streams wait for them, and the judgement stands. Choices of the
model it rests on: entries 6, 45, 46 and 137. -/
def Obligations.ReadinessIsJudgedOnce : Prop :=
  ∀ (core : Fin 512) (n : Half) (ecc : Ecc) (s : State) (i : Nat) (r : CollRun), s.coll.runs[i]? = some r →
    ((s.coll.runs.findIdx? fun x => x.core == core.val && x.resv == n.toNat && x.scan == 1 && !x.begun) = some i →
      ((r.chk.entry.trigEnable = false ∨
          waitMet (s.tallyOf r.core r.chk.entry.trigTally) r.chk.entry.trigTarget = true) →
        (s.sourceHeld r = true → ∃ t, exec (.quarantineScan core n ecc) s = .next t ∧ t.coll = s.coll ∧
          t.mem = s.mem ∧ t.parts = s.parts ∧ t.cores = s.cores) ∧
        (s.sourceHeld r = false → (s.readErrors r.readExtents ecc).2 = none →
          ∃ t x, exec (.quarantineScan core n ecc) s = .next t ∧ t.coll.runs[i]? = some x ∧
          (match firstNonfinite r.chk.entry.collOp (s.contribution r).1 0 (s.contribution r).1.length with
            | none => x = { r with scan := 2, flags := r.flags ||| (s.contribution r).2 }
            | some e => x = { r with scan := 3, nfElem := e, flags := r.flags ||| (s.contribution r).2 }) ∧
          (∀ j, j ≠ i → t.coll.runs[j]? = s.coll.runs[j]?) ∧ t.mem = s.mem ∧ t.parts = s.parts ∧
          t.cores = s.cores)) ∧
      (r.chk.entry.trigEnable = true →
        waitMet (s.tallyOf r.core r.chk.entry.trigTally) r.chk.entry.trigTarget = false →
        exec (.quarantineScan core n ecc) s = .next s)) ∧
    (∀ q, (s.coll.runs.findIdx? fun x => x.core == core.val && x.resv == n.toNat && x.due.isSome && !x.begun
        && x.judged.isNone) = some i →
      r.due = some q → r.chk.entry.count ≠ 0 →
      ((s.part r.part).sched.pstitch < q + r.chk.entry.deadline →
        exec (.collectiveDeadline core n ecc) s = .next s) ∧
      (q + r.chk.entry.deadline ≤ (s.part r.part).sched.pstitch → s.runReady r = true → s.sourceHeld r = true →
        ∃ t, exec (.collectiveDeadline core n ecc) s = .next t ∧
          t.coll.runs[i]? = some { r with judged := some (true, false) } ∧
          t.coll.lateExclusions = s.coll.lateExclusions ∧ t.mem = s.mem ∧ t.parts = s.parts) ∧
      (q + r.chk.entry.deadline ≤ (s.part r.part).sched.pstitch → s.runReady r = false ∨ s.sourceHeld r = false →
        (s.accessErrors r.readExtents r.chk.writeExtents ecc).2 = none → r.wrong = none →
        (∀ x ∈ r.rx, x.pieces = []) → ∃ t x, exec (.collectiveDeadline core n ecc) s = .next t ∧
          t.coll.runs[i]? = some x ∧ x.begun = true ∧ x.late = (!s.runReady r && !r.miss) ∧
          t.coll.lateExclusions = s.coll.lateExclusions + (if s.runReady r || r.miss then 0 else 1)))

/-- Scheduled packets (R125, R263, R265, R271, R273, R276, R277, R280, R414): a packet of a reserved channel or kind or
with a wrong check is discarded and counted; one that no loaded pattern books is counted and stops the partitions
of its link; one that its entry passes on leaves by the entry's output with one more link crossed, at 63 links it
is discarded, and at an output out of service it is lost; a delivered SCHED_MOVE stores its payload where its
partition may write and no hold keeps it, and nowhere else, and stops the partition where its write meets parity a
fourth time (R110); a delivered COLLECTIVE packet joins the stream that its run expects. MAINT (R273, R473, R475):
a maintenance packet acts on a port from stage 3 on while it stands there; one with a wrong check or class is
discarded and counted; an identity frame in it is judged as IDENTITY judges it. Choices of the model it rests on:
entries 23, 24, 25, 35 and 83. -/
def Obligations.ScheduledAndMaintenancePackets : Prop :=
  (∀ (k : Fin 6) (p : SPkt) (landing : Nat) (ecc : Ecc) (c : Instr) (s : State),
    ((c = .schedMove k p landing ecc ∧ p.kind ≠ 0xD) ∨ (c = .collective k p ecc ∧ p.kind ≠ 0xE)) →
    p.payload.length ≤ 512 →
    ((s.link k).state ≠ 5 → exec c s = .next s) ∧
    ((s.link k).state = 5 → (2 ≤ p.channel.toNat ∨ (p.kind ≠ 0xD ∧ p.kind ≠ 0xE)) → ∃ t, exec c s = .next t ∧
      t.fabric.checkDiscards = s.fabric.checkDiscards + 1 ∧ t.mem = s.mem ∧ t.coll = s.coll ∧ t.parts = s.parts) ∧
    ((s.link k).state = 5 → p.channel.toNat < 2 → (p.kind = 0xD ∨ p.kind = 0xE) →
      (s.schedEntry p.resv.toNat p.src.toNat = none →
        ∃ t, exec c s = .next t ∧ t.fabric.schedUnmatched = s.fabric.schedUnmatched + 1 ∧
          (∀ q ∈ s.joinedParts k, (t.part q).active = false) ∧ t.links.faultTaken = s.faultsAfter 1) ∧
      (∀ q r, s.schedEntry p.resv.toNat p.src.toNat = some (q, r) →
        ((r.output < 6 ∧ (p.kind = 0xD → r.input ≠ 6)) →
          (p.hops ≠ 63 → (s.link r.output).state = 5 → ∃ t, exec c s = .next t ∧
            t.out = s.out ++ [.sched r.output { p with hops := p.hops + 1, channel := BitVec.ofNat 2 r.chOut }] ∧
            t.mem = s.mem ∧ t.coll = s.coll ∧ t.parts = s.parts) ∧
          (p.hops ≠ 63 → (s.link r.output).state ≠ 5 → ∃ t, exec c s = .next t ∧ t.out = s.out ∧ t.mem = s.mem ∧
            t.coll = s.coll ∧ t.parts = s.parts) ∧
          (p.hops = 63 → ∃ t, exec c s = .next t ∧
            t.fabric.hopDiscards = s.fabric.hopDiscards + 1 ∧ t.out = s.out ∧ t.mem = s.mem)) ∧
        ((6 ≤ r.output ∨ (p.kind = 0xD ∧ r.input = 6)) →
          (p.check ≠ p.crc → ∃ t, exec c s = .next t ∧
            t.fabric.checkDiscards = s.fabric.checkDiscards + 1 ∧ t.mem = s.mem ∧ t.coll = s.coll) ∧
          (p.check = p.crc → p.kind = 0xE → (s.part q).active = true →
            (s.accessStatus q landing p.payload.length = stDONE →
              meetAny [(addrLocal landing, p.payload.length)] (s.gatherHolds ++ s.atticHolds q) = false →
              ((s.accessErrors [] [(addrLocal landing, p.payload.length)] ecc).2 = none → ∃ t, exec c s = .next t ∧
                t.fabric.delivered = s.fabric.delivered + 1 ∧ t.parts = s.parts ∧ ∀ a, memRead t.mem a =
                  if addrLocal landing ≤ a ∧ a < addrLocal landing + p.payload.length
                  then p.payload.getD (a - addrLocal landing) 0 else memRead s.mem a) ∧
              ((s.accessErrors [] [(addrLocal landing, p.payload.length)] ecc).2 ≠ none → ∃ t, exec c s = .next t ∧
                t.fabric.delivered = s.fabric.delivered + 1 ∧ (t.part q).active = false ∧
                t.links.faultTaken = s.faultsAfter 1)) ∧
            (s.accessStatus q landing p.payload.length ≠ stDONE ∨
                meetAny [(addrLocal landing, p.payload.length)] (s.gatherHolds ++ s.atticHolds q) = true →
              ∃ t, exec c s = .next t ∧ t.fabric.delivered = s.fabric.delivered + 1 ∧ t.mem = s.mem ∧
                t.parts = s.parts)) ∧
          (∀ i j x y, p.check = p.crc → p.kind = 0xD → (s.part q).active = true →
            s.streamFor q k p.resv.toNat = some (i, j) → s.coll.runs[i]? = some x → x.rx[j]? = some y →
            x.begun = false → p.last = false → (s.accessErrors [] x.chk.writeExtents ecc).2 = none →
            ∃ t z, exec c s = .next t ∧ t.mem = s.mem ∧ t.parts = s.parts ∧
              t.coll.runs[i]? = some z ∧
              z.rx[j]? = some { y with pieces := addPiece y.pieces (p.offset.toNat, p.payload) } ∧
              ∀ l, l ≠ j → z.rx[l]? = x.rx[l]?))))) ∧
  (∀ (k : Fin 6) (p : Pkt) (s : State), p.payload.length ≤ 256 →
    ((s.link k).state.toNat < 3 ∨ 7 < (s.link k).state.toNat → exec (.maint k p) s = .next s) ∧
    (3 ≤ (s.link k).state.toNat → (s.link k).state.toNat ≤ 7 →
      (p.check ≠ p.crc ∨ p.cls ≠ 3 ∨ p.kind ≠ 0xC ∨ 2 ≤ p.channel.toNat → ∃ t, exec (.maint k p) s = .next t ∧
        t.fabric.checkDiscards = s.fabric.checkDiscards + 1 ∧ t.links = s.links ∧ t.parts = s.parts ∧ t.mem = s.mem ∧
        t.fw = s.fw)) ∧
    ((s.link k).state = 3 → p.check = p.crc → p.cls = 3 → p.kind = 0xC → p.channel.toNat < 2 →
      p.payload.length = 64 → leAt p.payload 0 1 = 1 → ∃ t u, exec (.maint k p) s = .next t ∧
        exec (.identity k p.payload) s = .next u ∧ (t.link k).state = (u.link k).state ∧
        (t.link k).good = (u.link k).good ∧ (t.link k).neighbourSerial = (u.link k).neighbourSerial))

/-! ### The Yepecy link -/

/-- A Yepecy port (R29, R110, R498, R501, R503, R528): once trained, HELLO_SEND offers the module's version until the
port is in service; the third HELLO in a row with an equal major puts it there at the lower minor, one with another
major holds it; a HELLO or a packet with a wrong check is a host link fault, which stops every partition bound to
the port and starts the port again; a port that is not trained exchanges none. RD answers with the bytes of memory
or of a register and WR stores its bytes and no other, and records an uncorrected write instead where its parity
fails a fourth time; what is refused is counted; over a crossing that a loss of lock has closed (R29) nothing comes
and nothing is answered. Choices of the model it rests on: entries 62, 67, 68, 87 and 120. -/
def Obligations.HostPortServes : Prop :=
  ∀ (k : Fin 2) (s : State),
    (s.greets k = false → exec (.helloSend k) s = .next s ∧ ∀ v, exec (.hello k v) s = .next s) ∧
    (s.greets k = true →
      (∃ t, exec (.helloSend k) s = .next t ∧
        t.out = s.out ++ [.host k (hostPacket 0xF 8 0 0 0 (leBytes 4 s.hw.stepping.hostVersion ++
          [BitVec.ofNat 8 k.val, 0, 0, 0]))] ∧
        t.mem = s.mem ∧ t.parts = s.parts ∧ t.cores = s.cores) ∧
      (∀ v c, c ≠ (helloPacket v.toNat k).check → ∃ t, exec (.hello k v (some c)) s = .next t ∧
        (t.hport k).state = 0 ∧ ∀ p < 16, s.boundTo p k = true → (t.part p).active = false) ∧
      (∀ v c, c = (helloPacket v.toNat k).check → exec (.hello k v (some c)) s = exec (.hello k v) s) ∧
      (∀ v : Word, fld v 16 16 = s.hw.stepping.hostVersion / 2 ^ 16 → (s.hport k).hellos < 2 →
        ∃ t, exec (.hello k v) s = .next t ∧ (t.hport k).hellos = (s.hport k).hellos + 1 ∧
          (t.hport k).state = (s.hport k).state ∧ t.links = s.links ∧ t.parts = s.parts) ∧
      (∀ v : Word, fld v 16 16 = s.hw.stepping.hostVersion / 2 ^ 16 → (s.hport k).hellos = 2 →
        ∃ t, exec (.hello k v) s = .next t ∧ (t.hport k).state = 3 ∧
          (t.hport k).version.toNat % 2 ^ 16 = min (fld v 0 16) (s.hw.stepping.hostVersion % 2 ^ 16) ∧
          t.parts = s.parts) ∧
      (∀ v : Word, fld v 16 16 ≠ s.hw.stepping.hostVersion / 2 ^ 16 →
        ∃ t, exec (.hello k v) s = .next t ∧ (t.hport k).state = 4 ∧ (t.hport k).hellos = 0 ∧
          t.links.faultTaken = (if (s.hport k).state = 4 then s.links.faultTaken else s.faultsAfter 1) ∧
          t.parts = s.parts)) ∧
    ((s.hport k).state = 3 →
      (∃ t, exec (.hostLinkFault k) s = .next t ∧ (t.hport k).state = 0 ∧ (t.hport k).directory = [] ∧
        (t.hport k).requests = [] ∧ (s.NoneWaits → t.links.faultTaken = s.faultsAfter 2) ∧
        ∀ p < 16, s.boundTo p k = true → (t.part p).active = false) ∧
      (∀ (p : HPkt) (e : Ecc), p.isKind 0 = true → p.check ≠ p.crc → ∃ t, exec (.rd k p e) s = .next t ∧
        (t.hport k).state = 0 ∧ (t.hport k).directory = [] ∧
        ∀ q < 16, s.boundTo q k = true → (t.part q).active = false) ∧
      (∀ (p : HPkt) (e : Ecc), p.kind = 0 → p.isKind 0 = true → p.check = p.crc →
        (∀ a, s.hostReach k (addrLocal p.addr.toNat) p.len = .memory a → (s.readErrors [(a, p.len)] e).2 = none →
          ∃ t, exec (.rd k p e) s = .next t ∧
            t.out = s.out ++ [.host k (hostPacket 8 p.len p.tag.toNat 0 0 (memBytes s.mem a p.len))] ∧
            t.mem = s.mem ∧ t.parts = s.parts ∧ t.cores = s.cores) ∧
        (∀ o, s.hostReach k (addrLocal p.addr.toNat) p.len = .register o → s.reachesBlock k (regBlockOf o).1 = true →
          exec (.rd k p e) s = .next { s with
            out := s.out ++ [.host k (hostPacket 8 4 p.tag.toNat 0 0 (leBytes 4 (s.regValue o).toNat))] }) ∧
        (s.hostReach k (addrLocal p.addr.toNat) p.len = .closed → exec (.rd k p e) s = .next s) ∧
        (s.hostReach k (addrLocal p.addr.toNat) p.len = .refused →
          ∃ t, exec (.rd k p e) s = .next t ∧ t.host.refusals = s.host.refusals + 1 ∧
            t.out = s.out ++ [.host k (hostPacket 8 0 p.tag.toNat stPRIVILEGE 0 [])] ∧ t.mem = s.mem)) ∧
      (∀ (p : HPkt) (e : Ecc), p.kind = 3 → p.isKind 3 = true → p.check = p.crc →
        (∀ a, s.hostReach k (addrLocal p.addr.toNat) p.len = .memory a → s.queuesAt k a = [] →
          ((s.accessErrors [] [(a, p.payload.length)] e).2 = none →
            ∃ t, exec (.wr k p e) s = .next t ∧ t.parts = s.parts ∧ t.out = s.out ∧
            ∀ b, memRead t.mem b = if a ≤ b ∧ b < a + p.payload.length then p.payload.getD (b - a) 0
              else memRead s.mem b) ∧
          ((s.accessErrors [] [(a, p.payload.length)] e).2 ≠ none →
            ∃ t, exec (.wr k p e) s = .next t ∧ t.parts = s.parts ∧ t.mem = s.mem ∧
              t.links.faultTaken = s.faultsAfter 1)) ∧
        (∀ o, s.hostReach k (addrLocal p.addr.toNat) p.len = .register o →
          exec (.wr k p e) s = exec (.registerWrite k (BitVec.ofNat 27 o) (BitVec.ofNat 32 (ofLe p.payload))) s) ∧
        (s.hostReach k (addrLocal p.addr.toNat) p.len = .closed → exec (.wr k p e) s = .next s) ∧
        (s.hostReach k (addrLocal p.addr.toNat) p.len = .refused → exec (.wr k p e) s = .next s.refuseHost))) ∧
    (∀ o v, o.toNat % 4 ≠ 0 → exec (.registerWrite k o v) s = .next s.refuseHost) ∧
    (∀ o v, o.toNat % 4 = 0 → s.reachesBlock k (regBlockOf o.toNat).1 = false →
      exec (.registerWrite k o v) s = .next s.refusedAccess)

/-- Lines and requests (R29, R502, R504 to R507, R510): RD_SHARED and RD_OWN of a line that may be cached answer with
its 64 bytes and record the grant; WB stores the line and drops it, and one of a line not held is refused; FENCE is
acknowledged; RECALL goes out once; an answer of the host ends the module's request it names, and the data of
H_RESP wait for the mover that asked; a RECALL or a request left unanswered is a host link fault. Choices of the
model it rests on: entries 34, 63, 68, 86 and 87. -/
def Obligations.HostLinesAndRequests : Prop :=
  ∀ (k : Fin 2) (s : State), (s.hport k).state = 3 →
    (∀ (p : HPkt) (e : Ecc) (c : Instr), p.check = p.crc →
      (p.kind = 1 ∧ p.isKind 1 = true ∧ c = .rdShared k p e) ∨ (p.kind = 2 ∧ p.isKind 2 = true ∧ c = .rdOwn k p e) →
      (addrLocal p.addr.toNat % 64 = 0 → s.cacheable k (addrLocal p.addr.toNat) = true →
        s.memOpen (addrLocal p.addr.toNat) = false → exec c s = .next s) ∧
      (addrLocal p.addr.toNat % 64 = 0 → s.cacheable k (addrLocal p.addr.toNat) = true →
        s.memOpen (addrLocal p.addr.toNat) = true → (s.hport k).canGrant (addrLocal p.addr.toNat / 64) = true →
        s.uncaching (addrLocal p.addr.toNat) = false →
        (s.readErrors [(addrLocal p.addr.toNat, 64)] e).2 = none → ∃ t, exec c s = .next t ∧
          (t.hport k).directory = (s.hport k).directory.filter (fun x => x.1 != addrLocal p.addr.toNat / 64)
            ++ [(addrLocal p.addr.toNat / 64, p.kind == 2)] ∧
          t.out = s.out ++ [.host k (hostPacket 8 64 p.tag.toNat 0 0 (memBytes s.mem (addrLocal p.addr.toNat) 64))] ∧
          t.mem = s.mem ∧ t.parts = s.parts ∧ t.cores = s.cores) ∧
      (addrLocal p.addr.toNat % 64 ≠ 0 ∨ s.cacheable k (addrLocal p.addr.toNat) = false →
        exec c s = .next (s.refuseRead k p))) ∧
    (∀ (p : HPkt) (e : Ecc), p.kind = 4 → p.isKind 4 = true → p.check = p.crc → addrLocal p.addr.toNat % 64 = 0 →
      p.payload.length = 0 ∨ p.payload.length = 64 →
      (((s.hport k).directory.any fun x => x.1 == addrLocal p.addr.toNat / 64) = true → (s.hport k).waiting = [] →
        (s.hport k).overlay = [] → s.NoneWaits →
        (s.accessErrors [] [(addrLocal p.addr.toNat, p.payload.length)] e).2 = none →
        ∃ t, exec (.wb k p e) s = .next t ∧
          (∀ x ∈ (t.hport k).directory, x.1 ≠ addrLocal p.addr.toNat / 64) ∧ t.parts = s.parts ∧ t.cores = s.cores ∧
          ∀ b, memRead t.mem b =
            if s.memOpen (addrLocal p.addr.toNat) = true ∧ addrLocal p.addr.toNat ≤ b ∧
              b < addrLocal p.addr.toNat + p.payload.length
            then p.payload.getD (b - addrLocal p.addr.toNat) 0 else memRead s.mem b) ∧
      (((s.hport k).directory.any fun x => x.1 == addrLocal p.addr.toNat / 64) = false →
        ((s.hport k).recalled.any fun x => x.1 == addrLocal p.addr.toNat / 64) = false →
        exec (.wb k p e) s = .next s.refuseHost)) ∧
    (∀ p : HPkt, p.kind = 5 → p.isKind 5 = true → p.check = p.crc → exec (.ylFence k p) s = .next { s with
      out := s.out ++ [.host k (hostPacket 0xC 0 p.tag.toNat 0 0 [])] }) ∧
    (∀ l tag, ((s.hport k).directory.any fun x => x.1 == l) = true →
      ((s.hport k).recalled.any fun x => x.1 == l) = false → (s.hport k).freshTag = some tag →
      ∃ t, exec (.recall k l) s = .next t ∧ (t.hport k).recalled = (s.hport k).recalled ++ [(l, tag.toNat)] ∧
        t.out = s.out ++ [.host k (hostPacket 9 0 tag.toNat 0 (64 * l) [])] ∧ t.mem = s.mem ∧
        ∃ u, exec (.recallTimeout k l) t = .next u ∧ (u.hport k).state = 0 ∧ (u.hport k).directory = [] ∧
          ∀ p < 16, s.boundTo p k = true → (u.part p).active = false) ∧
    (∀ (p : HPkt) (r : HostReq), p.kind = 6 → p.isKind 6 = true → p.check = p.crc →
      (s.hport k).requestOf p.tag false = some r → (∀ c m, (s.core c).mover = some m → m.hostTodo = []) →
      (s.hport k).OwesNothing →
      (r.core = none → ∃ t, exec (.hAck k p) s = .next t ∧
        (t.hport k).requests = (s.hport k).requests.filter (fun x => x.tag != r.tag) ∧ t.cores = s.cores ∧
        t.mem = s.mem) ∧
      (∀ c m, r.core = some c → (s.core c).mover = some m → 2 ≤ m.hostLive → m.status = stDONE →
        ∃ t n, exec (.hAck k p) s = .next t ∧ (t.core c).mover = some n ∧ n.hostLive = m.hostLive - 1 ∧
          n.status = (if p.status = 0 then stDONE else stPRIVILEGE) ∧ t.mem = s.mem)) ∧
    (∀ (p : HPkt) (e : Ecc) (r : HostReq) c m, p.kind = 7 → p.isKind 7 = true → p.check = p.crc →
      (s.hport k).requestOf p.tag true = some r → r.core = some c → (s.core c).mover = some m →
      p.status = 0 → p.payload.length < r.len → ∃ t n, exec (.hResp k p e) s = .next t ∧ (t.core c).mover = some n ∧
        n.hostLive = m.hostLive ∧ t.mem = s.mem ∧ ∀ i < p.payload.length,
          Sparse.find n.staging (s.hostGlobal k r.addr + i) = some (p.payload.getD i 0)) ∧
    (∀ tag : BitVec 12, ((s.hport k).requests.any fun r => r.tag == tag.toNat) = true →
      ∃ t, exec (.hostTimeout k tag) s = .next t ∧ (t.hport k).state = 0 ∧ (t.hport k).requests = [] ∧
        ∀ p < 16, s.boundTo p k = true → (t.part p).active = false)

/-- Doorbells, interrupts and host queues (R511 to R514, R516, R524, R525, R527): a doorbell adds its value to the
tally it is bound to; a cause becomes pending on every vector that selects it, and the end of a coalescing period
sends what is still pending, once a tag is free; HQ_COMMIT makes the queue empty under its new registers, and opens
one that was disabled; a flush discards what is undelivered, and opens one that is stopped or stranded; a queue
idle too long is stranded. Choices of the model it rests on: entries 6, 64, 65, 66, 67 and 92. -/
def Obligations.DoorbellsInterruptsAndQueues : Prop :=
  ∀ (k : Fin 2) (s : State),
    (∀ (n : BitVec 6) (v : Word),
      (∀ b : Word, b = Sparse.get 0 (s.hport k).dbBind n.toNat → bit b 31 = true → s.bindOk k b = true →
        s.coreOpen (bindCore b) = true → fld v 0 8 ≠ 0 → ∃ t, exec (.doorbell k n v) s = .next t ∧ t.mem = s.mem ∧
          t.tallyOf (bindCore b) (bindTally b) = s.tallyOf (bindCore b) (bindTally b) + BitVec.ofNat 32 (fld v 0 8) ∧
          ∀ c m, (c, m) ≠ (bindCore b, bindTally b) → t.tallyOf c m = s.tallyOf c m) ∧
      (bit (Sparse.get 0 (s.hport k).dbBind n.toNat) 31 = false → exec (.doorbell k n v) s = .next s) ∧
      (s.bindOk k v = true → ∃ t, exec (.dbBind k n v) s = .next t ∧
        Sparse.get 0 (t.hport k).dbBind n.toNat = v &&& 0x9FFFF00F ∧ t.parts = s.parts ∧ t.cores = s.cores ∧
        t.mem = s.mem) ∧
      (s.bindOk k v = false → exec (.dbBind k n v) s = .next s.refusedAccess)) ∧
    (∀ (p : Fin 16) (c : Fin 6), s.boundTo p k = true → ∃ t, exec (.interrupt p c) s = .next t ∧
      t.parts = s.parts ∧ t.cores = s.cores ∧ t.mem = s.mem ∧ ∀ v x y, x = Sparse.get IVec.reset (s.hport k).vecs v →
        y = Sparse.get IVec.reset (t.hport k).vecs v → y.causes = x.causes ∧
        y.pending = if bit x.causes (16 + p.val) && bit x.causes c.val then x.pending ||| 1 <<< c.val
          else x.pending) ∧
    (∀ (v : Fin 32) (x : IVec) (at_ : Nat), x = Sparse.get IVec.reset (s.hport k).vecs v.val → x.sentAt = some at_ →
      (s.power.ticks < at_ + x.coalesce.toNat → exec (.coalesceExpiry k v) s = .next s) ∧
      (at_ + x.coalesce.toNat ≤ s.power.ticks → x.fresh &&& x.pending = 0 →
        ∃ t, exec (.coalesceExpiry k v) s = .next t ∧ t.out = s.out ∧
          (Sparse.get IVec.reset (t.hport k).vecs v.val).sentAt = none) ∧
      (∀ tag, at_ + x.coalesce.toNat ≤ s.power.ticks → x.fresh &&& x.pending ≠ 0 → (s.hport k).state = 3 →
        (s.hport k).freshTag = some tag → ∃ t, exec (.coalesceExpiry k v) s = .next t ∧
          t.out = s.out ++ [.host k (hostPacket 0xB 4 tag.toNat 0 (x.addr.toNat % 2 ^ 46) (leBytes 4 x.data.toNat))] ∧
          (Sparse.get IVec.reset (t.hport k).vecs v.val).sentAt = some s.power.ticks) ∧
      (at_ + x.coalesce.toNat ≤ s.power.ticks → x.fresh &&& x.pending ≠ 0 → (s.hport k).state = 3 →
        (s.hport k).freshTag = none → ∃ t, exec (.coalesceExpiry k v) s = .next t ∧ t.out = s.out ∧
          (Sparse.get IVec.reset (t.hport k).vecs v.val).owed = true)) ∧
    (∀ q : Fin 32, s.queueReached k q = true →
      (s.queueStatus k (s.hqueue k q) = stDONE → ∃ t, exec (.hqCommit k q) s = .next t ∧
        (t.hqueue k q).base.live = (s.hqueue k q).base.sh ∧ (t.hqueue k q).size.live = (s.hqueue k q).size.sh ∧
        (t.hqueue k q).bind.live = (s.hqueue k q).bind.sh ∧ (t.hqueue k q).commitStatus = stDONE ∧
        (t.hqueue k q).state = (if fld (s.hqueue k q).size.sh 0 5 = 0 then 0
          else if (s.hqueue k q).state = 0 then 1 else (s.hqueue k q).state) ∧
        (t.hqueue k q).fill = 0 ∧ (t.hqueue k q).items = [] ∧ (t.hqueue k q).counts = [] ∧
        (t.hqueue k q).delivered = 0 ∧ (t.hqueue k q).released = 0 ∧
        (∀ j, j ≠ q.val → t.hqueue k j = s.hqueue k j) ∧ t.mem = s.mem ∧ t.parts = s.parts) ∧
      (s.queueStatus k (s.hqueue k q) ≠ stDONE → exec (.hqCommit k q) s = .next (s.updQueue k q fun x =>
        { x with commitStatus := s.queueStatus k (s.hqueue k q) })) ∧
      ((s.hqueue k q).state ≠ 0 → ∃ t, exec (.hqFlush k q) s = .next t ∧ (t.hqueue k q).counts = [] ∧
        (t.hqueue k q).slots = [] ∧ (t.hqueue k q).items = (s.hqueue k q).items ∧
        (t.hqueue k q).state = (if (s.hqueue k q).state = 2 ∨ (s.hqueue k q).state = 3 then 1
          else (s.hqueue k q).state) ∧ t.mem = s.mem ∧ t.parts = s.parts) ∧
      ((s.hqueue k q).state = 0 → exec (.hqFlush k q) s = .next s)) ∧
    (∀ q : Fin 32, s.queueReached k q = false →
      exec (.hqCommit k q) s = .next s ∧ exec (.hqFlush k q) s = .next s) ∧
    (∀ q : Fin 32, (s.hqueue k q).state = 1 → (s.hqueue k q).counts ≠ [] →
      ((s.hqueue k q).lastWr + s.host.hqIdle.toNat ≤ s.power.ticks →
        ∃ t, exec (.hqIdleTimeout k q) s = .next t ∧ (t.hqueue k q).state = 3 ∧ (t.hqueue k q).counts = [] ∧
          (t.hqueue k q).items = (s.hqueue k q).items ∧ t.mem = s.mem ∧ t.parts = s.parts) ∧
      (s.power.ticks < (s.hqueue k q).lastWr + s.host.hqIdle.toNat → exec (.hqIdleTimeout k q) s = .next s))

/-! ### Management -/

/-- Requests over the network (R535, R539 to R544, R546, R549, R551, R555, R560, R591): a frame with a wrong FCS or
length is counted as an error; one that is tagged, carries an extension header or is for another node, and a
datagram with a wrong checksum or for another port, are discarded; a request with a wrong magic, version or length,
of fewer than 28 bytes, or that finds sixteen waiting is counted and dropped; one that comes while a handover
pauses the controller waits; one of another opcode is malformed; one sent again is answered from what was kept; a
source not on the list is refused outside 0x1000; DESCRIBE answers with the entry's row, READ with its value, WRITE
of power_limit sets it within its range, a WRITE of an entry that is not writable is refused, ABORT ends the
requester's sessions of the entry. An answer leaves from an address in use, or not at all. Choices of the model it
rests on: entries 71, 72, 93 and 121. -/
def Obligations.ManagementRequests : Prop :=
  ∀ (d : Dgram) (r : AReq) (s : State),
    (∀ n op form c, (n = 1 ∧ c = Instr.asrelRead (.net d) r form) ∨ (n = 2 ∧ c = Instr.asrelWrite (.net d) r form) ∨
        (n = 3 ∧ c = Instr.describe (.net d) r form) ∨ (n = 4 ∧ c = Instr.asrelAbort (.net d) r form) →
      op = form.opcodeOr n →
      (s.served = false → exec c s = .next s) ∧
      (s.served = true → d.frame.fcs ≠ d.frame.crc ∨ d.frame.length < 64 ∨ 1518 < d.frame.length →
        exec c s = .next (s.updMgmt fun m => { m with frameErrors := m.frameErrors + 1 })) ∧
      (s.served = true → d.frame.fcs = d.frame.crc → 64 ≤ d.frame.length → d.frame.length ≤ 1518 →
        (d.frame.tagged = true → exec c s = .next s) ∧
        (d.frame.tagged = false → d.frame.extended = true ∨ s.reachesMe d.frame.dest = false →
          exec c s = .next (s.updMgmt fun m => { m with framesRx := m.framesRx + 1 }))) ∧
      (s.Hears d.frame → s.discardsDgram d = true →
        exec c s = .next (s.updMgmt fun m => { m with framesRx := m.framesRx + 1 })) ∧
      (s.Hears d.frame → s.discardsDgram d = false → form.short = true ∨ droppedReq r = true ∨ 16 ≤ s.netWaiting →
        exec c s = .next (s.updMgmt fun m => { m with framesRx := m.framesRx + 1, dropped := m.dropped + 1 })) ∧
      (s.Hears d.frame → s.discardsDgram d = false → form.short = false → droppedReq r = false → s.netWaiting < 16 →
        s.fw.paused = true → exec c s = .next (s.updMgmt fun m => { m with
          framesRx := m.framesRx + 1, queue := m.queue ++ [{ path := .net d, opcode := op, req := r }] })) ∧
      (∀ k rest, s.Hears d.frame → s.discardsDgram d = false → form.short = false → droppedReq r = false →
        s.netWaiting < 16 → s.fw.paused = false →
        s.mgmt.kept = (d.frame.source, [k]) :: rest → k.reqId = r.reqId → k.opcode = op →
        k.index = r.index → k.sub = r.sub → ∃ t, exec c s = .next t ∧
          t.out = s.out ++ s.answerOf d k.answer ∧ t.parts = s.parts ∧ t.power = s.power ∧ t.cores = s.cores ∧
          t.mem = s.mem) ∧
      (s.Hears d.frame → s.discardsDgram d = false → form.short = false → droppedReq r = false →
        s.netWaiting < 16 → s.fw.paused = false → s.mgmt.kept = [] →
        (malformedReq r op = true → ∃ t, exec c s = .next t ∧ t.out = s.out ++ s.answerOf d (responseTo r op
          { status := stCONFIG, reason := 13, typ := 0, data := [], total := none }) ∧ t.parts = s.parts ∧
          t.power = s.power ∧ t.mem = s.mem) ∧
        (malformedReq r op = false → s.permitted (.net d) op r.index.toNat = false → ∃ t, exec c s = .next t ∧
          t.out = s.out ++ s.answerOf d (responseTo r op
            { status := stPRIVILEGE, reason := 11, typ := 0, data := [], total := none }) ∧ t.parts = s.parts ∧
          t.power = s.power ∧ t.mem = s.mem))) ∧
    (s.Hears d.frame → s.discardsDgram d = false → droppedReq r = false → s.netWaiting < 16 → s.fw.paused = false →
      s.mgmt.kept = [] → s.inRecovery = false →
      ∀ e, s.mgmt.net.live.used = [] ∨ d.frame.source ∈ s.mgmt.net.live.used →
        rowOf r.index.toNat r.sub.toNat = some e →
        (malformedReq r 3 = false → ∃ t, exec (.describe (.net d) r) s = .next t ∧
          t.out = s.out ++ s.answerOf d (responseTo r 3 (describeEntry e r.index.toNat r.sub.toNat)) ∧
          t.parts = s.parts ∧ t.power = s.power ∧ t.mem = s.mem) ∧
        (∀ u v, malformedReq r 1 = false → e.access ≠ .wo → r.offset = 0 →
          isBlock (e.typeAt r.index.toNat r.sub.toNat) = false →
          u = s.updMgmt (fun m => { m with framesRx := m.framesRx + 1, kept := [(d.frame.source, [])] }) →
          v = u.value (r.flags == 1 && e.group) r.index.toNat r.sub.toNat →
          ∃ t, exec (.asrelRead (.net d) r) s = .next t ∧
            t.out = s.out ++ s.answerOf d (responseTo r 1
              ⟨stDONE, 0, typeCode (e.typeAt r.index.toNat r.sub.toNat), v.take 1024, some v.length⟩) ∧
            t.parts = s.parts ∧ t.power = s.power ∧ t.mem = s.mem) ∧
        (malformedReq r 2 = false → e.access = .ro ∨ e.access = .const →
          ∃ t, exec (.asrelWrite (.net d) r) s = .next t ∧
            t.out = s.out ++ s.answerOf d (responseTo r 2
              { status := stCONFIG, reason := 2, typ := 0, data := [], total := none }) ∧
            t.parts = s.parts ∧ t.power = s.power ∧ t.mem = s.mem) ∧
        (∀ w : Word, malformedReq r 2 = false → r.index = 0x1300 → r.sub = 6 → r.offset = 0 → r.dataBytes = 4 →
          r.total = 4 → r.data = leBytes 4 w.toNat → ∃ t, exec (.asrelWrite (.net d) r) s = .next t ∧
            t.power = (if 1000 ≤ w.toNat ∧ w.toNat ≤ 2600
              then { s.power with limit := w, limitWas := s.limitNow, limitAt := s.powerWindow } else s.power) ∧
            t.parts = s.parts ∧ t.cores = s.cores ∧ t.mem = s.mem) ∧
        (malformedReq r 4 = false → ∃ t, exec (.asrelAbort (.net d) r) s = .next t ∧
          (∀ x ∈ t.mgmt.sessions, x.is (.net d) r.index r.sub = false) ∧
          (∀ x ∈ s.mgmt.sessions, x.is (.net d) r.index r.sub = false → x ∈ t.mgmt.sessions) ∧
          t.parts = s.parts ∧ t.power = s.power ∧ t.mem = s.mem))

/-- The mailbox and the timers of management (R551, R553, R557 to R559): a request of 28 to 1052 bytes is carried out
and its response stands in the mailbox; one submitted while a handover pauses the controller waits (R591); one
submitted while a response stands there, or of another length, is refused; MB_CLEAR clears its bit alone; a
snapshot and a session expire one at a time. The IPv6 node (R535, R536, R538, R539, R561, R566): NET_COMMIT puts a
legal group into force, and a changed address leaves use while its duplicate detection runs; it enters use where 1
s passes, and stays unused where a solicitation or an advertisement shows it in use; a solicitation for an address
in use and an echo request to one are answered; a module that serves no management hears none of them. Choices of
the model it rests on: entries 6, 69, 70, 73, 74, 86 and 93. -/
def Obligations.MailboxAndNode : Prop :=
  (∀ (k : Fin 2) (s : State),
    (∀ v : Word, (s.hport k).state = 3 → s.served = true →
      (∀ op r, 28 ≤ fld v 0 11 → fld v 0 11 ≤ 1052 → (s.hport k).mbox.busy = false → (s.hport k).mbox.ready = false →
        parseRequest ((s.hport k).mbox.frame (fld v 0 11)) = (op, r) → op = 1 ∨ op = 3 → s.fw.paused = false →
        ∃ t, exec (.mbSubmit k v) s = .next t ∧ (t.hport k).mbox.ready = true ∧ (t.hport k).mbox.busy = false ∧
          leAt (t.hport k).mbox.response 3 1 = op + 128 ∧ leAt (t.hport k).mbox.response 4 4 = r.reqId.toNat ∧
          leAt (t.hport k).mbox.response 8 2 = r.index.toNat ∧ t.out = s.out ∧ t.parts = s.parts ∧
          t.cores = s.cores ∧ t.mem = s.mem) ∧
      (∀ op r, 28 ≤ fld v 0 11 → fld v 0 11 ≤ 1052 → (s.hport k).mbox.busy = false → (s.hport k).mbox.ready = false →
        parseRequest ((s.hport k).mbox.frame (fld v 0 11)) = (op, r) → s.fw.paused = true →
        ∃ t, exec (.mbSubmit k v) s = .next t ∧ (t.hport k).mbox.busy = true ∧
          t.mgmt.queue = s.mgmt.queue ++ [{ path := .mailbox k, opcode := op, req := r }] ∧ t.parts = s.parts ∧
          t.cores = s.cores ∧ t.mem = s.mem) ∧
      (28 ≤ fld v 0 11 → fld v 0 11 ≤ 1052 → (s.hport k).mbox.busy = true ∨ (s.hport k).mbox.ready = true →
        exec (.mbSubmit k v) s = .next (s.updHport k fun h => { h with mbox := { h.mbox with refused := true } })) ∧
      (fld v 0 11 < 28 ∨ 1052 < fld v 0 11 →
        exec (.mbSubmit k v) s = .next (s.updHport k fun h => { h with mbox := { h.mbox with refused := true } }))) ∧
    (∃ t, exec (.mbClearReady k) s = .next t ∧ (t.hport k).mbox = { (s.hport k).mbox with ready := false } ∧
      (∀ j, j ≠ k.val → t.hport j = s.hport j) ∧ t.parts = s.parts ∧ t.mem = s.mem) ∧
    (∃ t, exec (.mbClearRefused k) s = .next t ∧ (t.hport k).mbox = { (s.hport k).mbox with refused := false } ∧
      (∀ j, j ≠ k.val → t.hport j = s.hport j) ∧ t.parts = s.parts ∧ t.mem = s.mem) ∧
    (∀ n : Fin 4, exec (.snapshotExpiry n) s = .next { s with mgmt := { s.mgmt with
        snapshots := s.mgmt.snapshots.eraseIdx n } } ∧
      exec (.sessionExpiry n) s = .next { s with mgmt := { s.mgmt with sessions := s.mgmt.sessions.eraseIdx n } })) ∧
  (∀ (s : State),
    (∀ path, netCommitStatus s.mgmt.net.sh path ≠ stDONE → exec (.netCommit path) s = .next { s with
      mgmt := { s.mgmt with netStatus := netCommitStatus s.mgmt.net.sh path } }) ∧
    (∀ path, netCommitStatus s.mgmt.net.sh path = stDONE → ∃ t, exec (.netCommit path) s = .next t ∧
      t.mgmt.net.live = s.mgmt.net.sh ∧ t.mgmt.netStatus = stDONE ∧
      (s.mgmt.net.sh.unicast = s.mgmt.net.live.unicast → t.out = s.out ∧ t.mgmt.addrState = s.mgmt.addrState) ∧
      (s.mgmt.net.sh.unicast ≠ s.mgmt.net.live.unicast → bit t.mgmt.addrState 1 = false ∧
        (t.mgmt.detecting = true ↔ ∃ b ∈ s.mgmt.net.sh.unicast, b ≠ 0) ∧
        (t.mgmt.detecting = true → t.out = s.out ++ [.solicit t.access s.mgmt.net.sh.unicast]))) ∧
    (s.mgmt.detecting = true → ∃ t, exec .dadTimeout s = .next t ∧ t.mgmt.detecting = false ∧
      bit t.mgmt.addrState 1 = true ∧ t.mgmt.net = s.mgmt.net) ∧
    (s.mgmt.detecting = false → exec .dadTimeout s = .next s) ∧
    (∀ (f : Frame) (target data : List Byte) (ident : Word) (c : Instr),
      c = .neighborSolicitation f target ∨ c = .neighborAdvertisement ⟨f, target⟩ ∨ c = .icmpEchoRequest f ident data →
      (s.served = false → exec c s = .next s) ∧
      (s.served = true → f.fcs = f.crc → 64 ≤ f.length → f.length ≤ 1518 → f.tagged = false →
        f.extended = true ∨ s.reachesMe f.dest = false →
        exec c s = .next (s.updMgmt fun m => { m with framesRx := m.framesRx + 1 }))) ∧
    (∀ f : Frame, s.Hears f →
      (∀ target, s.mgmt.detecting = false → s.addressInUse target = true →
        ∃ t, exec (.neighborSolicitation f target) s = .next t ∧ t.out = s.out ++ [.advertise s.access target] ∧
          t.mgmt.framesRx = s.mgmt.framesRx + 1 ∧ t.mgmt.framesTx = s.mgmt.framesTx + 1 ∧
          t.mgmt.addrState = s.mgmt.addrState) ∧
      (s.mgmt.detecting = true → (∀ b ∈ f.source, b = 0) →
        ∃ t, exec (.neighborSolicitation f s.mgmt.net.live.unicast) s = .next t ∧ t.mgmt.detecting = false ∧
          bit t.mgmt.addrState 1 = false ∧ bit t.mgmt.addrState 2 = true ∧ t.out = s.out) ∧
      (s.mgmt.detecting = true → ∃ t, exec (.neighborAdvertisement ⟨f, s.mgmt.net.live.unicast⟩) s = .next t ∧
        t.mgmt.detecting = false ∧ bit t.mgmt.addrState 1 = false ∧ bit t.mgmt.addrState 2 = true ∧ t.out = s.out) ∧
      (∀ ident data, ∃ t, exec (.icmpEchoRequest f ident data) s = .next t ∧
        t.out = s.out ++ [.echoIcmp s.access f.source ident data] ∧ t.mgmt.framesTx = s.mgmt.framesTx + 1)))

/-! ### Firmware -/

/-- Images and their activation (R572, R575, R576, R581, R582, R588 to R592, R598): a write to an image store puts its
bytes there unless the region runs, is received or is whole; erasing empties a region; RECONSTRUCT makes the slot
that is not running from the checked difference and the running image, and judges it, and a difference from another
image fails with IMAGE_BASE_MISMATCH; ACTIVATE asks for a handover or a trial boot; HANDOVER may first pause the
controller; one that succeeds runs and confirms the target, one that fails leaves the old firmware running, and
what the pause held back is written. Choices of the model it rests on: entries 6, 77, 79, 80, 142 and 144. -/
def Obligations.ImagesAndActivation : Prop :=
  ∀ (s : State),
    (∀ (i : Fin 3) off total data,
      (s.runs i = true ∨ (i = 2 ∧ s.mayReconstruct = false) ∨ (s.slot i).filling = 2 ∨ 1 < (s.slot i).state ∨
          data = [] ∨ 1024 < data.length ∨ imageBytesOk total = false ∨ total < off + data.length →
        exec (.imageStoreWrite i off total data) s = .next s) ∧
      (s.runs i = false → (i = 2 → s.mayReconstruct = true) → (s.slot i).filling ≠ 2 → (s.slot i).state ≤ 1 →
        data ≠ [] → data.length ≤ 1024 → imageBytesOk total = true → off + data.length ≤ total →
        ((s.slot i).state = 1 → (s.slot i).total = total) → (s.slot i).factory = false → (s.slot i).fixed = [] →
        (∀ b ∈ blocksAt off data.length, ((s.slot i).place off data).arrived b = false) →
        ∃ t, exec (.imageStoreWrite i off total data) s = .next t ∧ (t.slot i).state = 1 ∧ (t.slot i).filling = 1 ∧
          (t.slot i).total = total ∧ t.hw = s.hw ∧ (∀ j, j ≠ i.val → t.slot j = s.slot j) ∧
          ∀ o, (t.slot i).byte o =
            if off ≤ o ∧ o < off + data.length then data.getD (o - off) 0 else (s.slot i).byte o) ∧
      (s.runs i = true ∨ (s.slot i).filling = 2 → exec (.erase i) s = .next s) ∧
      (s.runs i = false → (s.slot i).filling ≠ 2 → ∃ t, exec (.erase i) s = .next t ∧ t.slot i = Slot.reset ∧
        (∀ j, j ≠ i.val → t.slot j = s.slot j) ∧ t.hw = s.hw)) ∧
    ((s.slot 2).state ≠ 2 → exec .reconstruct s = .next s) ∧
    ((s.slot 2).state = 2 → s.mayReconstruct = true → (s.slot s.spareSlot).state ≠ 1 →
      ((s.slot 2).bytes 32 64 ≠ (s.slot s.fw.running).digest → ∃ t, exec .reconstruct s = .next t ∧
        (t.slot 2).state = 5 ∧ (t.slot 2).status = stBASE_MISMATCH ∧ ∀ j, j ≠ 2 → t.slot j = s.slot j) ∧
      ((s.slot 2).bytes 32 64 = (s.slot s.fw.running).digest →
        operations (s.slot 2) (s.slot s.fw.running) = none → ∃ t, exec .reconstruct s = .next t ∧
          (t.slot s.spareSlot).state = 5 ∧ ∀ j, j ≠ s.spareSlot → t.slot j = s.slot j) ∧
      (∀ ops, (s.slot 2).bytes 32 64 = (s.slot s.fw.running).digest →
        operations (s.slot 2) (s.slot s.fw.running) = some ops → ∃ t, exec .reconstruct s = .next t ∧
          (t.slot s.spareSlot).total = ops.length * 65536 ∧
          (t.slot s.spareSlot).data = (product (s.slot 2) (s.slot s.fw.running) ops).data ∧
          (t.slot s.spareSlot).state = (if s.checkImage (product (s.slot 2) (s.slot s.fw.running) ops) 0 = stDONE
            then 2 else 5) ∧ ∀ j, j ≠ s.spareSlot → t.slot j = s.slot j)) ∧
    (s.inRecovery = true → exec .activateLive s = .next s) ∧
    (s.inRecovery = false → (s.slot s.spareSlot).state = 2 → (s.slot s.spareSlot).filling = 0 →
      (s.slot s.spareSlot).le 24 2 ≤ s.handoverOut → s.handoverOut ≤ (s.slot s.spareSlot).le 26 2 →
      exec .activateLive s = .next { s with fw := { s.fw with handoverTo := some s.spareSlot } }) ∧
    (s.inRecovery = false → (s.slot s.spareSlot).state ≠ 2 →
      exec .activateLive s = .next { s with fw := { s.fw with activateStatus := stHANDOVER } } ∧
      exec .activateAtReset s = .next s) ∧
    (s.inRecovery = false → (s.slot s.spareSlot).state = 2 → ∃ t, exec .activateAtReset s = .next t ∧
      (t.slot s.spareSlot).state = 3 ∧ t.fw.active = s.spareSlot ∧ t.fw.trials = 0 ∧ t.fw.running = s.fw.running ∧
      t.fw.activateStatus = stDONE) ∧
    (s.fw.handoverTo = none ∨ s.quiescent = false →
      (∀ ok, exec (.handover ok true) s = .next s) ∧ (s.fw.paused = false → ∀ ok, exec (.handover ok) s = .next s)) ∧
    (∀ i, s.fw.handoverTo = some i → s.quiescent = true → ∀ ok,
      exec (.handover ok true) s = .next { s with fw := { s.fw with paused := true } }) ∧
    (∀ i, s.fw.handoverTo = some i →
      (s.fw.paused = false ∧ s.quiescent = true) ∨ (s.fw.paused = true ∧ s.mgmt.queue = []) →
      ((s.slot i).state = 2 → s.checkImage (s.slot i) 0 = stDONE → ∃ t, exec (.handover true) s = .next t ∧
        t.fw.running = i ∧ t.fw.active = i ∧ (t.slot i).state = 4 ∧ t.fw.handovers = s.fw.handovers + 1 ∧
        t.fw.handoverTo = none ∧ t.fw.paused = false ∧ t.links.held = [] ∧
        t.links.faultTaken = s.links.faultTaken + BitVec.ofNat 32 s.links.held.length ∧
        t.parts = s.parts ∧ t.cores = s.cores ∧ t.mem = s.mem) ∧
      (∃ t, exec (.handover false) s = .next t ∧ t.fw.running = s.fw.running ∧ t.fw.active = s.fw.active ∧
        (t.slot i).state = 5 ∧ t.fw.rolledBack = s.fw.rolledBack + 1 ∧ t.fw.activateStatus = stHANDOVER ∧
        t.fw.paused = false ∧ t.hw = s.hw ∧ t.parts = s.parts ∧ t.mem = s.mem))

/-- Distribution (R267, R299, R583 to R587): an OFFER of the upstream begins to fill the slot that is not running and
is answered with a NEED for every block, any other with an ABORT; OFFER_SEND offers what the module holds; a NEED
is noted and its blocks are sent; a PART puts its 128 bytes in place; without progress the NEED goes out again; an
ABORT of the upstream or its silence ends the reception in failure. A frame leaves by its port at once where the
route hold and the credits let it, and waits there otherwise. Choices of the model it rests on: entries 6, 81, 83
and 86. -/
def Obligations.DistributionFrames : Prop :=
  ∀ (k : Fin 6) (f : List Byte) (s : State), (s.link k).state = 5 →
    (f.length = 80 →
      (s.fw.distEnable = 0 ∨ s.fw.distUp.toNat ≠ k → ∃ t, exec (.offer k f) s = .next t ∧
        s.Hands t k ([0x13, 2, 0, 0] ++ offerDigest f) ∧ t.fw = s.fw ∧ t.mem = s.mem ∧ t.parts = s.parts) ∧
      (s.fw.distEnable = 1 → s.fw.distUp.toNat = k → s.distSlot.filling = 0 → 1 ≤ offerCount f →
        offerCount f ≤ 256 → s.distSlot.state ≠ 2 → ∃ t, exec (.offer k f) s = .next t ∧
          t.distSlot.filling = 2 ∧ t.distSlot.state = 1 ∧ t.distSlot.total = offerCount f * 65536 ∧ t.fw.offer = f ∧
          t.fw.distState = 1 ∧ s.Hands t k (needFrame (List.range (offerCount f)) (offerDigest f)) ∧
          t.fw.running = s.fw.running)) ∧
    (s.offerFrame = none → exec .offerSend s = .next s) ∧
    (∀ o, s.offerFrame = some o → ∃ t, exec .offerSend s = .next t ∧ t.fw = s.fw ∧ t.mem = s.mem ∧ t.parts = s.parts ∧
      ∀ j ∈ s.downPorts, Sparse.find s.fw.wanted j ≠ some [] → ∀ p, p = maintPacket (s.neighbourOf j) s.myId o →
        (s.maintRoom j p.flits = true → Out.fabric j p ∈ t.out) ∧
        (s.maintRoom j p.flits = false → Out.fabric j p ∈ t.fabric.maintWaiting)) ∧
    (∀ o w, f.length = 100 → s.offerFrame = some o → offerDigest o = takeAt f 36 64 → k.val ∈ s.downPorts →
      w = (List.range 256).filter (fun b => (leAt f 4 32).testBit b) → ∃ t, exec (.need k f) s = .next t ∧
        Sparse.find t.fw.wanted k = some w ∧ Sparse.find t.fw.window k = some (leAt f 1 1) ∧
        t.fw.slots = s.fw.slots ∧ t.mem = s.mem ∧ t.parts = s.parts ∧
        (s.receiving = false → Sparse.find s.fw.sent k = none → ∀ b ∈ w, b ≤ w.headD 0 + leAt f 1 1 →
          ∀ x ∈ partFrames s.distSlot s.distSlot.digest b, ∀ p, p = maintPacket (s.neighbourOf k) s.myId x →
            Out.fabric k p ∈ t.out ∨ Out.fabric k p ∈ t.fabric.maintWaiting)) ∧
    (s.receiving = true → s.fw.distUp.toNat = k →
      (∃ t, exec .needProgressTimeout s = .next t ∧
        s.Hands t k (needFrame s.missingBlocks (offerDigest s.fw.offer)) ∧ t.fw = s.fw) ∧
      (f.length = 144 → takeAt f 8 8 = (offerDigest s.fw.offer).take 8 → leAt f 2 2 < offerCount s.fw.offer →
        leAt f 4 2 < 512 → s.distSlot.factory = false → leAt f 2 2 ∉ s.distSlot.fixed →
        (s.distSlot.place (65536 * leAt f 2 2 + 128 * leAt f 4 2) (takeAt f 16 128)).arrived (leAt f 2 2) = false →
        ∃ t, exec (.part k f) s = .next t ∧ t.distSlot.fixed = s.distSlot.fixed ∧ t.out = s.out ∧
          ∀ o, t.distSlot.byte o = if 65536 * leAt f 2 2 + 128 * leAt f 4 2 ≤ o ∧
              o < 65536 * leAt f 2 2 + 128 * leAt f 4 2 + 128
            then f.getD (16 + (o - (65536 * leAt f 2 2 + 128 * leAt f 4 2))) 0 else s.distSlot.byte o) ∧
      (f.length = 68 → leAt f 1 1 = 1 → takeAt f 4 64 = offerDigest s.fw.offer → ∃ t, exec (.abort k f) s = .next t ∧
        t.distSlot.state = 5 ∧ t.distSlot.filling = 0 ∧ t.fw.distState = 4 ∧ t.fw.running = s.fw.running) ∧
      (∃ t, exec .upstreamSilence s = .next t ∧ t.distSlot.state = 5 ∧ t.distSlot.filling = 0 ∧
        t.fw.distState = 4 ∧ t.fw.running = s.fw.running)) ∧
    (s.receiving = false → exec .needProgressTimeout s = .next s ∧ exec .upstreamSilence s = .next s)

/-- Attestation (R594 to R597): a nonce captures the report at that instant and queues it; a second nonce while one
report is being produced is refused; reports end in the order of their nonces, and only then can be read: until
then attest_report_p is empty. Choices of the model it rests on: entries 6, 77 and 82. -/
def Obligations.AttestationReports : Prop :=
  ∀ (p : Fin 16) (nonce : List Byte) (s : State),
    (∀ sh, s.value sh 0x1201 (0x23 + p) = if (s.part p).attestState = 2 then (s.part p).report else []) ∧
    ((s.part p).attestState = 1 → exec (.attestNonce p nonce) s = .next s) ∧
    ((s.part p).attestState ≠ 1 → ∃ t, exec (.attestNonce p nonce) s = .next t ∧ (t.part p).attestState = 1 ∧
      (t.part p).report = s.signedReport p nonce ∧ takeAt (t.part p).report 20 32 = takeAt nonce 0 32 ∧
      t.fw.attestQueue = s.fw.attestQueue ++ [p.val] ∧ (∀ q, q ≠ p.val → t.part q = s.part q) ∧
      t.mem = s.mem ∧ t.cores = s.cores) ∧
    (s.fw.attestQueue.head? = some p.val → ∃ t, exec (.attestReportDone p) s = .next t ∧
      (t.part p).attestState = 2 ∧ (t.part p).report = (s.part p).report ∧
      t.fw.attestQueue = s.fw.attestQueue.drop 1 ∧ (∀ q, q ≠ p.val → t.part q = s.part q) ∧ t.mem = s.mem) ∧
    (s.fw.attestQueue.head? ≠ some p.val → exec (.attestReportDone p) s = .next s)

/-! ### What rows leave as it was -/

/-- Frame of memory and of the cores (R87, R129, R159): a row outside the lists of Safety.lean changes no byte of
memory, no register, tally, queue or engine of a core, no larder context, no gather and no stored error of the
memories. Choices of the model it rests on: entries 6 and 13. -/
def Obligations.MemoryAndCoresKept : Prop :=
  ∀ (c : Instr) (s t : State), exec c s = .next t →
    (c.touchesMem = false → t.mem = s.mem ∧ ∀ a, memRead t.mem a = memRead s.mem a) ∧
    (c.touchesMemStat = false → t.memStat = s.memStat) ∧ (c.touchesCores = false → t.cores = s.cores) ∧
    (c.touchesCtxs = false → t.ctxs = s.ctxs) ∧ (c.touchesTrain = false → t.train = s.train) ∧
    (c.touchesColl = false → t.coll = s.coll) ∧ (c.touchesParts = false → t.parts = s.parts)

/-- Frame of the links and of the service registers (R309, R360, R472, R533, R563, R573, R619): a row outside the lists
of Safety.lean changes no fabric port, no Yepecy port, no lock bit, neither the timebase nor the fabric, nor power,
flash, fuses, management, the test port and the arithmetic defaults. Choices of the model it rests on: entry 6. -/
def Obligations.LinksAndServiceKept : Prop :=
  ∀ (c : Instr) (s t : State), exec c s = .next t →
    (c.touchesPorts = false → t.links.ports = s.links.ports) ∧ (c.touchesHost = false → t.host = s.host) ∧
    (c.touchesFabric = false → t.fabric = s.fabric) ∧ (c.touchesTb = false → t.tb = s.tb) ∧
    (c.touchesLocked = false → t.locked = s.locked) ∧ (c.touchesJtag = false → t.jtag = s.jtag) ∧
    (c.touchesPower = false → t.power = s.power) ∧ (c.touchesFw = false → t.fw = s.fw) ∧
    (c.touchesHw = false → t.hw = s.hw) ∧ (c.touchesMgmt = false → t.mgmt = s.mgmt) ∧
    (c.touchesArith = false → t.arith = s.arith) ∧ (c.touchesTenancy = false → t.tenancy = s.tenancy)
end

