-- ==== Sys2Proof/Laws/Sparse.lean ====
section
/-! SUPPORT. Laws/Sparse.lean: reading after writing in a sparse table, and that every table operation keeps the
canonical form. -/

namespace Sys2Proof.Sparse

variable {α : Type}

@[simp] theorem find_nil (k : Nat) : Sparse.find ([] : Sparse α) k = none := rfl

@[simp] theorem find_put (m : Sparse α) (k j : Nat) (v : α) :
    Sparse.find (Sparse.put m k v) j = if k = j then some v else Sparse.find m j := by
  induction m with
  | nil => simp [Sparse.put, Sparse.find]
  | cons h t ih =>
    obtain ⟨k', v'⟩ := h
    simp only [Sparse.put]
    split_ifs <;> simp_all [Sparse.find]

@[simp] theorem find_del (m : Sparse α) (k j : Nat) :
    Sparse.find (Sparse.del m k) j = if k = j then none else Sparse.find m j := by
  induction m with
  | nil => simp [Sparse.del]
  | cons h t ih =>
    obtain ⟨k', v'⟩ := h
    simp only [Sparse.del]
    split_ifs <;> simp_all [Sparse.find]

@[simp] theorem get_set [DecidableEq α] (d : α) (m : Sparse α) (k j : Nat) (v : α) :
    Sparse.get d (Sparse.set d m k v) j = if k = j then v else Sparse.get d m j := by
  unfold Sparse.set Sparse.get
  split_ifs <;> simp_all

@[simp] theorem get_put (d : α) (m : Sparse α) (k j : Nat) (v : α) :
    Sparse.get d (Sparse.put m k v) j = if k = j then v else Sparse.get d m j := by
  unfold Sparse.get
  split_ifs <;> simp_all

theorem find_erase (m : Sparse α) (lo n j : Nat) :
    Sparse.find (Sparse.erase m lo n) j = if lo ≤ j ∧ j < lo + n then none else Sparse.find m j := by
  induction m with
  | nil => simp [Sparse.erase]
  | cons h t ih =>
    obtain ⟨k', v'⟩ := h
    simp only [Sparse.erase, List.filter_cons] at ih ⊢
    split_ifs at * <;> simp_all [Sparse.find] <;> omega

/-- What a table reads after a range of keys went. -/
theorem get_erase (d : α) (m : Sparse α) (lo n j : Nat) :
    Sparse.get d (Sparse.erase m lo n) j = if lo ≤ j ∧ j < lo + n then d else Sparse.get d m j := by
  unfold Sparse.get
  rw [find_erase]
  split_ifs <;> simp

theorem above_put {a k : Nat} {v : α} {m : Sparse α} (h : Sparse.above a m = true) (hk : a < k) :
    Sparse.above a (Sparse.put m k v) = true := by
  induction m with
  | nil => simp [Sparse.put, Sparse.above, hk]
  | cons x t ih =>
    obtain ⟨k', v'⟩ := x
    simp only [Sparse.above, Bool.and_eq_true, decide_eq_true_eq] at h
    simp only [Sparse.put]
    split_ifs <;> simp_all [Sparse.above]

theorem above_del {a k : Nat} {m : Sparse α} (h : Sparse.above a m = true) :
    Sparse.above a (Sparse.del m k) = true := by
  induction m with
  | nil => rfl
  | cons x t ih =>
    obtain ⟨k', v'⟩ := x
    simp only [Sparse.above, Bool.and_eq_true] at h
    simp only [Sparse.del]
    split_ifs <;> simp_all [Sparse.above]

theorem above_filter {a : Nat} {p : Nat × α → Bool} {m : Sparse α} (h : Sparse.above a m = true) :
    Sparse.above a (m.filter p) = true := by
  induction m with
  | nil => rfl
  | cons x t ih =>
    obtain ⟨k', v'⟩ := x
    simp only [Sparse.above, Bool.and_eq_true] at h
    simp only [List.filter_cons]
    split_ifs <;> simp_all [Sparse.above]

theorem above_mono {a b : Nat} {m : Sparse α} (h : Sparse.above b m = true) (hab : a ≤ b) :
    Sparse.above a m = true := by
  induction m with
  | nil => rfl
  | cons x t ih =>
    obtain ⟨k', v'⟩ := x
    simp only [Sparse.above, Bool.and_eq_true, decide_eq_true_eq] at h ⊢
    exact ⟨by omega, ih h.2⟩

variable [DecidableEq α]

theorem wf_put {d : α} {m : Sparse α} {k : Nat} {v : α} (h : Sparse.wf d m = true) (hv : v ≠ d) :
    Sparse.wf d (Sparse.put m k v) = true := by
  induction m with
  | nil => simp [Sparse.put, Sparse.wf, Sparse.above, hv]
  | cons x t ih =>
    obtain ⟨k', v'⟩ := x
    simp only [Sparse.wf, Bool.and_eq_true, decide_eq_true_eq] at h
    obtain ⟨⟨h1, h2⟩, h3⟩ := h
    simp only [Sparse.put]
    split_ifs with c1 c2
    · have := above_mono h2 (Nat.le_of_lt c1)
      simp [Sparse.wf, Sparse.above, *]
    · subst c2
      simp [Sparse.wf, *]
    · have := above_put (v := v) h2 (show k' < k by omega)
      simp [Sparse.wf, *]

theorem wf_del {d : α} {m : Sparse α} {k : Nat} (h : Sparse.wf d m = true) :
    Sparse.wf d (Sparse.del m k) = true := by
  induction m with
  | nil => rfl
  | cons x t ih =>
    obtain ⟨k', v'⟩ := x
    simp only [Sparse.wf, Bool.and_eq_true] at h
    simp only [Sparse.del]
    split_ifs <;> simp_all [Sparse.wf, above_del]

/-- A write keeps the canonical form. -/
theorem wf_set {d : α} {m : Sparse α} (k : Nat) (v : α) (h : Sparse.wf d m = true) :
    Sparse.wf d (Sparse.set d m k v) = true := by
  unfold Sparse.set
  split_ifs with hv
  · exact wf_del h
  · exact wf_put h hv

/-- Erasing a range keeps the canonical form. -/
theorem wf_erase {d : α} {m : Sparse α} (lo n : Nat) (h : Sparse.wf d m = true) :
    Sparse.wf d (Sparse.erase m lo n) = true := by
  induction m with
  | nil => rfl
  | cons x t ih =>
    obtain ⟨k', v'⟩ := x
    simp only [Sparse.wf, Bool.and_eq_true] at h
    unfold Sparse.erase at ih ⊢
    simp only [List.filter_cons]
    split_ifs
    · simp_all [Sparse.wf, above_filter]
    · exact ih h.2

end Sys2Proof.Sparse
end

