-- ==== Sys2Proof/Laws/State.lean ====
section
/-! SUPPORT. Laws/State.lean: for every named update of the state, what each field holds after it, and reading a
core, partition, port or region back. -/

namespace Sys2Proof.Machine

variable (s : State)

/-! ### setCore -/

@[simp] theorem State.setCore_hw (c : Nat) (k : Core) : (s.setCore c k).hw = s.hw := rfl
@[simp] theorem State.setCore_mem (c : Nat) (k : Core) : (s.setCore c k).mem = s.mem := rfl
@[simp] theorem State.setCore_memStat (c : Nat) (k : Core) : (s.setCore c k).memStat = s.memStat := rfl
@[simp] theorem State.setCore_power (c : Nat) (k : Core) : (s.setCore c k).power = s.power := rfl
@[simp] theorem State.setCore_locked (c : Nat) (k : Core) : (s.setCore c k).locked = s.locked := rfl
@[simp] theorem State.setCore_parts (c : Nat) (k : Core) : (s.setCore c k).parts = s.parts := rfl
@[simp] theorem State.setCore_ctxs (c : Nat) (k : Core) : (s.setCore c k).ctxs = s.ctxs := rfl
@[simp] theorem State.setCore_arith (c : Nat) (k : Core) : (s.setCore c k).arith = s.arith := rfl
@[simp] theorem State.setCore_fabric (c : Nat) (k : Core) : (s.setCore c k).fabric = s.fabric := rfl
@[simp] theorem State.setCore_coll (c : Nat) (k : Core) : (s.setCore c k).coll = s.coll := rfl
@[simp] theorem State.setCore_tb (c : Nat) (k : Core) : (s.setCore c k).tb = s.tb := rfl
@[simp] theorem State.setCore_links (c : Nat) (k : Core) : (s.setCore c k).links = s.links := rfl
@[simp] theorem State.setCore_host (c : Nat) (k : Core) : (s.setCore c k).host = s.host := rfl
@[simp] theorem State.setCore_mgmt (c : Nat) (k : Core) : (s.setCore c k).mgmt = s.mgmt := rfl
@[simp] theorem State.setCore_fw (c : Nat) (k : Core) : (s.setCore c k).fw = s.fw := rfl
@[simp] theorem State.setCore_train (c : Nat) (k : Core) : (s.setCore c k).train = s.train := rfl
@[simp] theorem State.setCore_tenancy (c : Nat) (k : Core) : (s.setCore c k).tenancy = s.tenancy := rfl
@[simp] theorem State.setCore_jtag (c : Nat) (k : Core) : (s.setCore c k).jtag = s.jtag := rfl
@[simp] theorem State.setCore_out (c : Nat) (k : Core) : (s.setCore c k).out = s.out := rfl
@[simp] theorem State.setCore_freeCtr (c : Nat) (k : Core) : (s.setCore c k).freeCtr = s.freeCtr := rfl
@[simp] theorem State.setCore_pending (c : Nat) (k : Core) : (s.setCore c k).pending = s.pending := rfl

/-! ### updCore -/

@[simp] theorem State.updCore_hw (c : Nat) (f : Core → Core) : (s.updCore c f).hw = s.hw := rfl
@[simp] theorem State.updCore_mem (c : Nat) (f : Core → Core) : (s.updCore c f).mem = s.mem := rfl
@[simp] theorem State.updCore_memStat (c : Nat) (f : Core → Core) : (s.updCore c f).memStat = s.memStat := rfl
@[simp] theorem State.updCore_power (c : Nat) (f : Core → Core) : (s.updCore c f).power = s.power := rfl
@[simp] theorem State.updCore_locked (c : Nat) (f : Core → Core) : (s.updCore c f).locked = s.locked := rfl
@[simp] theorem State.updCore_parts (c : Nat) (f : Core → Core) : (s.updCore c f).parts = s.parts := rfl
@[simp] theorem State.updCore_ctxs (c : Nat) (f : Core → Core) : (s.updCore c f).ctxs = s.ctxs := rfl
@[simp] theorem State.updCore_arith (c : Nat) (f : Core → Core) : (s.updCore c f).arith = s.arith := rfl
@[simp] theorem State.updCore_fabric (c : Nat) (f : Core → Core) : (s.updCore c f).fabric = s.fabric := rfl
@[simp] theorem State.updCore_coll (c : Nat) (f : Core → Core) : (s.updCore c f).coll = s.coll := rfl
@[simp] theorem State.updCore_tb (c : Nat) (f : Core → Core) : (s.updCore c f).tb = s.tb := rfl
@[simp] theorem State.updCore_links (c : Nat) (f : Core → Core) : (s.updCore c f).links = s.links := rfl
@[simp] theorem State.updCore_host (c : Nat) (f : Core → Core) : (s.updCore c f).host = s.host := rfl
@[simp] theorem State.updCore_mgmt (c : Nat) (f : Core → Core) : (s.updCore c f).mgmt = s.mgmt := rfl
@[simp] theorem State.updCore_fw (c : Nat) (f : Core → Core) : (s.updCore c f).fw = s.fw := rfl
@[simp] theorem State.updCore_train (c : Nat) (f : Core → Core) : (s.updCore c f).train = s.train := rfl
@[simp] theorem State.updCore_tenancy (c : Nat) (f : Core → Core) : (s.updCore c f).tenancy = s.tenancy := rfl
@[simp] theorem State.updCore_jtag (c : Nat) (f : Core → Core) : (s.updCore c f).jtag = s.jtag := rfl
@[simp] theorem State.updCore_out (c : Nat) (f : Core → Core) : (s.updCore c f).out = s.out := rfl
@[simp] theorem State.updCore_freeCtr (c : Nat) (f : Core → Core) : (s.updCore c f).freeCtr = s.freeCtr := rfl
@[simp] theorem State.updCore_pending (c : Nat) (f : Core → Core) : (s.updCore c f).pending = s.pending := rfl

/-! ### setPart -/

@[simp] theorem State.setPart_hw (p : Nat) (k : Part) : (s.setPart p k).hw = s.hw := rfl
@[simp] theorem State.setPart_mem (p : Nat) (k : Part) : (s.setPart p k).mem = s.mem := rfl
@[simp] theorem State.setPart_memStat (p : Nat) (k : Part) : (s.setPart p k).memStat = s.memStat := rfl
@[simp] theorem State.setPart_power (p : Nat) (k : Part) : (s.setPart p k).power = s.power := rfl
@[simp] theorem State.setPart_locked (p : Nat) (k : Part) : (s.setPart p k).locked = s.locked := rfl
@[simp] theorem State.setPart_cores (p : Nat) (k : Part) : (s.setPart p k).cores = s.cores := rfl
@[simp] theorem State.setPart_ctxs (p : Nat) (k : Part) : (s.setPart p k).ctxs = s.ctxs := rfl
@[simp] theorem State.setPart_arith (p : Nat) (k : Part) : (s.setPart p k).arith = s.arith := rfl
@[simp] theorem State.setPart_fabric (p : Nat) (k : Part) : (s.setPart p k).fabric = s.fabric := rfl
@[simp] theorem State.setPart_coll (p : Nat) (k : Part) : (s.setPart p k).coll = s.coll := rfl
@[simp] theorem State.setPart_tb (p : Nat) (k : Part) : (s.setPart p k).tb = s.tb := rfl
@[simp] theorem State.setPart_links (p : Nat) (k : Part) : (s.setPart p k).links = s.links := rfl
@[simp] theorem State.setPart_host (p : Nat) (k : Part) : (s.setPart p k).host = s.host := rfl
@[simp] theorem State.setPart_mgmt (p : Nat) (k : Part) : (s.setPart p k).mgmt = s.mgmt := rfl
@[simp] theorem State.setPart_fw (p : Nat) (k : Part) : (s.setPart p k).fw = s.fw := rfl
@[simp] theorem State.setPart_train (p : Nat) (k : Part) : (s.setPart p k).train = s.train := rfl
@[simp] theorem State.setPart_tenancy (p : Nat) (k : Part) : (s.setPart p k).tenancy = s.tenancy := rfl
@[simp] theorem State.setPart_jtag (p : Nat) (k : Part) : (s.setPart p k).jtag = s.jtag := rfl
@[simp] theorem State.setPart_out (p : Nat) (k : Part) : (s.setPart p k).out = s.out := rfl
@[simp] theorem State.setPart_freeCtr (p : Nat) (k : Part) : (s.setPart p k).freeCtr = s.freeCtr := rfl
@[simp] theorem State.setPart_pending (p : Nat) (k : Part) : (s.setPart p k).pending = s.pending := rfl

/-! ### updPart -/

@[simp] theorem State.updPart_hw (p : Nat) (f : Part → Part) : (s.updPart p f).hw = s.hw := rfl
@[simp] theorem State.updPart_mem (p : Nat) (f : Part → Part) : (s.updPart p f).mem = s.mem := rfl
@[simp] theorem State.updPart_memStat (p : Nat) (f : Part → Part) : (s.updPart p f).memStat = s.memStat := rfl
@[simp] theorem State.updPart_power (p : Nat) (f : Part → Part) : (s.updPart p f).power = s.power := rfl
@[simp] theorem State.updPart_locked (p : Nat) (f : Part → Part) : (s.updPart p f).locked = s.locked := rfl
@[simp] theorem State.updPart_cores (p : Nat) (f : Part → Part) : (s.updPart p f).cores = s.cores := rfl
@[simp] theorem State.updPart_ctxs (p : Nat) (f : Part → Part) : (s.updPart p f).ctxs = s.ctxs := rfl
@[simp] theorem State.updPart_arith (p : Nat) (f : Part → Part) : (s.updPart p f).arith = s.arith := rfl
@[simp] theorem State.updPart_fabric (p : Nat) (f : Part → Part) : (s.updPart p f).fabric = s.fabric := rfl
@[simp] theorem State.updPart_coll (p : Nat) (f : Part → Part) : (s.updPart p f).coll = s.coll := rfl
@[simp] theorem State.updPart_tb (p : Nat) (f : Part → Part) : (s.updPart p f).tb = s.tb := rfl
@[simp] theorem State.updPart_links (p : Nat) (f : Part → Part) : (s.updPart p f).links = s.links := rfl
@[simp] theorem State.updPart_host (p : Nat) (f : Part → Part) : (s.updPart p f).host = s.host := rfl
@[simp] theorem State.updPart_mgmt (p : Nat) (f : Part → Part) : (s.updPart p f).mgmt = s.mgmt := rfl
@[simp] theorem State.updPart_fw (p : Nat) (f : Part → Part) : (s.updPart p f).fw = s.fw := rfl
@[simp] theorem State.updPart_train (p : Nat) (f : Part → Part) : (s.updPart p f).train = s.train := rfl
@[simp] theorem State.updPart_tenancy (p : Nat) (f : Part → Part) : (s.updPart p f).tenancy = s.tenancy := rfl
@[simp] theorem State.updPart_jtag (p : Nat) (f : Part → Part) : (s.updPart p f).jtag = s.jtag := rfl
@[simp] theorem State.updPart_out (p : Nat) (f : Part → Part) : (s.updPart p f).out = s.out := rfl
@[simp] theorem State.updPart_freeCtr (p : Nat) (f : Part → Part) : (s.updPart p f).freeCtr = s.freeCtr := rfl
@[simp] theorem State.updPart_pending (p : Nat) (f : Part → Part) : (s.updPart p f).pending = s.pending := rfl

/-! ### setCtx -/

@[simp] theorem State.setCtx_hw (n : Nat) (k : Ctx) : (s.setCtx n k).hw = s.hw := rfl
@[simp] theorem State.setCtx_mem (n : Nat) (k : Ctx) : (s.setCtx n k).mem = s.mem := rfl
@[simp] theorem State.setCtx_memStat (n : Nat) (k : Ctx) : (s.setCtx n k).memStat = s.memStat := rfl
@[simp] theorem State.setCtx_power (n : Nat) (k : Ctx) : (s.setCtx n k).power = s.power := rfl
@[simp] theorem State.setCtx_locked (n : Nat) (k : Ctx) : (s.setCtx n k).locked = s.locked := rfl
@[simp] theorem State.setCtx_cores (n : Nat) (k : Ctx) : (s.setCtx n k).cores = s.cores := rfl
@[simp] theorem State.setCtx_parts (n : Nat) (k : Ctx) : (s.setCtx n k).parts = s.parts := rfl
@[simp] theorem State.setCtx_arith (n : Nat) (k : Ctx) : (s.setCtx n k).arith = s.arith := rfl
@[simp] theorem State.setCtx_fabric (n : Nat) (k : Ctx) : (s.setCtx n k).fabric = s.fabric := rfl
@[simp] theorem State.setCtx_coll (n : Nat) (k : Ctx) : (s.setCtx n k).coll = s.coll := rfl
@[simp] theorem State.setCtx_tb (n : Nat) (k : Ctx) : (s.setCtx n k).tb = s.tb := rfl
@[simp] theorem State.setCtx_links (n : Nat) (k : Ctx) : (s.setCtx n k).links = s.links := rfl
@[simp] theorem State.setCtx_host (n : Nat) (k : Ctx) : (s.setCtx n k).host = s.host := rfl
@[simp] theorem State.setCtx_mgmt (n : Nat) (k : Ctx) : (s.setCtx n k).mgmt = s.mgmt := rfl
@[simp] theorem State.setCtx_fw (n : Nat) (k : Ctx) : (s.setCtx n k).fw = s.fw := rfl
@[simp] theorem State.setCtx_train (n : Nat) (k : Ctx) : (s.setCtx n k).train = s.train := rfl
@[simp] theorem State.setCtx_tenancy (n : Nat) (k : Ctx) : (s.setCtx n k).tenancy = s.tenancy := rfl
@[simp] theorem State.setCtx_jtag (n : Nat) (k : Ctx) : (s.setCtx n k).jtag = s.jtag := rfl
@[simp] theorem State.setCtx_out (n : Nat) (k : Ctx) : (s.setCtx n k).out = s.out := rfl
@[simp] theorem State.setCtx_freeCtr (n : Nat) (k : Ctx) : (s.setCtx n k).freeCtr = s.freeCtr := rfl
@[simp] theorem State.setCtx_pending (n : Nat) (k : Ctx) : (s.setCtx n k).pending = s.pending := rfl

/-! ### updLink -/

@[simp] theorem State.updLink_hw (k : Nat) (f : Link → Link) : (s.updLink k f).hw = s.hw := rfl
@[simp] theorem State.updLink_mem (k : Nat) (f : Link → Link) : (s.updLink k f).mem = s.mem := rfl
@[simp] theorem State.updLink_memStat (k : Nat) (f : Link → Link) : (s.updLink k f).memStat = s.memStat := rfl
@[simp] theorem State.updLink_power (k : Nat) (f : Link → Link) : (s.updLink k f).power = s.power := rfl
@[simp] theorem State.updLink_locked (k : Nat) (f : Link → Link) : (s.updLink k f).locked = s.locked := rfl
@[simp] theorem State.updLink_cores (k : Nat) (f : Link → Link) : (s.updLink k f).cores = s.cores := rfl
@[simp] theorem State.updLink_parts (k : Nat) (f : Link → Link) : (s.updLink k f).parts = s.parts := rfl
@[simp] theorem State.updLink_ctxs (k : Nat) (f : Link → Link) : (s.updLink k f).ctxs = s.ctxs := rfl
@[simp] theorem State.updLink_arith (k : Nat) (f : Link → Link) : (s.updLink k f).arith = s.arith := rfl
@[simp] theorem State.updLink_fabric (k : Nat) (f : Link → Link) : (s.updLink k f).fabric = s.fabric := rfl
@[simp] theorem State.updLink_coll (k : Nat) (f : Link → Link) : (s.updLink k f).coll = s.coll := rfl
@[simp] theorem State.updLink_tb (k : Nat) (f : Link → Link) : (s.updLink k f).tb = s.tb := rfl
@[simp] theorem State.updLink_host (k : Nat) (f : Link → Link) : (s.updLink k f).host = s.host := rfl
@[simp] theorem State.updLink_mgmt (k : Nat) (f : Link → Link) : (s.updLink k f).mgmt = s.mgmt := rfl
@[simp] theorem State.updLink_fw (k : Nat) (f : Link → Link) : (s.updLink k f).fw = s.fw := rfl
@[simp] theorem State.updLink_train (k : Nat) (f : Link → Link) : (s.updLink k f).train = s.train := rfl
@[simp] theorem State.updLink_tenancy (k : Nat) (f : Link → Link) : (s.updLink k f).tenancy = s.tenancy := rfl
@[simp] theorem State.updLink_jtag (k : Nat) (f : Link → Link) : (s.updLink k f).jtag = s.jtag := rfl
@[simp] theorem State.updLink_out (k : Nat) (f : Link → Link) : (s.updLink k f).out = s.out := rfl
@[simp] theorem State.updLink_freeCtr (k : Nat) (f : Link → Link) : (s.updLink k f).freeCtr = s.freeCtr := rfl
@[simp] theorem State.updLink_pending (k : Nat) (f : Link → Link) : (s.updLink k f).pending = s.pending := rfl

/-! ### updHport -/

@[simp] theorem State.updHport_hw (k : Nat) (f : HostPort → HostPort) : (s.updHport k f).hw = s.hw := rfl
@[simp] theorem State.updHport_mem (k : Nat) (f : HostPort → HostPort) : (s.updHport k f).mem = s.mem := rfl
@[simp] theorem State.updHport_memStat (k : Nat) (f : HostPort → HostPort) : (s.updHport k f).memStat = s.memStat := rfl
@[simp] theorem State.updHport_power (k : Nat) (f : HostPort → HostPort) : (s.updHport k f).power = s.power := rfl
@[simp] theorem State.updHport_locked (k : Nat) (f : HostPort → HostPort) : (s.updHport k f).locked = s.locked := rfl
@[simp] theorem State.updHport_cores (k : Nat) (f : HostPort → HostPort) : (s.updHport k f).cores = s.cores := rfl
@[simp] theorem State.updHport_parts (k : Nat) (f : HostPort → HostPort) : (s.updHport k f).parts = s.parts := rfl
@[simp] theorem State.updHport_ctxs (k : Nat) (f : HostPort → HostPort) : (s.updHport k f).ctxs = s.ctxs := rfl
@[simp] theorem State.updHport_arith (k : Nat) (f : HostPort → HostPort) : (s.updHport k f).arith = s.arith := rfl
@[simp] theorem State.updHport_fabric (k : Nat) (f : HostPort → HostPort) : (s.updHport k f).fabric = s.fabric := rfl
@[simp] theorem State.updHport_coll (k : Nat) (f : HostPort → HostPort) : (s.updHport k f).coll = s.coll := rfl
@[simp] theorem State.updHport_tb (k : Nat) (f : HostPort → HostPort) : (s.updHport k f).tb = s.tb := rfl
@[simp] theorem State.updHport_links (k : Nat) (f : HostPort → HostPort) : (s.updHport k f).links = s.links := rfl
@[simp] theorem State.updHport_mgmt (k : Nat) (f : HostPort → HostPort) : (s.updHport k f).mgmt = s.mgmt := rfl
@[simp] theorem State.updHport_fw (k : Nat) (f : HostPort → HostPort) : (s.updHport k f).fw = s.fw := rfl
@[simp] theorem State.updHport_train (k : Nat) (f : HostPort → HostPort) : (s.updHport k f).train = s.train := rfl
@[simp] theorem State.updHport_tenancy (k : Nat) (f : HostPort → HostPort) : (s.updHport k f).tenancy = s.tenancy := rfl
@[simp] theorem State.updHport_jtag (k : Nat) (f : HostPort → HostPort) : (s.updHport k f).jtag = s.jtag := rfl
@[simp] theorem State.updHport_out (k : Nat) (f : HostPort → HostPort) : (s.updHport k f).out = s.out := rfl
@[simp] theorem State.updHport_freeCtr (k : Nat) (f : HostPort → HostPort) : (s.updHport k f).freeCtr = s.freeCtr := rfl
@[simp] theorem State.updHport_pending (k : Nat) (f : HostPort → HostPort) : (s.updHport k f).pending = s.pending := rfl

/-! ### updCtr -/

@[simp] theorem State.updCtr_hw (k : Nat) (f : PortCtr → PortCtr) : (s.updCtr k f).hw = s.hw := rfl
@[simp] theorem State.updCtr_mem (k : Nat) (f : PortCtr → PortCtr) : (s.updCtr k f).mem = s.mem := rfl
@[simp] theorem State.updCtr_memStat (k : Nat) (f : PortCtr → PortCtr) : (s.updCtr k f).memStat = s.memStat := rfl
@[simp] theorem State.updCtr_power (k : Nat) (f : PortCtr → PortCtr) : (s.updCtr k f).power = s.power := rfl
@[simp] theorem State.updCtr_locked (k : Nat) (f : PortCtr → PortCtr) : (s.updCtr k f).locked = s.locked := rfl
@[simp] theorem State.updCtr_cores (k : Nat) (f : PortCtr → PortCtr) : (s.updCtr k f).cores = s.cores := rfl
@[simp] theorem State.updCtr_parts (k : Nat) (f : PortCtr → PortCtr) : (s.updCtr k f).parts = s.parts := rfl
@[simp] theorem State.updCtr_ctxs (k : Nat) (f : PortCtr → PortCtr) : (s.updCtr k f).ctxs = s.ctxs := rfl
@[simp] theorem State.updCtr_arith (k : Nat) (f : PortCtr → PortCtr) : (s.updCtr k f).arith = s.arith := rfl
@[simp] theorem State.updCtr_coll (k : Nat) (f : PortCtr → PortCtr) : (s.updCtr k f).coll = s.coll := rfl
@[simp] theorem State.updCtr_tb (k : Nat) (f : PortCtr → PortCtr) : (s.updCtr k f).tb = s.tb := rfl
@[simp] theorem State.updCtr_links (k : Nat) (f : PortCtr → PortCtr) : (s.updCtr k f).links = s.links := rfl
@[simp] theorem State.updCtr_host (k : Nat) (f : PortCtr → PortCtr) : (s.updCtr k f).host = s.host := rfl
@[simp] theorem State.updCtr_mgmt (k : Nat) (f : PortCtr → PortCtr) : (s.updCtr k f).mgmt = s.mgmt := rfl
@[simp] theorem State.updCtr_fw (k : Nat) (f : PortCtr → PortCtr) : (s.updCtr k f).fw = s.fw := rfl
@[simp] theorem State.updCtr_train (k : Nat) (f : PortCtr → PortCtr) : (s.updCtr k f).train = s.train := rfl
@[simp] theorem State.updCtr_tenancy (k : Nat) (f : PortCtr → PortCtr) : (s.updCtr k f).tenancy = s.tenancy := rfl
@[simp] theorem State.updCtr_jtag (k : Nat) (f : PortCtr → PortCtr) : (s.updCtr k f).jtag = s.jtag := rfl
@[simp] theorem State.updCtr_out (k : Nat) (f : PortCtr → PortCtr) : (s.updCtr k f).out = s.out := rfl
@[simp] theorem State.updCtr_freeCtr (k : Nat) (f : PortCtr → PortCtr) : (s.updCtr k f).freeCtr = s.freeCtr := rfl
@[simp] theorem State.updCtr_pending (k : Nat) (f : PortCtr → PortCtr) : (s.updCtr k f).pending = s.pending := rfl

/-! ### updSlot -/

@[simp] theorem State.updSlot_hw (i : Nat) (f : Slot → Slot) : (s.updSlot i f).hw = s.hw := rfl
@[simp] theorem State.updSlot_mem (i : Nat) (f : Slot → Slot) : (s.updSlot i f).mem = s.mem := rfl
@[simp] theorem State.updSlot_memStat (i : Nat) (f : Slot → Slot) : (s.updSlot i f).memStat = s.memStat := rfl
@[simp] theorem State.updSlot_power (i : Nat) (f : Slot → Slot) : (s.updSlot i f).power = s.power := rfl
@[simp] theorem State.updSlot_locked (i : Nat) (f : Slot → Slot) : (s.updSlot i f).locked = s.locked := rfl
@[simp] theorem State.updSlot_cores (i : Nat) (f : Slot → Slot) : (s.updSlot i f).cores = s.cores := rfl
@[simp] theorem State.updSlot_parts (i : Nat) (f : Slot → Slot) : (s.updSlot i f).parts = s.parts := rfl
@[simp] theorem State.updSlot_ctxs (i : Nat) (f : Slot → Slot) : (s.updSlot i f).ctxs = s.ctxs := rfl
@[simp] theorem State.updSlot_arith (i : Nat) (f : Slot → Slot) : (s.updSlot i f).arith = s.arith := rfl
@[simp] theorem State.updSlot_fabric (i : Nat) (f : Slot → Slot) : (s.updSlot i f).fabric = s.fabric := rfl
@[simp] theorem State.updSlot_coll (i : Nat) (f : Slot → Slot) : (s.updSlot i f).coll = s.coll := rfl
@[simp] theorem State.updSlot_tb (i : Nat) (f : Slot → Slot) : (s.updSlot i f).tb = s.tb := rfl
@[simp] theorem State.updSlot_links (i : Nat) (f : Slot → Slot) : (s.updSlot i f).links = s.links := rfl
@[simp] theorem State.updSlot_host (i : Nat) (f : Slot → Slot) : (s.updSlot i f).host = s.host := rfl
@[simp] theorem State.updSlot_mgmt (i : Nat) (f : Slot → Slot) : (s.updSlot i f).mgmt = s.mgmt := rfl
@[simp] theorem State.updSlot_train (i : Nat) (f : Slot → Slot) : (s.updSlot i f).train = s.train := rfl
@[simp] theorem State.updSlot_tenancy (i : Nat) (f : Slot → Slot) : (s.updSlot i f).tenancy = s.tenancy := rfl
@[simp] theorem State.updSlot_jtag (i : Nat) (f : Slot → Slot) : (s.updSlot i f).jtag = s.jtag := rfl
@[simp] theorem State.updSlot_out (i : Nat) (f : Slot → Slot) : (s.updSlot i f).out = s.out := rfl
@[simp] theorem State.updSlot_freeCtr (i : Nat) (f : Slot → Slot) : (s.updSlot i f).freeCtr = s.freeCtr := rfl
@[simp] theorem State.updSlot_pending (i : Nat) (f : Slot → Slot) : (s.updSlot i f).pending = s.pending := rfl

/-! ### send -/

@[simp] theorem State.send_hw (o : Out) : (s.send o).hw = s.hw := rfl
@[simp] theorem State.send_mem (o : Out) : (s.send o).mem = s.mem := rfl
@[simp] theorem State.send_memStat (o : Out) : (s.send o).memStat = s.memStat := rfl
@[simp] theorem State.send_power (o : Out) : (s.send o).power = s.power := rfl
@[simp] theorem State.send_locked (o : Out) : (s.send o).locked = s.locked := rfl
@[simp] theorem State.send_cores (o : Out) : (s.send o).cores = s.cores := rfl
@[simp] theorem State.send_parts (o : Out) : (s.send o).parts = s.parts := rfl
@[simp] theorem State.send_ctxs (o : Out) : (s.send o).ctxs = s.ctxs := rfl
@[simp] theorem State.send_arith (o : Out) : (s.send o).arith = s.arith := rfl
@[simp] theorem State.send_fabric (o : Out) : (s.send o).fabric = s.fabric := rfl
@[simp] theorem State.send_coll (o : Out) : (s.send o).coll = s.coll := rfl
@[simp] theorem State.send_tb (o : Out) : (s.send o).tb = s.tb := rfl
@[simp] theorem State.send_links (o : Out) : (s.send o).links = s.links := rfl
@[simp] theorem State.send_host (o : Out) : (s.send o).host = s.host := rfl
@[simp] theorem State.send_mgmt (o : Out) : (s.send o).mgmt = s.mgmt := rfl
@[simp] theorem State.send_fw (o : Out) : (s.send o).fw = s.fw := rfl
@[simp] theorem State.send_train (o : Out) : (s.send o).train = s.train := rfl
@[simp] theorem State.send_tenancy (o : Out) : (s.send o).tenancy = s.tenancy := rfl
@[simp] theorem State.send_jtag (o : Out) : (s.send o).jtag = s.jtag := rfl
@[simp] theorem State.send_freeCtr (o : Out) : (s.send o).freeCtr = s.freeCtr := rfl
@[simp] theorem State.send_pending (o : Out) : (s.send o).pending = s.pending := rfl

/-! ### sendAll -/

@[simp] theorem State.sendAll_hw (os : List Out) : (s.sendAll os).hw = s.hw := rfl
@[simp] theorem State.sendAll_mem (os : List Out) : (s.sendAll os).mem = s.mem := rfl
@[simp] theorem State.sendAll_memStat (os : List Out) : (s.sendAll os).memStat = s.memStat := rfl
@[simp] theorem State.sendAll_power (os : List Out) : (s.sendAll os).power = s.power := rfl
@[simp] theorem State.sendAll_locked (os : List Out) : (s.sendAll os).locked = s.locked := rfl
@[simp] theorem State.sendAll_cores (os : List Out) : (s.sendAll os).cores = s.cores := rfl
@[simp] theorem State.sendAll_parts (os : List Out) : (s.sendAll os).parts = s.parts := rfl
@[simp] theorem State.sendAll_ctxs (os : List Out) : (s.sendAll os).ctxs = s.ctxs := rfl
@[simp] theorem State.sendAll_arith (os : List Out) : (s.sendAll os).arith = s.arith := rfl
@[simp] theorem State.sendAll_fabric (os : List Out) : (s.sendAll os).fabric = s.fabric := rfl
@[simp] theorem State.sendAll_coll (os : List Out) : (s.sendAll os).coll = s.coll := rfl
@[simp] theorem State.sendAll_tb (os : List Out) : (s.sendAll os).tb = s.tb := rfl
@[simp] theorem State.sendAll_links (os : List Out) : (s.sendAll os).links = s.links := rfl
@[simp] theorem State.sendAll_host (os : List Out) : (s.sendAll os).host = s.host := rfl
@[simp] theorem State.sendAll_mgmt (os : List Out) : (s.sendAll os).mgmt = s.mgmt := rfl
@[simp] theorem State.sendAll_fw (os : List Out) : (s.sendAll os).fw = s.fw := rfl
@[simp] theorem State.sendAll_train (os : List Out) : (s.sendAll os).train = s.train := rfl
@[simp] theorem State.sendAll_tenancy (os : List Out) : (s.sendAll os).tenancy = s.tenancy := rfl
@[simp] theorem State.sendAll_jtag (os : List Out) : (s.sendAll os).jtag = s.jtag := rfl
@[simp] theorem State.sendAll_freeCtr (os : List Out) : (s.sendAll os).freeCtr = s.freeCtr := rfl
@[simp] theorem State.sendAll_pending (os : List Out) : (s.sendAll os).pending = s.pending := rfl

/-! ### Reading back -/

@[simp] theorem State.core_setCore (c d : Nat) (k : Core) :
    (s.setCore c k).core d = if c = d then k else s.core d := by
  simp [State.core, State.setCore]

@[simp] theorem State.core_updCore (c d : Nat) (f : Core → Core) :
    (s.updCore c f).core d = if c = d then f (s.core c) else s.core d := by
  simp [State.updCore]

@[simp] theorem State.part_setPart (p q : Nat) (k : Part) :
    (s.setPart p k).part q = if p = q then k else s.part q := by
  simp [State.part, State.setPart]

@[simp] theorem State.part_updPart (p q : Nat) (f : Part → Part) :
    (s.updPart p f).part q = if p = q then f (s.part p) else s.part q := by
  simp [State.updPart]

@[simp] theorem State.ctx_setCtx (n m : Nat) (k : Ctx) :
    (s.setCtx n k).ctx m = if n = m then k else s.ctx m := by
  simp [State.ctx, State.setCtx]

@[simp] theorem State.hport_updHport (k j : Nat) (f : HostPort → HostPort) :
    (s.updHport k f).hport j = if k = j then f (s.hport k) else s.hport j := by
  simp [State.hport, State.updHport]

@[simp] theorem State.slot_updSlot (i j : Nat) (f : Slot → Slot) :
    (s.updSlot i f).slot j = if i = j then f (s.slot i) else s.slot j := by
  simp [State.slot, State.updSlot]

@[simp] theorem State.link_updLink (k j : Nat) (f : Link → Link) :
    (s.updLink k f).link j = if k = j then f (s.link k) else s.link j := by
  unfold State.link State.updLink
  split_ifs <;> simp_all [State.link]

/-! ### Reading one kind after an update of another -/

@[simp] theorem State.core_setPart (p : Nat) (k : Part) (j : Nat) : (s.setPart p k).core j = s.core j := rfl
@[simp] theorem State.core_updPart (p : Nat) (f : Part → Part) (j : Nat) : (s.updPart p f).core j = s.core j := rfl
@[simp] theorem State.core_setCtx (n : Nat) (k : Ctx) (j : Nat) : (s.setCtx n k).core j = s.core j := rfl
@[simp] theorem State.core_updLink (k : Nat) (f : Link → Link) (j : Nat) : (s.updLink k f).core j = s.core j := rfl
@[simp] theorem State.core_updHport (k : Nat) (f : HostPort → HostPort) (j : Nat) : (s.updHport k f).core j = s.core j := rfl
@[simp] theorem State.core_updCtr (k : Nat) (f : PortCtr → PortCtr) (j : Nat) : (s.updCtr k f).core j = s.core j := rfl
@[simp] theorem State.core_updSlot (i : Nat) (f : Slot → Slot) (j : Nat) : (s.updSlot i f).core j = s.core j := rfl
@[simp] theorem State.core_send (o : Out) (j : Nat) : (s.send o).core j = s.core j := rfl
@[simp] theorem State.core_sendAll (os : List Out) (j : Nat) : (s.sendAll os).core j = s.core j := rfl

@[simp] theorem State.part_setCore (c : Nat) (k : Core) (j : Nat) : (s.setCore c k).part j = s.part j := rfl
@[simp] theorem State.part_updCore (c : Nat) (f : Core → Core) (j : Nat) : (s.updCore c f).part j = s.part j := rfl
@[simp] theorem State.part_setCtx (n : Nat) (k : Ctx) (j : Nat) : (s.setCtx n k).part j = s.part j := rfl
@[simp] theorem State.part_updLink (k : Nat) (f : Link → Link) (j : Nat) : (s.updLink k f).part j = s.part j := rfl
@[simp] theorem State.part_updHport (k : Nat) (f : HostPort → HostPort) (j : Nat) : (s.updHport k f).part j = s.part j := rfl
@[simp] theorem State.part_updCtr (k : Nat) (f : PortCtr → PortCtr) (j : Nat) : (s.updCtr k f).part j = s.part j := rfl
@[simp] theorem State.part_updSlot (i : Nat) (f : Slot → Slot) (j : Nat) : (s.updSlot i f).part j = s.part j := rfl
@[simp] theorem State.part_send (o : Out) (j : Nat) : (s.send o).part j = s.part j := rfl
@[simp] theorem State.part_sendAll (os : List Out) (j : Nat) : (s.sendAll os).part j = s.part j := rfl

@[simp] theorem State.link_setCore (c : Nat) (k : Core) (j : Nat) : (s.setCore c k).link j = s.link j := rfl
@[simp] theorem State.link_updCore (c : Nat) (f : Core → Core) (j : Nat) : (s.updCore c f).link j = s.link j := rfl
@[simp] theorem State.link_setPart (p : Nat) (k : Part) (j : Nat) : (s.setPart p k).link j = s.link j := rfl
@[simp] theorem State.link_updPart (p : Nat) (f : Part → Part) (j : Nat) : (s.updPart p f).link j = s.link j := rfl
@[simp] theorem State.link_setCtx (n : Nat) (k : Ctx) (j : Nat) : (s.setCtx n k).link j = s.link j := rfl
@[simp] theorem State.link_updHport (k : Nat) (f : HostPort → HostPort) (j : Nat) : (s.updHport k f).link j = s.link j := rfl
@[simp] theorem State.link_updCtr (k : Nat) (f : PortCtr → PortCtr) (j : Nat) : (s.updCtr k f).link j = s.link j := rfl
@[simp] theorem State.link_updSlot (i : Nat) (f : Slot → Slot) (j : Nat) : (s.updSlot i f).link j = s.link j := rfl
@[simp] theorem State.link_send (o : Out) (j : Nat) : (s.send o).link j = s.link j := rfl
@[simp] theorem State.link_sendAll (os : List Out) (j : Nat) : (s.sendAll os).link j = s.link j := rfl

@[simp] theorem State.hport_setCore (c : Nat) (k : Core) (j : Nat) : (s.setCore c k).hport j = s.hport j := rfl
@[simp] theorem State.hport_updCore (c : Nat) (f : Core → Core) (j : Nat) : (s.updCore c f).hport j = s.hport j := rfl
@[simp] theorem State.hport_setPart (p : Nat) (k : Part) (j : Nat) : (s.setPart p k).hport j = s.hport j := rfl
@[simp] theorem State.hport_updPart (p : Nat) (f : Part → Part) (j : Nat) : (s.updPart p f).hport j = s.hport j := rfl
@[simp] theorem State.hport_setCtx (n : Nat) (k : Ctx) (j : Nat) : (s.setCtx n k).hport j = s.hport j := rfl
@[simp] theorem State.hport_updLink (k : Nat) (f : Link → Link) (j : Nat) : (s.updLink k f).hport j = s.hport j := rfl
@[simp] theorem State.hport_updCtr (k : Nat) (f : PortCtr → PortCtr) (j : Nat) : (s.updCtr k f).hport j = s.hport j := rfl
@[simp] theorem State.hport_updSlot (i : Nat) (f : Slot → Slot) (j : Nat) : (s.updSlot i f).hport j = s.hport j := rfl
@[simp] theorem State.hport_send (o : Out) (j : Nat) : (s.send o).hport j = s.hport j := rfl
@[simp] theorem State.hport_sendAll (os : List Out) (j : Nat) : (s.sendAll os).hport j = s.hport j := rfl

@[simp] theorem State.ctx_setCore (c : Nat) (k : Core) (j : Nat) : (s.setCore c k).ctx j = s.ctx j := rfl
@[simp] theorem State.ctx_updCore (c : Nat) (f : Core → Core) (j : Nat) : (s.updCore c f).ctx j = s.ctx j := rfl
@[simp] theorem State.ctx_setPart (p : Nat) (k : Part) (j : Nat) : (s.setPart p k).ctx j = s.ctx j := rfl
@[simp] theorem State.ctx_updPart (p : Nat) (f : Part → Part) (j : Nat) : (s.updPart p f).ctx j = s.ctx j := rfl
@[simp] theorem State.ctx_updLink (k : Nat) (f : Link → Link) (j : Nat) : (s.updLink k f).ctx j = s.ctx j := rfl
@[simp] theorem State.ctx_updHport (k : Nat) (f : HostPort → HostPort) (j : Nat) : (s.updHport k f).ctx j = s.ctx j := rfl
@[simp] theorem State.ctx_updCtr (k : Nat) (f : PortCtr → PortCtr) (j : Nat) : (s.updCtr k f).ctx j = s.ctx j := rfl
@[simp] theorem State.ctx_updSlot (i : Nat) (f : Slot → Slot) (j : Nat) : (s.updSlot i f).ctx j = s.ctx j := rfl
@[simp] theorem State.ctx_send (o : Out) (j : Nat) : (s.send o).ctx j = s.ctx j := rfl
@[simp] theorem State.ctx_sendAll (os : List Out) (j : Nat) : (s.sendAll os).ctx j = s.ctx j := rfl

@[simp] theorem State.send_out (o : Out) : (s.send o).out = s.out ++ [o] := rfl

@[simp] theorem State.sendAll_out (os : List Out) : (s.sendAll os).out = s.out ++ os := rfl

end Sys2Proof.Machine
end

