-- ==== Sys2Proof/Laws/Memory.lean ====
section
/-! SUPPORT. Laws/Memory.lean: what the memory operations of Machine/Ops.lean do: reading after a write, the
canonical form, and what a store leaves alone. -/

namespace Sys2Proof.Machine

/-! ### Memory alone -/

@[simp] theorem memRead_memWrite (m : Mem) (a j : Nat) (b : Byte) :
    memRead (memWrite m a b) j = if a = j then b else memRead m j := by
  simp [memRead, memWrite]

theorem memWf_memWrite {m : Mem} (a : Nat) (b : Byte) (h : memWf m = true) : memWf (memWrite m a b) = true :=
  Sparse.wf_set a b h

theorem memWf_memPut {m : Mem} (a : Nat) (bs : List Byte) (h : memWf m = true) :
    memWf (memPut m a bs) = true := by
  induction bs generalizing m a with
  | nil => exact h
  | cons b bs ih => exact ih (a + 1) (memWf_memWrite a b h)

theorem memWf_memZero {m : Mem} (lo n : Nat) (h : memWf m = true) : memWf (memZero m lo n) = true :=
  Sparse.wf_erase lo n h

theorem memWf_memStore {m : Mem} (ws : List (Nat × Byte)) (h : memWf m = true) :
    memWf (memStore m ws) = true := by
  unfold memStore
  induction ws generalizing m with
  | nil => exact h
  | cons w ws ih => exact ih (memWf_memWrite w.1 w.2 h)

/-- A run of bytes written: inside the run its bytes, outside what was there. -/
theorem memRead_memPut (m : Mem) (a : Nat) (bs : List Byte) (j : Nat) :
    memRead (memPut m a bs) j = if a ≤ j then (bs[j - a]?).getD (memRead m j) else memRead m j := by
  induction bs generalizing m a with
  | nil => simp [memPut]
  | cons b bs ih =>
    have step := ih (memWrite m a b) (a + 1)
    rw [memRead_memWrite] at step
    rw [memPut, step]
    rcases Nat.lt_trichotomy a j with h | h | h
    · rw [if_pos (show a + 1 ≤ j by omega), if_pos (show a ≤ j by omega), if_neg (show ¬ a = j by omega),
        show j - a = (j - (a + 1)) + 1 by omega, List.getElem?_cons_succ]
    · subst h; simp
    · rw [if_neg (show ¬ a + 1 ≤ j by omega), if_neg (show ¬ a ≤ j by omega), if_neg (show ¬ a = j by omega)]

/-- A run written leaves every byte outside it. -/
theorem memRead_memPut_outside {m : Mem} {a : Nat} {bs : List Byte} {j : Nat}
    (h : j < a ∨ a + bs.length ≤ j) : memRead (memPut m a bs) j = memRead m j := by
  rw [memRead_memPut]
  split_ifs
  · rw [List.getElem?_eq_none (by omega)]; rfl
  · rfl

theorem memRead_memZero (m : Mem) (lo n j : Nat) :
    memRead (memZero m lo n) j = if lo ≤ j ∧ j < lo + n then 0 else memRead m j :=
  Sparse.get_erase 0 m lo n j

/-- A fold of state updates keeps what each of them keeps. -/
theorem foldl_keeps {α β : Type} {P : β → Prop} (f : β → α → β) (hf : ∀ b a, P b → P (f b a)) (l : List α)
    (b : β) (h : P b) : P (l.foldl f b) := by
  induction l generalizing b with
  | nil => exact h
  | cons a l ih => exact ih (f b a) (hf b a h)

/-- A fold of state updates leaves a reading that each of them leaves. -/
theorem foldl_same {α β γ : Type} (g : β → γ) (f : β → α → β) (hf : ∀ b a, g (f b a) = g b) (l : List α)
    (b : β) : g (l.foldl f b) = g b := by
  induction l generalizing b with
  | nil => rfl
  | cons a l ih => exact (ih (f b a)).trans (hf b a)

variable (s : State)

/-! ### What a store brings about besides: each changes the fields it is about and no other -/

@[simp] theorem State.dropTags_hw (a n : Nat) : (s.dropTags a n).hw = s.hw := by
  unfold State.dropTags; dsimp only; split_ifs <;> rfl

@[simp] theorem State.dropTags_mem (a n : Nat) : (s.dropTags a n).mem = s.mem := by
  unfold State.dropTags; dsimp only; split_ifs <;> rfl

@[simp] theorem State.dropTags_memStat (a n : Nat) : (s.dropTags a n).memStat = s.memStat := by
  unfold State.dropTags; dsimp only; split_ifs <;> rfl

@[simp] theorem State.dropTags_power (a n : Nat) : (s.dropTags a n).power = s.power := by
  unfold State.dropTags; dsimp only; split_ifs <;> rfl

@[simp] theorem State.dropTags_locked (a n : Nat) : (s.dropTags a n).locked = s.locked := by
  unfold State.dropTags; dsimp only; split_ifs <;> rfl

@[simp] theorem State.dropTags_parts (a n : Nat) : (s.dropTags a n).parts = s.parts := by
  unfold State.dropTags; dsimp only; split_ifs <;> rfl

@[simp] theorem State.dropTags_ctxs (a n : Nat) : (s.dropTags a n).ctxs = s.ctxs := by
  unfold State.dropTags; dsimp only; split_ifs <;> rfl

@[simp] theorem State.dropTags_arith (a n : Nat) : (s.dropTags a n).arith = s.arith := by
  unfold State.dropTags; dsimp only; split_ifs <;> rfl

@[simp] theorem State.dropTags_fabric (a n : Nat) : (s.dropTags a n).fabric = s.fabric := by
  unfold State.dropTags; dsimp only; split_ifs <;> rfl

@[simp] theorem State.dropTags_coll (a n : Nat) : (s.dropTags a n).coll = s.coll := by
  unfold State.dropTags; dsimp only; split_ifs <;> rfl

@[simp] theorem State.dropTags_tb (a n : Nat) : (s.dropTags a n).tb = s.tb := by
  unfold State.dropTags; dsimp only; split_ifs <;> rfl

@[simp] theorem State.dropTags_links (a n : Nat) : (s.dropTags a n).links = s.links := by
  unfold State.dropTags; dsimp only; split_ifs <;> rfl

@[simp] theorem State.dropTags_host (a n : Nat) : (s.dropTags a n).host = s.host := by
  unfold State.dropTags; dsimp only; split_ifs <;> rfl

@[simp] theorem State.dropTags_mgmt (a n : Nat) : (s.dropTags a n).mgmt = s.mgmt := by
  unfold State.dropTags; dsimp only; split_ifs <;> rfl

@[simp] theorem State.dropTags_fw (a n : Nat) : (s.dropTags a n).fw = s.fw := by
  unfold State.dropTags; dsimp only; split_ifs <;> rfl

@[simp] theorem State.dropTags_train (a n : Nat) : (s.dropTags a n).train = s.train := by
  unfold State.dropTags; dsimp only; split_ifs <;> rfl

@[simp] theorem State.dropTags_tenancy (a n : Nat) : (s.dropTags a n).tenancy = s.tenancy := by
  unfold State.dropTags; dsimp only; split_ifs <;> rfl

@[simp] theorem State.dropTags_jtag (a n : Nat) : (s.dropTags a n).jtag = s.jtag := by
  unfold State.dropTags; dsimp only; split_ifs <;> rfl

@[simp] theorem State.dropTags_out (a n : Nat) : (s.dropTags a n).out = s.out := by
  unfold State.dropTags; dsimp only; split_ifs <;> rfl

@[simp] theorem State.dropTags_freeCtr (a n : Nat) : (s.dropTags a n).freeCtr = s.freeCtr := by
  unfold State.dropTags; dsimp only; split_ifs <;> rfl

@[simp] theorem State.dropTags_pending (a n : Nat) : (s.dropTags a n).pending = s.pending := by
  unfold State.dropTags; dsimp only; split_ifs <;> rfl

@[simp] theorem State.liftPoison_hw (a n : Nat) : (s.liftPoison a n).hw = s.hw := by
  unfold State.liftPoison; dsimp only; split_ifs <;> rfl

@[simp] theorem State.liftPoison_mem (a n : Nat) : (s.liftPoison a n).mem = s.mem := by
  unfold State.liftPoison; dsimp only; split_ifs <;> rfl

@[simp] theorem State.liftPoison_power (a n : Nat) : (s.liftPoison a n).power = s.power := by
  unfold State.liftPoison; dsimp only; split_ifs <;> rfl

@[simp] theorem State.liftPoison_locked (a n : Nat) : (s.liftPoison a n).locked = s.locked := by
  unfold State.liftPoison; dsimp only; split_ifs <;> rfl

@[simp] theorem State.liftPoison_cores (a n : Nat) : (s.liftPoison a n).cores = s.cores := by
  unfold State.liftPoison; dsimp only; split_ifs <;> rfl

@[simp] theorem State.liftPoison_parts (a n : Nat) : (s.liftPoison a n).parts = s.parts := by
  unfold State.liftPoison; dsimp only; split_ifs <;> rfl

@[simp] theorem State.liftPoison_ctxs (a n : Nat) : (s.liftPoison a n).ctxs = s.ctxs := by
  unfold State.liftPoison; dsimp only; split_ifs <;> rfl

@[simp] theorem State.liftPoison_arith (a n : Nat) : (s.liftPoison a n).arith = s.arith := by
  unfold State.liftPoison; dsimp only; split_ifs <;> rfl

@[simp] theorem State.liftPoison_fabric (a n : Nat) : (s.liftPoison a n).fabric = s.fabric := by
  unfold State.liftPoison; dsimp only; split_ifs <;> rfl

@[simp] theorem State.liftPoison_coll (a n : Nat) : (s.liftPoison a n).coll = s.coll := by
  unfold State.liftPoison; dsimp only; split_ifs <;> rfl

@[simp] theorem State.liftPoison_tb (a n : Nat) : (s.liftPoison a n).tb = s.tb := by
  unfold State.liftPoison; dsimp only; split_ifs <;> rfl

@[simp] theorem State.liftPoison_links (a n : Nat) : (s.liftPoison a n).links = s.links := by
  unfold State.liftPoison; dsimp only; split_ifs <;> rfl

@[simp] theorem State.liftPoison_host (a n : Nat) : (s.liftPoison a n).host = s.host := by
  unfold State.liftPoison; dsimp only; split_ifs <;> rfl

@[simp] theorem State.liftPoison_mgmt (a n : Nat) : (s.liftPoison a n).mgmt = s.mgmt := by
  unfold State.liftPoison; dsimp only; split_ifs <;> rfl

@[simp] theorem State.liftPoison_fw (a n : Nat) : (s.liftPoison a n).fw = s.fw := by
  unfold State.liftPoison; dsimp only; split_ifs <;> rfl

@[simp] theorem State.liftPoison_train (a n : Nat) : (s.liftPoison a n).train = s.train := by
  unfold State.liftPoison; dsimp only; split_ifs <;> rfl

@[simp] theorem State.liftPoison_tenancy (a n : Nat) : (s.liftPoison a n).tenancy = s.tenancy := by
  unfold State.liftPoison; dsimp only; split_ifs <;> rfl

@[simp] theorem State.liftPoison_jtag (a n : Nat) : (s.liftPoison a n).jtag = s.jtag := by
  unfold State.liftPoison; dsimp only; split_ifs <;> rfl

@[simp] theorem State.liftPoison_out (a n : Nat) : (s.liftPoison a n).out = s.out := by
  unfold State.liftPoison; dsimp only; split_ifs <;> rfl

@[simp] theorem State.liftPoison_freeCtr (a n : Nat) : (s.liftPoison a n).freeCtr = s.freeCtr := by
  unfold State.liftPoison; dsimp only; split_ifs <;> rfl

@[simp] theorem State.liftPoison_pending (a n : Nat) : (s.liftPoison a n).pending = s.pending := by
  unfold State.liftPoison; dsimp only; split_ifs <;> rfl

/-- A RECALL changes the host link and what is sent. -/
theorem State.recallLine_same {γ : Type} (g : State → γ) (hg : ∀ (s : State) (h : HostLink) (o : List Out),
    g { s with host := h, out := o } = g s) (k line : Nat) : g (s.recallLine k line) = g s := by
  unfold State.recallLine
  dsimp only
  split_ifs
  · rfl
  · split
    · exact hg s _ s.out
    · exact hg s _ _

theorem State.recallFor_same {γ : Type} (g : State → γ) (hg : ∀ (s : State) (h : HostLink) (o : List Out),
    g { s with host := h, out := o } = g s) (a n : Nat) (w : Bool) : g (s.recallFor a n w) = g s := by
  unfold State.recallFor
  exact foldl_same g _ (fun s k => foldl_same g _ (fun s l => s.recallLine_same g hg k l) _ s) _ s

/-- A store leaves every reading that its bytes, the host link, the output, tags and poison do not enter. -/
theorem State.storeRun_same {γ : Type} (g : State → γ)
    (hg : ∀ (s : State) (m : Mem) (h : HostLink) (o : List Out) (c : Sparse Core) (p : MemStat),
      g { s with mem := m, host := h, out := o, cores := c, memStat := p } = g s)
    (a : Nat) (bs : List Byte) : g (s.storeRun a bs) = g s := by
  have hd : ∀ (s : State) (a n : Nat), g (s.dropTags a n) = g s := by
    intro s a n; unfold State.dropTags; dsimp only; split_ifs
    · exact hg s s.mem s.host s.out _ s.memStat
    · rfl
    · rfl
  have hl : ∀ (s : State) (a n : Nat), g (s.liftPoison a n) = g s := by
    intro s a n; unfold State.liftPoison; dsimp only; split_ifs
    · exact hg s s.mem s.host s.out s.cores _
    · rfl
  unfold State.storeRun
  rw [hl, hd]
  refine (hg _ _ _ _ _ _).trans ((foldl_same g _ (fun s k => ?_) _ _).trans
    (s.recallFor_same g (fun s h o => hg s s.mem h o s.cores s.memStat) a bs.length true))
  dsimp only
  split_ifs
  · rfl
  · exact hg s s.mem _ s.out s.cores s.memStat

/-- Zeroing leaves every reading that memory, the host link and the output do not enter. -/
theorem State.zeroRange_same {γ : Type} (g : State → γ)
    (hg : ∀ (s : State) (m : Mem) (h : HostLink) (o : List Out), g { s with mem := m, host := h, out := o } = g s)
    (a n : Nat) : g (s.zeroRange a n) = g s := by
  unfold State.zeroRange
  refine (hg _ _ _ _).trans (foldl_same g _ (fun s k => ?_) _ s)
  dsimp only
  split_ifs
  · rfl
  · refine (hg _ _ _ _).trans (foldl_same g _ (fun s l => s.recallLine_same g (fun s h o => hg s s.mem h o) k l) _ s)

@[simp] theorem State.recallLine_mem (k line : Nat) : (s.recallLine k line).mem = s.mem :=
  s.recallLine_same State.mem (fun _ _ _ => rfl) k line

@[simp] theorem State.recallFor_mem (a n : Nat) (w : Bool) : (s.recallFor a n w).mem = s.mem :=
  s.recallFor_same State.mem (fun _ _ _ => rfl) a n w

@[simp] theorem State.storeRun_hw (a : Nat) (bs : List Byte) : (s.storeRun a bs).hw = s.hw :=
  s.storeRun_same State.hw (fun _ _ _ _ _ _ => rfl) a bs

@[simp] theorem State.storeRun_power (a : Nat) (bs : List Byte) : (s.storeRun a bs).power = s.power :=
  s.storeRun_same State.power (fun _ _ _ _ _ _ => rfl) a bs

@[simp] theorem State.storeRun_locked (a : Nat) (bs : List Byte) : (s.storeRun a bs).locked = s.locked :=
  s.storeRun_same State.locked (fun _ _ _ _ _ _ => rfl) a bs

@[simp] theorem State.storeRun_parts (a : Nat) (bs : List Byte) : (s.storeRun a bs).parts = s.parts :=
  s.storeRun_same State.parts (fun _ _ _ _ _ _ => rfl) a bs

@[simp] theorem State.storeRun_ctxs (a : Nat) (bs : List Byte) : (s.storeRun a bs).ctxs = s.ctxs :=
  s.storeRun_same State.ctxs (fun _ _ _ _ _ _ => rfl) a bs

@[simp] theorem State.storeRun_arith (a : Nat) (bs : List Byte) : (s.storeRun a bs).arith = s.arith :=
  s.storeRun_same State.arith (fun _ _ _ _ _ _ => rfl) a bs

@[simp] theorem State.storeRun_fabric (a : Nat) (bs : List Byte) : (s.storeRun a bs).fabric = s.fabric :=
  s.storeRun_same State.fabric (fun _ _ _ _ _ _ => rfl) a bs

@[simp] theorem State.storeRun_coll (a : Nat) (bs : List Byte) : (s.storeRun a bs).coll = s.coll :=
  s.storeRun_same State.coll (fun _ _ _ _ _ _ => rfl) a bs

@[simp] theorem State.storeRun_tb (a : Nat) (bs : List Byte) : (s.storeRun a bs).tb = s.tb :=
  s.storeRun_same State.tb (fun _ _ _ _ _ _ => rfl) a bs

@[simp] theorem State.storeRun_links (a : Nat) (bs : List Byte) : (s.storeRun a bs).links = s.links :=
  s.storeRun_same State.links (fun _ _ _ _ _ _ => rfl) a bs

@[simp] theorem State.storeRun_mgmt (a : Nat) (bs : List Byte) : (s.storeRun a bs).mgmt = s.mgmt :=
  s.storeRun_same State.mgmt (fun _ _ _ _ _ _ => rfl) a bs

@[simp] theorem State.storeRun_fw (a : Nat) (bs : List Byte) : (s.storeRun a bs).fw = s.fw :=
  s.storeRun_same State.fw (fun _ _ _ _ _ _ => rfl) a bs

@[simp] theorem State.storeRun_train (a : Nat) (bs : List Byte) : (s.storeRun a bs).train = s.train :=
  s.storeRun_same State.train (fun _ _ _ _ _ _ => rfl) a bs

@[simp] theorem State.storeRun_tenancy (a : Nat) (bs : List Byte) : (s.storeRun a bs).tenancy = s.tenancy :=
  s.storeRun_same State.tenancy (fun _ _ _ _ _ _ => rfl) a bs

@[simp] theorem State.storeRun_jtag (a : Nat) (bs : List Byte) : (s.storeRun a bs).jtag = s.jtag :=
  s.storeRun_same State.jtag (fun _ _ _ _ _ _ => rfl) a bs

@[simp] theorem State.storeRun_freeCtr (a : Nat) (bs : List Byte) : (s.storeRun a bs).freeCtr = s.freeCtr :=
  s.storeRun_same State.freeCtr (fun _ _ _ _ _ _ => rfl) a bs

@[simp] theorem State.storeRun_pending (a : Nat) (bs : List Byte) : (s.storeRun a bs).pending = s.pending :=
  s.storeRun_same State.pending (fun _ _ _ _ _ _ => rfl) a bs

@[simp] theorem State.zeroRange_hw (a n : Nat) : (s.zeroRange a n).hw = s.hw :=
  s.zeroRange_same State.hw (fun _ _ _ _ => rfl) a n

@[simp] theorem State.zeroRange_memStat (a n : Nat) : (s.zeroRange a n).memStat = s.memStat :=
  s.zeroRange_same State.memStat (fun _ _ _ _ => rfl) a n

@[simp] theorem State.zeroRange_power (a n : Nat) : (s.zeroRange a n).power = s.power :=
  s.zeroRange_same State.power (fun _ _ _ _ => rfl) a n

@[simp] theorem State.zeroRange_locked (a n : Nat) : (s.zeroRange a n).locked = s.locked :=
  s.zeroRange_same State.locked (fun _ _ _ _ => rfl) a n

@[simp] theorem State.zeroRange_cores (a n : Nat) : (s.zeroRange a n).cores = s.cores :=
  s.zeroRange_same State.cores (fun _ _ _ _ => rfl) a n

@[simp] theorem State.zeroRange_parts (a n : Nat) : (s.zeroRange a n).parts = s.parts :=
  s.zeroRange_same State.parts (fun _ _ _ _ => rfl) a n

@[simp] theorem State.zeroRange_ctxs (a n : Nat) : (s.zeroRange a n).ctxs = s.ctxs :=
  s.zeroRange_same State.ctxs (fun _ _ _ _ => rfl) a n

@[simp] theorem State.zeroRange_arith (a n : Nat) : (s.zeroRange a n).arith = s.arith :=
  s.zeroRange_same State.arith (fun _ _ _ _ => rfl) a n

@[simp] theorem State.zeroRange_fabric (a n : Nat) : (s.zeroRange a n).fabric = s.fabric :=
  s.zeroRange_same State.fabric (fun _ _ _ _ => rfl) a n

@[simp] theorem State.zeroRange_coll (a n : Nat) : (s.zeroRange a n).coll = s.coll :=
  s.zeroRange_same State.coll (fun _ _ _ _ => rfl) a n

@[simp] theorem State.zeroRange_tb (a n : Nat) : (s.zeroRange a n).tb = s.tb :=
  s.zeroRange_same State.tb (fun _ _ _ _ => rfl) a n

@[simp] theorem State.zeroRange_links (a n : Nat) : (s.zeroRange a n).links = s.links :=
  s.zeroRange_same State.links (fun _ _ _ _ => rfl) a n

@[simp] theorem State.zeroRange_mgmt (a n : Nat) : (s.zeroRange a n).mgmt = s.mgmt :=
  s.zeroRange_same State.mgmt (fun _ _ _ _ => rfl) a n

@[simp] theorem State.zeroRange_fw (a n : Nat) : (s.zeroRange a n).fw = s.fw :=
  s.zeroRange_same State.fw (fun _ _ _ _ => rfl) a n

@[simp] theorem State.zeroRange_train (a n : Nat) : (s.zeroRange a n).train = s.train :=
  s.zeroRange_same State.train (fun _ _ _ _ => rfl) a n

@[simp] theorem State.zeroRange_tenancy (a n : Nat) : (s.zeroRange a n).tenancy = s.tenancy :=
  s.zeroRange_same State.tenancy (fun _ _ _ _ => rfl) a n

@[simp] theorem State.zeroRange_jtag (a n : Nat) : (s.zeroRange a n).jtag = s.jtag :=
  s.zeroRange_same State.jtag (fun _ _ _ _ => rfl) a n

@[simp] theorem State.zeroRange_freeCtr (a n : Nat) : (s.zeroRange a n).freeCtr = s.freeCtr :=
  s.zeroRange_same State.freeCtr (fun _ _ _ _ => rfl) a n

@[simp] theorem State.zeroRange_pending (a n : Nat) : (s.zeroRange a n).pending = s.pending :=
  s.zeroRange_same State.pending (fun _ _ _ _ => rfl) a n

/-- The bytes a store writes. -/
theorem State.storeRun_mem (a : Nat) (bs : List Byte) : (s.storeRun a bs).mem = memPut s.mem a bs := by
  unfold State.storeRun
  rw [State.liftPoison_mem, State.dropTags_mem]
  refine congrArg (fun m => memPut m a bs)
    ((foldl_same State.mem _ (fun s k => ?_) _ _).trans (s.recallFor_mem a bs.length true))
  dsimp only
  split_ifs
  · rfl
  · exact State.updHport_mem s k _

theorem State.zeroRange_mem (a n : Nat) : (s.zeroRange a n).mem = memZero s.mem a n := by
  unfold State.zeroRange
  refine congrArg (fun m => memZero m a n) (foldl_same State.mem _ (fun s k => ?_) _ s)
  dsimp only
  split_ifs
  · rfl
  · exact (State.updHport_mem _ k _).trans (foldl_same State.mem _ (fun s l => s.recallLine_mem k l) _ s)

/-- A store leaves every byte outside its run. -/
theorem State.storeRun_outside {s : State} {a : Nat} {bs : List Byte} {j : Nat}
    (h : j < a ∨ a + bs.length ≤ j) : memRead (s.storeRun a bs).mem j = memRead s.mem j := by
  rw [State.storeRun_mem, memRead_memPut_outside h]

/-! ### The canonical form -/

theorem memWf_storeRun {s : State} (a : Nat) (bs : List Byte) (h : memWf s.mem = true) :
    memWf (s.storeRun a bs).mem = true := by
  rw [State.storeRun_mem]; exact memWf_memPut a bs h

theorem memWf_zeroRange {s : State} (a n : Nat) (h : memWf s.mem = true) :
    memWf (s.zeroRange a n).mem = true := by
  rw [State.zeroRange_mem]; exact memWf_memZero a n h

theorem memWf_storeBytes {s : State} (ws : List (Nat × Byte)) (h : memWf s.mem = true) :
    memWf (s.storeBytes ws).mem = true :=
  foldl_keeps (P := fun s : State => memWf s.mem = true) _ (fun _ r h => memWf_storeRun r.1 r.2 h) _ s h

theorem memWf_freeRange {s : State} (a n : Nat) (h : memWf s.mem = true) :
    memWf (s.freeRange a n).mem = true :=
  memWf_storeRun a _ h

end Sys2Proof.Machine
end

