-- ==== Sys2Proof/Laws/Frame.lean ====
section
/-! SUPPORT. Laws/Frame.lean: what a function of the model may change. Same m s t says that t differs from s at most in
the parts whose bit is set in m; every lemma f_keeps says it of one function, with the parts it may reach. -/

namespace Sys2Proof.Machine

/-- The state t keeps of s every part whose bit in m is clear. Bit 0 the fuses, 1 the die maps, 2 memory, 3 the state
of the memories, 4 power, 5 the lock bits, 6 cores, 7 partitions, 8 contexts, 9 arithmetic defaults, 10 the fabric,
11 collectives, 12 the timebase, 13 the fabric ports, 14 all of the links, 15 the host links, 16 management,
17 firmware, 18 gathers, 19 tenancy, 20 the test port, 21 what was sent; bit 22 clear: no port enters service. Whatever
m is, memory keeps its canonical form, and grade, stepping and the queue of commands stay. -/
structure Same (m : Nat) (s t : State) : Prop where
  wf : memWf s.mem = true → memWf t.mem = true
  serve : m.testBit 22 = true ∨ ∀ k, (t.link k).state = 5 → (s.link k).state = 5
  grade : t.hw.grade = s.hw.grade
  stepping : t.hw.stepping = s.hw.stepping
  pending : t.pending = s.pending
  counter : m.testBit 0 = true ∨ t.hw.securityCounter = s.hw.securityCounter
  revoked : m.testBit 0 = true ∨ t.hw.keyRevoked = s.hw.keyRevoked
  dieMap : m.testBit 1 = true ∨ t.hw.dieMap = s.hw.dieMap
  mem : m.testBit 2 = true ∨ t.mem = s.mem
  memStat : m.testBit 3 = true ∨ t.memStat = s.memStat
  power : m.testBit 4 = true ∨ t.power = s.power
  locked : m.testBit 5 = true ∨ t.locked = s.locked
  cores : m.testBit 6 = true ∨ t.cores = s.cores
  parts : m.testBit 7 = true ∨ t.parts = s.parts
  ctxs : m.testBit 8 = true ∨ t.ctxs = s.ctxs
  arith : m.testBit 9 = true ∨ t.arith = s.arith
  fabric : m.testBit 10 = true ∨ t.fabric = s.fabric
  coll : m.testBit 11 = true ∨ t.coll = s.coll
  tb : m.testBit 12 = true ∨ t.tb = s.tb
  ports : m.testBit 13 = true ∨ t.links.ports = s.links.ports
  links : m.testBit 14 = true ∨ t.links = s.links
  host : m.testBit 15 = true ∨ t.host = s.host
  mgmt : m.testBit 16 = true ∨ t.mgmt = s.mgmt
  fw : m.testBit 17 = true ∨ t.fw = s.fw
  train : m.testBit 18 = true ∨ t.train = s.train
  tenancy : m.testBit 19 = true ∨ t.tenancy = s.tenancy
  jtag : m.testBit 20 = true ∨ t.jtag = s.jtag
  out : m.testBit 21 = true ∨ t.out = s.out

/-- A bit of a footprint is a bit of what holds it. -/
theorem bit_of {f m i : Nat} (h : f &&& m = f) (hf : f.testBit i = true) : m.testBit i = true := by
  have := congrArg (Nat.testBit · i) h
  simp only [Nat.testBit_and, hf, Bool.true_and] at this
  exact this

/-- A footprint inside another. -/
theorem sub_of {f g m : Nat} (h : f &&& m = f) (hg : g &&& f = g) : g &&& m = g := by
  rw [← hg, Nat.and_assoc, h]

theorem Same.refl {m : Nat} (s : State) : Same m s s where
  wf h := h
  serve := .inr fun _ h => h
  grade := rfl
  stepping := rfl
  pending := rfl
  counter := .inr rfl
  revoked := .inr rfl
  dieMap := .inr rfl
  mem := .inr rfl
  memStat := .inr rfl
  power := .inr rfl
  locked := .inr rfl
  cores := .inr rfl
  parts := .inr rfl
  ctxs := .inr rfl
  arith := .inr rfl
  fabric := .inr rfl
  coll := .inr rfl
  tb := .inr rfl
  ports := .inr rfl
  links := .inr rfl
  host := .inr rfl
  mgmt := .inr rfl
  fw := .inr rfl
  train := .inr rfl
  tenancy := .inr rfl
  jtag := .inr rfl
  out := .inr rfl

theorem or_eq_trans {p : Prop} {α : Type} {a b c : α} (h : p ∨ b = a) (g : p ∨ c = b) : p ∨ c = a := by
  rcases h with h | h
  · exact .inl h
  · exact g.imp id fun g => g.trans h

theorem Same.trans {m : Nat} {s t u : State} (h : Same m s t) (g : Same m t u) : Same m s u where
  wf w := g.wf (h.wf w)
  serve := by
    rcases h.serve with a | a
    · exact .inl a
    · exact g.serve.imp id fun b k hk => a k (b k hk)
  grade := g.grade.trans h.grade
  stepping := g.stepping.trans h.stepping
  pending := g.pending.trans h.pending
  counter := or_eq_trans h.counter g.counter
  revoked := or_eq_trans h.revoked g.revoked
  dieMap := or_eq_trans h.dieMap g.dieMap
  mem := or_eq_trans h.mem g.mem
  memStat := or_eq_trans h.memStat g.memStat
  power := or_eq_trans h.power g.power
  locked := or_eq_trans h.locked g.locked
  cores := or_eq_trans h.cores g.cores
  parts := or_eq_trans h.parts g.parts
  ctxs := or_eq_trans h.ctxs g.ctxs
  arith := or_eq_trans h.arith g.arith
  fabric := or_eq_trans h.fabric g.fabric
  coll := or_eq_trans h.coll g.coll
  tb := or_eq_trans h.tb g.tb
  ports := or_eq_trans h.ports g.ports
  links := or_eq_trans h.links g.links
  host := or_eq_trans h.host g.host
  mgmt := or_eq_trans h.mgmt g.mgmt
  fw := or_eq_trans h.fw g.fw
  train := or_eq_trans h.train g.train
  tenancy := or_eq_trans h.tenancy g.tenancy
  jtag := or_eq_trans h.jtag g.jtag
  out := or_eq_trans h.out g.out

/-- A record update of s, field by field. -/
theorem Same.of {m : Nat} {z s : State} {hw mem memStat power locked cores parts ctxs arith fabric coll tb links host mgmt
    fw train tenancy jtag out freeCtr pending}
    (h : Same m z s) (e0 : pending = s.pending)
    (e1 : m.testBit 2 = true ∨ mem = s.mem)
    (e2 : m.testBit 3 = true ∨ memStat = s.memStat)
    (e3 : m.testBit 4 = true ∨ power = s.power)
    (e4 : m.testBit 5 = true ∨ locked = s.locked)
    (e5 : m.testBit 6 = true ∨ cores = s.cores)
    (e6 : m.testBit 7 = true ∨ parts = s.parts)
    (e7 : m.testBit 8 = true ∨ ctxs = s.ctxs)
    (e8 : m.testBit 9 = true ∨ arith = s.arith)
    (e9 : m.testBit 10 = true ∨ fabric = s.fabric)
    (e10 : m.testBit 11 = true ∨ coll = s.coll)
    (e11 : m.testBit 12 = true ∨ tb = s.tb)
    (e12 : m.testBit 14 = true ∨ links = s.links)
    (e13 : m.testBit 15 = true ∨ host = s.host)
    (e14 : m.testBit 16 = true ∨ mgmt = s.mgmt)
    (e15 : m.testBit 17 = true ∨ fw = s.fw)
    (e16 : m.testBit 18 = true ∨ train = s.train)
    (e17 : m.testBit 19 = true ∨ tenancy = s.tenancy)
    (e18 : m.testBit 20 = true ∨ jtag = s.jtag)
    (e19 : m.testBit 21 = true ∨ out = s.out)
    (e20 : m.testBit 13 = true ∨ links.ports = s.links.ports)
    (e21 : m.testBit 22 = true ∨ ∀ k, ((Sparse.find links.ports k).getD (Link.reset k)).state = 5 →
      ((Sparse.find s.links.ports k).getD (Link.reset k)).state = 5)
    (e22 : memWf s.mem = true → memWf mem = true)
    (e23 : hw.grade = s.hw.grade) (e24 : hw.stepping = s.hw.stepping)
    (e25 : m.testBit 0 = true ∨ hw.securityCounter = s.hw.securityCounter)
    (e26 : m.testBit 0 = true ∨ hw.keyRevoked = s.hw.keyRevoked)
    (e27 : m.testBit 1 = true ∨ hw.dieMap = s.hw.dieMap) :
    Same m z ⟨hw, mem, memStat, power, locked, cores, parts, ctxs, arith, fabric, coll, tb, links, host, mgmt, fw, train,
      tenancy, jtag, out, freeCtr, pending⟩ :=
  h.trans ⟨e22, e21, e23, e24, e0, e25, e26, e27, e1, e2, e3, e4, e5, e6, e7, e8, e9, e10, e11, e20, e12, e13, e14, e15,
    e16, e17, e18, e19⟩

theorem kept_ite {m : Nat} {z : State} (c : Prop) [Decidable c] (a b : State) (ha : Same m z a) (hb : Same m z b) :
    Same m z (if c then a else b) := by split <;> assumption
theorem kept_ite1 {m : Nat} {z : State} {α : Type} (c : Prop) [Decidable c] (a b : State × α) (ha : Same m z a.1)
    (hb : Same m z b.1) : Same m z (if c then a else b).1 := by split <;> assumption
theorem kept_foldl {m : Nat} {z : State} {α : Type} (f : State → α → State) (l : List α) (s : State)
    (hf : ∀ s a, Same m z s → Same m z (f s a)) (h : Same m z s) : Same m z (l.foldl f s) :=
  foldl_keeps (P := fun s : State => Same m z s) f hf l s h
theorem kept_foldl1 {m : Nat} {z : State} {α β : Type} (f : State × β → α → State × β) (l : List α) (s : State × β)
    (hf : ∀ s a, Same m z s.1 → Same m z (f s a).1) (h : Same m z s.1) : Same m z (l.foldl f s).1 :=
  foldl_keeps (P := fun s : State × β => Same m z s.1) f hf l s h
theorem kept_foldlR {m : Nat} {z : State} {α : Type} (f : RowState → α → RowState) (l : List α) (s : RowState)
    (hf : ∀ s a, Same m z s.st → Same m z (f s a).st) (h : Same m z s.st) : Same m z (l.foldl f s).st :=
  foldl_keeps (P := fun s : RowState => Same m z s.st) f hf l s h
theorem kept_foldlV {m : Nat} {z : State} {α : Type} (f : VecAcc → α → VecAcc) (l : List α) (s : VecAcc)
    (hf : ∀ s a, Same m z s.st → Same m z (f s a).st) (h : Same m z s.st) : Same m z (l.foldl f s).st :=
  foldl_keeps (P := fun s : VecAcc => Same m z s.st) f hf l s h
theorem guarded_next {ok : Bool} {t u : State} (h : guarded ok t = .next u) : t = u := by
  unfold guarded at h; split at h
  · exact Host.Outcome.next.inj h
  · cases h
theorem kept_none {m : Nat} {z : State} : ∀ t : State, (none : Option State) = some t → Same m z t := by
  intro t h; cases h
theorem kept_some {m : Nat} {z s : State} (h : Same m z s) : ∀ t : State, some s = some t → Same m z t := by
  intro t e; cases e; exact h
theorem kept_iteO {m : Nat} {z : State} {c : Prop} [Decidable c] {a b : Option State}
    (ha : ∀ t, a = some t → Same m z t) (hb : ∀ t, b = some t → Same m z t) :
    ∀ t, (if c then a else b) = some t → Same m z t := by
  split <;> assumption
theorem kept_getD {m : Nat} {z : State} {o : Option State} {s : State} (ho : ∀ t, o = some t → Same m z t)
    (h : Same m z s) : Same m z (o.getD s) := by
  cases o with
  | none => exact h
  | some t => exact ho t rfl
theorem kept_bindO {m : Nat} {z : State} {α : Type} {o : Option α} {f : α → Option State}
    (hf : ∀ a t, f a = some t → Same m z t) : ∀ t, o.bind f = some t → Same m z t := by
  cases o with
  | none => exact kept_none
  | some a => exact hf a
theorem kept_mapO {m : Nat} {z : State} {α : Type} {o : Option α} {f : α → State} (hf : ∀ a, Same m z (f a)) :
    ∀ t, o.map f = some t → Same m z t := by
  cases o with
  | none => exact kept_none
  | some a => exact kept_some (hf a)
theorem Same.put {m : Nat} {z s : State} (hb : m.testBit 2 = true) (a : Nat) (bs : List Byte) (h : Same m z s) :
    Same m z { s with mem := memPut s.mem a bs } := by
  refine h.trans ?_
  constructor <;>
    first | exact Or.inr rfl | exact Or.inl hb | rfl | exact fun w => memWf_memPut a bs w | exact Or.inr fun _ h => h
theorem Same.zero {m : Nat} {z s : State} (hb : m.testBit 2 = true) (a n : Nat) (h : Same m z s) :
    Same m z { s with mem := memZero s.mem a n } := by
  refine h.trans ?_
  constructor <;>
    first | exact Or.inr rfl | exact Or.inl hb | rfl | exact fun w => memWf_memZero a n w | exact Or.inr fun _ h => h
theorem Same.set_memStat {m : Nat} {z s : State} {v} (hb : m.testBit 3 = true) (h : Same m z s) :
    Same m z { s with memStat := v } := by
  refine h.trans ?_
  constructor <;> first | exact Or.inr rfl | exact Or.inl hb | rfl | exact id | exact Or.inr fun _ h => h
theorem Same.set_power {m : Nat} {z s : State} {v} (hb : m.testBit 4 = true) (h : Same m z s) :
    Same m z { s with power := v } := by
  refine h.trans ?_
  constructor <;> first | exact Or.inr rfl | exact Or.inl hb | rfl | exact id | exact Or.inr fun _ h => h
theorem Same.set_locked {m : Nat} {z s : State} {v} (hb : m.testBit 5 = true) (h : Same m z s) :
    Same m z { s with locked := v } := by
  refine h.trans ?_
  constructor <;> first | exact Or.inr rfl | exact Or.inl hb | rfl | exact id | exact Or.inr fun _ h => h
theorem Same.set_cores {m : Nat} {z s : State} {v} (hb : m.testBit 6 = true) (h : Same m z s) :
    Same m z { s with cores := v } := by
  refine h.trans ?_
  constructor <;> first | exact Or.inr rfl | exact Or.inl hb | rfl | exact id | exact Or.inr fun _ h => h
theorem Same.set_parts {m : Nat} {z s : State} {v} (hb : m.testBit 7 = true) (h : Same m z s) :
    Same m z { s with parts := v } := by
  refine h.trans ?_
  constructor <;> first | exact Or.inr rfl | exact Or.inl hb | rfl | exact id | exact Or.inr fun _ h => h
theorem Same.set_ctxs {m : Nat} {z s : State} {v} (hb : m.testBit 8 = true) (h : Same m z s) :
    Same m z { s with ctxs := v } := by
  refine h.trans ?_
  constructor <;> first | exact Or.inr rfl | exact Or.inl hb | rfl | exact id | exact Or.inr fun _ h => h
theorem Same.set_arith {m : Nat} {z s : State} {v} (hb : m.testBit 9 = true) (h : Same m z s) :
    Same m z { s with arith := v } := by
  refine h.trans ?_
  constructor <;> first | exact Or.inr rfl | exact Or.inl hb | rfl | exact id | exact Or.inr fun _ h => h
theorem Same.set_fabric {m : Nat} {z s : State} {v} (hb : m.testBit 10 = true) (h : Same m z s) :
    Same m z { s with fabric := v } := by
  refine h.trans ?_
  constructor <;> first | exact Or.inr rfl | exact Or.inl hb | rfl | exact id | exact Or.inr fun _ h => h
theorem Same.set_coll {m : Nat} {z s : State} {v} (hb : m.testBit 11 = true) (h : Same m z s) :
    Same m z { s with coll := v } := by
  refine h.trans ?_
  constructor <;> first | exact Or.inr rfl | exact Or.inl hb | rfl | exact id | exact Or.inr fun _ h => h
theorem Same.set_tb {m : Nat} {z s : State} {v} (hb : m.testBit 12 = true) (h : Same m z s) :
    Same m z { s with tb := v } := by
  refine h.trans ?_
  constructor <;> first | exact Or.inr rfl | exact Or.inl hb | rfl | exact id | exact Or.inr fun _ h => h
theorem Same.set_host {m : Nat} {z s : State} {v} (hb : m.testBit 15 = true) (h : Same m z s) :
    Same m z { s with host := v } := by
  refine h.trans ?_
  constructor <;> first | exact Or.inr rfl | exact Or.inl hb | rfl | exact id | exact Or.inr fun _ h => h
theorem Same.set_mgmt {m : Nat} {z s : State} {v} (hb : m.testBit 16 = true) (h : Same m z s) :
    Same m z { s with mgmt := v } := by
  refine h.trans ?_
  constructor <;> first | exact Or.inr rfl | exact Or.inl hb | rfl | exact id | exact Or.inr fun _ h => h
theorem Same.set_fw {m : Nat} {z s : State} {v} (hb : m.testBit 17 = true) (h : Same m z s) :
    Same m z { s with fw := v } := by
  refine h.trans ?_
  constructor <;> first | exact Or.inr rfl | exact Or.inl hb | rfl | exact id | exact Or.inr fun _ h => h
theorem Same.set_train {m : Nat} {z s : State} {v} (hb : m.testBit 18 = true) (h : Same m z s) :
    Same m z { s with train := v } := by
  refine h.trans ?_
  constructor <;> first | exact Or.inr rfl | exact Or.inl hb | rfl | exact id | exact Or.inr fun _ h => h
theorem Same.set_tenancy {m : Nat} {z s : State} {v} (hb : m.testBit 19 = true) (h : Same m z s) :
    Same m z { s with tenancy := v } := by
  refine h.trans ?_
  constructor <;> first | exact Or.inr rfl | exact Or.inl hb | rfl | exact id | exact Or.inr fun _ h => h
theorem Same.set_jtag {m : Nat} {z s : State} {v} (hb : m.testBit 20 = true) (h : Same m z s) :
    Same m z { s with jtag := v } := by
  refine h.trans ?_
  constructor <;> first | exact Or.inr rfl | exact Or.inl hb | rfl | exact id | exact Or.inr fun _ h => h
theorem Same.set_out {m : Nat} {z s : State} {v} (hb : m.testBit 21 = true) (h : Same m z s) :
    Same m z { s with out := v } := by
  refine h.trans ?_
  constructor <;> first | exact Or.inr rfl | exact Or.inl hb | rfl | exact id | exact Or.inr fun _ h => h
theorem Same.set_links {m : Nat} {z s : State} {v : Links} (hb : m.testBit 14 = true) (hp : v.ports = s.links.ports)
    (h : Same m z s) : Same m z { s with links := v } := by
  refine h.trans ?_
  constructor <;>
    first | exact Or.inr rfl | exact Or.inl hb | rfl | exact id | exact Or.inr hp | exact Or.inr fun k e => (congrArg (fun p => ((Sparse.find p k).getD (Link.reset k)).state) hp).symm.trans e
theorem Same.set_dies {m : Nat} {z s : State} {v w} (hb : m.testBit 1 = true) (hc : m.testBit 3 = true)
    (h : Same m z s) : Same m z { s with hw := { s.hw with dieMap := v }, memStat := w } := by
  refine h.trans ?_
  constructor <;>
    first | exact Or.inr rfl | exact Or.inl hb | exact Or.inl hc | rfl | exact id | exact Or.inr fun _ h => h
theorem memWf_foldl {α : Type} (f : Mem → α → Mem) (l : List α) (m : Mem)
    (hf : ∀ m a, memWf m = true → memWf (f m a) = true) (h : memWf m = true) : memWf (l.foldl f m) = true :=
  foldl_keeps (P := fun m : Mem => memWf m = true) f hf l m h
/-- The state that a packet's turn leaves, whether the packet left or stays. -/
def Turn.st : Turn → State
  | .leaves s => s
  | .stays s _ => s
theorem kept_leaves {m : Nat} {z s : State} (h : Same m z s) : Same m z (Turn.leaves s).st := h
theorem kept_stays {m : Nat} {z s : State} {p : Pkt} (h : Same m z s) : Same m z (Turn.stays s p).st := h
theorem kept_iteT {m : Nat} {z : State} {c : Prop} [Decidable c] {a b : Turn} (ha : Same m z a.st) (hb : Same m z b.st) :
    Same m z (if c then a else b).st := by split <;> assumption
theorem kept_left {m : Nat} {z u : State} {t : Turn} (e : t = .leaves u) (h : Same m z t.st) : Same m z u := by
  subst e; exact h
theorem kept_stayed {m : Nat} {z u : State} {t : Turn} {p : Pkt} (e : t = .stays u p) (h : Same m z t.st) :
    Same m z u := by subst e; exact h

end Sys2Proof.Machine
end

