-- ==== Sys2Proof/Laws/FrameCore.lean ====
section
/-! SUPPORT. Laws/FrameCore.lean: which parts of the state each function of the model may reach (see Laws/Frame.lean):
stores, tallies, stops, queues, partitions and the engines of a core. -/

namespace Sys2Proof.Machine

variable {fp : Nat} {z₀ : State}

/-! ### Machine/Ops.lean -/

theorem State.setCore_keeps (hm : 0x40 &&& fp = 0x40) (s : State) (c : Nat) (k : Core) (h_s : Same fp z₀ s) :
    Same fp z₀ (State.setCore s c k) := by
  unfold State.setCore
  repeat' with_reducible (first | assumption | apply Same.set_cores (bit_of hm rfl))

theorem State.updCore_keeps (hm : 0x40 &&& fp = 0x40) (s : State) (c : Nat) (f : Core → Core) (h_s : Same fp z₀ s) :
    Same fp z₀ (State.updCore s c f) := by
  unfold State.updCore
  repeat' with_reducible (first | assumption | apply State.setCore_keeps (sub_of hm rfl))

theorem State.setPart_keeps (hm : 0x80 &&& fp = 0x80) (s : State) (p : Nat) (k : Part) (h_s : Same fp z₀ s) :
    Same fp z₀ (State.setPart s p k) := by
  unfold State.setPart
  repeat' with_reducible (first | assumption | apply Same.set_parts (bit_of hm rfl))

theorem State.updPart_keeps (hm : 0x80 &&& fp = 0x80) (s : State) (p : Nat) (f : Part → Part) (h_s : Same fp z₀ s) :
    Same fp z₀ (State.updPart s p f) := by
  unfold State.updPart
  repeat' with_reducible (first | assumption | apply State.setPart_keeps (sub_of hm rfl))

theorem State.setCtx_keeps (hm : 0x100 &&& fp = 0x100) (s : State) (n : Nat) (k : Ctx) (h_s : Same fp z₀ s) :
    Same fp z₀ (State.setCtx s n k) := by
  unfold State.setCtx
  repeat' with_reducible (first | assumption | apply Same.set_ctxs (bit_of hm rfl))

theorem State.updLink_keeps (hm : 0x406000 &&& fp = 0x406000) (s : State) (k : Nat) (f : Link → Link)
    (h_s : Same fp z₀ s) : Same fp z₀ (State.updLink s k f) := by
  unfold State.updLink
  repeat' with_reducible
    first
    | assumption
    | (refine Same.of (s := ?_) ?_ ?_ ?_ ?_ ?_ ?_ ?_ ?_ ?_ ?_ ?_ ?_ ?_ ?_ ?_ ?_ ?_ ?_ ?_ ?_ ?_ ?_ ?_ ?_ ?_ ?_ ?_ ?_ ?_ <;>
        first | exact Or.inr rfl | exact Or.inl (bit_of hm rfl) | rfl | exact id | exact Or.inr fun _ h => h | skip)

theorem State.updLink_kept (hm : 0x6000 &&& fp = 0x6000) (s : State) (k : Nat) (f : Link → Link)
    (hf : (f (s.link k)).state = 5 → (s.link k).state = 5) (h_s : Same fp z₀ s) : Same fp z₀ (s.updLink k f) := by
  refine h_s.trans ?_
  have hb : fp.testBit 13 = true := bit_of hm rfl
  have hc : fp.testBit 14 = true := bit_of hm rfl
  refine ⟨id, .inr fun j e => ?_, rfl, rfl, rfl, ?_, ?_, ?_, ?_, ?_, ?_, ?_, ?_, ?_, ?_, ?_, ?_, ?_, ?_, ?_, ?_, ?_, ?_, ?_, ?_,
    ?_, ?_, ?_⟩ <;> first | exact Or.inr rfl | exact Or.inl hb | exact Or.inl hc | skip
  rw [State.link_updLink] at e
  split at e
  · next h => subst h; exact hf e
  · exact e

theorem State.updHport_keeps (hm : 0x8000 &&& fp = 0x8000) (s : State) (k : Nat) (f : HostPort → HostPort)
    (h_s : Same fp z₀ s) : Same fp z₀ (State.updHport s k f) := by
  unfold State.updHport
  repeat' with_reducible (first | assumption | apply Same.set_host (bit_of hm rfl))

theorem State.updCtr_keeps (hm : 0x400 &&& fp = 0x400) (s : State) (k : Nat) (f : PortCtr → PortCtr)
    (h_s : Same fp z₀ s) : Same fp z₀ (State.updCtr s k f) := by
  unfold State.updCtr
  repeat' with_reducible (first | assumption | apply Same.set_fabric (bit_of hm rfl))

theorem State.updSlot_keeps (hm : 0x20000 &&& fp = 0x20000) (s : State) (i : Nat) (f : Slot → Slot)
    (h_s : Same fp z₀ s) : Same fp z₀ (State.updSlot s i f) := by
  unfold State.updSlot
  repeat' with_reducible (first | assumption | apply Same.set_fw (bit_of hm rfl))

theorem State.send_keeps (hm : 0x200000 &&& fp = 0x200000) (s : State) (o : Out) (h_s : Same fp z₀ s) :
    Same fp z₀ (State.send s o) := by
  unfold State.send
  repeat' with_reducible (first | assumption | apply Same.set_out (bit_of hm rfl))

theorem State.sendAll_keeps (hm : 0x200000 &&& fp = 0x200000) (s : State) (os : List Out) (h_s : Same fp z₀ s) :
    Same fp z₀ (State.sendAll s os) := by
  unfold State.sendAll
  repeat' with_reducible (first | assumption | apply Same.set_out (bit_of hm rfl))

theorem State.dropTags_keeps (hm : 0x40 &&& fp = 0x40) (s : State) (a : Nat) (n : Nat) (h_s : Same fp z₀ s) :
    Same fp z₀ (State.dropTags s a n) := by
  unfold State.dropTags
  repeat' with_reducible (first | assumption | apply State.updCore_keeps (sub_of hm rfl) | dsimp only | split)

theorem State.liftPoison_keeps (hm : 0x8 &&& fp = 0x8) (s : State) (a : Nat) (n : Nat) (h_s : Same fp z₀ s) :
    Same fp z₀ (State.liftPoison s a n) := by
  unfold State.liftPoison
  repeat' with_reducible (first | assumption | split | apply Same.set_memStat (bit_of hm rfl))

theorem State.recallLine_keeps (hm : 0x208000 &&& fp = 0x208000) (s : State) (k : Nat) (line : Nat)
    (h_s : Same fp z₀ s) : Same fp z₀ (State.recallLine s k line) := by
  unfold State.recallLine
  repeat' with_reducible
    first
    | assumption | apply State.updHport_keeps (sub_of hm rfl) | apply State.send_keeps (sub_of hm rfl) | split
    | apply Same.set_host (bit_of hm rfl)

theorem State.recallFor_keeps (hm : 0x208000 &&& fp = 0x208000) (s : State) (a : Nat) (n : Nat) (write : Bool)
    (h_s : Same fp z₀ s) : Same fp z₀ (State.recallFor s a n write) := by
  unfold State.recallFor
  repeat' with_reducible
    first
    | intro _ | assumption | apply State.recallLine_keeps (sub_of hm rfl) | apply kept_foldl

theorem State.storeRun_keeps (hm : 0x20804C &&& fp = 0x20804C) (s : State) (a : Nat) (bs : List Byte)
    (h_s : Same fp z₀ s) : Same fp z₀ (State.storeRun s a bs) := by
  unfold State.storeRun
  refine State.liftPoison_keeps (sub_of hm rfl) _ _ _ (State.dropTags_keeps (sub_of hm rfl) _ _ _
    (Same.put (bit_of hm rfl) _ _ (kept_foldl _ _ _ (fun s k h => ?_) (State.recallFor_keeps (sub_of hm rfl) _ _ _ _ h_s))))
  exact kept_ite _ _ _ h (State.updHport_keeps (sub_of hm rfl) _ _ _ h)

theorem State.zeroRange_keeps (hm : 0x208004 &&& fp = 0x208004) (s : State) (a : Nat) (n : Nat) (h_s : Same fp z₀ s) :
    Same fp z₀ (State.zeroRange s a n) := by
  unfold State.zeroRange
  refine Same.zero (bit_of hm rfl) _ _ (kept_foldl _ _ _ (fun s k h => ?_) h_s)
  exact kept_ite _ _ _ h (State.updHport_keeps (sub_of hm rfl) _ _ _
    (kept_foldl _ _ _ (fun s l h => State.recallLine_keeps (sub_of hm rfl) _ _ _ h) h))

theorem State.storeBytes_keeps (hm : 0x20804C &&& fp = 0x20804C) (s : State) (ws : List (Nat × Byte))
    (h_s : Same fp z₀ s) : Same fp z₀ (State.storeBytes s ws) := by
  unfold State.storeBytes
  repeat' with_reducible
    first
    | intro _ | assumption | apply State.storeRun_keeps (sub_of hm rfl) | apply kept_foldl

theorem State.freeRange_keeps (hm : 0x20804C &&& fp = 0x20804C) (s : State) (a : Nat) (n : Nat) (h_s : Same fp z₀ s) :
    Same fp z₀ (State.freeRange s a n) := by
  unfold State.freeRange
  repeat' with_reducible
    first
    | assumption | apply State.storeRun_keeps (sub_of hm rfl)
    | (refine Same.of (s := ?_) ?_ ?_ ?_ ?_ ?_ ?_ ?_ ?_ ?_ ?_ ?_ ?_ ?_ ?_ ?_ ?_ ?_ ?_ ?_ ?_ ?_ ?_ ?_ ?_ ?_ ?_ ?_ ?_ ?_ <;>
        first | exact Or.inr rfl | exact Or.inl (bit_of hm rfl) | rfl | exact id | exact Or.inr fun _ h => h | skip)

theorem State.putTally_keeps (hm : 0xC0 &&& fp = 0xC0) (s : State) (c : Nat) (t : Nat) (v : Word)
    (h_s : Same fp z₀ s) : Same fp z₀ (State.putTally s c t v) := by
  unfold State.putTally
  repeat' with_reducible
    first
    | assumption | apply State.updCore_keeps (sub_of hm rfl) | apply State.updPart_keeps (sub_of hm rfl) | split


/-! ### Machine/Notify.lean -/

theorem State.hostRequest_keeps (hm : 0x208000 &&& fp = 0x208000) (s : State) (k : Nat) (isRead : Bool) (addr : Nat)
    (len : Nat) (payload : List Byte) (core : Option Nat) (h_s : Same fp z₀ s) :
    Same fp z₀ (State.hostRequest s k isRead addr len payload core) := by
  unfold State.hostRequest
  repeat' with_reducible
    first
    | assumption | apply State.send_keeps (sub_of hm rfl) | apply State.updHport_keeps (sub_of hm rfl) | split

theorem State.sendInterrupt_keeps (hm : 0x208000 &&& fp = 0x208000) (s : State) (k : Nat) (v : Nat)
    (h_s : Same fp z₀ s) : Same fp z₀ (State.sendInterrupt s k v) := by
  unfold State.sendInterrupt
  repeat' with_reducible
    first
    | assumption | apply State.updHport_keeps (sub_of hm rfl) | apply State.hostRequest_keeps (sub_of hm rfl)
    | split

theorem State.sendOwed_keeps (hm : 0x208000 &&& fp = 0x208000) (s : State) (k : Nat) (h_s : Same fp z₀ s) :
    Same fp z₀ (State.sendOwed s k) := by
  unfold State.sendOwed
  repeat' with_reducible
    first
    | intro _ | assumption | apply State.recallLine_keeps (sub_of hm rfl)
    | apply State.updHport_keeps (sub_of hm rfl) | apply State.sendInterrupt_keeps (sub_of hm rfl)
    | apply kept_foldl

theorem State.raiseOn_keeps (hm : 0x208000 &&& fp = 0x208000) (s : State) (k : Nat) (v : Nat) (cause : Nat)
    (h_s : Same fp z₀ s) : Same fp z₀ (State.raiseOn s k v cause) := by
  unfold State.raiseOn
  repeat' with_reducible
    first
    | assumption | apply State.updHport_keeps (sub_of hm rfl) | apply State.sendInterrupt_keeps (sub_of hm rfl)
    | dsimp only | split

theorem State.raiseCause_keeps (hm : 0x208000 &&& fp = 0x208000) (s : State) (p : Nat) (cause : Nat)
    (h_s : Same fp z₀ s) : Same fp z₀ (State.raiseCause s p cause) := by
  unfold State.raiseCause
  repeat' with_reducible
    first
    | intro _ | assumption | apply State.raiseOn_keeps (sub_of hm rfl) | apply kept_foldl | dsimp only | split

theorem State.writeFault_keeps (hm : 0x20C000 &&& fp = 0x20C000) (s : State) (f : HeldFault) (h_s : Same fp z₀ s) :
    Same fp z₀ (State.writeFault s f) := by
  unfold State.writeFault
  repeat' with_reducible
    first
    | intro _ | assumption | apply State.raiseCause_keeps (sub_of hm rfl) | apply kept_foldl
    | (refine Same.of (s := ?_) ?_ ?_ ?_ ?_ ?_ ?_ ?_ ?_ ?_ ?_ ?_ ?_ ?_ ?_ ?_ ?_ ?_ ?_ ?_ ?_ ?_ ?_ ?_ ?_ ?_ ?_ ?_ ?_ ?_ <;>
        first | exact Or.inr rfl | exact Or.inl (bit_of hm rfl) | rfl | exact id | exact Or.inr fun _ h => h | skip)

theorem State.recordFault_keeps (hm : 0x20C000 &&& fp = 0x20C000) (s : State) (status : Half) (cls : Nat)
    (kind : Nat) (unit : Nat) (stopped : List Nat) (d0 : Nat) (d1 : Nat) (h_s : Same fp z₀ s) :
    Same fp z₀ (State.recordFault s status cls kind unit stopped d0 d1) := by
  unfold State.recordFault
  repeat' with_reducible
    first
    | assumption | apply State.writeFault_keeps (sub_of hm rfl) | split
    | (refine Same.of (s := ?_) ?_ ?_ ?_ ?_ ?_ ?_ ?_ ?_ ?_ ?_ ?_ ?_ ?_ ?_ ?_ ?_ ?_ ?_ ?_ ?_ ?_ ?_ ?_ ?_ ?_ ?_ ?_ ?_ ?_ <;>
        first | exact Or.inr rfl | exact Or.inl (bit_of hm rfl) | rfl | exact id | exact Or.inr fun _ h => h | skip)


/-! ### Machine/Skein.lean -/

theorem State.inject_keeps (hm : 0x400 &&& fp = 0x400) (s : State) (p : Pkt) (h_s : Same fp z₀ s) :
    Same fp z₀ (State.inject s p) := by
  unfold State.inject
  repeat' with_reducible (first | assumption | apply Same.set_fabric (bit_of hm rfl))

theorem State.injectHeld_keeps (hm : 0x400 &&& fp = 0x400) (s : State) (p : Pkt) (h_s : Same fp z₀ s) :
    Same fp z₀ (State.injectHeld s p) := by
  unfold State.injectHeld
  repeat' with_reducible
    first
    | assumption | apply State.inject_keeps (sub_of hm rfl) | split | apply Same.set_fabric (bit_of hm rfl)

theorem State.updSkein_keeps (hm : 0x400 &&& fp = 0x400) (s : State) (n : Nat) (f : Skein → Skein)
    (h_s : Same fp z₀ s) : Same fp z₀ (State.updSkein s n f) := by
  unfold State.updSkein
  repeat' with_reducible (first | assumption | apply Same.set_fabric (bit_of hm rfl))

theorem State.openSkein_keeps (hm : 0x400 &&& fp = 0x400) (s : State) (p : Nat) (d : Nat) (h_s : Same fp z₀ s) :
    Same fp z₀ (State.openSkein s p d) := by
  unfold State.openSkein
  repeat' with_reducible
    first
    | assumption | apply State.inject_keeps (sub_of hm rfl) | split | apply Same.set_fabric (bit_of hm rfl)

theorem State.dropSkein_keeps (hm : 0x400 &&& fp = 0x400) (s : State) (n : Nat) (h_s : Same fp z₀ s) :
    Same fp z₀ (State.dropSkein s n) := by
  unfold State.dropSkein
  repeat' with_reducible (first | assumption | apply Same.set_fabric (bit_of hm rfl))

theorem State.closeSkein_keeps (hm : 0x400 &&& fp = 0x400) (s : State) (k : Skein) (h_s : Same fp z₀ s) :
    Same fp z₀ (State.closeSkein s k) := by
  unfold State.closeSkein
  repeat' with_reducible
    first
    | assumption | apply State.injectHeld_keeps (sub_of hm rfl) | apply State.dropSkein_keeps (sub_of hm rfl)

theorem State.trySend_keeps (hm : 0x400 &&& fp = 0x400) (s : State) (before : List WaitX) (w : WaitX)
    (h_s : Same fp z₀ s) : ∀ t, State.trySend s before w = some t → Same fp z₀ t := by
  unfold State.trySend
  repeat' with_reducible
    first
    | exact kept_none | refine kept_some ?_ | refine kept_iteO ?_ ?_ | refine kept_bindO ?_ | refine kept_mapO ?_
    | split | assumption | apply State.updSkein_keeps (sub_of hm rfl) | apply State.inject_keeps (sub_of hm rfl)
    | exact kept_none | refine kept_some ?_ | refine kept_iteO ?_ ?_ | apply kept_foldl | split
    | apply Same.set_fabric (bit_of hm rfl)

theorem State.openWaiting_keeps (hm : 0x400 &&& fp = 0x400) (s : State) (h_s : Same fp z₀ s) :
    Same fp z₀ (State.openWaiting s) := by
  unfold State.openWaiting
  repeat' with_reducible
    first
    | intro _ | assumption | apply State.openSkein_keeps (sub_of hm rfl) | apply kept_foldl | split

theorem State.pump_keeps (hm : 0x400 &&& fp = 0x400) (s : State) (h_s : Same fp z₀ s) :
    Same fp z₀ (State.pump s) := by
  unfold State.pump
  repeat' with_reducible
    first
    | refine State.trySend_keeps (sub_of hm rfl) _ _ _ ?_ | refine kept_some ?_ | exact kept_none
    | refine kept_iteO ?_ ?_ | intro _ | assumption | apply State.openWaiting_keeps (sub_of hm rfl)
    | refine State.trySend_keeps (sub_of hm rfl) _ _ _ ?_ _ (by assumption)
    | refine State.trySend_keeps (sub_of hm rfl) _ _ _ ?_ | apply kept_getD | apply kept_foldl | apply kept_foldl1
    | split | apply Same.set_fabric (bit_of hm rfl)

theorem State.enqueueX_keeps (hm : 0x400 &&& fp = 0x400) (s : State) (p : Nat) (core : Option Nat) (xs : List Xfer)
    (h_s : Same fp z₀ s) : Same fp z₀ (State.enqueueX s p core xs) := by
  unfold State.enqueueX
  repeat' with_reducible
    first
    | assumption | apply State.pump_keeps (sub_of hm rfl) | split | apply Same.set_fabric (bit_of hm rfl)


/-! ### Machine/Answer.lean -/

theorem State.updMgmt_keeps (hm : 0x10000 &&& fp = 0x10000) (s : State) (f : Mgmt → Mgmt) (h_s : Same fp z₀ s) :
    Same fp z₀ (State.updMgmt s f) := by
  unfold State.updMgmt
  repeat' with_reducible (first | assumption | apply Same.set_mgmt (bit_of hm rfl))

theorem State.sendFrame_keeps (hm : 0x210000 &&& fp = 0x210000) (t : State) (s : State) (d : Dgram)
    (frame : List Byte) (h_t : Same fp z₀ t) (h_s : Same fp z₀ s) : Same fp z₀ (State.sendFrame t s d frame) := by
  unfold State.sendFrame
  repeat' with_reducible
    first
    | assumption | apply State.updMgmt_keeps (sub_of hm rfl) | split | apply Same.set_out (bit_of hm rfl)

theorem State.deliverAnswer_keeps (hm : 0x218000 &&& fp = 0x218000) (t : State) (s : State) (path : Path) (op : Nat)
    (r : AReq) (x : Reply) (h_t : Same fp z₀ t) (h_s : Same fp z₀ s) :
    Same fp z₀ (State.deliverAnswer t s path op r x) := by
  unfold State.deliverAnswer
  repeat' with_reducible
    first
    | assumption | apply State.sendFrame_keeps (sub_of hm rfl) | apply State.updMgmt_keeps (sub_of hm rfl)
    | apply State.updHport_keeps (sub_of hm rfl) | dsimp only | split

theorem State.answerWaiting_keeps (hm : 0x218000 &&& fp = 0x218000) (s : State) (p : Nat) (aper : Bool)
    (h_s : Same fp z₀ s) : Same fp z₀ (State.answerWaiting s p aper) := by
  unfold State.answerWaiting
  repeat' with_reducible
    first
    | intro _ | assumption | apply State.deliverAnswer_keeps (sub_of hm rfl)
    | apply State.updMgmt_keeps (sub_of hm rfl) | apply kept_foldl

theorem State.settleAperture_keeps (hm : 0x218080 &&& fp = 0x218080) (s : State) (p : Nat) (h_s : Same fp z₀ s) :
    Same fp z₀ (State.settleAperture s p) := by
  unfold State.settleAperture
  repeat' with_reducible
    first
    | assumption | apply State.answerWaiting_keeps (sub_of hm rfl) | apply State.updPart_keeps (sub_of hm rfl)
    | split

theorem State.settleApertures_keeps (hm : 0x218080 &&& fp = 0x218080) (s : State) (h_s : Same fp z₀ s) :
    Same fp z₀ (State.settleApertures s) := by
  unfold State.settleApertures
  repeat' with_reducible (first | assumption | apply State.settleAperture_keeps (sub_of hm rfl) | apply kept_foldl)


/-! ### Machine/HostQueue.lean -/

theorem State.updQueue_keeps (hm : 0x8000 &&& fp = 0x8000) (s : State) (k : Nat) (q : Nat) (f : HQueue → HQueue)
    (h_s : Same fp z₀ s) : Same fp z₀ (State.updQueue s k q f) := by
  unfold State.updQueue
  repeat' with_reducible (first | assumption | apply State.updHport_keeps (sub_of hm rfl))

theorem State.queuesOf_keeps (hm : 0x8000 &&& fp = 0x8000) (s : State) (p : Nat) (f : HQueue → HQueue)
    (h_s : Same fp z₀ s) : Same fp z₀ (State.queuesOf s p f) := by
  unfold State.queuesOf
  repeat' with_reducible
    first
    | intro _ | assumption | apply State.updQueue_keeps (sub_of hm rfl) | apply kept_foldl | split

theorem State.releaseCore_keeps (hm : 0x8000 &&& fp = 0x8000) (s : State) (c : Nat) (h_s : Same fp z₀ s) :
    Same fp z₀ (State.releaseCore s c) := by
  unfold State.releaseCore
  repeat' with_reducible
    first
    | intro _ | assumption | apply State.updQueue_keeps (sub_of hm rfl) | apply kept_foldl | dsimp only | split

theorem State.releaseQueues_keeps (hm : 0x8000 &&& fp = 0x8000) (s : State) (c : Nat) (t : Nat) (h_s : Same fp z₀ s) :
    Same fp z₀ (State.releaseQueues s c t) := by
  unfold State.releaseQueues
  repeat' with_reducible
    first
    | intro _ | assumption | apply State.updQueue_keeps (sub_of hm rfl) | apply kept_foldl | dsimp only | split


/-! ### Machine/Tally.lean -/

theorem State.setTally_keeps (hm : 0x84C0 &&& fp = 0x84C0) (s : State) (c : Nat) (t : Nat) (v : Word)
    (h_s : Same fp z₀ s) : Same fp z₀ (State.setTally s c t v) := by
  unfold State.setTally
  repeat' with_reducible
    first
    | intro _ | assumption | apply State.releaseQueues_keeps (sub_of hm rfl)
    | apply State.putTally_keeps (sub_of hm rfl) | apply State.enqueueX_keeps (sub_of hm rfl) | apply kept_foldl
    | dsimp only | split

theorem State.addTally_keeps (hm : 0x84C0 &&& fp = 0x84C0) (s : State) (c : Nat) (t : Nat) (v : Word)
    (h_s : Same fp z₀ s) : Same fp z₀ (State.addTally s c t v) := by
  unfold State.addTally
  repeat' with_reducible (first | assumption | apply State.setTally_keeps (sub_of hm rfl))


/-! ### Machine/Stop.lean -/

theorem State.writeRecord_keeps (hm : 0x20804C &&& fp = 0x20804C) (s : State) (c : Nat) (kind : Nat) (tag : Nat)
    (st : Half) (flags : Half) (h_s : Same fp z₀ s) : Same fp z₀ (State.writeRecord s c kind tag st flags) := by
  unfold State.writeRecord
  repeat' with_reducible
    first
    | assumption | apply State.updCore_keeps (sub_of hm rfl) | apply State.storeRun_keeps (sub_of hm rfl)
    | apply State.raiseCause_keeps (sub_of hm rfl) | dsimp only | split

theorem State.stopQueue_keeps (hm : 0x208040 &&& fp = 0x208040) (s : State) (c : Nat) (tag : Nat) (st : Half)
    (h_s : Same fp z₀ s) : Same fp z₀ (State.stopQueue s c tag st) := by
  unfold State.stopQueue
  repeat' with_reducible
    first
    | assumption | apply State.updCore_keeps (sub_of hm rfl) | apply State.raiseCause_keeps (sub_of hm rfl)
    | dsimp only | split

theorem State.collDone_keeps (hm : 0x800 &&& fp = 0x800) (s : State) (kind : Nat) (h_s : Same fp z₀ s) :
    Same fp z₀ (State.collDone s kind) := by
  unfold State.collDone
  repeat' with_reducible (first | assumption | split | apply Same.set_coll (bit_of hm rfl))

theorem State.complete_keeps (hm : 0x208CCC &&& fp = 0x208CCC) (s : State) (p : Nat) (c : Nat) (e : Entry)
    (st : Half) (flags : Half) (signal : Bool) (h_s : Same fp z₀ s) :
    Same fp z₀ (State.complete s p c e st flags signal) := by
  unfold State.complete
  repeat' with_reducible
    first
    | assumption | apply State.addTally_keeps (sub_of hm rfl) | apply State.collDone_keeps (sub_of hm rfl)
    | apply State.writeRecord_keeps (sub_of hm rfl) | apply State.stopQueue_keeps (sub_of hm rfl) | split

theorem State.freeLedger_keeps (hm : 0x800 &&& fp = 0x800) (s : State) (p : Nat) (h_s : Same fp z₀ s) :
    Same fp z₀ (State.freeLedger s p) := by
  unfold State.freeLedger
  repeat' with_reducible
    first
    | assumption
    | (refine Same.of (s := ?_) ?_ ?_ ?_ ?_ ?_ ?_ ?_ ?_ ?_ ?_ ?_ ?_ ?_ ?_ ?_ ?_ ?_ ?_ ?_ ?_ ?_ ?_ ?_ ?_ ?_ ?_ ?_ ?_ ?_ <;>
        first | exact Or.inr rfl | exact Or.inl (bit_of hm rfl) | rfl | exact id | exact Or.inr fun _ h => h | skip)

theorem State.clearCore_keeps (hm : 0x208044 &&& fp = 0x208044) (s : State) (c : Nat) (h_s : Same fp z₀ s) :
    Same fp z₀ (State.clearCore s c) := by
  unfold State.clearCore
  repeat' with_reducible
    first
    | assumption | apply State.zeroRange_keeps (sub_of hm rfl) | apply State.updCore_keeps (sub_of hm rfl)

theorem State.emptyContexts_keeps (hm : 0x100 &&& fp = 0x100) (s : State) (p : Nat) (h_s : Same fp z₀ s) :
    Same fp z₀ (State.emptyContexts s p) := by
  unfold State.emptyContexts
  repeat' with_reducible
    first
    | intro _ | assumption | apply State.setCtx_keeps (sub_of hm rfl) | apply kept_foldl | split

theorem State.discard_keeps (hm : 0x248C4C &&& fp = 0x248C4C) (s : State) (p : Nat) (h_s : Same fp z₀ s) :
    Same fp z₀ (State.discard s p) := by
  unfold State.discard
  repeat' with_reducible
    first
    | intro _ | assumption | apply State.freeLedger_keeps (sub_of hm rfl)
    | apply State.freeRange_keeps (sub_of hm rfl) | apply State.updCore_keeps (sub_of hm rfl)
    | apply State.closeSkein_keeps (sub_of hm rfl) | apply State.updHport_keeps (sub_of hm rfl) | apply kept_foldl
    | (refine Same.of (s := ?_) ?_ ?_ ?_ ?_ ?_ ?_ ?_ ?_ ?_ ?_ ?_ ?_ ?_ ?_ ?_ ?_ ?_ ?_ ?_ ?_ ?_ ?_ ?_ ?_ ?_ ?_ ?_ ?_ ?_ <;>
        first | exact Or.inr rfl | exact Or.inl (bit_of hm rfl) | rfl | exact id | exact Or.inr fun _ h => h | skip)

theorem State.stopPart_keeps (hm : 0x248DCC &&& fp = 0x248DCC) (s : State) (p : Nat) (cause : Half) (keep : Bool)
    (h_s : Same fp z₀ s) : Same fp z₀ (State.stopPart s p cause keep) := by
  unfold State.stopPart
  repeat' with_reducible
    first
    | assumption | apply State.discard_keeps (sub_of hm rfl) | apply State.clearCore_keeps (sub_of hm rfl)
    | apply State.raiseCause_keeps (sub_of hm rfl) | apply State.updPart_keeps (sub_of hm rfl)
    | apply State.queuesOf_keeps (sub_of hm rfl) | apply State.emptyContexts_keeps (sub_of hm rfl)
    | apply kept_foldl | split

theorem State.disarm_keeps (hm : 0x80 &&& fp = 0x80) (s : State) (p : Nat) (h_s : Same fp z₀ s) :
    Same fp z₀ (State.disarm s p) := by
  unfold State.disarm
  repeat' with_reducible (first | assumption | apply State.updPart_keeps (sub_of hm rfl))

theorem State.fault_keeps (hm : 0x24CDCC &&& fp = 0x24CDCC) (s : State) (status : Half) (cls : Nat) (kind : Nat)
    (unit : Nat) (parts : List Nat) (d0 : Nat) (d1 : Nat) (h_s : Same fp z₀ s) :
    Same fp z₀ (State.fault s status cls kind unit parts d0 d1) := by
  unfold State.fault
  repeat' with_reducible
    first
    | intro _ | assumption | apply State.stopPart_keeps (sub_of hm rfl) | apply State.disarm_keeps (sub_of hm rfl)
    | apply State.recordFault_keeps (sub_of hm rfl) | apply kept_foldl | split

theorem State.failCommand_keeps (hm : 0x24CDCC &&& fp = 0x24CDCC) (s : State) (p : Nat) (c : Nat) (e : Entry)
    (st : Half) (flags : Half) (cls : Nat) (kind : Nat) (unit : Nat) (d0 : Nat) (h_s : Same fp z₀ s) :
    Same fp z₀ (State.failCommand s p c e st flags cls kind unit d0) := by
  unfold State.failCommand
  repeat' with_reducible
    first
    | assumption | apply State.fault_keeps (sub_of hm rfl) | apply State.complete_keeps (sub_of hm rfl)


/-! ### Machine/Reliability.lean -/

theorem State.cellarCorrect_keeps (hm : 0x8 &&& fp = 0x8) (s : State) (a : Nat) (h_s : Same fp z₀ s) :
    Same fp z₀ (State.cellarCorrect s a) := by
  unfold State.cellarCorrect
  repeat' with_reducible (first | assumption | apply Same.set_memStat (bit_of hm rfl))

theorem State.cellarFail_keeps (hm : 0x8 &&& fp = 0x8) (s : State) (a : Nat) (h_s : Same fp z₀ s) :
    Same fp z₀ (State.cellarFail s a) := by
  unfold State.cellarFail
  repeat' with_reducible (first | assumption | apply Same.set_memStat (bit_of hm rfl))

theorem State.hbmCorrect_keeps (hm : 0x8 &&& fp = 0x8) (s : State) (a : Nat) (h_s : Same fp z₀ s) :
    Same fp z₀ (State.hbmCorrect s a) := by
  unfold State.hbmCorrect
  repeat' with_reducible (first | assumption | apply Same.set_memStat (bit_of hm rfl))

theorem State.hbmFail_keeps (hm : 0x8 &&& fp = 0x8) (s : State) (a : Nat) (h_s : Same fp z₀ s) :
    Same fp z₀ (State.hbmFail s a) := by
  unfold State.hbmFail
  repeat' with_reducible (first | assumption | apply Same.set_memStat (bit_of hm rfl))

theorem State.parityRetry_keeps (hm : 0x8 &&& fp = 0x8) (s : State) (n : Nat) (h_s : Same fp z₀ s) :
    Same fp z₀ (State.parityRetry s n) := by
  unfold State.parityRetry
  repeat' with_reducible (first | assumption | apply Same.set_memStat (bit_of hm rfl))

theorem State.accessErrors_keeps (hm : 0x8 &&& fp = 0x8) (s : State) (rs : List (Nat × Nat)) (ws : List (Nat × Nat))
    (e : Ecc) (h_s : Same fp z₀ s) : Same fp z₀ (State.accessErrors s rs ws e).1 := by
  unfold State.accessErrors
  repeat' with_reducible
    first
    | assumption | apply State.cellarCorrect_keeps (sub_of hm rfl) | apply State.hbmCorrect_keeps (sub_of hm rfl)
    | apply State.parityRetry_keeps (sub_of hm rfl) | apply State.cellarFail_keeps (sub_of hm rfl)
    | apply State.hbmFail_keeps (sub_of hm rfl) | apply kept_foldl

theorem State.readErrors_keeps (hm : 0x8 &&& fp = 0x8) (s : State) (rs : List (Nat × Nat)) (e : Ecc)
    (h_s : Same fp z₀ s) : Same fp z₀ (State.readErrors s rs e).1 := by
  unfold State.readErrors
  repeat' with_reducible (first | assumption | apply State.accessErrors_keeps (sub_of hm rfl))

theorem State.failRead_keeps (hm : 0x24CDCC &&& fp = 0x24CDCC) (s : State) (p : Nat) (c : Nat) (e : Entry)
    (flags : Half) (a : Nat) (h_s : Same fp z₀ s) : Same fp z₀ (State.failRead s p c e flags a) := by
  unfold State.failRead
  repeat' with_reducible (first | assumption | apply State.failCommand_keeps (sub_of hm rfl))


/-! ### Machine/Issue.lean -/

theorem State.noteStale_keeps (hm : 0x40000 &&& fp = 0x40000) (s : State) (counted : Bool) (h_s : Same fp z₀ s) :
    Same fp z₀ (State.noteStale s counted) := by
  unfold State.noteStale
  repeat' with_reducible (first | assumption | split | apply Same.set_train (bit_of hm rfl))

theorem State.recallOperands_keeps (hm : 0x208000 &&& fp = 0x208000) (s : State) (k : Checked) (h_s : Same fp z₀ s) :
    Same fp z₀ (State.recallOperands s k) := by
  unfold State.recallOperands
  repeat' with_reducible
    first
    | intro _ | assumption | apply State.recallFor_keeps (sub_of hm rfl) | apply kept_foldl

theorem State.noteIssued_keeps (hm : 0x80 &&& fp = 0x80) (s : State) (p : Nat) (e : Entry) (h_s : Same fp z₀ s) :
    Same fp z₀ (State.noteIssued s p e) := by
  unfold State.noteIssued
  repeat' with_reducible (first | assumption | apply State.updPart_keeps (sub_of hm rfl) | split)

theorem State.popHead_keeps (hm : 0x40 &&& fp = 0x40) (s : State) (c : Nat) (h_s : Same fp z₀ s) :
    Same fp z₀ (State.popHead s c) := by
  unfold State.popHead
  repeat' with_reducible (first | assumption | apply State.updCore_keeps (sub_of hm rfl))

theorem State.takeBallast_keeps (hm : 0x10 &&& fp = 0x10) (s : State) (h_s : Same fp z₀ s) :
    Same fp z₀ (State.takeBallast s) := by
  unfold State.takeBallast
  repeat' with_reducible (first | assumption | apply Same.set_power (bit_of hm rfl))

theorem State.limit_keeps (hm : 0x50 &&& fp = 0x50) (s : State) (c : Nat) (h_s : Same fp z₀ s) :
    Same fp z₀ (State.limit s c) := by
  unfold State.limit
  repeat' with_reducible
    first
    | assumption | apply State.updCore_keeps (sub_of hm rfl) | split | apply Same.set_power (bit_of hm rfl)

theorem State.dropGather_keeps (hm : 0x40000 &&& fp = 0x40000) (s : State) (p : Nat) (dest : Nat) (ctx : Nat)
    (gid : Nat) (h_s : Same fp z₀ s) : Same fp z₀ (State.dropGather s p dest ctx gid) := by
  unfold State.dropGather
  repeat' with_reducible (first | assumption | apply Same.set_train (bit_of hm rfl))

theorem State.dropBackward_keeps (hm : 0x40000 &&& fp = 0x40000) (s : State) (p : Nat) (k : Checked)
    (h_s : Same fp z₀ s) : Same fp z₀ (State.dropBackward s p k) := by
  unfold State.dropBackward
  repeat' with_reducible (first | assumption | apply State.dropGather_keeps (sub_of hm rfl) | split)

theorem State.issue_keeps (hm : 0x248CDC &&& fp = 0x248CDC) (s : State) (c : Nat) (want : Entry → Bool)
    (run : State → Nat → Checked → State) (h_s : Same fp z₀ s)
    (h_run : ∀ y0 y1 y2, Same fp z₀ y0 → Same fp z₀ ((run y0 y1 y2))) : Same fp z₀ (State.issue s c want run) := by
  unfold State.issue
  repeat' with_reducible
    first
    | assumption | apply h_run | apply State.complete_keeps (sub_of hm rfl)
    | apply State.noteIssued_keeps (sub_of hm rfl) | apply State.popHead_keeps (sub_of hm rfl)
    | apply State.recallOperands_keeps (sub_of hm rfl) | apply State.dropBackward_keeps (sub_of hm rfl)
    | apply State.noteStale_keeps (sub_of hm rfl) | apply State.limit_keeps (sub_of hm rfl) | split

theorem execIssueChecks_keeps (hm : 0x208CCC &&& fp = 0x208CCC) (core : Fin 512) (s : State) (h_s : Same fp z₀ s) :
    ∀ t, execIssueChecks core s = .next t → Same fp z₀ t := by
  intro t ht
  unfold execIssueChecks at ht
  obtain rfl := Host.Outcome.next.inj ht
  repeat' with_reducible
    first
    | assumption | apply State.openSkein_keeps (sub_of hm rfl) | apply State.updCore_keeps (sub_of hm rfl)
    | apply State.complete_keeps (sub_of hm rfl) | apply State.popHead_keeps (sub_of hm rfl) | dsimp only | split

theorem State.sync_keeps (hm : 0x248CDC &&& fp = 0x248CDC) (s : State) (c : Nat) (op : Nat)
    (act : State → Checked → State) (h_s : Same fp z₀ s) (h_act : ∀ y0 y1, Same fp z₀ y0 → Same fp z₀ ((act y0 y1))) :
    Same fp z₀ (State.sync s c op act) := by
  unfold State.sync
  repeat' with_reducible
    first
    | intro _ | assumption | apply h_act | apply State.issue_keeps (sub_of hm rfl)
    | apply State.complete_keeps (sub_of hm rfl) | apply State.popHead_keeps (sub_of hm rfl)

theorem execWait_keeps (hm : 0x248CDC &&& fp = 0x248CDC) (core : Fin 512) (s : State) (h_s : Same fp z₀ s) :
    ∀ t, execWait core s = .next t → Same fp z₀ t := by
  intro t ht
  unfold execWait at ht
  obtain rfl := Host.Outcome.next.inj ht
  repeat' with_reducible (first | intro _ | assumption | apply State.sync_keeps (sub_of hm rfl))

theorem execFence_keeps (hm : 0x248CDC &&& fp = 0x248CDC) (core : Fin 512) (s : State) (h_s : Same fp z₀ s) :
    ∀ t, execFence core s = .next t → Same fp z₀ t := by
  intro t ht
  unfold execFence at ht
  obtain rfl := Host.Outcome.next.inj ht
  repeat' with_reducible (first | intro _ | assumption | apply State.sync_keeps (sub_of hm rfl))

theorem execTallyAdd_keeps (hm : 0x248CDC &&& fp = 0x248CDC) (core : Fin 512) (s : State) (h_s : Same fp z₀ s) :
    ∀ t, execTallyAdd core s = .next t → Same fp z₀ t := by
  intro t ht
  unfold execTallyAdd at ht
  obtain rfl := Host.Outcome.next.inj ht
  repeat' with_reducible (first | intro _ | assumption | apply State.sync_keeps (sub_of hm rfl))

theorem execTallySet_keeps (hm : 0x248CDC &&& fp = 0x248CDC) (core : Fin 512) (s : State) (h_s : Same fp z₀ s) :
    ∀ t, execTallySet core s = .next t → Same fp z₀ t := by
  intro t ht
  unfold execTallySet at ht
  obtain rfl := Host.Outcome.next.inj ht
  repeat' with_reducible
    first
    | intro _ | assumption | apply State.sync_keeps (sub_of hm rfl) | apply State.setTally_keeps (sub_of hm rfl)

theorem State.publish_keeps (hm : 0x208CCC &&& fp = 0x208CCC) (s : State) (p : Nat) (c : Nat) (k : Checked)
    (h_s : Same fp z₀ s) : Same fp z₀ (State.publish s p c k) := by
  unfold State.publish
  repeat' with_reducible
    first
    | assumption | apply State.complete_keeps (sub_of hm rfl) | apply State.popHead_keeps (sub_of hm rfl)
    | apply State.updPart_keeps (sub_of hm rfl) | dsimp only | split

theorem execPublish_keeps (hm : 0x248CDC &&& fp = 0x248CDC) (core : Fin 512) (s : State) (h_s : Same fp z₀ s) :
    ∀ t, execPublish core s = .next t → Same fp z₀ t := by
  intro t ht
  unfold execPublish at ht
  obtain rfl := Host.Outcome.next.inj ht
  repeat' with_reducible
    first
    | intro _ | assumption | apply State.issue_keeps (sub_of hm rfl) | apply State.publish_keeps (sub_of hm rfl)


/-! ### Machine/Queue.lean -/

theorem State.viaCore_keeps (hm : 0x80000 &&& fp = 0x80000) (s : State) (k : Nat) (c : Nat) (f : State → State)
    (h_s : Same fp z₀ s) (h_f : ∀ y0, Same fp z₀ y0 → Same fp z₀ ((f y0))) :
    Same fp z₀ (State.viaCore s k c f) := by
  unfold State.viaCore
  repeat' with_reducible (first | assumption | apply h_f | split | apply Same.set_tenancy (bit_of hm rfl))

theorem State.viaPart_keeps (hm : 0x80000 &&& fp = 0x80000) (s : State) (k : Nat) (p : Nat) (f : State → State)
    (h_s : Same fp z₀ s) (h_f : ∀ y0, Same fp z₀ y0 → Same fp z₀ ((f y0))) :
    Same fp z₀ (State.viaPart s k p f) := by
  unfold State.viaPart
  repeat' with_reducible (first | assumption | apply h_f | split | apply Same.set_tenancy (bit_of hm rfl))

theorem State.startWrite_keeps (hm : 0x40 &&& fp = 0x40) (s : State) (c : Nat) (v : Word) (h_s : Same fp z₀ s) :
    Same fp z₀ (State.startWrite s c v) := by
  unfold State.startWrite
  repeat' with_reducible (first | assumption | apply State.updCore_keeps (sub_of hm rfl) | dsimp only | split)

theorem execStart_keeps (hm : 0x80040 &&& fp = 0x80040) (port : Fin 2) (core : Fin 512) (value : Word) (s : State)
    (h_s : Same fp z₀ s) : ∀ t, execStart port core value s = .next t → Same fp z₀ t := by
  intro t ht
  unfold execStart at ht
  obtain rfl := Host.Outcome.next.inj ht
  repeat' with_reducible
    first
    | intro _ | assumption | apply State.viaCore_keeps (sub_of hm rfl)
    | apply State.startWrite_keeps (sub_of hm rfl)

theorem State.queueResume_keeps (hm : 0x40 &&& fp = 0x40) (s : State) (c : Nat) (h_s : Same fp z₀ s) :
    Same fp z₀ (State.queueResume s c) := by
  unfold State.queueResume
  repeat' with_reducible (first | assumption | apply State.updCore_keeps (sub_of hm rfl) | split)

theorem execQueueResume_keeps (hm : 0x80040 &&& fp = 0x80040) (port : Fin 2) (core : Fin 512) (s : State)
    (h_s : Same fp z₀ s) : ∀ t, execQueueResume port core s = .next t → Same fp z₀ t := by
  intro t ht
  unfold execQueueResume at ht
  obtain rfl := Host.Outcome.next.inj ht
  repeat' with_reducible
    first
    | intro _ | assumption | apply State.viaCore_keeps (sub_of hm rfl)
    | apply State.queueResume_keeps (sub_of hm rfl)

theorem State.queueFlush_keeps (hm : 0x40 &&& fp = 0x40) (s : State) (c : Nat) (h_s : Same fp z₀ s) :
    Same fp z₀ (State.queueFlush s c) := by
  unfold State.queueFlush
  repeat' with_reducible
    first
    | assumption | apply State.queueResume_keeps (sub_of hm rfl) | apply State.updCore_keeps (sub_of hm rfl)

theorem execQueueFlush_keeps (hm : 0x80040 &&& fp = 0x80040) (port : Fin 2) (core : Fin 512) (s : State)
    (h_s : Same fp z₀ s) : ∀ t, execQueueFlush port core s = .next t → Same fp z₀ t := by
  intro t ht
  unfold execQueueFlush at ht
  obtain rfl := Host.Outcome.next.inj ht
  repeat' with_reducible
    first
    | intro _ | assumption | apply State.viaCore_keeps (sub_of hm rfl)
    | apply State.queueFlush_keeps (sub_of hm rfl)

theorem State.queueClearSticky_keeps (hm : 0x40 &&& fp = 0x40) (s : State) (c : Nat) (h_s : Same fp z₀ s) :
    Same fp z₀ (State.queueClearSticky s c) := by
  unfold State.queueClearSticky
  repeat' with_reducible (first | assumption | apply State.updCore_keeps (sub_of hm rfl))

theorem execQueueClearSticky_keeps (hm : 0x80040 &&& fp = 0x80040) (port : Fin 2) (core : Fin 512) (s : State)
    (h_s : Same fp z₀ s) : ∀ t, execQueueClearSticky port core s = .next t → Same fp z₀ t := by
  intro t ht
  unfold execQueueClearSticky at ht
  obtain rfl := Host.Outcome.next.inj ht
  repeat' with_reducible
    first
    | intro _ | assumption | apply State.viaCore_keeps (sub_of hm rfl)
    | apply State.queueClearSticky_keeps (sub_of hm rfl)

theorem State.descCommit_keeps (hm : 0x40 &&& fp = 0x40) (s : State) (c : Nat) (h : Nat) (h_s : Same fp z₀ s) :
    Same fp z₀ (State.descCommit s c h) := by
  unfold State.descCommit
  repeat' with_reducible (first | assumption | apply State.updCore_keeps (sub_of hm rfl) | dsimp only | split)

theorem execDescCommit_keeps (hm : 0x80040 &&& fp = 0x80040) (port : Fin 2) (core : Fin 512) (handle : BitVec 10)
    (s : State) (h_s : Same fp z₀ s) : ∀ t, execDescCommit port core handle s = .next t → Same fp z₀ t := by
  intro t ht
  unfold execDescCommit at ht
  obtain rfl := Host.Outcome.next.inj ht
  repeat' with_reducible
    first
    | intro _ | assumption | apply State.viaCore_keeps (sub_of hm rfl)
    | apply State.descCommit_keeps (sub_of hm rfl)

theorem execDescCopyDone_keeps (hm : 0xC0 &&& fp = 0xC0) (core : Fin 512) (s : State) (h_s : Same fp z₀ s) :
    ∀ t, execDescCopyDone core s = .next t → Same fp z₀ t := by
  intro t ht
  unfold execDescCopyDone at ht
  obtain rfl := Host.Outcome.next.inj ht
  repeat' with_reducible
    first
    | assumption | apply State.updCore_keeps (sub_of hm rfl) | apply State.updPart_keeps (sub_of hm rfl)
    | dsimp only | split

theorem State.descRead_keeps (hm : 0x40 &&& fp = 0x40) (s : State) (c : Nat) (h : Nat) (h_s : Same fp z₀ s) :
    Same fp z₀ (State.descRead s c h) := by
  unfold State.descRead
  repeat' with_reducible (first | assumption | apply State.updCore_keeps (sub_of hm rfl) | dsimp only | split)

theorem execDescRead_keeps (hm : 0x80040 &&& fp = 0x80040) (port : Fin 2) (core : Fin 512) (handle : BitVec 10)
    (s : State) (h_s : Same fp z₀ s) : ∀ t, execDescRead port core handle s = .next t → Same fp z₀ t := by
  intro t ht
  unfold execDescRead at ht
  obtain rfl := Host.Outcome.next.inj ht
  repeat' with_reducible
    first
    | intro _ | assumption | apply State.viaCore_keeps (sub_of hm rfl) | apply State.descRead_keeps (sub_of hm rfl)

theorem State.cplCommit_keeps (hm : 0x40 &&& fp = 0x40) (s : State) (c : Nat) (h_s : Same fp z₀ s) :
    Same fp z₀ (State.cplCommit s c) := by
  unfold State.cplCommit
  repeat' with_reducible (first | assumption | apply State.updCore_keeps (sub_of hm rfl) | split)

theorem execCplCommit_keeps (hm : 0x80040 &&& fp = 0x80040) (port : Fin 2) (core : Fin 512) (s : State)
    (h_s : Same fp z₀ s) : ∀ t, execCplCommit port core s = .next t → Same fp z₀ t := by
  intro t ht
  unfold execCplCommit at ht
  obtain rfl := Host.Outcome.next.inj ht
  repeat' with_reducible
    first
    | intro _ | assumption | apply State.viaCore_keeps (sub_of hm rfl) | apply State.cplCommit_keeps (sub_of hm rfl)

theorem State.tallyValueWrite_keeps (hm : 0x84C0 &&& fp = 0x84C0) (s : State) (c : Nat) (t : Nat) (v : Word)
    (h_s : Same fp z₀ s) : Same fp z₀ (State.tallyValueWrite s c t v) := by
  unfold State.tallyValueWrite
  repeat' with_reducible (first | assumption | apply State.setTally_keeps (sub_of hm rfl) | split)

theorem execTallyValueWrite_keeps (hm : 0x884C0 &&& fp = 0x884C0) (port : Fin 2) (core : Fin 512) (tally : BitVec 8)
    (value : Word) (s : State) (h_s : Same fp z₀ s) :
    ∀ t, execTallyValueWrite port core tally value s = .next t → Same fp z₀ t := by
  intro t ht
  unfold execTallyValueWrite at ht
  obtain rfl := Host.Outcome.next.inj ht
  repeat' with_reducible
    first
    | intro _ | assumption | apply State.viaCore_keeps (sub_of hm rfl)
    | apply State.tallyValueWrite_keeps (sub_of hm rfl)

theorem State.tallyAddWrite_keeps (hm : 0x84C0 &&& fp = 0x84C0) (s : State) (c : Nat) (t : Nat) (v : Word)
    (h_s : Same fp z₀ s) : Same fp z₀ (State.tallyAddWrite s c t v) := by
  unfold State.tallyAddWrite
  repeat' with_reducible (first | assumption | apply State.addTally_keeps (sub_of hm rfl) | split)

theorem execTallyAddRegister_keeps (hm : 0x884C0 &&& fp = 0x884C0) (port : Fin 2) (core : Fin 512)
    (tally : BitVec 8) (value : Word) (s : State) (h_s : Same fp z₀ s) :
    ∀ t, execTallyAddRegister port core tally value s = .next t → Same fp z₀ t := by
  intro t ht
  unfold execTallyAddRegister at ht
  obtain rfl := Host.Outcome.next.inj ht
  repeat' with_reducible
    first
    | intro _ | assumption | apply State.viaCore_keeps (sub_of hm rfl)
    | apply State.tallyAddWrite_keeps (sub_of hm rfl)


/-! ### Machine/Partition.lean -/

theorem State.freshCore_keeps (hm : 0x208044 &&& fp = 0x208044) (s : State) (c : Nat) (h_s : Same fp z₀ s) :
    Same fp z₀ (State.freshCore s c) := by
  unfold State.freshCore
  repeat' with_reducible
    first
    | assumption | apply State.updCore_keeps (sub_of hm rfl) | apply State.clearCore_keeps (sub_of hm rfl)

theorem State.freshNorm_keeps (hm : 0x880 &&& fp = 0x880) (s : State) (p : Nat) (h_s : Same fp z₀ s) :
    Same fp z₀ (State.freshNorm s p) := by
  unfold State.freshNorm
  repeat' with_reducible
    first
    | assumption | apply State.updPart_keeps (sub_of hm rfl) | apply Same.set_coll (bit_of hm rfl)

theorem State.startPart_keeps (hm : 0x2088C4 &&& fp = 0x2088C4) (s : State) (p : Nat) (h_s : Same fp z₀ s) :
    Same fp z₀ (State.startPart s p) := by
  unfold State.startPart
  repeat' with_reducible
    first
    | intro _ | assumption | apply State.freshNorm_keeps (sub_of hm rfl)
    | apply State.freshCore_keeps (sub_of hm rfl) | apply State.updCore_keeps (sub_of hm rfl)
    | apply State.updQueue_keeps (sub_of hm rfl) | apply State.updPart_keeps (sub_of hm rfl) | apply kept_foldl
    | dsimp only | split

theorem State.partCtrl_keeps (hm : 0x248DCC &&& fp = 0x248DCC) (s : State) (p : Nat) (start : Bool) (stop : Bool)
    (drain : Bool) (h_s : Same fp z₀ s) : Same fp z₀ (State.partCtrl s p start stop drain) := by
  unfold State.partCtrl
  repeat' with_reducible
    first
    | assumption | apply State.updPart_keeps (sub_of hm rfl) | apply State.stopPart_keeps (sub_of hm rfl)
    | apply State.startPart_keeps (sub_of hm rfl) | dsimp only | split

theorem execPartStart_keeps (hm : 0x2C8DCC &&& fp = 0x2C8DCC) (port : Fin 2) (part : Fin 16) (s : State)
    (h_s : Same fp z₀ s) : ∀ t, execPartStart port part s = .next t → Same fp z₀ t := by
  intro t ht
  unfold execPartStart at ht
  obtain rfl := Host.Outcome.next.inj ht
  repeat' with_reducible
    first
    | intro _ | assumption | apply State.viaPart_keeps (sub_of hm rfl) | apply State.partCtrl_keeps (sub_of hm rfl)

theorem execPartStop_keeps (hm : 0x2C8DCC &&& fp = 0x2C8DCC) (port : Fin 2) (part : Fin 16) (s : State)
    (h_s : Same fp z₀ s) : ∀ t, execPartStop port part s = .next t → Same fp z₀ t := by
  intro t ht
  unfold execPartStop at ht
  obtain rfl := Host.Outcome.next.inj ht
  repeat' with_reducible
    first
    | intro _ | assumption | apply State.viaPart_keeps (sub_of hm rfl) | apply State.partCtrl_keeps (sub_of hm rfl)

theorem execPartDrain_keeps (hm : 0x2C8DCC &&& fp = 0x2C8DCC) (port : Fin 2) (part : Fin 16) (s : State)
    (h_s : Same fp z₀ s) : ∀ t, execPartDrain port part s = .next t → Same fp z₀ t := by
  intro t ht
  unfold execPartDrain at ht
  obtain rfl := Host.Outcome.next.inj ht
  repeat' with_reducible
    first
    | intro _ | assumption | apply State.viaPart_keeps (sub_of hm rfl) | apply State.partCtrl_keeps (sub_of hm rfl)

theorem execDrainTimeout_keeps (hm : 0x24CDCC &&& fp = 0x24CDCC) (part : Fin 16) (s : State) (h_s : Same fp z₀ s) :
    ∀ t, execDrainTimeout part s = .next t → Same fp z₀ t := by
  intro t ht
  unfold execDrainTimeout at ht
  obtain rfl := Host.Outcome.next.inj ht
  repeat' with_reducible (first | assumption | apply State.fault_keeps (sub_of hm rfl) | split)

theorem State.zeroShelf_keeps (hm : 0x20804C &&& fp = 0x20804C) (s : State) (shelf : Nat) (h_s : Same fp z₀ s) :
    Same fp z₀ (State.zeroShelf s shelf) := by
  unfold State.zeroShelf
  repeat' with_reducible
    first
    | intro _ | assumption | apply State.zeroRange_keeps (sub_of hm rfl)
    | apply State.releaseCore_keeps (sub_of hm rfl) | apply State.updCore_keeps (sub_of hm rfl) | apply kept_foldl
    | apply Same.set_memStat (bit_of hm rfl)

theorem State.zeroingDone_keeps (hm : 0x298084 &&& fp = 0x298084) (s : State) (p : Nat) (h_s : Same fp z₀ s) :
    Same fp z₀ (State.zeroingDone s p) := by
  unfold State.zeroingDone
  repeat' with_reducible
    first
    | intro _ | assumption | apply State.zeroRange_keeps (sub_of hm rfl) | apply State.updPart_keeps (sub_of hm rfl)
    | apply State.settleApertures_keeps (sub_of hm rfl) | apply kept_foldl | split
    | apply Same.set_tenancy (bit_of hm rfl)

theorem State.applyLayout_keeps (hm : 0x2A80CC &&& fp = 0x2A80CC) (s : State) (p : Nat) (h_s : Same fp z₀ s) :
    Same fp z₀ (State.applyLayout s p) := by
  unfold State.applyLayout
  repeat' with_reducible
    first
    | assumption | apply State.zeroShelf_keeps (sub_of hm rfl) | apply State.updPart_keeps (sub_of hm rfl)
    | apply kept_foldl
    | (refine Same.of (s := ?_) ?_ ?_ ?_ ?_ ?_ ?_ ?_ ?_ ?_ ?_ ?_ ?_ ?_ ?_ ?_ ?_ ?_ ?_ ?_ ?_ ?_ ?_ ?_ ?_ ?_ ?_ ?_ ?_ ?_ <;>
        first | exact Or.inr rfl | exact Or.inl (bit_of hm rfl) | rfl | exact id | exact Or.inr fun _ h => h | skip)

theorem State.groupCommit_keeps (hm : 0x0 &&& fp = 0x0) (s : State) (p : Nat) (judge : State → Half)
    (apply : State → State) (note : State → Half → State) (h_s : Same fp z₀ s)
    (h_apply : ∀ y0, Same fp z₀ y0 → Same fp z₀ ((apply y0)))
    (h_note : ∀ y0 y1, Same fp z₀ y0 → Same fp z₀ ((note y0 y1))) :
    Same fp z₀ (State.groupCommit s p judge apply note).1 := by
  unfold State.groupCommit
  repeat' with_reducible (first | assumption | apply h_apply | apply h_note | dsimp only | split)

theorem State.afterReady_keeps (hm : 0x0 &&& fp = 0x0) (s : State) (f : State → State × Answer) (h_s : Same fp z₀ s)
    (h_f : ∀ y0, Same fp z₀ y0 → Same fp z₀ ((f y0).1)) : Same fp z₀ (State.afterReady s f).1 := by
  unfold State.afterReady
  repeat' with_reducible (first | assumption | apply h_f | split)

theorem State.noteLayout_keeps (hm : 0x10000 &&& fp = 0x10000) (s : State) (st : Half) (h_s : Same fp z₀ s) :
    Same fp z₀ (State.noteLayout s st) := by
  unfold State.noteLayout
  repeat' with_reducible (first | assumption | apply Same.set_mgmt (bit_of hm rfl))

theorem State.commitLayout_keeps (hm : 0x2B80CC &&& fp = 0x2B80CC) (s : State) (p : Nat) (h_s : Same fp z₀ s) :
    Same fp z₀ (State.commitLayout s p).1 := by
  unfold State.commitLayout
  repeat' with_reducible
    first
    | intro _ | assumption | apply State.afterReady_keeps (sub_of hm rfl)
    | apply State.groupCommit_keeps (sub_of hm rfl) | apply State.applyLayout_keeps (sub_of hm rfl)
    | apply State.noteLayout_keeps (sub_of hm rfl)

theorem execLayoutCommit_keeps (hm : 0x2B80CC &&& fp = 0x2B80CC) (part : Fin 16) (s : State) (h_s : Same fp z₀ s) :
    ∀ t, execLayoutCommit part s = .next t → Same fp z₀ t := by
  intro t ht
  unfold execLayoutCommit at ht
  obtain rfl := Host.Outcome.next.inj ht
  repeat' with_reducible (first | assumption | apply State.commitLayout_keeps (sub_of hm rfl))

theorem State.recordReduced_keeps (hm : 0x80000 &&& fp = 0x80000) (s : State) (resource : Nat) (marked : List Nat)
    (capacity : Nat) (h_s : Same fp z₀ s) : Same fp z₀ (State.recordReduced s resource marked capacity) := by
  unfold State.recordReduced
  repeat' with_reducible (first | assumption | apply Same.set_tenancy (bit_of hm rfl))

theorem State.refreshInject_keeps (hm : 0x80080 &&& fp = 0x80080) (s : State) (h_s : Same fp z₀ s) :
    Same fp z₀ (State.refreshInject s) := by
  unfold State.refreshInject
  repeat' with_reducible
    first
    | intro _ | assumption | apply State.updPart_keeps (sub_of hm rfl)
    | apply State.recordReduced_keeps (sub_of hm rfl) | apply kept_foldl | dsimp only | split

theorem State.afterCapacity_keeps (hm : 0x80080 &&& fp = 0x80080) (s : State) (t : State) (h_s : Same fp z₀ s)
    (h_t : Same fp z₀ t) : Same fp z₀ (State.afterCapacity s t) := by
  unfold State.afterCapacity
  repeat' with_reducible (first | assumption | apply State.refreshInject_keeps (sub_of hm rfl) | split)

theorem State.refreshHbm_keeps (hm : 0x80080 &&& fp = 0x80080) (s : State) (h_s : Same fp z₀ s) :
    Same fp z₀ (State.refreshHbm s) := by
  unfold State.refreshHbm
  repeat' with_reducible
    first
    | intro _ | assumption | apply State.updPart_keeps (sub_of hm rfl)
    | apply State.recordReduced_keeps (sub_of hm rfl) | apply kept_foldl | dsimp only | split

theorem State.commitGuarantee_keeps (hm : 0x90080 &&& fp = 0x90080) (s : State) (p : Nat) (h_s : Same fp z₀ s) :
    Same fp z₀ (State.commitGuarantee s p).1 := by
  unfold State.commitGuarantee
  repeat' with_reducible
    first
    | intro _ | assumption | apply State.afterReady_keeps (sub_of hm rfl)
    | apply State.groupCommit_keeps (sub_of hm rfl) | apply State.refreshHbm_keeps (sub_of hm rfl)
    | apply State.refreshInject_keeps (sub_of hm rfl) | apply State.updPart_keeps (sub_of hm rfl)
    | apply State.noteLayout_keeps (sub_of hm rfl)

theorem execGuaranteeCommit_keeps (hm : 0x90080 &&& fp = 0x90080) (part : Fin 16) (s : State) (h_s : Same fp z₀ s) :
    ∀ t, execGuaranteeCommit part s = .next t → Same fp z₀ t := by
  intro t ht
  unfold execGuaranteeCommit at ht
  obtain rfl := Host.Outcome.next.inj ht
  repeat' with_reducible (first | assumption | apply State.commitGuarantee_keeps (sub_of hm rfl))

theorem State.refreshModes_keeps (hm : 0x80 &&& fp = 0x80) (s : State) (p : Nat) (h_s : Same fp z₀ s) :
    Same fp z₀ (State.refreshModes s p) := by
  unfold State.refreshModes
  repeat' with_reducible (first | assumption | apply State.updPart_keeps (sub_of hm rfl))

theorem State.commitPlacement_keeps (hm : 0x10080 &&& fp = 0x10080) (s : State) (p : Nat) (h_s : Same fp z₀ s) :
    Same fp z₀ (State.commitPlacement s p).1 := by
  unfold State.commitPlacement
  repeat' with_reducible
    first
    | intro _ | assumption | apply State.afterReady_keeps (sub_of hm rfl)
    | apply State.groupCommit_keeps (sub_of hm rfl) | apply State.refreshModes_keeps (sub_of hm rfl)
    | apply State.updPart_keeps (sub_of hm rfl) | apply State.noteLayout_keeps (sub_of hm rfl)

theorem execPlacementCommit_keeps (hm : 0x10080 &&& fp = 0x10080) (part : Fin 16) (s : State) (h_s : Same fp z₀ s) :
    ∀ t, execPlacementCommit part s = .next t → Same fp z₀ t := by
  intro t ht
  unfold execPlacementCommit at ht
  obtain rfl := Host.Outcome.next.inj ht
  repeat' with_reducible (first | assumption | apply State.commitPlacement_keeps (sub_of hm rfl))

theorem State.applyWindows_keeps (hm : 0x80 &&& fp = 0x80) (s : State) (p : Nat) (h_s : Same fp z₀ s) :
    Same fp z₀ (State.applyWindows s p) := by
  unfold State.applyWindows
  repeat' with_reducible (first | assumption | apply State.updPart_keeps (sub_of hm rfl))

theorem State.commitWindows_keeps (hm : 0x80 &&& fp = 0x80) (s : State) (p : Nat) (h_s : Same fp z₀ s) :
    Same fp z₀ (State.commitWindows s p).1 := by
  unfold State.commitWindows
  repeat' with_reducible
    first
    | intro _ | assumption | apply State.afterReady_keeps (sub_of hm rfl)
    | apply State.groupCommit_keeps (sub_of hm rfl) | apply State.applyWindows_keeps (sub_of hm rfl) | split

theorem execWindowCommit_keeps (hm : 0x80 &&& fp = 0x80) (part : Fin 16) (s : State) (h_s : Same fp z₀ s) :
    ∀ t, execWindowCommit part s = .next t → Same fp z₀ t := by
  intro t ht
  unfold execWindowCommit at ht
  obtain rfl := Host.Outcome.next.inj ht
  repeat' with_reducible (first | assumption | apply State.commitWindows_keeps (sub_of hm rfl))

theorem State.commitLarder_keeps (hm : 0x80 &&& fp = 0x80) (s : State) (p : Nat) (h_s : Same fp z₀ s) :
    Same fp z₀ (State.commitLarder s p).1 := by
  unfold State.commitLarder
  repeat' with_reducible
    first
    | intro _ | assumption | apply State.afterReady_keeps (sub_of hm rfl)
    | apply State.groupCommit_keeps (sub_of hm rfl) | apply State.updPart_keeps (sub_of hm rfl)

theorem execLarderCommit_keeps (hm : 0x80 &&& fp = 0x80) (part : Fin 16) (s : State) (h_s : Same fp z₀ s) :
    ∀ t, execLarderCommit part s = .next t → Same fp z₀ t := by
  intro t ht
  unfold execLarderCommit at ht
  obtain rfl := Host.Outcome.next.inj ht
  repeat' with_reducible (first | assumption | apply State.commitLarder_keeps (sub_of hm rfl))

theorem State.applyAperture_keeps (hm : 0x218080 &&& fp = 0x218080) (s : State) (p : Nat) (h_s : Same fp z₀ s) :
    Same fp z₀ (State.applyAperture s p) := by
  unfold State.applyAperture
  repeat' with_reducible
    first
    | intro _ | assumption | apply State.recallFor_keeps (sub_of hm rfl)
    | apply State.settleAperture_keeps (sub_of hm rfl) | apply State.updPart_keeps (sub_of hm rfl)
    | apply kept_foldl

theorem State.commitAperture_keeps (hm : 0x218080 &&& fp = 0x218080) (s : State) (p : Nat) (h_s : Same fp z₀ s) :
    Same fp z₀ (State.commitAperture s p).1 := by
  unfold State.commitAperture
  repeat' with_reducible
    first
    | intro _ | assumption | apply State.groupCommit_keeps (sub_of hm rfl)
    | apply State.applyAperture_keeps (sub_of hm rfl) | split

theorem execApertureCommit_keeps (hm : 0x218080 &&& fp = 0x218080) (part : Fin 16) (s : State) (h_s : Same fp z₀ s) :
    ∀ t, execApertureCommit part s = .next t → Same fp z₀ t := by
  intro t ht
  unfold execApertureCommit at ht
  obtain rfl := Host.Outcome.next.inj ht
  repeat' with_reducible (first | assumption | apply State.commitAperture_keeps (sub_of hm rfl))

theorem execLedgerClear_keeps (hm : 0x800 &&& fp = 0x800) (part : Fin 16) (s : State) (h_s : Same fp z₀ s) :
    ∀ t, execLedgerClear part s = .next t → Same fp z₀ t := by
  intro t ht
  unfold execLedgerClear at ht
  obtain rfl := Host.Outcome.next.inj ht
  repeat' with_reducible (first | assumption | split | apply Same.set_coll (bit_of hm rfl))

theorem execStatsClear_keeps (hm : 0x80 &&& fp = 0x80) (part : Fin 16) (s : State) (h_s : Same fp z₀ s) :
    ∀ t, execStatsClear part s = .next t → Same fp z₀ t := by
  intro t ht
  unfold execStatsClear at ht
  obtain rfl := Host.Outcome.next.inj ht
  repeat' with_reducible (first | assumption | apply State.updPart_keeps (sub_of hm rfl) | split)


/-! ### Machine/Tensor.lean -/

theorem State.runTile_keeps (hm : 0x20804C &&& fp = 0x20804C) (s : State) (c : Nat) (k : Checked) (a : Desc)
    (b : Desc) (e : Env) (t : Nat) (ivs : List (List Nat)) (h_s : Same fp z₀ s) :
    Same fp z₀ (State.runTile s c k a b e t ivs).1 := by
  unfold State.runTile
  repeat' with_reducible (first | assumption | apply State.storeRun_keeps (sub_of hm rfl) | dsimp only | split)

theorem execMatmul_keeps (hm : 0x248CDC &&& fp = 0x248CDC) (core : Fin 512) (s : State) (h_s : Same fp z₀ s) :
    ∀ t, execMatmul core s = .next t → Same fp z₀ t := by
  intro t ht
  unfold execMatmul at ht
  obtain rfl := Host.Outcome.next.inj ht
  repeat' with_reducible
    first
    | intro _ | assumption | apply State.issue_keeps (sub_of hm rfl) | apply State.updCore_keeps (sub_of hm rfl)
    | apply State.takeBallast_keeps (sub_of hm rfl) | apply State.popHead_keeps (sub_of hm rfl)

theorem State.tileStart_keeps (hm : 0x20804C &&& fp = 0x20804C) (s : State) (c : Nat) (ecc : Ecc)
    (h_s : Same fp z₀ s) : Same fp z₀ (State.tileStart s c ecc) := by
  unfold State.tileStart
  repeat' with_reducible
    first
    | assumption | apply State.runTile_keeps (sub_of hm rfl) | apply State.readErrors_keeps (sub_of hm rfl)
    | apply State.updCore_keeps (sub_of hm rfl) | split

theorem execTileStart_keeps (hm : 0x20804C &&& fp = 0x20804C) (core : Fin 512) (ecc : Ecc) (s : State)
    (h_s : Same fp z₀ s) : ∀ t, execTileStart core ecc s = .next t → Same fp z₀ t := by
  intro t ht
  unfold execTileStart at ht
  obtain rfl := Host.Outcome.next.inj ht
  repeat' with_reducible (first | assumption | apply State.tileStart_keeps (sub_of hm rfl))

theorem State.drainTile_keeps (hm : 0x24804C &&& fp = 0x24804C) (s : State) (c : Nat) (ecc : Ecc)
    (h_s : Same fp z₀ s) : Same fp z₀ (State.drainTile s c ecc) := by
  unfold State.drainTile
  repeat' with_reducible
    first
    | assumption | apply State.readErrors_keeps (sub_of hm rfl) | apply State.updCore_keeps (sub_of hm rfl)
    | apply State.noteStale_keeps (sub_of hm rfl) | apply State.storeBytes_keeps (sub_of hm rfl) | dsimp only
    | split

theorem execAccumulatorDrain_keeps (hm : 0x24804C &&& fp = 0x24804C) (core : Fin 512) (ecc : Ecc) (s : State)
    (h_s : Same fp z₀ s) : ∀ t, execAccumulatorDrain core ecc s = .next t → Same fp z₀ t := by
  intro t ht
  unfold execAccumulatorDrain at ht
  obtain rfl := Host.Outcome.next.inj ht
  repeat' with_reducible (first | assumption | apply State.drainTile_keeps (sub_of hm rfl))

theorem State.noteAccum_keeps (hm : 0x80 &&& fp = 0x80) (s : State) (p : Nat) (k : Checked) (h_s : Same fp z₀ s) :
    Same fp z₀ (State.noteAccum s p k) := by
  unfold State.noteAccum
  repeat' with_reducible (first | assumption | apply State.updPart_keeps (sub_of hm rfl) | dsimp only | split)

theorem State.finishTensor_keeps (hm : 0x24CDCC &&& fp = 0x24CDCC) (s : State) (p : Nat) (c : Nat)
    (h_s : Same fp z₀ s) : Same fp z₀ (State.finishTensor s p c) := by
  unfold State.finishTensor
  repeat' with_reducible
    first
    | assumption | apply State.updCore_keeps (sub_of hm rfl) | apply State.failRead_keeps (sub_of hm rfl)
    | apply State.complete_keeps (sub_of hm rfl) | apply State.noteAccum_keeps (sub_of hm rfl) | split


/-! ### Machine/Vector.lean -/

theorem VecRun.instr_keeps (hm : 0x20804C &&& fp = 0x20804C) (v : VecRun) (ecc : Ecc) (iv : List Nat)
    (tail : List Bool) (a : State × Lanes) (w : Word) (h_a : Same fp z₀ (a.1)) :
    Same fp z₀ (VecRun.instr v ecc iv tail a w).1 := by
  unfold VecRun.instr
  repeat' with_reducible (first | assumption | apply State.storeBytes_keeps (sub_of hm rfl) | dsimp only | split)

theorem VecRun.iteration_keeps (hm : 0x20804C &&& fp = 0x20804C) (v : VecRun) (ecc : Ecc) (c : Nat) (a : VecAcc)
    (iv : List Nat × Nat) (h_a : Same fp z₀ (a.st)) : Same fp z₀ (VecRun.iteration v ecc c a iv).st := by
  unfold VecRun.iteration
  repeat' with_reducible
    first
    | assumption | apply VecRun.instr_keeps (sub_of hm rfl) | apply State.updCore_keeps (sub_of hm rfl)
    | apply kept_foldl1 | split

theorem State.vectorRuns_keeps (hm : 0x40 &&& fp = 0x40) (s : State) (c : Nat) (k : Checked) (flags : Half)
    (status : Half) (image : Option (Nat × List Word)) (h_s : Same fp z₀ s) :
    Same fp z₀ (State.vectorRuns s c k flags status image) := by
  unfold State.vectorRuns
  repeat' with_reducible (first | assumption | apply State.updCore_keeps (sub_of hm rfl))

theorem State.runFnload_keeps (hm : 0x24CDCC &&& fp = 0x24CDCC) (s : State) (p : Nat) (c : Nat) (k : Checked)
    (ecc : Ecc) (h_s : Same fp z₀ s) : Same fp z₀ (State.runFnload s p c k ecc) := by
  unfold State.runFnload
  repeat' with_reducible
    first
    | assumption | apply State.readErrors_keeps (sub_of hm rfl) | apply State.failRead_keeps (sub_of hm rfl)
    | apply State.vectorRuns_keeps (sub_of hm rfl) | dsimp only | split

theorem State.runVector_keeps (hm : 0x24CDCC &&& fp = 0x24CDCC) (s : State) (p : Nat) (c : Nat) (k : Checked)
    (ecc : Ecc) (h_s : Same fp z₀ s) : Same fp z₀ (State.runVector s p c k ecc) := by
  unfold State.runVector
  repeat' with_reducible
    first
    | assumption | apply VecRun.iteration_keeps (sub_of hm rfl) | apply State.readErrors_keeps (sub_of hm rfl)
    | apply State.failRead_keeps (sub_of hm rfl) | apply State.vectorRuns_keeps (sub_of hm rfl) | apply kept_foldlV
    | dsimp only | split

theorem execFnTableCheck_keeps (hm : 0x208CCC &&& fp = 0x208CCC) (core : Fin 512) (s : State) (h_s : Same fp z₀ s) :
    ∀ t, execFnTableCheck core s = .next t → Same fp z₀ t := by
  intro t ht
  unfold execFnTableCheck at ht
  obtain rfl := Host.Outcome.next.inj ht
  repeat' with_reducible
    first
    | assumption | apply State.updCore_keeps (sub_of hm rfl) | apply State.complete_keeps (sub_of hm rfl)
    | apply State.popHead_keeps (sub_of hm rfl) | split

theorem execVector_keeps (hm : 0x24CDDC &&& fp = 0x24CDDC) (core : Fin 512) (ecc : Ecc) (s : State)
    (h_s : Same fp z₀ s) : ∀ t, execVector core ecc s = .next t → Same fp z₀ t := by
  intro t ht
  unfold execVector at ht
  obtain rfl := Host.Outcome.next.inj ht
  repeat' with_reducible
    first
    | intro _ | assumption | apply State.issue_keeps (sub_of hm rfl) | apply State.runFnload_keeps (sub_of hm rfl)
    | apply State.popHead_keeps (sub_of hm rfl) | apply State.runVector_keeps (sub_of hm rfl) | split

theorem State.finishVector_keeps (hm : 0x208CCC &&& fp = 0x208CCC) (s : State) (p : Nat) (c : Nat)
    (h_s : Same fp z₀ s) : Same fp z₀ (State.finishVector s p c) := by
  unfold State.finishVector
  repeat' with_reducible
    first
    | assumption | apply State.complete_keeps (sub_of hm rfl) | apply State.updCore_keeps (sub_of hm rfl) | split


/-! ### Machine/Row.lean -/

theorem State.writeRow_keeps (hm : 0x20804C &&& fp = 0x20804C) (s : State) (k : Checked) (e : Env) (y : Desc)
    (iv : List Nat) (o : RowOut) (h_s : Same fp z₀ s) : Same fp z₀ (State.writeRow s k e y iv o).1 := by
  unfold State.writeRow
  repeat' with_reducible (first | assumption | apply State.storeBytes_keeps (sub_of hm rfl))

theorem rowStep_keeps (hm : 0x20804C &&& fp = 0x20804C) (c : Nat) (k : Checked) (e : Env) (x : Desc) (y : Desc)
    (a : RowState) (r : List Nat × Nat) (h_a : Same fp z₀ (a.st)) : Same fp z₀ (rowStep c k e x y a r).st := by
  unfold rowStep
  repeat' with_reducible
    first
    | assumption | apply State.writeRow_keeps (sub_of hm rfl) | apply State.updCore_keeps (sub_of hm rfl)
    | apply State.storeRun_keeps (sub_of hm rfl) | dsimp only | split

theorem State.runRow_keeps (hm : 0x24CDCC &&& fp = 0x24CDCC) (s : State) (p : Nat) (c : Nat) (k : Checked)
    (ecc : Ecc) (h_s : Same fp z₀ s) : Same fp z₀ (State.runRow s p c k ecc) := by
  unfold State.runRow
  repeat' with_reducible
    first
    | assumption | apply rowStep_keeps (sub_of hm rfl) | apply State.readErrors_keeps (sub_of hm rfl)
    | apply State.failRead_keeps (sub_of hm rfl) | apply State.updCore_keeps (sub_of hm rfl) | apply kept_foldlR
    | dsimp only | split

theorem State.rowOp_keeps (hm : 0x24CDDC &&& fp = 0x24CDDC) (s : State) (c : Nat) (op : Nat) (ecc : Ecc)
    (h_s : Same fp z₀ s) : Same fp z₀ (State.rowOp s c op ecc) := by
  unfold State.rowOp
  repeat' with_reducible
    first
    | intro _ | assumption | apply State.issue_keeps (sub_of hm rfl) | apply State.runRow_keeps (sub_of hm rfl)
    | apply State.popHead_keeps (sub_of hm rfl)

theorem execLayernormFwd_keeps (hm : 0x24CDDC &&& fp = 0x24CDDC) (core : Fin 512) (ecc : Ecc) (s : State)
    (h_s : Same fp z₀ s) : ∀ t, execLayernormFwd core ecc s = .next t → Same fp z₀ t := by
  intro t ht
  unfold execLayernormFwd at ht
  obtain rfl := Host.Outcome.next.inj ht
  repeat' with_reducible (first | assumption | apply State.rowOp_keeps (sub_of hm rfl))

theorem execRmsnormFwd_keeps (hm : 0x24CDDC &&& fp = 0x24CDDC) (core : Fin 512) (ecc : Ecc) (s : State)
    (h_s : Same fp z₀ s) : ∀ t, execRmsnormFwd core ecc s = .next t → Same fp z₀ t := by
  intro t ht
  unfold execRmsnormFwd at ht
  obtain rfl := Host.Outcome.next.inj ht
  repeat' with_reducible (first | assumption | apply State.rowOp_keeps (sub_of hm rfl))

theorem execSoftmaxFwd_keeps (hm : 0x24CDDC &&& fp = 0x24CDDC) (core : Fin 512) (ecc : Ecc) (s : State)
    (h_s : Same fp z₀ s) : ∀ t, execSoftmaxFwd core ecc s = .next t → Same fp z₀ t := by
  intro t ht
  unfold execSoftmaxFwd at ht
  obtain rfl := Host.Outcome.next.inj ht
  repeat' with_reducible (first | assumption | apply State.rowOp_keeps (sub_of hm rfl))

theorem execLayernormBwd_keeps (hm : 0x24CDDC &&& fp = 0x24CDDC) (core : Fin 512) (ecc : Ecc) (s : State)
    (h_s : Same fp z₀ s) : ∀ t, execLayernormBwd core ecc s = .next t → Same fp z₀ t := by
  intro t ht
  unfold execLayernormBwd at ht
  obtain rfl := Host.Outcome.next.inj ht
  repeat' with_reducible (first | assumption | apply State.rowOp_keeps (sub_of hm rfl))

theorem execRmsnormBwd_keeps (hm : 0x24CDDC &&& fp = 0x24CDDC) (core : Fin 512) (ecc : Ecc) (s : State)
    (h_s : Same fp z₀ s) : ∀ t, execRmsnormBwd core ecc s = .next t → Same fp z₀ t := by
  intro t ht
  unfold execRmsnormBwd at ht
  obtain rfl := Host.Outcome.next.inj ht
  repeat' with_reducible (first | assumption | apply State.rowOp_keeps (sub_of hm rfl))

theorem execSoftmaxBwd_keeps (hm : 0x24CDDC &&& fp = 0x24CDDC) (core : Fin 512) (ecc : Ecc) (s : State)
    (h_s : Same fp z₀ s) : ∀ t, execSoftmaxBwd core ecc s = .next t → Same fp z₀ t := by
  intro t ht
  unfold execSoftmaxBwd at ht
  obtain rfl := Host.Outcome.next.inj ht
  repeat' with_reducible (first | assumption | apply State.rowOp_keeps (sub_of hm rfl))

theorem State.finishRow_keeps (hm : 0x208CCC &&& fp = 0x208CCC) (s : State) (p : Nat) (c : Nat) (h_s : Same fp z₀ s) :
    Same fp z₀ (State.finishRow s p c) := by
  unfold State.finishRow
  repeat' with_reducible
    first
    | assumption | apply State.complete_keeps (sub_of hm rfl) | apply State.updCore_keeps (sub_of hm rfl) | split


/-! ### Machine/Mover.lean -/

theorem State.sendHostJob_keeps (hm : 0x208040 &&& fp = 0x208040) (s : State) (k : Nat) (c : Nat)
    (h_s : Same fp z₀ s) : Same fp z₀ (State.sendHostJob s k c) := by
  unfold State.sendHostJob
  repeat' with_reducible
    first
    | assumption | apply State.hostRequest_keeps (sub_of hm rfl) | apply State.updCore_keeps (sub_of hm rfl) | split

theorem State.pumpHost_keeps (hm : 0x208040 &&& fp = 0x208040) (s : State) (k : Nat) (h_s : Same fp z₀ s) :
    Same fp z₀ (State.pumpHost s k) := by
  unfold State.pumpHost
  repeat' with_reducible
    first
    | intro _ | assumption | apply State.sendHostJob_keeps (sub_of hm rfl) | apply kept_foldl | split

theorem State.setMover_keeps (hm : 0x40 &&& fp = 0x40) (s : State) (c : Nat) (m : MoverRun) (h_s : Same fp z₀ s) :
    Same fp z₀ (State.setMover s c m) := by
  unfold State.setMover
  repeat' with_reducible (first | assumption | apply State.updCore_keeps (sub_of hm rfl))

theorem State.moveOut_keeps (hm : 0x24844C &&& fp = 0x24844C) (s : State) (p : Nat) (c : Nat) (m : MoverRun)
    (d : Desc) (ws : List TaggedByte) (h_s : Same fp z₀ s) : Same fp z₀ (State.moveOut s p c m d ws) := by
  unfold State.moveOut
  repeat' with_reducible
    first
    | assumption | apply State.setMover_keeps (sub_of hm rfl) | apply State.enqueueX_keeps (sub_of hm rfl)
    | apply State.pumpHost_keeps (sub_of hm rfl) | apply State.noteStale_keeps (sub_of hm rfl)
    | apply State.storeBytes_keeps (sub_of hm rfl) | dsimp only | split

theorem State.failMove_keeps (hm : 0x24CDCC &&& fp = 0x24CDCC) (s : State) (p : Nat) (c : Nat) (m : MoverRun)
    (a : Nat) (h_s : Same fp z₀ s) : Same fp z₀ (State.failMove s p c m a) := by
  unfold State.failMove
  repeat' with_reducible
    first
    | assumption | apply State.failRead_keeps (sub_of hm rfl) | apply State.updCore_keeps (sub_of hm rfl)

theorem State.copyNow_keeps (hm : 0x24CDCC &&& fp = 0x24CDCC) (s : State) (p : Nat) (c : Nat) (m : MoverRun)
    (sd : Desc) (dd : Desc) (ecc : Ecc) (h_s : Same fp z₀ s) : Same fp z₀ (State.copyNow s p c m sd dd ecc) := by
  unfold State.copyNow
  repeat' with_reducible
    first
    | assumption | apply State.accessErrors_keeps (sub_of hm rfl) | apply State.failMove_keeps (sub_of hm rfl)
    | apply State.moveOut_keeps (sub_of hm rfl) | split
    | (refine Same.of (s := ?_) ?_ ?_ ?_ ?_ ?_ ?_ ?_ ?_ ?_ ?_ ?_ ?_ ?_ ?_ ?_ ?_ ?_ ?_ ?_ ?_ ?_ ?_ ?_ ?_ ?_ ?_ ?_ ?_ ?_ <;>
        first | exact Or.inr rfl | exact Or.inl (bit_of hm rfl) | rfl | exact id | exact Or.inr fun _ h => h | skip)

theorem State.moveReads_keeps (hm : 0x24CDCC &&& fp = 0x24CDCC) (s : State) (p : Nat) (c : Nat) (n : Nat)
    (ecc : Ecc) (h_s : Same fp z₀ s) : Same fp z₀ (State.moveReads s p c n ecc).1 := by
  unfold State.moveReads
  repeat' with_reducible
    first
    | assumption | apply State.accessErrors_keeps (sub_of hm rfl) | apply State.failMove_keeps (sub_of hm rfl)
    | dsimp only | split

theorem State.feedOcc_keeps (hm : 0x24CDCC &&& fp = 0x24CDCC) (s : State) (p : Nat) (c : Nat) (n : Nat) (ecc : Ecc)
    (h_s : Same fp z₀ s) : Same fp z₀ (State.feedOcc s p c n ecc) := by
  unfold State.feedOcc
  repeat' with_reducible
    first
    | assumption | apply State.moveReads_keeps (sub_of hm rfl) | apply State.updPart_keeps (sub_of hm rfl)
    | apply State.setMover_keeps (sub_of hm rfl) | dsimp only | split

theorem State.copyReady_keeps (hm : 0x24CDCC &&& fp = 0x24CDCC) (s : State) (p : Nat) (c : Nat) (m : MoverRun)
    (sd : Desc) (dd : Desc) (ecc : Ecc) (h_s : Same fp z₀ s) : Same fp z₀ (State.copyReady s p c m sd dd ecc) := by
  unfold State.copyReady
  repeat' with_reducible
    first
    | assumption | apply State.feedOcc_keeps (sub_of hm rfl) | apply State.setMover_keeps (sub_of hm rfl)
    | apply State.copyNow_keeps (sub_of hm rfl) | split

theorem State.copyReads_keeps (hm : 0x24CDCC &&& fp = 0x24CDCC) (s : State) (p : Nat) (c : Nat) (m : MoverRun)
    (sd : Desc) (dd : Desc) (xs : List Xfer) (js : List HostJob) (ecc : Ecc) (h_s : Same fp z₀ s) :
    Same fp z₀ (State.copyReads s p c m sd dd xs js ecc) := by
  unfold State.copyReads
  repeat' with_reducible
    first
    | assumption | apply State.copyReady_keeps (sub_of hm rfl) | apply State.enqueueX_keeps (sub_of hm rfl)
    | apply State.setMover_keeps (sub_of hm rfl) | apply State.pumpHost_keeps (sub_of hm rfl) | split

theorem State.directDone_keeps (hm : 0x40 &&& fp = 0x40) (s : State) (c : Nat) (m : MoverRun) (sd : Desc)
    (dd : Desc) (h_s : Same fp z₀ s) : Same fp z₀ (State.directDone s c m sd dd) := by
  unfold State.directDone
  repeat' with_reducible (first | assumption | apply State.setMover_keeps (sub_of hm rfl))

theorem State.pushInto_keeps (hm : 0x100 &&& fp = 0x100) (s : State) (p : Nat) (n : Nat) (cls : Nat) (id : Nat)
    (len : Nat) (h_s : Same fp z₀ s) : ∀ t, State.pushInto s p n cls id len = some t → Same fp z₀ t := by
  unfold State.pushInto
  repeat' with_reducible
    first
    | exact kept_none | refine kept_some ?_ | refine kept_iteO ?_ ?_ | refine kept_bindO ?_ | refine kept_mapO ?_
    | split | assumption | apply State.setCtx_keeps (sub_of hm rfl) | exact kept_none | refine kept_some ?_
    | refine kept_iteO ?_ ?_ | split

theorem State.refuse_keeps (hm : 0x208CCC &&& fp = 0x208CCC) (s : State) (p : Nat) (c : Nat) (k : Checked)
    (st : Half) (h_s : Same fp z₀ s) : Same fp z₀ (State.refuse s p c k st) := by
  unfold State.refuse
  repeat' with_reducible
    first
    | assumption | apply State.complete_keeps (sub_of hm rfl) | apply State.popHead_keeps (sub_of hm rfl)

theorem State.refuseMove_keeps (hm : 0x248CCC &&& fp = 0x248CCC) (s : State) (p : Nat) (c : Nat) (k : Checked)
    (st : Half) (h_s : Same fp z₀ s) : Same fp z₀ (State.refuseMove s p c k st) := by
  unfold State.refuseMove
  repeat' with_reducible
    first
    | assumption | apply State.refuse_keeps (sub_of hm rfl) | apply State.dropBackward_keeps (sub_of hm rfl)

theorem State.withSkein_keeps (hm : 0x248CCC &&& fp = 0x248CCC) (s : State) (p : Nat) (c : Nat) (k : Checked)
    (run : State → State) (h_s : Same fp z₀ s) (h_run : ∀ y0, Same fp z₀ y0 → Same fp z₀ ((run y0))) :
    Same fp z₀ (State.withSkein s p c k run) := by
  unfold State.withSkein
  repeat' with_reducible
    first
    | assumption | apply h_run | apply State.refuseMove_keeps (sub_of hm rfl)
    | apply State.openSkein_keeps (sub_of hm rfl) | split

theorem State.pushNow_keeps (hm : 0x24CDCC &&& fp = 0x24CDCC) (s : State) (p : Nat) (c : Nat) (m : MoverRun)
    (d : Desc) (a : Nat) (ecc : Ecc) (h_s : Same fp z₀ s) : Same fp z₀ (State.pushNow s p c m d a ecc) := by
  unfold State.pushNow
  repeat' with_reducible
    first
    | assumption | apply State.accessErrors_keeps (sub_of hm rfl) | apply State.failMove_keeps (sub_of hm rfl)
    | apply State.setMover_keeps (sub_of hm rfl) | apply State.noteStale_keeps (sub_of hm rfl)
    | apply State.storeRun_keeps (sub_of hm rfl) | dsimp only | split

theorem State.larderPush_keeps (hm : 0x24CDCC &&& fp = 0x24CDCC) (s : State) (p : Nat) (c : Nat) (k : Checked)
    (ecc : Ecc) (h_s : Same fp z₀ s) : Same fp z₀ (State.larderPush s p c k ecc) := by
  unfold State.larderPush
  repeat' with_reducible
    first
    | refine State.pushInto_keeps (sub_of hm rfl) _ _ _ _ _ _ ?_ | refine kept_some ?_ | exact kept_none
    | refine kept_iteO ?_ ?_ | assumption | apply State.refuse_keeps (sub_of hm rfl)
    | refine State.pushInto_keeps (sub_of hm rfl) _ _ _ _ _ _ ?_ _ (by assumption)
    | refine State.pushInto_keeps (sub_of hm rfl) _ _ _ _ _ _ ?_ | apply State.complete_keeps (sub_of hm rfl)
    | apply State.popHead_keeps (sub_of hm rfl) | apply State.noteStale_keeps (sub_of hm rfl)
    | apply State.noteIssued_keeps (sub_of hm rfl) | apply State.enqueueX_keeps (sub_of hm rfl)
    | apply State.setMover_keeps (sub_of hm rfl) | apply State.pumpHost_keeps (sub_of hm rfl)
    | apply State.pushNow_keeps (sub_of hm rfl) | apply kept_getD | dsimp only | split

theorem State.larderRead_keeps (hm : 0x24CDCC &&& fp = 0x24CDCC) (s : State) (p : Nat) (c : Nat) (k : Checked)
    (ecc : Ecc) (h_s : Same fp z₀ s) : Same fp z₀ (State.larderRead s p c k ecc) := by
  unfold State.larderRead
  repeat' with_reducible
    first
    | intro _ | assumption | apply State.refuse_keeps (sub_of hm rfl) | apply State.recallFor_keeps (sub_of hm rfl)
    | apply State.accessErrors_keeps (sub_of hm rfl) | apply State.noteIssued_keeps (sub_of hm rfl)
    | apply State.popHead_keeps (sub_of hm rfl) | apply State.failRead_keeps (sub_of hm rfl)
    | apply State.moveOut_keeps (sub_of hm rfl) | apply kept_foldl | dsimp only | split

theorem State.larderRelease_keeps (hm : 0x208CCC &&& fp = 0x208CCC) (s : State) (p : Nat) (c : Nat) (k : Checked)
    (h_s : Same fp z₀ s) : Same fp z₀ (State.larderRelease s p c k) := by
  unfold State.larderRelease
  repeat' with_reducible
    first
    | assumption | apply State.refuse_keeps (sub_of hm rfl) | apply State.setMover_keeps (sub_of hm rfl)
    | apply State.noteIssued_keeps (sub_of hm rfl) | apply State.popHead_keeps (sub_of hm rfl) | dsimp only | split

theorem State.popRecord_keeps (hm : 0x100 &&& fp = 0x100) (s : State) (n : Nat) (h_s : Same fp z₀ s) :
    Same fp z₀ (State.popRecord s n) := by
  unfold State.popRecord
  repeat' with_reducible (first | assumption | apply State.setCtx_keeps (sub_of hm rfl) | split)

theorem State.storeGather_keeps (hm : 0x40000 &&& fp = 0x40000) (s : State) (p : Nat) (dest : Nat) (ctx : Nat)
    (gid : Nat) (tag : Word) (h_s : Same fp z₀ s) :
    ∀ t, State.storeGather s p dest ctx gid tag = some t → Same fp z₀ t := by
  unfold State.storeGather
  repeat' with_reducible
    first
    | exact kept_none | refine kept_some ?_ | refine kept_iteO ?_ ?_ | refine kept_bindO ?_ | refine kept_mapO ?_
    | assumption | apply State.dropGather_keeps (sub_of hm rfl) | exact kept_none | refine kept_some ?_
    | refine kept_iteO ?_ ?_ | apply Same.set_train (bit_of hm rfl)

theorem State.copyFrom_keeps (hm : 0x24CDCC &&& fp = 0x24CDCC) (s : State) (p : Nat) (c : Nat) (m : MoverRun)
    (sd : Desc) (dd : Desc) (ecc : Ecc) (h_s : Same fp z₀ s) : Same fp z₀ (State.copyFrom s p c m sd dd ecc) := by
  unfold State.copyFrom
  repeat' with_reducible
    first
    | assumption | apply State.noteIssued_keeps (sub_of hm rfl) | apply State.enqueueX_keeps (sub_of hm rfl)
    | apply State.setMover_keeps (sub_of hm rfl) | apply State.storeBytes_keeps (sub_of hm rfl)
    | apply State.copyReads_keeps (sub_of hm rfl) | dsimp only | split

theorem State.copyIssue_keeps (hm : 0x24CDCC &&& fp = 0x24CDCC) (s : State) (p : Nat) (c : Nat) (k : Checked)
    (ecc : Ecc) (h_s : Same fp z₀ s) : Same fp z₀ (State.copyIssue s p c k ecc) := by
  unfold State.copyIssue
  repeat' with_reducible
    first
    | refine State.storeGather_keeps (sub_of hm rfl) _ _ _ _ _ _ ?_ | refine kept_some ?_ | exact kept_none
    | refine kept_iteO ?_ ?_ | assumption | apply State.copyFrom_keeps (sub_of hm rfl)
    | apply State.popHead_keeps (sub_of hm rfl) | apply State.refuse_keeps (sub_of hm rfl)
    | apply State.dropGather_keeps (sub_of hm rfl)
    | refine State.storeGather_keeps (sub_of hm rfl) _ _ _ _ _ _ ?_ _ (by assumption)
    | refine State.storeGather_keeps (sub_of hm rfl) _ _ _ _ _ _ ?_ | apply kept_getD | split
    | apply Same.set_train (bit_of hm rfl)

theorem execCopy_keeps (hm : 0x24CDDC &&& fp = 0x24CDDC) (core : Fin 512) (ecc : Ecc) (s : State)
    (h_s : Same fp z₀ s) : ∀ t, execCopy core ecc s = .next t → Same fp z₀ t := by
  intro t ht
  unfold execCopy at ht
  obtain rfl := Host.Outcome.next.inj ht
  repeat' with_reducible
    first
    | intro _ | assumption | apply State.issue_keeps (sub_of hm rfl) | apply State.withSkein_keeps (sub_of hm rfl)
    | apply State.copyIssue_keeps (sub_of hm rfl)

theorem execLarderPush_keeps (hm : 0x24CDDC &&& fp = 0x24CDDC) (core : Fin 512) (ecc : Ecc) (s : State)
    (h_s : Same fp z₀ s) : ∀ t, execLarderPush core ecc s = .next t → Same fp z₀ t := by
  intro t ht
  unfold execLarderPush at ht
  obtain rfl := Host.Outcome.next.inj ht
  repeat' with_reducible
    first
    | intro _ | assumption | apply State.issue_keeps (sub_of hm rfl) | apply State.withSkein_keeps (sub_of hm rfl)
    | apply State.larderPush_keeps (sub_of hm rfl)

theorem execLarderRead_keeps (hm : 0x24CDDC &&& fp = 0x24CDDC) (core : Fin 512) (ecc : Ecc) (s : State)
    (h_s : Same fp z₀ s) : ∀ t, execLarderRead core ecc s = .next t → Same fp z₀ t := by
  intro t ht
  unfold execLarderRead at ht
  obtain rfl := Host.Outcome.next.inj ht
  repeat' with_reducible
    first
    | intro _ | assumption | apply State.issue_keeps (sub_of hm rfl) | apply State.withSkein_keeps (sub_of hm rfl)
    | apply State.larderRead_keeps (sub_of hm rfl)

theorem execLarderRelease_keeps (hm : 0x248CDC &&& fp = 0x248CDC) (core : Fin 512) (s : State) (h_s : Same fp z₀ s) :
    ∀ t, execLarderRelease core s = .next t → Same fp z₀ t := by
  intro t ht
  unfold execLarderRelease at ht
  obtain rfl := Host.Outcome.next.inj ht
  repeat' with_reducible
    first
    | intro _ | assumption | apply State.issue_keeps (sub_of hm rfl)
    | apply State.larderRelease_keeps (sub_of hm rfl)

theorem State.pushStaged_keeps (hm : 0x24CDCC &&& fp = 0x24CDCC) (s : State) (p : Nat) (c : Nat) (m : MoverRun)
    (ecc : Ecc) (h_s : Same fp z₀ s) : Same fp z₀ (State.pushStaged s p c m ecc) := by
  unfold State.pushStaged
  repeat' with_reducible
    first
    | assumption | apply State.pushNow_keeps (sub_of hm rfl) | apply State.setMover_keeps (sub_of hm rfl) | split

theorem State.moverAdvance_keeps (hm : 0x24CDCC &&& fp = 0x24CDCC) (s : State) (c : Nat) (ecc : Ecc)
    (h_s : Same fp z₀ s) : Same fp z₀ (State.moverAdvance s c ecc) := by
  unfold State.moverAdvance
  repeat' with_reducible
    first
    | assumption | apply State.setMover_keeps (sub_of hm rfl) | apply State.directDone_keeps (sub_of hm rfl)
    | apply State.copyReady_keeps (sub_of hm rfl) | apply State.pushStaged_keeps (sub_of hm rfl) | split

theorem State.finishMover_keeps (hm : 0x248DCC &&& fp = 0x248DCC) (s : State) (p : Nat) (c : Nat) (landing : Half)
    (h_s : Same fp z₀ s) : Same fp z₀ (State.finishMover s p c landing) := by
  unfold State.finishMover
  repeat' with_reducible
    first
    | assumption | apply State.popRecord_keeps (sub_of hm rfl) | apply State.updCore_keeps (sub_of hm rfl)
    | apply State.addTally_keeps (sub_of hm rfl) | apply State.complete_keeps (sub_of hm rfl)
    | apply State.setCtx_keeps (sub_of hm rfl) | apply State.dropGather_keeps (sub_of hm rfl) | split
    | apply Same.set_train (bit_of hm rfl)

end Sys2Proof.Machine
end

