-- ==== Sys2Proof/Laws/FrameFabric.lean ====
section
/-! SUPPORT. Laws/FrameFabric.lean: which parts of the state each function of the model may reach (see Laws/Frame.lean):
patterns, packets, collectives, the schedule and completion. -/

namespace Sys2Proof.Machine

variable {fp : Nat} {z₀ : State}

/-! ### Machine/Pattern.lean -/

theorem State.loadEffects_keeps (hm : 0x2489C4 &&& fp = 0x2489C4) (s : State) (p : Nat) (h_s : Same fp z₀ s) :
    Same fp z₀ (State.loadEffects s p) := by
  unfold State.loadEffects
  repeat' with_reducible
    first
    | intro _ | assumption | apply State.freshNorm_keeps (sub_of hm rfl)
    | apply State.emptyContexts_keeps (sub_of hm rfl) | apply State.releaseCore_keeps (sub_of hm rfl)
    | apply State.updCore_keeps (sub_of hm rfl) | apply State.freshCore_keeps (sub_of hm rfl)
    | apply State.setCtx_keeps (sub_of hm rfl) | apply State.updPart_keeps (sub_of hm rfl) | apply kept_foldl
    | apply Same.set_train (bit_of hm rfl)

theorem State.patCommit_keeps (hm : 0x2489C4 &&& fp = 0x2489C4) (s : State) (p : Nat) (h_s : Same fp z₀ s) :
    Same fp z₀ (State.patCommit s p) := by
  unfold State.patCommit
  repeat' with_reducible
    first
    | assumption | apply State.updPart_keeps (sub_of hm rfl) | apply State.loadEffects_keeps (sub_of hm rfl)
    | apply State.recallFor_keeps (sub_of hm rfl) | dsimp only | split

theorem execPatCommit_keeps (hm : 0x2C89C4 &&& fp = 0x2C89C4) (port : Fin 2) (part : Fin 16) (s : State)
    (h_s : Same fp z₀ s) : ∀ t, execPatCommit port part s = .next t → Same fp z₀ t := by
  intro t ht
  unfold execPatCommit at ht
  obtain rfl := Host.Outcome.next.inj ht
  repeat' with_reducible
    first
    | intro _ | assumption | apply State.viaPart_keeps (sub_of hm rfl) | apply State.patCommit_keeps (sub_of hm rfl)

theorem State.endLoad_keeps (hm : 0x80 &&& fp = 0x80) (s : State) (p : Nat) (r : Half × Option Pattern)
    (h_s : Same fp z₀ s) : Same fp z₀ (State.endLoad s p r) := by
  unfold State.endLoad
  repeat' with_reducible (first | assumption | apply State.updPart_keeps (sub_of hm rfl))

theorem execPatternLoadDone_keeps (hm : 0x208080 &&& fp = 0x208080) (part : Fin 16) (s : State) (h_s : Same fp z₀ s) :
    ∀ t, execPatternLoadDone part s = .next t → Same fp z₀ t := by
  intro t ht
  unfold execPatternLoadDone at ht
  obtain rfl := Host.Outcome.next.inj ht
  repeat' with_reducible
    first
    | assumption | apply State.endLoad_keeps (sub_of hm rfl) | apply State.recallFor_keeps (sub_of hm rfl) | split

theorem State.startCommit_keeps (hm : 0x80 &&& fp = 0x80) (s : State) (p : Nat) (h_s : Same fp z₀ s) :
    Same fp z₀ (State.startCommit s p) := by
  unfold State.startCommit
  repeat' with_reducible (first | assumption | apply State.updPart_keeps (sub_of hm rfl))

theorem execStartCommit_keeps (hm : 0x80080 &&& fp = 0x80080) (port : Fin 2) (part : Fin 16) (s : State)
    (h_s : Same fp z₀ s) : ∀ t, execStartCommit port part s = .next t → Same fp z₀ t := by
  intro t ht
  unfold execStartCommit at ht
  obtain rfl := Host.Outcome.next.inj ht
  repeat' with_reducible
    first
    | intro _ | assumption | apply State.viaPart_keeps (sub_of hm rfl)
    | apply State.startCommit_keeps (sub_of hm rfl)

theorem State.takeManifest_keeps (hm : 0x80 &&& fp = 0x80) (s : State) (p : Nat) (base : Long) (h_s : Same fp z₀ s) :
    Same fp z₀ (State.takeManifest s p base) := by
  unfold State.takeManifest
  repeat' with_reducible (first | assumption | apply State.updPart_keeps (sub_of hm rfl))

theorem State.awaitManifest_keeps (hm : 0x208080 &&& fp = 0x208080) (s : State) (p : Nat) (base : Long)
    (h_s : Same fp z₀ s) : Same fp z₀ (State.awaitManifest s p base) := by
  unfold State.awaitManifest
  repeat' with_reducible
    first
    | assumption | apply State.updPart_keeps (sub_of hm rfl) | apply State.recallFor_keeps (sub_of hm rfl)
    | apply State.takeManifest_keeps (sub_of hm rfl) | split

theorem State.manCommit_keeps (hm : 0x208080 &&& fp = 0x208080) (s : State) (p : Nat) (h_s : Same fp z₀ s) :
    Same fp z₀ (State.manCommit s p) := by
  unfold State.manCommit
  repeat' with_reducible (first | assumption | apply State.awaitManifest_keeps (sub_of hm rfl))

theorem execManCommit_keeps (hm : 0x288080 &&& fp = 0x288080) (port : Fin 2) (part : Fin 16) (s : State)
    (h_s : Same fp z₀ s) : ∀ t, execManCommit port part s = .next t → Same fp z₀ t := by
  intro t ht
  unfold execManCommit at ht
  obtain rfl := Host.Outcome.next.inj ht
  repeat' with_reducible
    first
    | intro _ | assumption | apply State.viaPart_keeps (sub_of hm rfl) | apply State.manCommit_keeps (sub_of hm rfl)

theorem State.startFetchers_keeps (hm : 0x40 &&& fp = 0x40) (s : State) (p : Nat) (pat : Pattern)
    (h_s : Same fp z₀ s) : Same fp z₀ (State.startFetchers s p pat) := by
  unfold State.startFetchers
  repeat' with_reducible
    first
    | intro _ | assumption | apply State.updCore_keeps (sub_of hm rfl) | apply kept_foldl

theorem State.fetchStep_keeps (hm : 0x208000 &&& fp = 0x208000) (s : State) (c : Nat)
    (f : State → Nat → Pattern → Fetcher → State) (h_s : Same fp z₀ s)
    (h_f : ∀ y0 y1 y2 y3, Same fp z₀ y0 → Same fp z₀ ((f y0 y1 y2 y3))) : Same fp z₀ (State.fetchStep s c f) := by
  unfold State.fetchStep
  repeat' with_reducible
    first
    | assumption | apply h_f | apply State.recallFor_keeps (sub_of hm rfl) | dsimp only | split

theorem State.setFetch_keeps (hm : 0x40 &&& fp = 0x40) (s : State) (c : Nat) (f : Fetcher) (h_s : Same fp z₀ s) :
    Same fp z₀ (State.setFetch s c f) := by
  unfold State.setFetch
  repeat' with_reducible (first | assumption | apply State.updCore_keeps (sub_of hm rfl))

theorem execStreamEnqueue_keeps (hm : 0x208040 &&& fp = 0x208040) (core : Fin 512) (s : State) (h_s : Same fp z₀ s) :
    ∀ t, execStreamEnqueue core s = .next t → Same fp z₀ t := by
  intro t ht
  unfold execStreamEnqueue at ht
  obtain rfl := Host.Outcome.next.inj ht
  repeat' with_reducible
    first
    | intro _ | assumption | apply State.fetchStep_keeps (sub_of hm rfl)
    | apply State.setFetch_keeps (sub_of hm rfl) | apply State.updCore_keeps (sub_of hm rfl) | split

theorem execGate_keeps (hm : 0x208040 &&& fp = 0x208040) (core : Fin 512) (s : State) (h_s : Same fp z₀ s) :
    ∀ t, execGate core s = .next t → Same fp z₀ t := by
  intro t ht
  unfold execGate at ht
  obtain rfl := Host.Outcome.next.inj ht
  repeat' with_reducible
    first
    | intro _ | assumption | apply State.fetchStep_keeps (sub_of hm rfl)
    | apply State.setFetch_keeps (sub_of hm rfl) | split

theorem execGateOpen_keeps (hm : 0x208040 &&& fp = 0x208040) (core : Fin 512) (s : State) (h_s : Same fp z₀ s) :
    ∀ t, execGateOpen core s = .next t → Same fp z₀ t := by
  intro t ht
  unfold execGateOpen at ht
  obtain rfl := Host.Outcome.next.inj ht
  repeat' with_reducible
    first
    | intro _ | assumption | apply State.fetchStep_keeps (sub_of hm rfl)
    | apply State.setFetch_keeps (sub_of hm rfl) | dsimp only | split

theorem execSegment_keeps (hm : 0x208040 &&& fp = 0x208040) (core : Fin 512) (s : State) (h_s : Same fp z₀ s) :
    ∀ t, execSegment core s = .next t → Same fp z₀ t := by
  intro t ht
  unfold execSegment at ht
  obtain rfl := Host.Outcome.next.inj ht
  repeat' with_reducible
    first
    | intro _ | assumption | apply State.fetchStep_keeps (sub_of hm rfl)
    | apply State.setFetch_keeps (sub_of hm rfl) | dsimp only | split

theorem execBody_keeps (hm : 0x208040 &&& fp = 0x208040) (core : Fin 512) (s : State) (h_s : Same fp z₀ s) :
    ∀ t, execBody core s = .next t → Same fp z₀ t := by
  intro t ht
  unfold execBody at ht
  obtain rfl := Host.Outcome.next.inj ht
  repeat' with_reducible
    first
    | intro _ | assumption | apply State.fetchStep_keeps (sub_of hm rfl)
    | apply State.setFetch_keeps (sub_of hm rfl) | split

theorem execEndStep_keeps (hm : 0x208040 &&& fp = 0x208040) (core : Fin 512) (s : State) (h_s : Same fp z₀ s) :
    ∀ t, execEndStep core s = .next t → Same fp z₀ t := by
  intro t ht
  unfold execEndStep at ht
  obtain rfl := Host.Outcome.next.inj ht
  repeat' with_reducible
    first
    | intro _ | assumption | apply State.fetchStep_keeps (sub_of hm rfl)
    | apply State.setFetch_keeps (sub_of hm rfl) | dsimp only | split

theorem execAtticHoldEnd_keeps (hm : 0x80 &&& fp = 0x80) (part : Fin 16) (handle : BitVec 10) (s : State)
    (h_s : Same fp z₀ s) : ∀ t, execAtticHoldEnd part handle s = .next t → Same fp z₀ t := by
  intro t ht
  unfold execAtticHoldEnd at ht
  obtain rfl := Host.Outcome.next.inj ht
  repeat' with_reducible (first | assumption | apply State.updPart_keeps (sub_of hm rfl))


/-! ### Machine/Fabric.lean -/

theorem State.countRx_keeps (hm : 0x400 &&& fp = 0x400) (s : State) (k : Nat) (flits : Nat) (cls : Nat)
    (channel : Nat) (h_s : Same fp z₀ s) : Same fp z₀ (State.countRx s k flits cls channel) := by
  unfold State.countRx
  repeat' with_reducible
    first
    | assumption | apply State.updCtr_keeps (sub_of hm rfl) | apply Same.set_fabric (bit_of hm rfl)

theorem State.noteDepth_keeps (hm : 0x400 &&& fp = 0x400) (s : State) (k : Nat) (h_s : Same fp z₀ s) :
    Same fp z₀ (State.noteDepth s k) := by
  unfold State.noteDepth
  repeat' with_reducible (first | assumption | apply State.updCtr_keeps (sub_of hm rfl))

theorem State.setTransit_keeps (hm : 0x400 &&& fp = 0x400) (s : State) (port : Option Nat)
    (l : List (Option Nat × Pkt)) (h_s : Same fp z₀ s) : Same fp z₀ (State.setTransit s port l) := by
  unfold State.setTransit
  repeat' with_reducible
    first
    | assumption | apply State.noteDepth_keeps (sub_of hm rfl) | split | apply Same.set_fabric (bit_of hm rfl)

theorem State.setUsed_keeps (hm : 0x400 &&& fp = 0x400) (s : State) (k : Nat) (f : Nat → Nat → Nat)
    (h_s : Same fp z₀ s) : Same fp z₀ (State.setUsed s k f) := by
  unfold State.setUsed
  repeat' with_reducible (first | assumption | apply Same.set_fabric (bit_of hm rfl))

theorem State.takeCredits_keeps (hm : 0x400 &&& fp = 0x400) (s : State) (k : Nat) (lane : Nat) (n : Nat)
    (h_s : Same fp z₀ s) : Same fp z₀ (State.takeCredits s k lane n) := by
  unfold State.takeCredits
  repeat' with_reducible (first | assumption | apply State.setUsed_keeps (sub_of hm rfl))

theorem State.returnCredits_keeps (hm : 0x400 &&& fp = 0x400) (s : State) (back : List Nat) (h_s : Same fp z₀ s) :
    Same fp z₀ (State.returnCredits s back) := by
  unfold State.returnCredits
  repeat' with_reducible
    first
    | intro _ | assumption | apply State.setUsed_keeps (sub_of hm rfl) | apply kept_foldl | split

theorem State.countTx_keeps (hm : 0x400 &&& fp = 0x400) (s : State) (k : Nat) (flits : Nat) (h_s : Same fp z₀ s) :
    Same fp z₀ (State.countTx s k flits) := by
  unfold State.countTx
  repeat' with_reducible (first | assumption | apply State.updCtr_keeps (sub_of hm rfl))

theorem State.sample_keeps (hm : 0x400 &&& fp = 0x400) (s : State) (point : Nat) (cls : Nat) (part : Option Nat)
    (header : List Byte) (h_s : Same fp z₀ s) : Same fp z₀ (State.sample s point cls part header) := by
  unfold State.sample
  repeat' with_reducible
    first
    | assumption | split
    | (refine Same.of (s := ?_) ?_ ?_ ?_ ?_ ?_ ?_ ?_ ?_ ?_ ?_ ?_ ?_ ?_ ?_ ?_ ?_ ?_ ?_ ?_ ?_ ?_ ?_ ?_ ?_ ?_ ?_ ?_ ?_ ?_ <;>
        first | exact Or.inr rfl | exact Or.inl (bit_of hm rfl) | rfl | exact id | exact Or.inr fun _ h => h | skip)

theorem State.freeWord_keeps (hm : 0x0 &&& fp = 0x0) (s : State) (h_s : Same fp z₀ s) :
    Same fp z₀ (State.freeWord s).1 := by
  unfold State.freeWord
  repeat' with_reducible
    first
    | assumption
    | (refine Same.of (s := ?_) ?_ ?_ ?_ ?_ ?_ ?_ ?_ ?_ ?_ ?_ ?_ ?_ ?_ ?_ ?_ ?_ ?_ ?_ ?_ ?_ ?_ ?_ ?_ ?_ ?_ ?_ ?_ ?_ ?_ <;>
        first | exact Or.inr rfl | exact Or.inl (bit_of hm rfl) | rfl | exact id | exact Or.inr fun _ h => h | skip)

theorem State.updFabric_keeps (hm : 0x400 &&& fp = 0x400) (s : State) (f : Fabric → Fabric) (h_s : Same fp z₀ s) :
    Same fp z₀ (State.updFabric s f) := by
  unfold State.updFabric
  repeat' with_reducible (first | assumption | apply Same.set_fabric (bit_of hm rfl))

theorem State.keep_keeps (hm : 0x400 &&& fp = 0x400) (s : State) (port : Option Nat) (p : Pkt) (h_s : Same fp z₀ s) :
    Same fp z₀ (State.keep s port p) := by
  unfold State.keep
  repeat' with_reducible (first | assumption | apply State.setTransit_keeps (sub_of hm rfl))

theorem State.strayed_keeps (hm : 0x400 &&& fp = 0x400) (s : State) (h_s : Same fp z₀ s) :
    Same fp z₀ (State.strayed s) := by
  unfold State.strayed
  repeat' with_reducible (first | assumption | apply State.updFabric_keeps (sub_of hm rfl))

theorem State.replyTo_keeps (hm : 0x400 &&& fp = 0x400) (s : State) (p : Pkt) (kind : Nat) (status : Half)
    (payload : List Byte) (h_s : Same fp z₀ s) : Same fp z₀ (State.replyTo s p kind status payload) := by
  unfold State.replyTo
  repeat' with_reducible (first | assumption | apply State.inject_keeps (sub_of hm rfl))

theorem State.putContext_keeps (hm : 0x400 &&& fp = 0x400) (s : State) (x : RxCtx) (h_s : Same fp z₀ s) :
    Same fp z₀ (State.putContext s x) := by
  unfold State.putContext
  repeat' with_reducible (first | assumption | apply State.updFabric_keeps (sub_of hm rfl))

theorem State.updGrant_keeps (hm : 0x400 &&& fp = 0x400) (s : State) (src : Nat) (skein : Nat)
    (h : Granted → Granted) (h_s : Same fp z₀ s) : Same fp z₀ (State.updGrant s src skein h) := by
  unfold State.updGrant
  repeat' with_reducible (first | assumption | apply State.updFabric_keeps (sub_of hm rfl))

theorem State.freeContext_keeps (hm : 0x400 &&& fp = 0x400) (s : State) (x : RxCtx) (h_s : Same fp z₀ s) :
    Same fp z₀ (State.freeContext s x) := by
  unfold State.freeContext
  repeat' with_reducible
    first
    | assumption | apply State.updFabric_keeps (sub_of hm rfl) | apply State.updGrant_keeps (sub_of hm rfl) | split

theorem State.completeRx_keeps (hm : 0x84C0 &&& fp = 0x84C0) (s : State) (p : Pkt) (x : RxCtx) (h_s : Same fp z₀ s) :
    Same fp z₀ (State.completeRx s p x) := by
  unfold State.completeRx
  repeat' with_reducible
    first
    | assumption | apply State.addTally_keeps (sub_of hm rfl) | apply State.replyTo_keeps (sub_of hm rfl)
    | apply State.updFabric_keeps (sub_of hm rfl) | apply State.freeContext_keeps (sub_of hm rfl) | split

theorem State.countIn_keeps (hm : 0x84C0 &&& fp = 0x84C0) (s : State) (p : Pkt) (act : State → State × Half)
    (tally : Option Word) (h_s : Same fp z₀ s) (h_act : ∀ y0, Same fp z₀ y0 → Same fp z₀ ((act y0).1)) :
    Same fp z₀ (State.countIn s p act tally) := by
  unfold State.countIn
  repeat' with_reducible
    first
    | assumption | apply h_act | apply State.replyTo_keeps (sub_of hm rfl)
    | apply State.strayed_keeps (sub_of hm rfl) | apply State.updGrant_keeps (sub_of hm rfl)
    | apply State.freeContext_keeps (sub_of hm rfl) | apply State.updFabric_keeps (sub_of hm rfl)
    | apply State.completeRx_keeps (sub_of hm rfl) | apply State.putContext_keeps (sub_of hm rfl) | dsimp only
    | split

theorem State.storeIn_keeps (hm : 0x24CDCC &&& fp = 0x24CDCC) (s : State) (q : Nat) (a : Nat) (bs : List Byte)
    (ecc : Ecc) (h_s : Same fp z₀ s) : Same fp z₀ (State.storeIn s q a bs ecc).1 := by
  unfold State.storeIn
  repeat' with_reducible
    first
    | assumption | apply State.noteStale_keeps (sub_of hm rfl) | apply State.accessErrors_keeps (sub_of hm rfl)
    | apply State.fault_keeps (sub_of hm rfl) | apply State.storeRun_keeps (sub_of hm rfl) | dsimp only | split

theorem State.writeIn_keeps (hm : 0x24CDCC &&& fp = 0x24CDCC) (s : State) (p : Pkt) (ecc : Ecc) (h_s : Same fp z₀ s) :
    Same fp z₀ (State.writeIn s p ecc).1 := by
  unfold State.writeIn
  repeat' with_reducible (first | assumption | apply State.storeIn_keeps (sub_of hm rfl))

theorem State.onWrite_keeps (hm : 0x24CDCC &&& fp = 0x24CDCC) (s : State) (port : Option Nat) (p : Pkt) (ecc : Ecc)
    (h_s : Same fp z₀ s) : Same fp z₀ (State.onWrite s port p ecc) := by
  unfold State.onWrite
  repeat' with_reducible
    first
    | intro _ | assumption | apply State.keep_keeps (sub_of hm rfl) | apply State.countIn_keeps (sub_of hm rfl)
    | apply State.writeIn_keeps (sub_of hm rfl) | split

theorem State.onTally_keeps (hm : 0x84C0 &&& fp = 0x84C0) (s : State) (port : Option Nat) (p : Pkt)
    (h_s : Same fp z₀ s) : Same fp z₀ (State.onTally s port p) := by
  unfold State.onTally
  repeat' with_reducible
    first
    | intro _ | assumption | apply State.keep_keeps (sub_of hm rfl) | apply State.countIn_keeps (sub_of hm rfl)
    | split

theorem State.onRead_keeps (hm : 0x24CDCC &&& fp = 0x24CDCC) (s : State) (port : Option Nat) (p : Pkt) (ecc : Ecc)
    (h_s : Same fp z₀ s) : Same fp z₀ (State.onRead s port p ecc) := by
  unfold State.onRead
  repeat' with_reducible
    first
    | assumption | apply State.replyTo_keeps (sub_of hm rfl) | apply State.strayed_keeps (sub_of hm rfl)
    | apply State.updGrant_keeps (sub_of hm rfl) | apply State.keep_keeps (sub_of hm rfl)
    | apply State.recallFor_keeps (sub_of hm rfl) | apply State.readErrors_keeps (sub_of hm rfl)
    | apply State.fault_keeps (sub_of hm rfl) | apply State.inject_keeps (sub_of hm rfl) | apply kept_foldl
    | dsimp only | split

theorem State.onOpen_keeps (hm : 0x400 &&& fp = 0x400) (s : State) (_port : Option Nat) (p : Pkt)
    (h_s : Same fp z₀ s) : Same fp z₀ (State.onOpen s _port p) := by
  unfold State.onOpen
  repeat' with_reducible
    first
    | assumption | apply State.replyTo_keeps (sub_of hm rfl) | apply State.strayed_keeps (sub_of hm rfl)
    | apply State.updFabric_keeps (sub_of hm rfl) | apply State.injectHeld_keeps (sub_of hm rfl) | dsimp only
    | split

theorem State.onClose_keeps (hm : 0x400 &&& fp = 0x400) (s : State) (_port : Option Nat) (p : Pkt)
    (h_s : Same fp z₀ s) : Same fp z₀ (State.onClose s _port p) := by
  unfold State.onClose
  repeat' with_reducible
    first
    | assumption | apply State.replyTo_keeps (sub_of hm rfl) | apply State.strayed_keeps (sub_of hm rfl)
    | apply State.updFabric_keeps (sub_of hm rfl) | split

theorem State.failTransfer_keeps (hm : 0x24CDCC &&& fp = 0x24CDCC) (s : State) (part : Nat) (core : Option Nat)
    (st : Half) (h_s : Same fp z₀ s) : Same fp z₀ (State.failTransfer s part core st) := by
  unfold State.failTransfer
  repeat' with_reducible
    first
    | assumption | apply State.fault_keeps (sub_of hm rfl) | apply State.failCommand_keeps (sub_of hm rfl)
    | apply State.updCore_keeps (sub_of hm rfl) | split

theorem State.failMover_keeps (hm : 0x24CDCC &&& fp = 0x24CDCC) (s : State) (c : Nat) (n : Nat) (st : Half)
    (h_s : Same fp z₀ s) : Same fp z₀ (State.failMover s c n st) := by
  unfold State.failMover
  repeat' with_reducible
    first
    | assumption | apply State.updFabric_keeps (sub_of hm rfl) | apply State.moverAdvance_keeps (sub_of hm rfl)
    | apply State.setMover_keeps (sub_of hm rfl) | dsimp only | split

theorem State.answerMover_keeps (hm : 0x24CDCC &&& fp = 0x24CDCC) (s : State) (core : Option Nat) (st : Half)
    (ecc : Ecc) (h_s : Same fp z₀ s) : Same fp z₀ (State.answerMover s core st ecc) := by
  unfold State.answerMover
  repeat' with_reducible
    first
    | assumption | apply State.failMover_keeps (sub_of hm rfl) | apply State.moverAdvance_keeps (sub_of hm rfl)
    | apply State.setMover_keeps (sub_of hm rfl) | split

theorem State.dropWaiting_keeps (hm : 0x24CDCC &&& fp = 0x24CDCC) (s : State) (hit : WaitX → Bool) (st : Half)
    (h_s : Same fp z₀ s) : Same fp z₀ (State.dropWaiting s hit st) := by
  unfold State.dropWaiting
  repeat' with_reducible
    first
    | intro _ | assumption | apply State.updFabric_keeps (sub_of hm rfl)
    | apply State.failMover_keeps (sub_of hm rfl) | apply kept_foldl

theorem State.endTransfer_keeps (hm : 0x24CDCC &&& fp = 0x24CDCC) (s : State) (k : Skein) (x : LiveX) (st : Half)
    (ecc : Ecc) (h_s : Same fp z₀ s) : Same fp z₀ (State.endTransfer s k x st ecc) := by
  unfold State.endTransfer
  repeat' with_reducible
    first
    | assumption | apply State.updSkein_keeps (sub_of hm rfl) | apply State.updFabric_keeps (sub_of hm rfl)
    | apply State.failTransfer_keeps (sub_of hm rfl) | apply State.pump_keeps (sub_of hm rfl)
    | apply State.answerMover_keeps (sub_of hm rfl) | split

theorem State.onAck_keeps (hm : 0x24CDCC &&& fp = 0x24CDCC) (s : State) (_port : Option Nat) (p : Pkt)
    (h_s : Same fp z₀ s) : Same fp z₀ (State.onAck s _port p) := by
  unfold State.onAck
  repeat' with_reducible
    first
    | assumption | apply State.strayed_keeps (sub_of hm rfl) | apply State.endTransfer_keeps (sub_of hm rfl) | split

theorem State.markMover_keeps (hm : 0x40 &&& fp = 0x40) (s : State) (c : Nat) (st : Half) (h_s : Same fp z₀ s) :
    Same fp z₀ (State.markMover s c st) := by
  unfold State.markMover
  repeat' with_reducible (first | assumption | apply State.updCore_keeps (sub_of hm rfl))

theorem State.landData_keeps (hm : 0x24804C &&& fp = 0x24804C) (s : State) (core : Option Nat) (a : Nat)
    (bs : List Byte) (ecc : Ecc) (h_s : Same fp z₀ s) : Same fp z₀ (State.landData s core a bs ecc).1 := by
  unfold State.landData
  repeat' with_reducible
    first
    | assumption | apply State.accessErrors_keeps (sub_of hm rfl) | apply State.storeRun_keeps (sub_of hm rfl)
    | apply State.markMover_keeps (sub_of hm rfl) | apply State.noteStale_keeps (sub_of hm rfl)
    | apply State.updCore_keeps (sub_of hm rfl) | dsimp only | split

theorem State.failLanding_keeps (hm : 0x24CDCC &&& fp = 0x24CDCC) (s : State) (part : Nat) (core : Option Nat)
    (bad : Nat) (h_s : Same fp z₀ s) : Same fp z₀ (State.failLanding s part core bad) := by
  unfold State.failLanding
  repeat' with_reducible
    first
    | assumption | apply State.failMove_keeps (sub_of hm rfl) | apply State.fault_keeps (sub_of hm rfl) | split

theorem State.onReadData_keeps (hm : 0x24CDCC &&& fp = 0x24CDCC) (s : State) (_port : Option Nat) (p : Pkt)
    (ecc : Ecc) (h_s : Same fp z₀ s) : Same fp z₀ (State.onReadData s _port p ecc) := by
  unfold State.onReadData
  repeat' with_reducible
    first
    | assumption | apply State.endTransfer_keeps (sub_of hm rfl) | apply State.updFabric_keeps (sub_of hm rfl)
    | apply State.landData_keeps (sub_of hm rfl) | apply State.failLanding_keeps (sub_of hm rfl)
    | apply State.putContext_keeps (sub_of hm rfl) | apply State.strayed_keeps (sub_of hm rfl) | dsimp only | split

theorem State.onGrant_keeps (hm : 0x400 &&& fp = 0x400) (s : State) (_port : Option Nat) (p : Pkt)
    (h_s : Same fp z₀ s) : Same fp z₀ (State.onGrant s _port p) := by
  unfold State.onGrant
  repeat' with_reducible
    first
    | assumption | apply State.strayed_keeps (sub_of hm rfl) | apply State.updSkein_keeps (sub_of hm rfl)
    | apply State.pump_keeps (sub_of hm rfl) | dsimp only | split

theorem State.failOpen_keeps (hm : 0x24CDCC &&& fp = 0x24CDCC) (s : State) (k : Skein) (st : Half)
    (h_s : Same fp z₀ s) : Same fp z₀ (State.failOpen s k st) := by
  unfold State.failOpen
  repeat' with_reducible
    first
    | intro _ | assumption | apply State.dropWaiting_keeps (sub_of hm rfl)
    | apply State.dropSkein_keeps (sub_of hm rfl) | apply State.refuseMove_keeps (sub_of hm rfl) | apply kept_foldl

theorem State.onNack_keeps (hm : 0x24CDCC &&& fp = 0x24CDCC) (s : State) (_port : Option Nat) (p : Pkt)
    (h_s : Same fp z₀ s) : Same fp z₀ (State.onNack s _port p) := by
  unfold State.onNack
  repeat' with_reducible
    first
    | assumption | apply State.strayed_keeps (sub_of hm rfl) | apply State.failOpen_keeps (sub_of hm rfl)
    | apply State.endTransfer_keeps (sub_of hm rfl) | split

theorem State.discardPkt_keeps (hm : 0x400 &&& fp = 0x400) (s : State) (h_s : Same fp z₀ s) :
    Same fp z₀ (State.discardPkt s) := by
  unfold State.discardPkt
  repeat' with_reducible (first | assumption | apply State.updFabric_keeps (sub_of hm rfl))

theorem State.touchPart_keeps (hm : 0x80 &&& fp = 0x80) (s : State) (q : Nat) (h_s : Same fp z₀ s) :
    Same fp z₀ (State.touchPart s q) := by
  unfold State.touchPart
  repeat' with_reducible (first | assumption | apply State.updPart_keeps (sub_of hm rfl) | split)

theorem State.takeIn_keeps (hm : 0x480 &&& fp = 0x480) (s : State) (p : Pkt) (h_s : Same fp z₀ s) :
    Same fp z₀ (State.takeIn s p) := by
  unfold State.takeIn
  repeat' with_reducible
    first
    | assumption | apply State.sample_keeps (sub_of hm rfl) | apply State.updFabric_keeps (sub_of hm rfl)
    | apply State.touchPart_keeps (sub_of hm rfl)

theorem State.consume_keeps (hm : 0x480 &&& fp = 0x480) (s : State) (port : Option Nat) (p : Pkt)
    (h : State → Option Nat → Pkt → State) (h_s : Same fp z₀ s)
    (h_h : ∀ y0 y1 y2, Same fp z₀ y0 → Same fp z₀ ((h y0 y1 y2))) : Same fp z₀ (State.consume s port p h) := by
  unfold State.consume
  repeat' with_reducible
    first
    | assumption | apply h_h | apply State.discardPkt_keeps (sub_of hm rfl)
    | apply State.takeIn_keeps (sub_of hm rfl) | split

theorem State.arrival_keeps (hm : 0x480 &&& fp = 0x480) (s : State) (port : Nat) (p : Pkt)
    (h : State → Option Nat → Pkt → State) (h_s : Same fp z₀ s)
    (h_h : ∀ y0 y1 y2, Same fp z₀ y0 → Same fp z₀ ((h y0 y1 y2))) : Same fp z₀ (State.arrival s port p h) := by
  unfold State.arrival
  repeat' with_reducible
    first
    | assumption | apply h_h | apply State.discardPkt_keeps (sub_of hm rfl)
    | apply State.countRx_keeps (sub_of hm rfl) | apply State.consume_keeps (sub_of hm rfl)
    | apply State.keep_keeps (sub_of hm rfl) | dsimp only | split

theorem execWrite_keeps (hm : 0x24CDCC &&& fp = 0x24CDCC) (port : Fin 6) (p : Pkt) (s : State) (ecc : Ecc)
    (h_s : Same fp z₀ s) : ∀ t, execWrite port p s ecc = .next t → Same fp z₀ t := by
  intro t ht
  unfold execWrite at ht
  obtain rfl := guarded_next ht
  repeat' with_reducible
    first
    | intro _ | assumption | apply guarded_keeps (sub_of hm rfl) | apply State.arrival_keeps (sub_of hm rfl)
    | apply State.onWrite_keeps (sub_of hm rfl)

theorem execRead_keeps (hm : 0x24CDCC &&& fp = 0x24CDCC) (port : Fin 6) (p : Pkt) (s : State) (ecc : Ecc)
    (h_s : Same fp z₀ s) : ∀ t, execRead port p s ecc = .next t → Same fp z₀ t := by
  intro t ht
  unfold execRead at ht
  obtain rfl := guarded_next ht
  repeat' with_reducible
    first
    | intro _ | assumption | apply guarded_keeps (sub_of hm rfl) | apply State.arrival_keeps (sub_of hm rfl)
    | apply State.onRead_keeps (sub_of hm rfl)

theorem execTally_keeps (hm : 0x84C0 &&& fp = 0x84C0) (port : Fin 6) (p : Pkt) (s : State) (h_s : Same fp z₀ s) :
    ∀ t, execTally port p s = .next t → Same fp z₀ t := by
  intro t ht
  unfold execTally at ht
  obtain rfl := guarded_next ht
  repeat' with_reducible
    first
    | assumption | apply guarded_keeps (sub_of hm rfl) | apply State.arrival_keeps (sub_of hm rfl)
    | apply State.onTally_keeps (sub_of hm rfl)

theorem execFabOpen_keeps (hm : 0x480 &&& fp = 0x480) (port : Fin 6) (p : Pkt) (s : State) (h_s : Same fp z₀ s) :
    ∀ t, execFabOpen port p s = .next t → Same fp z₀ t := by
  intro t ht
  unfold execFabOpen at ht
  obtain rfl := guarded_next ht
  repeat' with_reducible
    first
    | assumption | apply guarded_keeps (sub_of hm rfl) | apply State.arrival_keeps (sub_of hm rfl)
    | apply State.onOpen_keeps (sub_of hm rfl)

theorem execFabClose_keeps (hm : 0x480 &&& fp = 0x480) (port : Fin 6) (p : Pkt) (s : State) (h_s : Same fp z₀ s) :
    ∀ t, execFabClose port p s = .next t → Same fp z₀ t := by
  intro t ht
  unfold execFabClose at ht
  obtain rfl := guarded_next ht
  repeat' with_reducible
    first
    | assumption | apply guarded_keeps (sub_of hm rfl) | apply State.arrival_keeps (sub_of hm rfl)
    | apply State.onClose_keeps (sub_of hm rfl)

theorem execReadData_keeps (hm : 0x24CDCC &&& fp = 0x24CDCC) (port : Fin 6) (p : Pkt) (s : State) (ecc : Ecc)
    (h_s : Same fp z₀ s) : ∀ t, execReadData port p s ecc = .next t → Same fp z₀ t := by
  intro t ht
  unfold execReadData at ht
  obtain rfl := guarded_next ht
  repeat' with_reducible
    first
    | intro _ | assumption | apply guarded_keeps (sub_of hm rfl) | apply State.arrival_keeps (sub_of hm rfl)
    | apply State.onReadData_keeps (sub_of hm rfl)

theorem execAck_keeps (hm : 0x24CDCC &&& fp = 0x24CDCC) (port : Fin 6) (p : Pkt) (s : State) (h_s : Same fp z₀ s) :
    ∀ t, execAck port p s = .next t → Same fp z₀ t := by
  intro t ht
  unfold execAck at ht
  obtain rfl := guarded_next ht
  repeat' with_reducible
    first
    | assumption | apply guarded_keeps (sub_of hm rfl) | apply State.arrival_keeps (sub_of hm rfl)
    | apply State.onAck_keeps (sub_of hm rfl)

theorem execGrant_keeps (hm : 0x480 &&& fp = 0x480) (port : Fin 6) (p : Pkt) (s : State) (h_s : Same fp z₀ s) :
    ∀ t, execGrant port p s = .next t → Same fp z₀ t := by
  intro t ht
  unfold execGrant at ht
  obtain rfl := guarded_next ht
  repeat' with_reducible
    first
    | assumption | apply guarded_keeps (sub_of hm rfl) | apply State.arrival_keeps (sub_of hm rfl)
    | apply State.onGrant_keeps (sub_of hm rfl)

theorem execNack_keeps (hm : 0x24CDCC &&& fp = 0x24CDCC) (port : Fin 6) (p : Pkt) (s : State) (h_s : Same fp z₀ s) :
    ∀ t, execNack port p s = .next t → Same fp z₀ t := by
  intro t ht
  unfold execNack at ht
  obtain rfl := guarded_next ht
  repeat' with_reducible
    first
    | assumption | apply guarded_keeps (sub_of hm rfl) | apply State.arrival_keeps (sub_of hm rfl)
    | apply State.onNack_keeps (sub_of hm rfl)

theorem execOpenRetry_keeps (hm : 0x400 &&& fp = 0x400) (skein : BitVec 12) (s : State) (h_s : Same fp z₀ s) :
    ∀ t, execOpenRetry skein s = .next t → Same fp z₀ t := by
  intro t ht
  unfold execOpenRetry at ht
  obtain rfl := Host.Outcome.next.inj ht
  repeat' with_reducible
    first
    | assumption | apply State.inject_keeps (sub_of hm rfl) | apply State.updSkein_keeps (sub_of hm rfl) | split

theorem State.retireSkein_keeps (hm : 0x400 &&& fp = 0x400) (s : State) (n : Nat) (h_s : Same fp z₀ s) :
    Same fp z₀ (State.retireSkein s n) := by
  unfold State.retireSkein
  repeat' with_reducible
    first
    | assumption | apply State.updFabric_keeps (sub_of hm rfl) | apply State.dropSkein_keeps (sub_of hm rfl)

theorem State.endMover_keeps (hm : 0x208CCC &&& fp = 0x208CCC) (s : State) (p : Nat) (c : Nat) (st : Half)
    (h_s : Same fp z₀ s) : Same fp z₀ (State.endMover s p c st) := by
  unfold State.endMover
  repeat' with_reducible
    first
    | assumption | apply State.complete_keeps (sub_of hm rfl) | apply State.updCore_keeps (sub_of hm rfl) | split

theorem execOpenTimeout_keeps (hm : 0x24CDCC &&& fp = 0x24CDCC) (skein : BitVec 12) (s : State) (h_s : Same fp z₀ s) :
    ∀ t, execOpenTimeout skein s = .next t → Same fp z₀ t := by
  intro t ht
  unfold execOpenTimeout at ht
  obtain rfl := Host.Outcome.next.inj ht
  repeat' with_reducible
    first
    | intro _ | assumption | apply State.endMover_keeps (sub_of hm rfl)
    | apply State.updFabric_keeps (sub_of hm rfl) | apply State.retireSkein_keeps (sub_of hm rfl)
    | apply State.failOpen_keeps (sub_of hm rfl) | apply State.fault_keeps (sub_of hm rfl) | apply kept_foldl
    | split

theorem execTransferTimeout_keeps (hm : 0x24CDCC &&& fp = 0x24CDCC) (skein : BitVec 12) (tno : Byte) (s : State)
    (h_s : Same fp z₀ s) : ∀ t, execTransferTimeout skein tno s = .next t → Same fp z₀ t := by
  intro t ht
  unfold execTransferTimeout at ht
  obtain rfl := Host.Outcome.next.inj ht
  repeat' with_reducible
    first
    | assumption | apply State.failTransfer_keeps (sub_of hm rfl) | apply State.updFabric_keeps (sub_of hm rfl)
    | apply State.retireSkein_keeps (sub_of hm rfl) | split

theorem execReceiveContextExpiry_keeps (hm : 0x400 &&& fp = 0x400) (src : BitVec 13) (skein : BitVec 12)
    (tno : Byte) (s : State) (h_s : Same fp z₀ s) :
    ∀ t, execReceiveContextExpiry src skein tno s = .next t → Same fp z₀ t := by
  intro t ht
  unfold execReceiveContextExpiry at ht
  obtain rfl := Host.Outcome.next.inj ht
  repeat' with_reducible (first | assumption | apply State.freeContext_keeps (sub_of hm rfl) | split)

theorem execSkeinIdleClose_keeps (hm : 0x400 &&& fp = 0x400) (skein : BitVec 12) (s : State) (h_s : Same fp z₀ s) :
    ∀ t, execSkeinIdleClose skein s = .next t → Same fp z₀ t := by
  intro t ht
  unfold execSkeinIdleClose at ht
  obtain rfl := Host.Outcome.next.inj ht
  repeat' with_reducible
    first
    | assumption | apply State.pump_keeps (sub_of hm rfl) | apply State.closeSkein_keeps (sub_of hm rfl) | split

theorem State.noteLeft_keeps (hm : 0x400 &&& fp = 0x400) (s : State) (p : Pkt) (h_s : Same fp z₀ s) :
    Same fp z₀ (State.noteLeft s p) := by
  unfold State.noteLeft
  repeat' with_reducible (first | assumption | apply State.updSkein_keeps (sub_of hm rfl) | split)

theorem State.emit_keeps (hm : 0x200400 &&& fp = 0x200400) (s : State) (own : Bool) (k : Nat) (p : Pkt)
    (channel : Nat) (escape : Bool) (waited : Nat) (h_s : Same fp z₀ s) :
    Same fp z₀ (State.emit s own k p channel escape waited) := by
  unfold State.emit
  repeat' with_reducible
    first
    | assumption | apply State.sample_keeps (sub_of hm rfl) | apply State.noteLeft_keeps (sub_of hm rfl)
    | apply State.updFabric_keeps (sub_of hm rfl) | apply State.updCtr_keeps (sub_of hm rfl)
    | apply State.countTx_keeps (sub_of hm rfl) | apply State.takeCredits_keeps (sub_of hm rfl)
    | apply State.send_keeps (sub_of hm rfl) | split

theorem State.escapeMove_keeps (hm : 0x200400 &&& fp = 0x200400) (s : State) (own : Bool) (p : Pkt) (waited : Nat)
    (h_s : Same fp z₀ s) : ∀ t, State.escapeMove s own p waited = some t → Same fp z₀ t := by
  unfold State.escapeMove
  repeat' with_reducible
    first
    | exact kept_none | refine kept_some ?_ | refine kept_iteO ?_ ?_ | refine kept_bindO ?_ | refine kept_mapO ?_
    | intro _ | assumption | apply State.emit_keeps (sub_of hm rfl) | exact kept_none | refine kept_some ?_
    | refine kept_iteO ?_ ?_

theorem State.adaptiveMove_keeps (hm : 0x200400 &&& fp = 0x200400) (s : State) (own : Bool) (p : Pkt) (waited : Nat)
    (h_s : Same fp z₀ s) : ∀ t, State.adaptiveMove s own p waited = some t → Same fp z₀ t := by
  unfold State.adaptiveMove
  repeat' with_reducible
    first
    | exact kept_none | refine kept_some ?_ | refine kept_iteO ?_ ?_ | refine kept_bindO ?_ | refine kept_mapO ?_
    | intro _ | assumption | apply State.emit_keeps (sub_of hm rfl) | exact kept_none | refine kept_some ?_
    | refine kept_iteO ?_ ?_

theorem State.dropQueued_keeps (hm : 0x400 &&& fp = 0x400) (s : State) (k : Nat) (h_s : Same fp z₀ s) :
    Same fp z₀ (State.dropQueued s k) := by
  unfold State.dropQueued
  repeat' with_reducible
    first
    | assumption | apply State.noteDepth_keeps (sub_of hm rfl) | apply State.setUsed_keeps (sub_of hm rfl)
    | apply State.noteLeft_keeps (sub_of hm rfl) | apply kept_foldl | apply Same.set_fabric (bit_of hm rfl)

theorem State.dispatch_keeps (hm : 0x24CDCC &&& fp = 0x24CDCC) (s : State) (port : Option Nat) (p : Pkt) (ecc : Ecc)
    (h_s : Same fp z₀ s) : Same fp z₀ (State.dispatch s port p ecc) := by
  unfold State.dispatch
  repeat' with_reducible
    first
    | assumption | apply State.onWrite_keeps (sub_of hm rfl) | apply State.onRead_keeps (sub_of hm rfl)
    | apply State.onTally_keeps (sub_of hm rfl) | apply State.onOpen_keeps (sub_of hm rfl)
    | apply State.onClose_keeps (sub_of hm rfl) | apply State.onReadData_keeps (sub_of hm rfl)
    | apply State.onAck_keeps (sub_of hm rfl) | apply State.onGrant_keeps (sub_of hm rfl)
    | apply State.onNack_keeps (sub_of hm rfl) | split

theorem State.turnEscape_keeps (hm : 0x200400 &&& fp = 0x200400) (s : State) (own : Bool) (p : Pkt) (waited : Nat)
    (h_s : Same fp z₀ s) : Same fp z₀ (State.turnEscape s own p waited).st := by
  unfold State.turnEscape
  split
  · next t e => exact kept_leaves (State.escapeMove_keeps (sub_of hm rfl) s own p waited h_s t e)
  · refine kept_iteT (kept_stays h_s) ?_
    split
    · exact kept_stays (State.updCtr_keeps (sub_of hm rfl) _ _ _ h_s)
    · exact kept_stays h_s

theorem State.takeTurn_keeps (hm : 0x200400 &&& fp = 0x200400) (s : State) (own : Bool) (p : Pkt) (waited : Nat)
    (h_s : Same fp z₀ s) : Same fp z₀ (State.takeTurn s own p waited).st := by
  unfold State.takeTurn
  refine kept_iteT (State.turnEscape_keeps (sub_of hm rfl) _ _ _ _ h_s) ?_
  split
  · next t e => exact kept_leaves (State.adaptiveMove_keeps (sub_of hm rfl) s own p waited h_s t e)
  · exact kept_iteT (kept_stays h_s) (State.turnEscape_keeps (sub_of hm rfl) _ _ _ _ h_s)

theorem State.staysAt_keeps (hm : 0x400 &&& fp = 0x400) (s : State) (n : Nat) (port : Option Nat) (p : Pkt)
    (h_s : Same fp z₀ s) : Same fp z₀ (State.staysAt s n port p) := by
  unfold State.staysAt
  repeat' with_reducible (first | assumption | apply State.setTransit_keeps (sub_of hm rfl))

theorem State.routePacket_keeps (hm : 0x24CDCC &&& fp = 0x24CDCC) (s : State) (port : Option Nat) (p : Pkt)
    (ecc : Ecc) (move : State → Turn) (h_s : Same fp z₀ s)
    (h_move : ∀ y0, Same fp z₀ y0 → Same fp z₀ ((move y0).st)) :
    Same fp z₀ (State.routePacket s port p ecc move) := by
  unfold State.routePacket
  repeat' with_reducible
    first
    | intro _ | assumption | apply h_move | apply State.setTransit_keeps (sub_of hm rfl)
    | apply State.countRx_keeps (sub_of hm rfl) | apply State.discardPkt_keeps (sub_of hm rfl)
    | apply State.consume_keeps (sub_of hm rfl) | apply State.keep_keeps (sub_of hm rfl)
    | apply State.dispatch_keeps (sub_of hm rfl) | apply State.sample_keeps (sub_of hm rfl)
    | apply State.noteLeft_keeps (sub_of hm rfl) | apply State.updFabric_keeps (sub_of hm rfl)
    | apply State.staysAt_keeps (sub_of hm rfl) | refine kept_left (by assumption) ?_
    | refine kept_stayed (by assumption) ?_ | apply kept_ite | split

theorem execPacketRoute_keeps (hm : 0x24CDCC &&& fp = 0x24CDCC) (port : Option (Fin 6)) (p : Pkt)
    (credits : List Nat) (waited : Nat) (s : State) (ecc : Ecc) (h_s : Same fp z₀ s) :
    ∀ t, execPacketRoute port p credits waited s ecc = .next t → Same fp z₀ t := by
  intro t ht
  unfold execPacketRoute at ht
  obtain rfl := guarded_next ht
  repeat' with_reducible
    first
    | intro _ | assumption | apply guarded_keeps (sub_of hm rfl) | apply State.routePacket_keeps (sub_of hm rfl)
    | apply State.returnCredits_keeps (sub_of hm rfl) | apply State.takeTurn_keeps (sub_of hm rfl)

theorem execEscape_keeps (hm : 0x24CDCC &&& fp = 0x24CDCC) (port : Option (Fin 6)) (p : Pkt) (s : State)
    (h_s : Same fp z₀ s) : ∀ t, execEscape port p s = .next t → Same fp z₀ t := by
  intro t ht
  unfold execEscape at ht
  obtain rfl := guarded_next ht
  repeat' with_reducible
    first
    | intro _ | assumption | apply guarded_keeps (sub_of hm rfl) | apply State.routePacket_keeps (sub_of hm rfl)
    | apply State.takeTurn_keeps (sub_of hm rfl)

theorem execRouteHold_keeps (hm : 0x400 &&& fp = 0x400) (s : State) (h_s : Same fp z₀ s) :
    ∀ t, execRouteHold s = .next t → Same fp z₀ t := by
  intro t ht
  unfold execRouteHold at ht
  obtain rfl := Host.Outcome.next.inj ht
  repeat' with_reducible (first | assumption | apply State.updFabric_keeps (sub_of hm rfl))

theorem execPeakClear_keeps (hm : 0x400 &&& fp = 0x400) (port : Fin 6) (s : State) (h_s : Same fp z₀ s) :
    ∀ t, execPeakClear port s = .next t → Same fp z₀ t := by
  intro t ht
  unfold execPeakClear at ht
  obtain rfl := Host.Outcome.next.inj ht
  repeat' with_reducible (first | assumption | apply State.updCtr_keeps (sub_of hm rfl))

theorem State.sendOut_keeps (hm : 0x200400 &&& fp = 0x200400) (s : State) (o : Out) (h_s : Same fp z₀ s) :
    Same fp z₀ (State.sendOut s o) := by
  unfold State.sendOut
  repeat' with_reducible
    first
    | assumption | apply State.sample_keeps (sub_of hm rfl) | apply State.send_keeps (sub_of hm rfl)
    | apply State.countTx_keeps (sub_of hm rfl) | apply State.takeCredits_keeps (sub_of hm rfl)
    | apply State.noteDepth_keeps (sub_of hm rfl) | apply State.updFabric_keeps (sub_of hm rfl) | split

theorem State.sendMaint_keeps (hm : 0x200400 &&& fp = 0x200400) (s : State) (k : Nat) (payload : List Byte)
    (h_s : Same fp z₀ s) : Same fp z₀ (State.sendMaint s k payload) := by
  unfold State.sendMaint
  repeat' with_reducible (first | assumption | apply State.sendOut_keeps (sub_of hm rfl))

theorem State.sendEcho_keeps (hm : 0x200400 &&& fp = 0x200400) (s : State) (k : Nat) (isReply : Bool)
    (arrival : Long) (leaving : Long) (h_s : Same fp z₀ s) :
    Same fp z₀ (State.sendEcho s k isReply arrival leaving) := by
  unfold State.sendEcho
  repeat' with_reducible (first | assumption | apply State.sendOut_keeps (sub_of hm rfl))

theorem State.flushMaint_keeps (hm : 0x200400 &&& fp = 0x200400) (s : State) (h_s : Same fp z₀ s) :
    Same fp z₀ (State.flushMaint s) := by
  unfold State.flushMaint
  repeat' with_reducible
    first
    | assumption | apply State.sendOut_keeps (sub_of hm rfl) | apply State.noteDepth_keeps (sub_of hm rfl)
    | apply State.updFabric_keeps (sub_of hm rfl) | apply kept_foldl

theorem State.fabricStitch_keeps (hm : 0x200400 &&& fp = 0x200400) (s : State) (h_s : Same fp z₀ s) :
    Same fp z₀ (State.fabricStitch s) := by
  unfold State.fabricStitch
  repeat' with_reducible
    first
    | intro _ | assumption | apply State.freeWord_keeps (sub_of hm rfl) | apply State.updCtr_keeps (sub_of hm rfl)
    | apply State.setUsed_keeps (sub_of hm rfl) | apply State.flushMaint_keeps (sub_of hm rfl)
    | apply State.updFabric_keeps (sub_of hm rfl) | apply kept_foldl | split

theorem State.unmatched_keeps (hm : 0x24CDCC &&& fp = 0x24CDCC) (s : State) (port : Nat) (h_s : Same fp z₀ s) :
    Same fp z₀ (State.unmatched s port) := by
  unfold State.unmatched
  repeat' with_reducible
    first
    | assumption | apply State.fault_keeps (sub_of hm rfl) | apply State.updFabric_keeps (sub_of hm rfl)

theorem State.emitSched_keeps (hm : 0x200400 &&& fp = 0x200400) (s : State) (own : Bool) (k : Nat) (p : SPkt)
    (h_s : Same fp z₀ s) : Same fp z₀ (State.emitSched s own k p) := by
  unfold State.emitSched
  repeat' with_reducible
    first
    | assumption | apply State.sample_keeps (sub_of hm rfl) | apply State.send_keeps (sub_of hm rfl)
    | apply State.countTx_keeps (sub_of hm rfl) | dsimp only | split

theorem State.passSched_keeps (hm : 0x200400 &&& fp = 0x200400) (s : State) (p : SPkt) (r : Resv)
    (h_s : Same fp z₀ s) : Same fp z₀ (State.passSched s p r) := by
  unfold State.passSched
  repeat' with_reducible
    first
    | assumption | apply State.updFabric_keeps (sub_of hm rfl) | apply State.emitSched_keeps (sub_of hm rfl) | split

theorem State.consumeSched_keeps (hm : 0x400 &&& fp = 0x400) (s : State) (p : SPkt) (h : State → State)
    (h_s : Same fp z₀ s) (h_h : ∀ y0, Same fp z₀ y0 → Same fp z₀ ((h y0))) :
    Same fp z₀ (State.consumeSched s p h) := by
  unfold State.consumeSched
  repeat' with_reducible
    first
    | assumption | apply h_h | apply State.discardPkt_keeps (sub_of hm rfl)
    | apply State.sample_keeps (sub_of hm rfl) | apply State.updFabric_keeps (sub_of hm rfl) | split

theorem State.schedArrival_keeps (hm : 0x24CDCC &&& fp = 0x24CDCC) (s : State) (port : Nat) (p : SPkt)
    (through : Resv → Bool) (h : State → Nat → Resv → State) (h_s : Same fp z₀ s)
    (h_h : ∀ y0 y1 y2, Same fp z₀ y0 → Same fp z₀ ((h y0 y1 y2))) :
    Same fp z₀ (State.schedArrival s port p through h) := by
  unfold State.schedArrival
  repeat' with_reducible
    first
    | intro _ | assumption | apply h_h | apply State.countRx_keeps (sub_of hm rfl)
    | apply State.discardPkt_keeps (sub_of hm rfl) | apply State.unmatched_keeps (sub_of hm rfl)
    | apply State.passSched_keeps (sub_of hm rfl) | apply State.consumeSched_keeps (sub_of hm rfl) | dsimp only
    | split

theorem execSchedMove_keeps (hm : 0x24CDCC &&& fp = 0x24CDCC) (port : Fin 6) (p : SPkt) (landing : Nat) (s : State)
    (ecc : Ecc) (h_s : Same fp z₀ s) : ∀ t, execSchedMove port p landing s ecc = .next t → Same fp z₀ t := by
  intro t ht
  unfold execSchedMove at ht
  obtain rfl := guarded_next ht
  repeat' with_reducible
    first
    | intro _ | assumption | apply guarded_keeps (sub_of hm rfl) | apply State.schedArrival_keeps (sub_of hm rfl)
    | apply State.storeIn_keeps (sub_of hm rfl) | split


/-! ### Machine/Collective.lean -/

theorem State.setRun_keeps (hm : 0x800 &&& fp = 0x800) (s : State) (i : Nat) (r : CollRun) (h_s : Same fp z₀ s) :
    Same fp z₀ (State.setRun s i r) := by
  unfold State.setRun
  repeat' with_reducible (first | assumption | apply Same.set_coll (bit_of hm rfl))

theorem State.dropRun_keeps (hm : 0x800 &&& fp = 0x800) (s : State) (i : Nat) (h_s : Same fp z₀ s) :
    Same fp z₀ (State.dropRun s i) := by
  unfold State.dropRun
  repeat' with_reducible (first | assumption | apply Same.set_coll (bit_of hm rfl))

theorem State.putLedger_keeps (hm : 0x800 &&& fp = 0x800) (s : State) (l : Ledger) (h_s : Same fp z₀ s) :
    Same fp z₀ (State.putLedger s l) := by
  unfold State.putLedger
  repeat' with_reducible (first | assumption | apply Same.set_coll (bit_of hm rfl))

theorem State.collEvent_keeps (hm : 0x800 &&& fp = 0x800) (s : State) (r : CollRun) (st : Half) (pos : Nat)
    (elem : Nat) (h_s : Same fp z₀ s) : Same fp z₀ (State.collEvent s r st pos elem) := by
  unfold State.collEvent
  repeat' with_reducible (first | assumption | apply Same.set_coll (bit_of hm rfl))

theorem State.digestRecord_keeps (hm : 0x800 &&& fp = 0x800) (s : State) (r : CollRun) (port : Nat) (phase : Nat)
    (bad : Bool) (tx : Long) (rx : Long) (trailer : Long) (h_s : Same fp z₀ s) :
    Same fp z₀ (State.digestRecord s r port phase bad tx rx trailer) := by
  unfold State.digestRecord
  repeat' with_reducible (first | assumption | apply Same.set_coll (bit_of hm rfl))

theorem State.failRun_keeps (hm : 0x24CDCC &&& fp = 0x24CDCC) (s : State) (i : Nat) (r : CollRun) (st : Half)
    (cls : Nat) (kind : Nat) (unit : Nat) (h_s : Same fp z₀ s) :
    Same fp z₀ (State.failRun s i r st cls kind unit) := by
  unfold State.failRun
  repeat' with_reducible
    first
    | assumption | apply State.failCommand_keeps (sub_of hm rfl) | apply State.collEvent_keeps (sub_of hm rfl)
    | apply State.dropRun_keeps (sub_of hm rfl)

theorem State.takeLedger_keeps (hm : 0x800 &&& fp = 0x800) (s : State) (p : Nat) (e : Entry) (h_s : Same fp z₀ s) :
    ∀ t, State.takeLedger s p e = some t → Same fp z₀ t := by
  unfold State.takeLedger
  repeat' with_reducible
    first
    | exact kept_none | refine kept_some ?_ | refine kept_iteO ?_ ?_ | refine kept_bindO ?_ | refine kept_mapO ?_
    | split | assumption | apply State.putLedger_keeps (sub_of hm rfl) | exact kept_none | refine kept_some ?_
    | refine kept_iteO ?_ ?_ | split

theorem State.handOver_keeps (hm : 0x248CDC &&& fp = 0x248CDC) (s : State) (c : Nat) (op : Nat) (h_s : Same fp z₀ s) :
    Same fp z₀ (State.handOver s c op) := by
  unfold State.handOver
  repeat' with_reducible
    first
    | refine State.takeLedger_keeps (sub_of hm rfl) _ _ _ ?_ | refine kept_some ?_ | exact kept_none
    | refine kept_iteO ?_ ?_ | intro _ | assumption | apply State.issue_keeps (sub_of hm rfl)
    | apply State.popHead_keeps (sub_of hm rfl)
    | refine State.takeLedger_keeps (sub_of hm rfl) _ _ _ ?_ _ (by assumption)
    | refine State.takeLedger_keeps (sub_of hm rfl) _ _ _ ?_ | apply kept_getD | split
    | apply Same.set_coll (bit_of hm rfl)

theorem execRsSum_keeps (hm : 0x248CDC &&& fp = 0x248CDC) (core : Fin 512) (s : State) (h_s : Same fp z₀ s) :
    ∀ t, execRsSum core s = .next t → Same fp z₀ t := by
  intro t ht
  unfold execRsSum at ht
  obtain rfl := Host.Outcome.next.inj ht
  repeat' with_reducible (first | assumption | apply State.handOver_keeps (sub_of hm rfl))

theorem execRsSumCont_keeps (hm : 0x248CDC &&& fp = 0x248CDC) (core : Fin 512) (s : State) (h_s : Same fp z₀ s) :
    ∀ t, execRsSumCont core s = .next t → Same fp z₀ t := by
  intro t ht
  unfold execRsSumCont at ht
  obtain rfl := Host.Outcome.next.inj ht
  repeat' with_reducible (first | assumption | apply State.handOver_keeps (sub_of hm rfl))

theorem execRsMean_keeps (hm : 0x248CDC &&& fp = 0x248CDC) (core : Fin 512) (s : State) (h_s : Same fp z₀ s) :
    ∀ t, execRsMean core s = .next t → Same fp z₀ t := by
  intro t ht
  unfold execRsMean at ht
  obtain rfl := Host.Outcome.next.inj ht
  repeat' with_reducible (first | assumption | apply State.handOver_keeps (sub_of hm rfl))

theorem execRsMeanCont_keeps (hm : 0x248CDC &&& fp = 0x248CDC) (core : Fin 512) (s : State) (h_s : Same fp z₀ s) :
    ∀ t, execRsMeanCont core s = .next t → Same fp z₀ t := by
  intro t ht
  unfold execRsMeanCont at ht
  obtain rfl := Host.Outcome.next.inj ht
  repeat' with_reducible (first | assumption | apply State.handOver_keeps (sub_of hm rfl))

theorem execArSum_keeps (hm : 0x248CDC &&& fp = 0x248CDC) (core : Fin 512) (s : State) (h_s : Same fp z₀ s) :
    ∀ t, execArSum core s = .next t → Same fp z₀ t := by
  intro t ht
  unfold execArSum at ht
  obtain rfl := Host.Outcome.next.inj ht
  repeat' with_reducible (first | assumption | apply State.handOver_keeps (sub_of hm rfl))

theorem execArSumCont_keeps (hm : 0x248CDC &&& fp = 0x248CDC) (core : Fin 512) (s : State) (h_s : Same fp z₀ s) :
    ∀ t, execArSumCont core s = .next t → Same fp z₀ t := by
  intro t ht
  unfold execArSumCont at ht
  obtain rfl := Host.Outcome.next.inj ht
  repeat' with_reducible (first | assumption | apply State.handOver_keeps (sub_of hm rfl))

theorem execArMean_keeps (hm : 0x248CDC &&& fp = 0x248CDC) (core : Fin 512) (s : State) (h_s : Same fp z₀ s) :
    ∀ t, execArMean core s = .next t → Same fp z₀ t := by
  intro t ht
  unfold execArMean at ht
  obtain rfl := Host.Outcome.next.inj ht
  repeat' with_reducible (first | assumption | apply State.handOver_keeps (sub_of hm rfl))

theorem execArMeanCont_keeps (hm : 0x248CDC &&& fp = 0x248CDC) (core : Fin 512) (s : State) (h_s : Same fp z₀ s) :
    ∀ t, execArMeanCont core s = .next t → Same fp z₀ t := by
  intro t ht
  unfold execArMeanCont at ht
  obtain rfl := Host.Outcome.next.inj ht
  repeat' with_reducible (first | assumption | apply State.handOver_keeps (sub_of hm rfl))

theorem execAllGather_keeps (hm : 0x248CDC &&& fp = 0x248CDC) (core : Fin 512) (s : State) (h_s : Same fp z₀ s) :
    ∀ t, execAllGather core s = .next t → Same fp z₀ t := by
  intro t ht
  unfold execAllGather at ht
  obtain rfl := Host.Outcome.next.inj ht
  repeat' with_reducible (first | assumption | apply State.handOver_keeps (sub_of hm rfl))

theorem execScalarSum_keeps (hm : 0x248CDC &&& fp = 0x248CDC) (core : Fin 512) (s : State) (h_s : Same fp z₀ s) :
    ∀ t, execScalarSum core s = .next t → Same fp z₀ t := by
  intro t ht
  unfold execScalarSum at ht
  obtain rfl := Host.Outcome.next.inj ht
  repeat' with_reducible (first | assumption | apply State.handOver_keeps (sub_of hm rfl))

theorem execScalarMax_keeps (hm : 0x248CDC &&& fp = 0x248CDC) (core : Fin 512) (s : State) (h_s : Same fp z₀ s) :
    ∀ t, execScalarMax core s = .next t → Same fp z₀ t := by
  intro t ht
  unfold execScalarMax at ht
  obtain rfl := Host.Outcome.next.inj ht
  repeat' with_reducible (first | assumption | apply State.handOver_keeps (sub_of hm rfl))

theorem execNormReduce_keeps (hm : 0x248CDC &&& fp = 0x248CDC) (core : Fin 512) (s : State) (h_s : Same fp z₀ s) :
    ∀ t, execNormReduce core s = .next t → Same fp z₀ t := by
  intro t ht
  unfold execNormReduce at ht
  obtain rfl := Host.Outcome.next.inj ht
  repeat' with_reducible (first | assumption | apply State.handOver_keeps (sub_of hm rfl))

theorem State.failSource_keeps (hm : 0x24CDCC &&& fp = 0x24CDCC) (s : State) (i : Nat) (r : CollRun) (bad : Nat)
    (h_s : Same fp z₀ s) : Same fp z₀ (State.failSource s i r bad) := by
  unfold State.failSource
  repeat' with_reducible
    first
    | assumption | apply State.failRead_keeps (sub_of hm rfl) | apply State.collEvent_keeps (sub_of hm rfl)
    | apply State.dropRun_keeps (sub_of hm rfl)

theorem State.recallSource_keeps (hm : 0x208000 &&& fp = 0x208000) (s : State) (r : CollRun) (h_s : Same fp z₀ s) :
    Same fp z₀ (State.recallSource s r) := by
  unfold State.recallSource
  repeat' with_reducible
    first
    | intro _ | assumption | apply State.recallFor_keeps (sub_of hm rfl) | apply kept_foldl

theorem execQuarantineScan_keeps (hm : 0x24CDCC &&& fp = 0x24CDCC) (core : Fin 512) (resv : Half) (s : State)
    (ecc : Ecc) (h_s : Same fp z₀ s) : ∀ t, execQuarantineScan core resv s ecc = .next t → Same fp z₀ t := by
  intro t ht
  unfold execQuarantineScan at ht
  obtain rfl := Host.Outcome.next.inj ht
  repeat' with_reducible
    first
    | assumption | apply State.recallSource_keeps (sub_of hm rfl) | apply State.readErrors_keeps (sub_of hm rfl)
    | apply State.failSource_keeps (sub_of hm rfl) | apply State.setRun_keeps (sub_of hm rfl) | dsimp only | split

theorem State.sendSched_keeps (hm : 0x200400 &&& fp = 0x200400) (s : State) (port : Nat) (kind : Nat) (x : Resv)
    (dest : Nat) (offset : Nat) (last : Bool) (payload : List Byte) (h_s : Same fp z₀ s) :
    Same fp z₀ (State.sendSched s port kind x dest offset last payload) := by
  unfold State.sendSched
  repeat' with_reducible (first | assumption | apply State.emitSched_keeps (sub_of hm rfl))

theorem State.sendStream_keeps (hm : 0x200C00 &&& fp = 0x200C00) (s : State) (i : Nat) (k : Nat)
    (h_s : Same fp z₀ s) : Same fp z₀ (State.sendStream s i k) := by
  unfold State.sendStream
  repeat' with_reducible
    first
    | intro _ | assumption | apply State.setRun_keeps (sub_of hm rfl) | apply State.sendSched_keeps (sub_of hm rfl)
    | apply State.digestRecord_keeps (sub_of hm rfl) | apply kept_foldl | dsimp only | split

theorem State.sendRun_keeps (hm : 0x200C00 &&& fp = 0x200C00) (s : State) (i : Nat) (h_s : Same fp z₀ s) :
    Same fp z₀ (State.sendRun s i) := by
  unfold State.sendRun
  repeat' with_reducible
    first
    | intro _ | assumption | apply State.sendStream_keeps (sub_of hm rfl) | apply kept_foldl

theorem State.refillRun_keeps (hm : 0x200C00 &&& fp = 0x200C00) (s : State) (i : Nat) (h_s : Same fp z₀ s) :
    Same fp z₀ (State.refillRun s i) := by
  unfold State.refillRun
  repeat' with_reducible
    first
    | assumption | apply State.setRun_keeps (sub_of hm rfl) | apply State.sendRun_keeps (sub_of hm rfl) | split

theorem State.updNorms_keeps (hm : 0x80 &&& fp = 0x80) (s : State) (p : Nat) (f : List NormWait → List NormWait)
    (h_s : Same fp z₀ s) : Same fp z₀ (State.updNorms s p f) := by
  unfold State.updNorms
  repeat' with_reducible (first | assumption | apply State.updPart_keeps (sub_of hm rfl))

theorem State.writeCount_keeps (hm : 0x20804C &&& fp = 0x20804C) (s : State) (d : Desc) (lo : Nat) (bs : List Byte)
    (h_s : Same fp z₀ s) : Same fp z₀ (State.writeCount s d lo bs) := by
  unfold State.writeCount
  repeat' with_reducible (first | assumption | apply State.storeBytes_keeps (sub_of hm rfl) | dsimp only | split)

theorem State.writeRun_keeps (hm : 0x24804C &&& fp = 0x24804C) (s : State) (r : CollRun) (d : Desc) (lo : Nat)
    (bs : List Byte) (h_s : Same fp z₀ s) : Same fp z₀ (State.writeRun s r d lo bs).1 := by
  unfold State.writeRun
  repeat' with_reducible
    first
    | assumption | apply State.noteStale_keeps (sub_of hm rfl) | apply State.writeCount_keeps (sub_of hm rfl)
    | dsimp only | split

theorem State.finalise_keeps (hm : 0x2488CC &&& fp = 0x2488CC) (s : State) (i : Nat) (r : CollRun) (g : Seg)
    (ps : List Pair) (h_s : Same fp z₀ s) : Same fp z₀ (State.finalise s i r g ps) := by
  unfold State.finalise
  repeat' with_reducible
    first
    | assumption | apply State.setRun_keeps (sub_of hm rfl) | apply State.writeRun_keeps (sub_of hm rfl)
    | apply State.putLedger_keeps (sub_of hm rfl) | apply State.updNorms_keeps (sub_of hm rfl) | dsimp only | split

theorem State.lineFinal_keeps (hm : 0x2488CC &&& fp = 0x2488CC) (s : State) (i : Nat) (r : CollRun)
    (h_s : Same fp z₀ s) : Same fp z₀ (State.lineFinal s i r) := by
  unfold State.lineFinal
  repeat' with_reducible
    first
    | assumption | apply State.setRun_keeps (sub_of hm rfl) | apply State.finalise_keeps (sub_of hm rfl)
    | dsimp only | split

theorem State.gatherOwn_keeps (hm : 0x24884C &&& fp = 0x24884C) (s : State) (i : Nat) (r : CollRun) (rd : Reader)
    (h_s : Same fp z₀ s) : Same fp z₀ (State.gatherOwn s i r rd) := by
  unfold State.gatherOwn
  repeat' with_reducible
    first
    | assumption | apply State.writeRun_keeps (sub_of hm rfl) | apply State.setRun_keeps (sub_of hm rfl) | split

theorem State.beginRun_keeps (hm : 0x24CDCC &&& fp = 0x24CDCC) (s : State) (i : Nat) (r : CollRun) (included : Bool)
    (late : Bool) (flits : Nat) (ecc : Ecc) (h_s : Same fp z₀ s) :
    Same fp z₀ (State.beginRun s i r included late flits ecc) := by
  unfold State.beginRun
  repeat' with_reducible
    first
    | assumption | apply State.accessErrors_keeps (sub_of hm rfl) | apply State.failSource_keeps (sub_of hm rfl)
    | apply State.updPart_keeps (sub_of hm rfl) | apply State.updNorms_keeps (sub_of hm rfl)
    | apply State.gatherOwn_keeps (sub_of hm rfl) | apply State.setRun_keeps (sub_of hm rfl)
    | apply State.lineFinal_keeps (sub_of hm rfl) | apply kept_ite | split | apply Same.set_coll (bit_of hm rfl)

theorem State.startRun_keeps (hm : 0x24CDCC &&& fp = 0x24CDCC) (s : State) (i : Nat) (r : CollRun) (included : Bool)
    (late : Bool) (ecc : Ecc) (h_s : Same fp z₀ s) : Same fp z₀ (State.startRun s i r included late ecc) := by
  unfold State.startRun
  repeat' with_reducible
    first
    | assumption | apply State.setRun_keeps (sub_of hm rfl) | apply State.recallSource_keeps (sub_of hm rfl)
    | apply State.beginRun_keeps (sub_of hm rfl) | apply kept_ite

theorem State.takeSeg_keeps (hm : 0x2488CC &&& fp = 0x2488CC) (s : State) (i : Nat) (r : CollRun) (dir : Nat)
    (phase : Nat) (g : Seg) (h_s : Same fp z₀ s) : Same fp z₀ (State.takeSeg s i r dir phase g) := by
  unfold State.takeSeg
  repeat' with_reducible
    first
    | assumption | apply State.setRun_keeps (sub_of hm rfl) | apply State.writeRun_keeps (sub_of hm rfl)
    | apply State.finalise_keeps (sub_of hm rfl) | apply State.lineFinal_keeps (sub_of hm rfl) | dsimp only | split

theorem State.drainStream_keeps (hm : 0x24CDCC &&& fp = 0x24CDCC) (s : State) (i : Nat) (k : Nat) (a : Nat)
    (h_s : Same fp z₀ s) : Same fp z₀ (State.drainStream s i k a) := by
  induction a generalizing s with
  | zero => exact h_s
  | succ fuel ih =>
    unfold State.drainStream
    repeat' with_reducible
      first
      | assumption | apply ih | apply State.failRun_keeps (sub_of hm rfl) | apply State.setRun_keeps (sub_of hm rfl)
      | apply State.takeSeg_keeps (sub_of hm rfl) | dsimp only | split

theorem State.checkStream_keeps (hm : 0x24CDCC &&& fp = 0x24CDCC) (s : State) (i : Nat) (k : Nat) (last : Bool)
    (h_s : Same fp z₀ s) : Same fp z₀ (State.checkStream s i k last) := by
  unfold State.checkStream
  repeat' with_reducible
    first
    | assumption | apply State.digestRecord_keeps (sub_of hm rfl) | apply State.failRun_keeps (sub_of hm rfl)
    | apply State.setRun_keeps (sub_of hm rfl) | dsimp only | split

theorem State.workRun_keeps (hm : 0x24CDCC &&& fp = 0x24CDCC) (s : State) (i : Nat) (h_s : Same fp z₀ s) :
    Same fp z₀ (State.workRun s i) := by
  unfold State.workRun
  repeat' with_reducible
    first
    | intro _ | assumption | apply State.drainStream_keeps (sub_of hm rfl)
    | apply State.sendRun_keeps (sub_of hm rfl) | apply kept_foldl | dsimp only | split

theorem State.onCollective_keeps (hm : 0x24CDCC &&& fp = 0x24CDCC) (s : State) (port : Nat) (pk : SPkt) (p : Nat)
    (ecc : Ecc) (h_s : Same fp z₀ s) : Same fp z₀ (State.onCollective s port pk p ecc) := by
  unfold State.onCollective
  repeat' with_reducible
    first
    | assumption | apply State.checkStream_keeps (sub_of hm rfl) | apply State.setRun_keeps (sub_of hm rfl)
    | apply State.accessErrors_keeps (sub_of hm rfl) | apply State.failSource_keeps (sub_of hm rfl)
    | apply State.workRun_keeps (sub_of hm rfl) | dsimp only | split

theorem execCollective_keeps (hm : 0x24CDCC &&& fp = 0x24CDCC) (port : Fin 6) (p : SPkt) (s : State) (ecc : Ecc)
    (h_s : Same fp z₀ s) : ∀ t, execCollective port p s ecc = .next t → Same fp z₀ t := by
  intro t ht
  unfold execCollective at ht
  obtain rfl := guarded_next ht
  repeat' with_reducible
    first
    | intro _ | assumption | apply guarded_keeps (sub_of hm rfl) | apply State.schedArrival_keeps (sub_of hm rfl)
    | apply State.onCollective_keeps (sub_of hm rfl) | split

theorem State.dueRun_keeps (hm : 0x24CDCC &&& fp = 0x24CDCC) (s : State) (i : Nat) (q : Nat) (ecc : Ecc)
    (h_s : Same fp z₀ s) : Same fp z₀ (State.dueRun s i q ecc) := by
  unfold State.dueRun
  split
  · exact h_s
  · refine kept_ite _ _ _ (State.setRun_keeps (sub_of hm rfl) _ _ _ h_s) (kept_ite _ _ _ ?_ ?_)
    · refine State.workRun_keeps (sub_of hm rfl) _ _ (State.startRun_keeps (sub_of hm rfl) _ _ _ _ _ _ (kept_ite _ _ _ (State.updNorms_keeps (sub_of hm rfl) _ _ _ ?_) ?_)) <;>
        exact State.setRun_keeps (sub_of hm rfl) _ _ _ h_s
    · refine kept_ite _ _ _ (State.updNorms_keeps (sub_of hm rfl) _ _ _ ?_) ?_ <;> exact State.setRun_keeps (sub_of hm rfl) _ _ _ h_s

theorem execCollectiveDeadline_keeps (hm : 0x24CDCC &&& fp = 0x24CDCC) (core : Fin 512) (resv : Half) (s : State)
    (ecc : Ecc) (h_s : Same fp z₀ s) : ∀ t, execCollectiveDeadline core resv s ecc = .next t → Same fp z₀ t := by
  intro t ht
  unfold execCollectiveDeadline at ht
  obtain rfl := Host.Outcome.next.inj ht
  repeat' with_reducible
    first
    | assumption | apply State.workRun_keeps (sub_of hm rfl) | apply State.startRun_keeps (sub_of hm rfl) | split

theorem State.resumeRuns_keeps (hm : 0x24CDCC &&& fp = 0x24CDCC) (s : State) (h_s : Same fp z₀ s) :
    Same fp z₀ (State.resumeRuns s) := by
  unfold State.resumeRuns
  repeat' with_reducible
    first
    | intro _ | assumption | apply State.workRun_keeps (sub_of hm rfl) | apply State.startRun_keeps (sub_of hm rfl)
    | apply kept_foldl | split

theorem State.resumeReads_keeps (hm : 0x24CDCC &&& fp = 0x24CDCC) (s : State) (h_s : Same fp z₀ s) :
    Same fp z₀ (State.resumeReads s) := by
  unfold State.resumeReads
  repeat' with_reducible
    first
    | intro _ | assumption | apply State.resumeRuns_keeps (sub_of hm rfl)
    | apply State.awaitManifest_keeps (sub_of hm rfl) | apply kept_foldl | split

theorem State.finishColl_keeps (hm : 0x24CDCC &&& fp = 0x24CDCC) (s : State) (c : Nat) (resv : Nat)
    (h_s : Same fp z₀ s) : Same fp z₀ (State.finishColl s c resv) := by
  unfold State.finishColl
  repeat' with_reducible
    first
    | assumption | apply State.dropRun_keeps (sub_of hm rfl) | apply State.collEvent_keeps (sub_of hm rfl)
    | apply State.updPart_keeps (sub_of hm rfl) | apply State.failCommand_keeps (sub_of hm rfl)
    | apply State.complete_keeps (sub_of hm rfl) | dsimp only | split


/-! ### Machine/Schedule.lean -/

theorem State.portFault_keeps (hm : 0x24CDCC &&& fp = 0x24CDCC) (s : State) (k : Nat) (d0 : Nat)
    (h_s : Same fp z₀ s) : Same fp z₀ (State.portFault s k d0) := by
  unfold State.portFault
  repeat' with_reducible (first | assumption | apply State.fault_keeps (sub_of hm rfl))

theorem State.setPort_keeps (hm : 0x486080 &&& fp = 0x486080) (s : State) (k : Nat) (st : Byte) (h_s : Same fp z₀ s) :
    Same fp z₀ (State.setPort s k st) := by
  unfold State.setPort
  repeat' with_reducible
    first
    | assumption | apply State.afterCapacity_keeps (sub_of hm rfl) | apply State.updLink_keeps (sub_of hm rfl)

theorem State.setPort_kept (hm : 0x86080 &&& fp = 0x86080) (s : State) (k : Nat) (st : Byte) (hst : st ≠ 5)
    (h_s : Same fp z₀ s) : Same fp z₀ (s.setPort k st) := by
  unfold State.setPort
  exact kept_ite _ _ _ (State.updLink_kept (sub_of hm rfl) _ _ _ (fun e => absurd e hst) h_s)
    (State.refreshInject_keeps (sub_of hm rfl) _ (State.updLink_kept (sub_of hm rfl) _ _ _ (fun e => absurd e hst) h_s))

theorem State.losePort_keeps (hm : 0x2CEDCC &&& fp = 0x2CEDCC) (s : State) (k : Nat) (d0 : Nat) (h_s : Same fp z₀ s) :
    Same fp z₀ (State.losePort s k d0) := by
  unfold State.losePort
  repeat' with_reducible
    first
    | assumption | apply State.portFault_keeps (sub_of hm rfl) | apply State.dropQueued_keeps (sub_of hm rfl)
    | refine State.setPort_kept (sub_of hm rfl) _ _ _ (by decide) ?_ | dsimp only | split

theorem State.outOfStep_keeps (hm : 0x24CDCC &&& fp = 0x24CDCC) (s : State) (p : Nat) (h_s : Same fp z₀ s) :
    Same fp z₀ (State.outOfStep s p) := by
  unfold State.outOfStep
  repeat' with_reducible (first | assumption | apply State.fault_keeps (sub_of hm rfl))

theorem State.examine_keeps (hm : 0x1080 &&& fp = 0x1080) (s : State) (p : Nat) (pat : Pattern) (start : Option Nat)
    (h_s : Same fp z₀ s) : Same fp z₀ (State.examine s p pat start).1 := by
  unfold State.examine
  repeat' with_reducible
    first
    | assumption | apply State.updPart_keeps (sub_of hm rfl) | dsimp only | split
    | apply Same.set_tb (bit_of hm rfl)

theorem State.startMove_keeps (hm : 0x24CDCC &&& fp = 0x24CDCC) (s : State) (p : Nat) (q : Nat) (r : Resv)
    (ecc : Ecc) (h_s : Same fp z₀ s) : Same fp z₀ (State.startMove s p q r ecc) := by
  unfold State.startMove
  repeat' with_reducible
    first
    | assumption | apply State.moveReads_keeps (sub_of hm rfl) | apply State.setMover_keeps (sub_of hm rfl)
    | apply State.updPart_keeps (sub_of hm rfl) | dsimp only | split

theorem State.startColl_keeps (hm : 0x24CDCC &&& fp = 0x24CDCC) (s : State) (p : Nat) (q : Nat) (r : Resv)
    (ecc : Ecc) (h_s : Same fp z₀ s) : Same fp z₀ (State.startColl s p q r ecc) := by
  unfold State.startColl
  repeat' with_reducible (first | assumption | apply State.dueRun_keeps (sub_of hm rfl) | split)

theorem State.startOccurrences_keeps (hm : 0x24CDCC &&& fp = 0x24CDCC) (s : State) (p : Nat) (pat : Pattern)
    (q : Nat) (ecc : Ecc) (h_s : Same fp z₀ s) : Same fp z₀ (State.startOccurrences s p pat q ecc) := by
  unfold State.startOccurrences
  repeat' with_reducible
    first
    | intro _ | assumption | apply State.startColl_keeps (sub_of hm rfl)
    | apply State.startMove_keeps (sub_of hm rfl) | apply kept_foldl | split

theorem State.moveHere_keeps (hm : 0x24804C &&& fp = 0x24804C) (s : State) (o : Occ) (m : MoverRun) (sd : Desc)
    (dd : Desc) (h_s : Same fp z₀ s) : Same fp z₀ (State.moveHere s o m sd dd).1 := by
  unfold State.moveHere
  repeat' with_reducible
    first
    | assumption | apply State.noteStale_keeps (sub_of hm rfl) | apply State.storeBytes_keeps (sub_of hm rfl)
    | dsimp only | split

theorem State.moveSent_keeps (hm : 0x24844C &&& fp = 0x24844C) (s : State) (p : Nat) (o : Occ) (h_s : Same fp z₀ s) :
    Same fp z₀ (State.moveSent s p o) := by
  unfold State.moveSent
  repeat' with_reducible
    first
    | assumption | apply State.moveHere_keeps (sub_of hm rfl) | apply State.enqueueX_keeps (sub_of hm rfl)
    | apply State.setMover_keeps (sub_of hm rfl) | split

theorem State.sendOcc_keeps (hm : 0x24844C &&& fp = 0x24844C) (s : State) (p : Nat) (o : Occ) (h_s : Same fp z₀ s) :
    Same fp z₀ (State.sendOcc s p o).1 := by
  unfold State.sendOcc
  repeat' with_reducible
    first
    | intro _ | assumption | apply State.sendSched_keeps (sub_of hm rfl)
    | apply State.moveSent_keeps (sub_of hm rfl) | apply kept_foldl1 | dsimp only | split

theorem State.sendOccs_keeps (hm : 0x2484CC &&& fp = 0x2484CC) (s : State) (p : Nat) (h_s : Same fp z₀ s) :
    Same fp z₀ (State.sendOccs s p) := by
  unfold State.sendOccs
  repeat' with_reducible
    first
    | intro _ | assumption | apply State.sendOcc_keeps (sub_of hm rfl) | apply State.updPart_keeps (sub_of hm rfl)
    | apply kept_foldl1

theorem execSpanEndShort_keeps (hm : 0x24CDCC &&& fp = 0x24CDCC) (part : Fin 16) (resv : Half) (s : State)
    (h_s : Same fp z₀ s) : ∀ t, execSpanEndShort part resv s = .next t → Same fp z₀ t := by
  intro t ht
  unfold execSpanEndShort at ht
  obtain rfl := Host.Outcome.next.inj ht
  repeat' with_reducible (first | assumption | apply State.outOfStep_keeps (sub_of hm rfl) | split)

theorem execDrainEnd_keeps (hm : 0x248DCC &&& fp = 0x248DCC) (part : Fin 16) (s : State) (h_s : Same fp z₀ s) :
    ∀ t, execDrainEnd part s = .next t → Same fp z₀ t := by
  intro t ht
  unfold execDrainEnd at ht
  obtain rfl := Host.Outcome.next.inj ht
  repeat' with_reducible (first | assumption | apply State.stopPart_keeps (sub_of hm rfl) | split)

theorem State.stepStart_keeps (hm : 0x80 &&& fp = 0x80) (s : State) (p : Nat) (pat : Pattern) (h_s : Same fp z₀ s) :
    Same fp z₀ (State.stepStart s p pat) := by
  unfold State.stepStart
  repeat' with_reducible (first | assumption | apply State.setPart_keeps (sub_of hm rfl) | dsimp only | split)

theorem State.slipStitch_keeps (hm : 0x1080 &&& fp = 0x1080) (s : State) (p : Nat) (h : HoldAt) (h_s : Same fp z₀ s) :
    Same fp z₀ (State.slipStitch s p h) := by
  unfold State.slipStitch
  repeat' with_reducible
    first
    | assumption | apply State.updPart_keeps (sub_of hm rfl) | apply Same.set_tb (bit_of hm rfl)

theorem State.noteStitch_keeps (hm : 0x80 &&& fp = 0x80) (s : State) (p : Nat) (h_s : Same fp z₀ s) :
    Same fp z₀ (State.noteStitch s p) := by
  unfold State.noteStitch
  repeat' with_reducible (first | assumption | apply State.updPart_keeps (sub_of hm rfl))

theorem State.patternStitch_keeps (hm : 0x24DDCC &&& fp = 0x24DDCC) (s : State) (p : Nat) (pat : Pattern)
    (ecc : Ecc) (h_s : Same fp z₀ s) : Same fp z₀ (State.patternStitch s p pat ecc) := by
  unfold State.patternStitch
  repeat' with_reducible
    first
    | assumption | apply State.noteStitch_keeps (sub_of hm rfl) | apply State.slipStitch_keeps (sub_of hm rfl)
    | apply State.updPart_keeps (sub_of hm rfl) | apply State.startOccurrences_keeps (sub_of hm rfl)
    | apply State.stepStart_keeps (sub_of hm rfl) | dsimp only | split

theorem State.sendPart_keeps (hm : 0x248CCC &&& fp = 0x248CCC) (s : State) (p : Nat) (h_s : Same fp z₀ s) :
    Same fp z₀ (State.sendPart s p) := by
  unfold State.sendPart
  repeat' with_reducible
    first
    | intro _ | assumption | apply State.sendOccs_keeps (sub_of hm rfl)
    | apply State.refillRun_keeps (sub_of hm rfl) | apply kept_foldl | split

theorem State.patternStart_keeps (hm : 0x24DDCC &&& fp = 0x24DDCC) (s : State) (p : Nat) (ecc : Ecc)
    (h_s : Same fp z₀ s) : Same fp z₀ (State.patternStart s p ecc) := by
  unfold State.patternStart
  repeat' with_reducible
    first
    | assumption | apply State.updPart_keeps (sub_of hm rfl) | apply State.stopPart_keeps (sub_of hm rfl)
    | apply State.startPart_keeps (sub_of hm rfl) | apply State.sendPart_keeps (sub_of hm rfl)
    | apply State.patternStitch_keeps (sub_of hm rfl) | apply State.startFetchers_keeps (sub_of hm rfl) | dsimp only
    | split

theorem execPatternStart_keeps (hm : 0x24DDCC &&& fp = 0x24DDCC) (part : Fin 16) (s : State) (ecc : Ecc)
    (h_s : Same fp z₀ s) : ∀ t, execPatternStart part s ecc = .next t → Same fp z₀ t := by
  intro t ht
  unfold execPatternStart at ht
  obtain rfl := Host.Outcome.next.inj ht
  repeat' with_reducible (first | assumption | apply State.patternStart_keeps (sub_of hm rfl))

theorem State.powerStitch_keeps (hm : 0x10 &&& fp = 0x10) (s : State) (h_s : Same fp z₀ s) :
    Same fp z₀ (State.powerStitch s) := by
  unfold State.powerStitch
  repeat' with_reducible (first | assumption | apply Same.set_power (bit_of hm rfl))

theorem State.countIdle_keeps (hm : 0xC0 &&& fp = 0xC0) (s : State) (h_s : Same fp z₀ s) :
    Same fp z₀ (State.countIdle s) := by
  unfold State.countIdle
  repeat' with_reducible
    first
    | intro _ | assumption | apply State.updCore_keeps (sub_of hm rfl) | apply State.updPart_keeps (sub_of hm rfl)
    | apply kept_foldl | split

theorem execWaitCycle_keeps (hm : 0x248DCC &&& fp = 0x248DCC) (part : Fin 16) (s : State) (h_s : Same fp z₀ s) :
    ∀ t, execWaitCycle part s = .next t → Same fp z₀ t := by
  intro t ht
  unfold execWaitCycle at ht
  obtain rfl := Host.Outcome.next.inj ht
  repeat' with_reducible
    first
    | intro _ | assumption | apply State.complete_keeps (sub_of hm rfl) | apply State.stopPart_keeps (sub_of hm rfl)
    | apply kept_foldl | split

theorem State.partStitch_keeps (hm : 0x24DDCC &&& fp = 0x24DDCC) (s : State) (p : Nat) (ecc : Ecc)
    (h_s : Same fp z₀ s) : Same fp z₀ (State.partStitch s p ecc) := by
  unfold State.partStitch
  repeat' with_reducible (first | assumption | apply State.patternStitch_keeps (sub_of hm rfl) | dsimp only | split)

theorem State.examinePart_keeps (hm : 0x1080 &&& fp = 0x1080) (s : State) (p : Nat) (h_s : Same fp z₀ s) :
    Same fp z₀ (State.examinePart s p).1 := by
  unfold State.examinePart
  repeat' with_reducible (first | assumption | apply State.examine_keeps (sub_of hm rfl) | dsimp only | split)

theorem State.examineAll_keeps (hm : 0x1080 &&& fp = 0x1080) (s : State) (h_s : Same fp z₀ s) :
    Same fp z₀ (State.examineAll s).1 := by
  unfold State.examineAll
  repeat' with_reducible
    first
    | intro _ | assumption | apply State.examinePart_keeps (sub_of hm rfl) | apply kept_foldl1

theorem State.sendMarkers_keeps (hm : 0x200000 &&& fp = 0x200000) (s : State) (hs : List (Nat × HoldMark))
    (h_s : Same fp z₀ s) : Same fp z₀ (State.sendMarkers s hs) := by
  unfold State.sendMarkers
  repeat' with_reducible (first | assumption | apply State.sendAll_keeps (sub_of hm rfl))

theorem State.correctSymbols_keeps (hm : 0x6000 &&& fp = 0x6000) (s : State) (k : Nat) (strand : Nat) (n : Nat)
    (h_s : Same fp z₀ s) : Same fp z₀ (State.correctSymbols s k strand n) := by
  unfold State.correctSymbols
  repeat' with_reducible
    first
    | assumption | refine State.updLink_kept (sub_of hm rfl) _ _ _ (fun e => e) ?_
    | refine State.updLink_kept (sub_of hm rfl) _ _ _ (fun e => absurd (show (1 : Byte) = 5 from e) (by decide)) ?_
    | refine State.updLink_kept (sub_of hm rfl) _ _ _ (fun e => absurd (show (0 : Byte) = 5 from e) (by decide)) ?_
    | dsimp only | split

theorem State.countSymbols_keeps (hm : 0x6000 &&& fp = 0x6000) (s : State) (xs : List (Nat × Nat × Nat))
    (h_s : Same fp z₀ s) : Same fp z₀ (State.countSymbols s xs) := by
  unfold State.countSymbols
  repeat' with_reducible
    first
    | intro _ | assumption | apply State.correctSymbols_keeps (sub_of hm rfl) | apply kept_foldl

theorem execStitchBoundary_keeps (hm : 0x24FDDC &&& fp = 0x24FDDC) (s : State) (ecc : Ecc)
    (symbols : List (Nat × Nat × Nat)) (h_s : Same fp z₀ s) :
    ∀ t, execStitchBoundary s ecc symbols = .next t → Same fp z₀ t := by
  intro t ht
  unfold execStitchBoundary at ht
  obtain rfl := Host.Outcome.next.inj ht
  repeat' with_reducible
    first
    | intro _ | assumption | apply State.countSymbols_keeps (sub_of hm rfl)
    | apply State.partStitch_keeps (sub_of hm rfl) | apply State.countIdle_keeps (sub_of hm rfl)
    | apply State.powerStitch_keeps (sub_of hm rfl) | apply State.fabricStitch_keeps (sub_of hm rfl)
    | apply State.examineAll_keeps (sub_of hm rfl) | apply State.sendPart_keeps (sub_of hm rfl)
    | apply State.sendMarkers_keeps (sub_of hm rfl) | apply kept_foldl | split
    | (refine Same.of (s := ?_) ?_ ?_ ?_ ?_ ?_ ?_ ?_ ?_ ?_ ?_ ?_ ?_ ?_ ?_ ?_ ?_ ?_ ?_ ?_ ?_ ?_ ?_ ?_ ?_ ?_ ?_ ?_ ?_ ?_ <;>
        first | exact Or.inr rfl | exact Or.inl (bit_of hm rfl) | rfl | exact id | exact Or.inr fun _ h => h | skip)

theorem State.compareMark_keeps (hm : 0x24CDCC &&& fp = 0x24CDCC) (s : State) (m : Marker) (p : Nat)
    (h_s : Same fp z₀ s) : Same fp z₀ (State.compareMark s m p) := by
  unfold State.compareMark
  repeat' with_reducible (first | assumption | apply State.outOfStep_keeps (sub_of hm rfl) | dsimp only | split)

theorem State.receiveHold_keeps (hm : 0x24DDCC &&& fp = 0x24DDCC) (s : State) (port : Nat) (h : HoldMark) (p : Nat)
    (h_s : Same fp z₀ s) : Same fp z₀ (State.receiveHold s port h p) := by
  unfold State.receiveHold
  repeat' with_reducible
    first
    | assumption | apply State.outOfStep_keeps (sub_of hm rfl) | apply State.updPart_keeps (sub_of hm rfl)
    | apply State.sendAll_keeps (sub_of hm rfl) | split | apply Same.set_tb (bit_of hm rfl)

theorem State.timebaseFault_keeps (hm : 0x24DDCC &&& fp = 0x24DDCC) (s : State) (h_s : Same fp z₀ s) :
    Same fp z₀ (State.timebaseFault s) := by
  unfold State.timebaseFault
  repeat' with_reducible
    first
    | assumption | apply State.fault_keeps (sub_of hm rfl) | apply Same.set_tb (bit_of hm rfl)

theorem State.followParent_keeps (hm : 0x24DDCC &&& fp = 0x24DDCC) (s : State) (m : Marker) (off : Int)
    (h_s : Same fp z₀ s) : Same fp z₀ (State.followParent s m off) := by
  unfold State.followParent
  repeat' with_reducible
    first
    | assumption | apply State.timebaseFault_keeps (sub_of hm rfl) | split | apply Same.set_tb (bit_of hm rfl)

theorem State.keepMark_keeps (hm : 0x6000 &&& fp = 0x6000) (s : State) (port : Nat) (m : Marker)
    (h_s : Same fp z₀ s) : Same fp z₀ (State.keepMark s port m) := by
  unfold State.keepMark
  repeat' with_reducible
    first
    | assumption | refine State.updLink_kept (sub_of hm rfl) _ _ _ (fun e => e) ?_
    | refine State.updLink_kept (sub_of hm rfl) _ _ _ (fun e => absurd (show (1 : Byte) = 5 from e) (by decide)) ?_
    | refine State.updLink_kept (sub_of hm rfl) _ _ _ (fun e => absurd (show (0 : Byte) = 5 from e) (by decide)) ?_

theorem execStitchMarker_keeps (hm : 0x2CFDCC &&& fp = 0x2CFDCC) (port : Fin 6) (m : Marker) (offsetCycles : Int)
    (s : State) (h_s : Same fp z₀ s) : ∀ t, execStitchMarker port m offsetCycles s = .next t → Same fp z₀ t := by
  intro t ht
  unfold execStitchMarker at ht
  obtain rfl := guarded_next ht
  repeat' with_reducible
    first
    | intro _ | assumption | apply guarded_keeps (sub_of hm rfl) | apply State.losePort_keeps (sub_of hm rfl)
    | apply State.keepMark_keeps (sub_of hm rfl) | apply State.compareMark_keeps (sub_of hm rfl)
    | apply State.receiveHold_keeps (sub_of hm rfl) | apply State.followParent_keeps (sub_of hm rfl)
    | apply kept_foldl | dsimp only | split

theorem execTimebaseLock_keeps (hm : 0x1000 &&& fp = 0x1000) (s : State) (h_s : Same fp z₀ s) :
    ∀ t, execTimebaseLock s = .next t → Same fp z₀ t := by
  intro t ht
  unfold execTimebaseLock at ht
  obtain rfl := Host.Outcome.next.inj ht
  repeat' with_reducible (first | assumption | split | apply Same.set_tb (bit_of hm rfl))

theorem execHoldover_keeps (hm : 0x1000 &&& fp = 0x1000) (s : State) (h_s : Same fp z₀ s) :
    ∀ t, execHoldover s = .next t → Same fp z₀ t := by
  intro t ht
  unfold execHoldover at ht
  obtain rfl := Host.Outcome.next.inj ht
  repeat' with_reducible (first | assumption | split | apply Same.set_tb (bit_of hm rfl))


/-! ### Machine/Complete.lean -/

theorem State.engineComplete_keeps (hm : 0x24CDCC &&& fp = 0x24CDCC) (s : State) (c : Nat) (e : Engine)
    (landing : Half) (h_s : Same fp z₀ s) : Same fp z₀ (State.engineComplete s c e landing) := by
  unfold State.engineComplete
  repeat' with_reducible
    first
    | assumption | apply State.finishTensor_keeps (sub_of hm rfl) | apply State.finishVector_keeps (sub_of hm rfl)
    | apply State.finishRow_keeps (sub_of hm rfl) | apply State.finishMover_keeps (sub_of hm rfl)
    | apply State.finishColl_keeps (sub_of hm rfl) | split

theorem execCommandComplete_keeps (hm : 0x24CDCC &&& fp = 0x24CDCC) (core : Fin 512) (engine : Engine) (s : State)
    (landing : Half) (h_s : Same fp z₀ s) :
    ∀ t, execCommandComplete core engine s landing = .next t → Same fp z₀ t := by
  intro t ht
  unfold execCommandComplete at ht
  obtain rfl := Host.Outcome.next.inj ht
  repeat' with_reducible (first | assumption | apply State.engineComplete_keeps (sub_of hm rfl))

end Sys2Proof.Machine
end

