-- ==== Sys2Proof/Laws/FrameLinks.lean ====
section
/-! SUPPORT. Laws/FrameLinks.lean: which parts of the state each function of the model may reach (see Laws/Frame.lean):
links, host ports, firmware, power and management. -/

namespace Sys2Proof.Machine

variable {fp : Nat} {z₀ : State}

/-! ### Machine/Links.lean -/

theorem State.sendIdentity_keeps (hm : 0x200400 &&& fp = 0x200400) (s : State) (k : Nat) (h_s : Same fp z₀ s) :
    Same fp z₀ (State.sendIdentity s k) := by
  unfold State.sendIdentity
  repeat' with_reducible (first | assumption | apply State.sendMaint_keeps (sub_of hm rfl))

theorem execIdentitySend_keeps (hm : 0x200400 &&& fp = 0x200400) (port : Fin 6) (s : State) (h_s : Same fp z₀ s) :
    ∀ t, execIdentitySend port s = .next t → Same fp z₀ t := by
  intro t ht
  unfold execIdentitySend at ht
  obtain rfl := Host.Outcome.next.inj ht
  repeat' with_reducible
    first
    | assumption | apply State.sendEcho_keeps (sub_of hm rfl) | apply State.sendIdentity_keeps (sub_of hm rfl)
    | split

theorem State.hostLight_keeps (hm : 0x8000 &&& fp = 0x8000) (s : State) (k : Nat) (h_s : Same fp z₀ s) :
    Same fp z₀ (State.hostLight s k) := by
  unfold State.hostLight
  repeat' with_reducible (first | assumption | apply State.updHport_keeps (sub_of hm rfl) | split)

theorem State.hostTrained_keeps (hm : 0x8000 &&& fp = 0x8000) (s : State) (k : Nat) (failed : List Nat)
    (h_s : Same fp z₀ s) : Same fp z₀ (State.hostTrained s k failed) := by
  unfold State.hostTrained
  repeat' with_reducible (first | assumption | apply State.updHport_keeps (sub_of hm rfl) | split)

theorem execPortLight_keeps (hm : 0x8E080 &&& fp = 0x8E080) (port : Fin 6) (s : State) (farIdle : Bool)
    (host : Option (Fin 2)) (h_s : Same fp z₀ s) :
    ∀ t, execPortLight port s farIdle host = .next t → Same fp z₀ t := by
  intro t ht
  unfold execPortLight at ht
  obtain rfl := Host.Outcome.next.inj ht
  repeat' with_reducible
    first
    | assumption | apply State.hostLight_keeps (sub_of hm rfl)
    | refine State.setPort_kept (sub_of hm rfl) _ _ _ (by decide) ?_ | split

theorem execTraining_keeps (hm : 0x28E480 &&& fp = 0x28E480) (port : Fin 6) (failed : List Nat) (s : State)
    (host : Option (Fin 2)) (h_s : Same fp z₀ s) :
    ∀ t, execTraining port failed s host = .next t → Same fp z₀ t := by
  intro t ht
  unfold execTraining at ht
  obtain rfl := Host.Outcome.next.inj ht
  split
  · exact State.hostTrained_keeps (sub_of hm rfl) _ _ _ h_s
  refine kept_ite _ _ _ h_s ?_
  split
  · exact State.recordFault_keeps (sub_of hm rfl) _ _ _ _ _ _ _ _ (State.setPort_kept (sub_of hm rfl) _ _ _ (by decide)
      (State.updLink_kept (sub_of hm rfl) _ _ _ (fun e => e) h_s))
  · next l hl =>
    refine State.sendIdentity_keeps (sub_of hm rfl) _ _ (State.setPort_kept (sub_of hm rfl) _ _ _ (by decide)
      (State.updLink_kept (sub_of hm rfl) _ _ _ (fun e => ?_) h_s))
    unfold Link.bringSpares at hl
    obtain ⟨x, -, rfl⟩ := Option.map_eq_some_iff.1 hl
    exact e

theorem execStageTimeout_keeps (hm : 0x86080 &&& fp = 0x86080) (port : Fin 6) (lost : Nat) (s : State)
    (h_s : Same fp z₀ s) : ∀ t, execStageTimeout port lost s = .next t → Same fp z₀ t := by
  intro t ht
  unfold execStageTimeout at ht
  obtain rfl := Host.Outcome.next.inj ht
  repeat' with_reducible
    first
    | assumption | refine State.setPort_kept (sub_of hm rfl) _ _ _ (by decide) ?_
    | refine State.updLink_kept (sub_of hm rfl) _ _ _ (fun e => e) ?_
    | refine State.updLink_kept (sub_of hm rfl) _ _ _ (fun e => absurd (show (1 : Byte) = 5 from e) (by decide)) ?_
    | refine State.updLink_kept (sub_of hm rfl) _ _ _ (fun e => absurd (show (0 : Byte) = 5 from e) (by decide)) ?_
    | split

theorem State.holdPort_keeps (hm : 0x28E080 &&& fp = 0x28E080) (s : State) (k : Nat) (v : Verdict) (f : List Byte)
    (h_s : Same fp z₀ s) : Same fp z₀ (State.holdPort s k v f) := by
  unfold State.holdPort
  repeat' with_reducible
    first
    | assumption | refine State.updLink_kept (sub_of hm rfl) _ _ _ (fun e => e) ?_
    | refine State.updLink_kept (sub_of hm rfl) _ _ _ (fun e => absurd (show (1 : Byte) = 5 from e) (by decide)) ?_
    | refine State.updLink_kept (sub_of hm rfl) _ _ _ (fun e => absurd (show (0 : Byte) = 5 from e) (by decide)) ?_
    | apply State.recordFault_keeps (sub_of hm rfl) | refine State.setPort_kept (sub_of hm rfl) _ _ _ (by decide) ?_
    | dsimp only | split

theorem State.onIdentity_keeps (hm : 0x2CEDCC &&& fp = 0x2CEDCC) (s : State) (k : Nat) (f : List Byte)
    (h_s : Same fp z₀ s) : Same fp z₀ (State.onIdentity s k f) := by
  unfold State.onIdentity
  repeat' with_reducible
    first
    | assumption | refine State.updLink_kept (sub_of hm rfl) _ _ _ (fun e => e) ?_
    | refine State.updLink_kept (sub_of hm rfl) _ _ _ (fun e => absurd (show (1 : Byte) = 5 from e) (by decide)) ?_
    | refine State.updLink_kept (sub_of hm rfl) _ _ _ (fun e => absurd (show (0 : Byte) = 5 from e) (by decide)) ?_
    | apply State.sendEcho_keeps (sub_of hm rfl) | refine State.setPort_kept (sub_of hm rfl) _ _ _ (by decide) ?_
    | apply State.losePort_keeps (sub_of hm rfl) | apply State.holdPort_keeps (sub_of hm rfl) | dsimp only | split

theorem State.countFrame_keeps (hm : 0x400 &&& fp = 0x400) (s : State) (k : Nat) (f : List Byte)
    (h_s : Same fp z₀ s) : Same fp z₀ (State.countFrame s k f) := by
  unfold State.countFrame
  repeat' with_reducible
    first
    | assumption | apply State.sample_keeps (sub_of hm rfl) | apply State.updFabric_keeps (sub_of hm rfl)
    | apply State.countRx_keeps (sub_of hm rfl) | split

theorem execIdentity_keeps (hm : 0x2CEDCC &&& fp = 0x2CEDCC) (port : Fin 6) (frame : List Byte) (s : State)
    (h_s : Same fp z₀ s) : ∀ t, execIdentity port frame s = .next t → Same fp z₀ t := by
  intro t ht
  unfold execIdentity at ht
  obtain rfl := guarded_next ht
  repeat' with_reducible
    first
    | assumption | apply guarded_keeps (sub_of hm rfl) | apply State.onIdentity_keeps (sub_of hm rfl)
    | apply State.countFrame_keeps (sub_of hm rfl)

theorem State.answerEcho_keeps (hm : 0x200400 &&& fp = 0x200400) (s : State) (k : Nat) (arrival : Long)
    (h_s : Same fp z₀ s) : Same fp z₀ (State.answerEcho s k arrival) := by
  unfold State.answerEcho
  repeat' with_reducible
    first
    | assumption | apply State.freeWord_keeps (sub_of hm rfl) | apply State.sendEcho_keeps (sub_of hm rfl) | split

theorem execEchoRequest_keeps (hm : 0x200400 &&& fp = 0x200400) (port : Fin 6) (arrival : Long) (s : State)
    (h_s : Same fp z₀ s) : ∀ t, execEchoRequest port arrival s = .next t → Same fp z₀ t := by
  intro t ht
  unfold execEchoRequest at ht
  obtain rfl := Host.Outcome.next.inj ht
  repeat' with_reducible
    first
    | assumption | apply State.answerEcho_keeps (sub_of hm rfl) | apply State.countFrame_keeps (sub_of hm rfl)

theorem State.onEcho_keeps (hm : 0x687480 &&& fp = 0x687480) (s : State) (k : Nat) (trip : Nat) (h_s : Same fp z₀ s) :
    Same fp z₀ (State.onEcho s k trip) := by
  unfold State.onEcho
  repeat' with_reducible
    first
    | assumption | apply State.updLink_keeps (sub_of hm rfl) | apply State.sendEcho_keeps (sub_of hm rfl)
    | apply State.setPort_keeps (sub_of hm rfl) | apply State.setUsed_keeps (sub_of hm rfl) | split
    | apply Same.set_tb (bit_of hm rfl)

theorem execEchoReply_keeps (hm : 0x687480 &&& fp = 0x687480) (port : Fin 6) (roundTrip : Nat) (turnaround : Nat)
    (s : State) (h_s : Same fp z₀ s) : ∀ t, execEchoReply port roundTrip turnaround s = .next t → Same fp z₀ t := by
  intro t ht
  unfold execEchoReply at ht
  obtain rfl := Host.Outcome.next.inj ht
  repeat' with_reducible
    first
    | assumption | apply State.onEcho_keeps (sub_of hm rfl) | apply State.countFrame_keeps (sub_of hm rfl)

theorem execCodewordUncorrectable_keeps (hm : 0x2CEDCC &&& fp = 0x2CEDCC) (port : Fin 6) (strand : Byte) (s : State)
    (h_s : Same fp z₀ s) : ∀ t, execCodewordUncorrectable port strand s = .next t → Same fp z₀ t := by
  intro t ht
  unfold execCodewordUncorrectable at ht
  obtain rfl := Host.Outcome.next.inj ht
  repeat' with_reducible
    first
    | assumption | refine State.updLink_kept (sub_of hm rfl) _ _ _ (fun e => e) ?_
    | refine State.updLink_kept (sub_of hm rfl) _ _ _ (fun e => absurd (show (1 : Byte) = 5 from e) (by decide)) ?_
    | refine State.updLink_kept (sub_of hm rfl) _ _ _ (fun e => absurd (show (0 : Byte) = 5 from e) (by decide)) ?_
    | apply State.losePort_keeps (sub_of hm rfl) | split

theorem execLightLoss_keeps (hm : 0x2CEDCC &&& fp = 0x2CEDCC) (port : Fin 6) (strand : Byte) (s : State)
    (h_s : Same fp z₀ s) : ∀ t, execLightLoss port strand s = .next t → Same fp z₀ t := by
  intro t ht
  unfold execLightLoss at ht
  obtain rfl := Host.Outcome.next.inj ht
  repeat' with_reducible
    first
    | assumption | refine State.updLink_kept (sub_of hm rfl) _ _ _ (fun e => e) ?_
    | refine State.updLink_kept (sub_of hm rfl) _ _ _ (fun e => absurd (show (1 : Byte) = 5 from e) (by decide)) ?_
    | refine State.updLink_kept (sub_of hm rfl) _ _ _ (fun e => absurd (show (0 : Byte) = 5 from e) (by decide)) ?_
    | apply State.losePort_keeps (sub_of hm rfl) | refine State.setPort_kept (sub_of hm rfl) _ _ _ (by decide) ?_
    | split

theorem State.retrain_keeps (hm : 0x86080 &&& fp = 0x86080) (s : State) (k : Nat) (h_s : Same fp z₀ s) :
    Same fp z₀ (State.retrain s k).1 := by
  unfold State.retrain
  repeat' with_reducible
    first
    | assumption | refine State.setPort_kept (sub_of hm rfl) _ _ _ (by decide) ?_ | dsimp only | split

theorem execRetrain_keeps (hm : 0x86080 &&& fp = 0x86080) (port : Fin 6) (s : State) (h_s : Same fp z₀ s) :
    ∀ t, execRetrain port s = .next t → Same fp z₀ t := by
  intro t ht
  unfold execRetrain at ht
  obtain rfl := Host.Outcome.next.inj ht
  repeat' with_reducible (first | assumption | apply State.retrain_keeps (sub_of hm rfl))

theorem State.applyRoute_keeps (hm : 0x2CEDCC &&& fp = 0x2CEDCC) (s : State) (h_s : Same fp z₀ s) :
    Same fp z₀ (State.applyRoute s) := by
  unfold State.applyRoute
  repeat' with_reducible
    first
    | intro _ | assumption | apply State.updFabric_keeps (sub_of hm rfl)
    | refine State.updLink_kept (sub_of hm rfl) _ _ _ (fun e => e) ?_
    | refine State.updLink_kept (sub_of hm rfl) _ _ _ (fun e => absurd (show (1 : Byte) = 5 from e) (by decide)) ?_
    | refine State.updLink_kept (sub_of hm rfl) _ _ _ (fun e => absurd (show (0 : Byte) = 5 from e) (by decide)) ?_
    | apply State.refreshModes_keeps (sub_of hm rfl) | apply State.refreshInject_keeps (sub_of hm rfl)
    | apply State.dropWaiting_keeps (sub_of hm rfl) | apply kept_foldl | dsimp only | split

theorem State.commitRoute_keeps (hm : 0x2CEDCC &&& fp = 0x2CEDCC) (s : State) (h_s : Same fp z₀ s) :
    Same fp z₀ (State.commitRoute s).1 := by
  unfold State.commitRoute
  repeat' with_reducible
    first
    | intro _ | assumption | apply State.afterReady_keeps (sub_of hm rfl)
    | apply State.applyRoute_keeps (sub_of hm rfl) | apply State.updFabric_keeps (sub_of hm rfl) | split

theorem execRouteCommit_keeps (hm : 0x2CEDCC &&& fp = 0x2CEDCC) (s : State) (h_s : Same fp z₀ s) :
    ∀ t, execRouteCommit s = .next t → Same fp z₀ t := by
  intro t ht
  unfold execRouteCommit at ht
  obtain rfl := Host.Outcome.next.inj ht
  repeat' with_reducible (first | assumption | apply State.commitRoute_keeps (sub_of hm rfl))

theorem State.moduleFault_keeps (hm : 0x2CEDCC &&& fp = 0x2CEDCC) (s : State) (st : Half) (kind : Nat) (unit : Nat)
    (h_s : Same fp z₀ s) : Same fp z₀ (State.moduleFault s st kind unit) := by
  unfold State.moduleFault
  refine kept_foldl _ _ _
    (fun s k h => kept_ite _ _ _ h (State.dropQueued_keeps (sub_of hm rfl) _ _
      (State.setPort_kept (sub_of hm rfl) _ _ _ (by decide) h))) ?_
  have h := State.fault_keeps (sub_of hm rfl) s st 8 kind unit allParts 0 0 h_s
  generalize s.fault st 8 kind unit allParts 0 0 = u at h ⊢
  exact Same.set_links (bit_of hm rfl) rfl h

theorem State.hostDown_keeps (hm : 0x18000 &&& fp = 0x18000) (s : State) (k : Nat) (h_s : Same fp z₀ s) :
    Same fp z₀ (State.hostDown s k) := by
  unfold State.hostDown
  repeat' with_reducible
    first
    | assumption | apply State.updHport_keeps (sub_of hm rfl) | apply State.updMgmt_keeps (sub_of hm rfl)

theorem State.hostFault_keeps (hm : 0x25CDCC &&& fp = 0x25CDCC) (s : State) (k : Nat) (h_s : Same fp z₀ s) :
    Same fp z₀ (State.hostFault s k) := by
  unfold State.hostFault
  repeat' with_reducible
    first
    | assumption | apply State.fault_keeps (sub_of hm rfl) | apply State.resumeReads_keeps (sub_of hm rfl)
    | apply State.settleApertures_keeps (sub_of hm rfl) | apply State.hostDown_keeps (sub_of hm rfl)

theorem State.closeYepecy_keeps (hm : 0x2DEDCC &&& fp = 0x2DEDCC) (s : State) (unit : Nat) (h_s : Same fp z₀ s) :
    Same fp z₀ (State.closeYepecy s unit) := by
  unfold State.closeYepecy
  repeat' with_reducible
    first
    | intro _ | assumption | apply State.recordFault_keeps (sub_of hm rfl)
    | apply State.hostFault_keeps (sub_of hm rfl) | apply State.moduleFault_keeps (sub_of hm rfl)
    | apply State.hostDown_keeps (sub_of hm rfl) | apply kept_foldl

set_option maxRecDepth 4000 in
theorem execDomainLockLoss_keeps (hm : 0x2DEDEC &&& fp = 0x2DEDEC) (domain : Fin 40) (s : State)
    (h_s : Same fp z₀ s) : ∀ t, execDomainLockLoss domain s = .next t → Same fp z₀ t := by
  intro t ht
  unfold execDomainLockLoss at ht
  obtain rfl := Host.Outcome.next.inj ht
  repeat' with_reducible
    first
    | assumption | apply State.fault_keeps (sub_of hm rfl) | apply State.losePort_keeps (sub_of hm rfl)
    | apply State.recordFault_keeps (sub_of hm rfl) | apply State.moduleFault_keeps (sub_of hm rfl)
    | apply State.closeYepecy_keeps (sub_of hm rfl) | split
    | (refine Same.of (s := ?_) ?_ ?_ ?_ ?_ ?_ ?_ ?_ ?_ ?_ ?_ ?_ ?_ ?_ ?_ ?_ ?_ ?_ ?_ ?_ ?_ ?_ ?_ ?_ ?_ ?_ ?_ ?_ ?_ ?_ <;>
        first | exact Or.inr rfl | exact Or.inl (bit_of hm rfl) | rfl | exact id | exact Or.inr fun _ h => h | skip)

theorem State.coreFault_keeps (hm : 0x40 &&& fp = 0x40) (s : State) (c : Nat) (h_s : Same fp z₀ s) :
    Same fp z₀ (State.coreFault s c) := by
  unfold State.coreFault
  repeat' with_reducible (first | assumption | apply State.updCore_keeps (sub_of hm rfl))

theorem execParityError_keeps (hm : 0x2CEDCC &&& fp = 0x2CEDCC) (unit : ParityUnit) (s : State) (h_s : Same fp z₀ s) :
    ∀ t, execParityError unit s = .next t → Same fp z₀ t := by
  intro t ht
  unfold execParityError at ht
  obtain rfl := Host.Outcome.next.inj ht
  repeat' with_reducible
    first
    | assumption | apply State.fault_keeps (sub_of hm rfl) | apply State.complete_keeps (sub_of hm rfl)
    | apply State.coreFault_keeps (sub_of hm rfl) | apply State.moduleFault_keeps (sub_of hm rfl) | split
    | apply Same.set_coll (bit_of hm rfl)

theorem execCellarScrub_keeps (hm : 0x20C008 &&& fp = 0x20C008) (line : BitVec 26) (found : Scrub) (s : State)
    (h_s : Same fp z₀ s) : ∀ t, execCellarScrub line found s = .next t → Same fp z₀ t := by
  intro t ht
  unfold execCellarScrub at ht
  obtain rfl := Host.Outcome.next.inj ht
  repeat' with_reducible
    first
    | assumption | apply State.cellarCorrect_keeps (sub_of hm rfl) | apply State.recordFault_keeps (sub_of hm rfl)
    | apply State.cellarFail_keeps (sub_of hm rfl) | split

theorem execCellarLineSpare_keeps (hm : 0x8 &&& fp = 0x8) (line : BitVec 26) (s : State) (h_s : Same fp z₀ s) :
    ∀ t, execCellarLineSpare line s = .next t → Same fp z₀ t := by
  intro t ht
  unfold execCellarLineSpare at ht
  obtain rfl := Host.Outcome.next.inj ht
  repeat' with_reducible (first | assumption | split | apply Same.set_memStat (bit_of hm rfl))

theorem State.repairRow_keeps (hm : 0x8 &&& fp = 0x8) (s : State) (row : Nat) (h_s : Same fp z₀ s) :
    Same fp z₀ (State.repairRow s row) := by
  unfold State.repairRow
  repeat' with_reducible (first | assumption | split | apply Same.set_memStat (bit_of hm rfl))

theorem execHbmRowRepair_keeps (hm : 0x8 &&& fp = 0x8) (row : Nat) (s : State) (h_s : Same fp z₀ s) :
    ∀ t, execHbmRowRepair row s = .next t → Same fp z₀ t := by
  intro t ht
  unfold execHbmRowRepair at ht
  obtain rfl := Host.Outcome.next.inj ht
  repeat' with_reducible (first | assumption | apply State.repairRow_keeps (sub_of hm rfl))

theorem State.clearShelf_keeps (hm : 0x80080 &&& fp = 0x80080) (s : State) (shelf : Nat) (h_s : Same fp z₀ s) :
    Same fp z₀ (State.clearShelf s shelf) := by
  unfold State.clearShelf
  repeat' with_reducible
    first
    | assumption | apply State.updPart_keeps (sub_of hm rfl) | split | apply Same.set_tenancy (bit_of hm rfl)

theorem State.replaceCore_keeps (hm : 0x28C0CE &&& fp = 0x28C0CE) (s : State) (c : Nat) (h_s : Same fp z₀ s) :
    Same fp z₀ (State.replaceCore s c) := by
  unfold State.replaceCore
  dsimp only
  split
  · exact h_s
  · split
    · exact Same.set_links (bit_of hm rfl) rfl (State.updCore_keeps (sub_of hm rfl) _ _ _ h_s)
    · refine Same.set_dies (bit_of hm rfl) (bit_of hm rfl) (State.clearShelf_keeps (sub_of hm rfl) _ _
        (State.releaseCore_keeps (sub_of hm rfl) _ _ (State.setCore_keeps (sub_of hm rfl) _ _ _
          (State.zeroRange_keeps (sub_of hm rfl) _ _ _ (State.zeroRange_keeps (sub_of hm rfl) _ _ _ h_s)))))

theorem execSpareCoreSubstitution_keeps (hm : 0x28C0CE &&& fp = 0x28C0CE) (core : Fin 512) (s : State)
    (h_s : Same fp z₀ s) : ∀ t, execSpareCoreSubstitution core s = .next t → Same fp z₀ t := by
  intro t ht
  unfold execSpareCoreSubstitution at ht
  obtain rfl := Host.Outcome.next.inj ht
  repeat' with_reducible (first | assumption | apply State.replaceCore_keeps (sub_of hm rfl))

theorem execUnitSpareSubstitution_keeps (hm : 0x4800 &&& fp = 0x4800) (unit : Fin 56) (s : State)
    (h_s : Same fp z₀ s) : ∀ t, execUnitSpareSubstitution unit s = .next t → Same fp z₀ t := by
  intro t ht
  unfold execUnitSpareSubstitution at ht
  obtain rfl := Host.Outcome.next.inj ht
  repeat' with_reducible
    first
    | assumption | split
    | (refine Same.of (s := ?_) ?_ ?_ ?_ ?_ ?_ ?_ ?_ ?_ ?_ ?_ ?_ ?_ ?_ ?_ ?_ ?_ ?_ ?_ ?_ ?_ ?_ ?_ ?_ ?_ ?_ ?_ ?_ ?_ ?_ <;>
        first | exact Or.inr rfl | exact Or.inl (bit_of hm rfl) | rfl | exact id | exact Or.inr fun _ h => h | skip)

theorem execExtest_keeps (hm : 0x3CEDCC &&& fp = 0x3CEDCC) (s : State) (h_s : Same fp z₀ s) :
    ∀ t, execExtest s = .next t → Same fp z₀ t := by
  intro t ht
  unfold execExtest at ht
  obtain rfl := Host.Outcome.next.inj ht
  repeat' with_reducible
    first
    | assumption | apply State.moduleFault_keeps (sub_of hm rfl) | split
    | (refine Same.of (s := ?_) ?_ ?_ ?_ ?_ ?_ ?_ ?_ ?_ ?_ ?_ ?_ ?_ ?_ ?_ ?_ ?_ ?_ ?_ ?_ ?_ ?_ ?_ ?_ ?_ ?_ ?_ ?_ ?_ ?_ <;>
        first | exact Or.inr rfl | exact Or.inl (bit_of hm rfl) | rfl | exact id | exact Or.inr fun _ h => h | skip)

theorem execIdcode_keeps (hm : 0x100000 &&& fp = 0x100000) (s : State) (h_s : Same fp z₀ s) :
    ∀ t, execIdcode s = .next t → Same fp z₀ t := by
  intro t ht
  unfold execIdcode at ht
  obtain rfl := Host.Outcome.next.inj ht
  repeat' with_reducible (first | assumption | apply Same.set_jtag (bit_of hm rfl))

theorem execSamplePreload_keeps (hm : 0x104000 &&& fp = 0x104000) (s : State) (pins : Pins) (preload : Pins)
    (h_s : Same fp z₀ s) : ∀ t, execSamplePreload s pins preload = .next t → Same fp z₀ t := by
  intro t ht
  unfold execSamplePreload at ht
  obtain rfl := Host.Outcome.next.inj ht
  repeat' with_reducible
    first
    | assumption
    | (refine Same.of (s := ?_) ?_ ?_ ?_ ?_ ?_ ?_ ?_ ?_ ?_ ?_ ?_ ?_ ?_ ?_ ?_ ?_ ?_ ?_ ?_ ?_ ?_ ?_ ?_ ?_ ?_ ?_ ?_ ?_ ?_ <;>
        first | exact Or.inr rfl | exact Or.inl (bit_of hm rfl) | rfl | exact id | exact Or.inr fun _ h => h | skip)

theorem execBypass_keeps (hm : 0x100000 &&& fp = 0x100000) (s : State) (h_s : Same fp z₀ s) :
    ∀ t, execBypass s = .next t → Same fp z₀ t := by
  intro t ht
  unfold execBypass at ht
  obtain rfl := Host.Outcome.next.inj ht
  repeat' with_reducible (first | assumption | apply Same.set_jtag (bit_of hm rfl))

theorem execTestLogicReset_keeps (hm : 0x100000 &&& fp = 0x100000) (s : State) (h_s : Same fp z₀ s) :
    ∀ t, execTestLogicReset s = .next t → Same fp z₀ t := by
  intro t ht
  unfold execTestLogicReset at ht
  obtain rfl := Host.Outcome.next.inj ht
  repeat' with_reducible (first | assumption | apply Same.set_jtag (bit_of hm rfl))


/-! ### Machine/HostPort.lean -/

theorem State.loseHost_keeps (hm : 0x25CDCC &&& fp = 0x25CDCC) (s : State) (k : Nat) (h_s : Same fp z₀ s) :
    Same fp z₀ (State.loseHost s k) := by
  unfold State.loseHost
  repeat' with_reducible
    first
    | assumption | apply State.hostFault_keeps (sub_of hm rfl) | apply State.recordFault_keeps (sub_of hm rfl)

theorem execHostLinkFault_keeps (hm : 0x25CDCC &&& fp = 0x25CDCC) (port : Fin 2) (s : State) (h_s : Same fp z₀ s) :
    ∀ t, execHostLinkFault port s = .next t → Same fp z₀ t := by
  intro t ht
  unfold execHostLinkFault at ht
  obtain rfl := Host.Outcome.next.inj ht
  repeat' with_reducible (first | assumption | apply State.loseHost_keeps (sub_of hm rfl) | split)

theorem State.onHello_keeps (hm : 0x20C000 &&& fp = 0x20C000) (s : State) (k : Nat) (v : Word) (h_s : Same fp z₀ s) :
    Same fp z₀ (State.onHello s k v) := by
  unfold State.onHello
  repeat' with_reducible
    first
    | assumption | apply State.updHport_keeps (sub_of hm rfl) | apply State.recordFault_keeps (sub_of hm rfl)
    | dsimp only | split

theorem execHello_keeps (hm : 0x25CDCC &&& fp = 0x25CDCC) (port : Fin 2) (version : Word) (s : State)
    (check : Option Word) (h_s : Same fp z₀ s) : ∀ t, execHello port version s check = .next t → Same fp z₀ t := by
  intro t ht
  unfold execHello at ht
  obtain rfl := Host.Outcome.next.inj ht
  repeat' with_reducible
    first
    | assumption | apply State.hostFault_keeps (sub_of hm rfl) | apply State.onHello_keeps (sub_of hm rfl) | split

theorem execHelloSend_keeps (hm : 0x200000 &&& fp = 0x200000) (port : Fin 2) (s : State) (h_s : Same fp z₀ s) :
    ∀ t, execHelloSend port s = .next t → Same fp z₀ t := by
  intro t ht
  unfold execHelloSend at ht
  obtain rfl := Host.Outcome.next.inj ht
  repeat' with_reducible (first | assumption | apply State.send_keeps (sub_of hm rfl) | split)

theorem State.hostArrival_keeps (hm : 0x25CDCC &&& fp = 0x25CDCC) (s : State) (k : Nat) (p : HPkt)
    (h : State → State) (h_s : Same fp z₀ s) (h_h : ∀ y0, Same fp z₀ y0 → Same fp z₀ ((h y0))) :
    Same fp z₀ (State.hostArrival s k p h) := by
  unfold State.hostArrival
  repeat' with_reducible (first | assumption | apply h_h | apply State.hostFault_keeps (sub_of hm rfl) | split)

theorem State.refuseHost_keeps (hm : 0x8000 &&& fp = 0x8000) (s : State) (h_s : Same fp z₀ s) :
    Same fp z₀ (State.refuseHost s) := by
  unfold State.refuseHost
  repeat' with_reducible (first | assumption | apply Same.set_host (bit_of hm rfl))

theorem State.respond_keeps (hm : 0x200000 &&& fp = 0x200000) (s : State) (k : Nat) (p : HPkt) (st : Half)
    (data : List Byte) (h_s : Same fp z₀ s) : Same fp z₀ (State.respond s k p st data) := by
  unfold State.respond
  repeat' with_reducible (first | assumption | apply State.send_keeps (sub_of hm rfl))

theorem State.refuseRead_keeps (hm : 0x208000 &&& fp = 0x208000) (s : State) (k : Nat) (p : HPkt)
    (h_s : Same fp z₀ s) : Same fp z₀ (State.refuseRead s k p) := by
  unfold State.refuseRead
  repeat' with_reducible
    first
    | assumption | apply State.respond_keeps (sub_of hm rfl) | apply State.refuseHost_keeps (sub_of hm rfl)

theorem State.hostRead_keeps (hm : 0x20C008 &&& fp = 0x20C008) (s : State) (k : Nat) (p : HPkt) (a : Nat) (n : Nat)
    (ecc : Ecc) (h_s : Same fp z₀ s) : Same fp z₀ (State.hostRead s k p a n ecc).1 := by
  unfold State.hostRead
  repeat' with_reducible
    first
    | assumption | apply State.readErrors_keeps (sub_of hm rfl) | apply State.respond_keeps (sub_of hm rfl)
    | apply State.recordFault_keeps (sub_of hm rfl) | dsimp only | split

theorem State.grantLine_keeps (hm : 0x20C008 &&& fp = 0x20C008) (s : State) (k : Nat) (p : HPkt) (ecc : Ecc)
    (h_s : Same fp z₀ s) : Same fp z₀ (State.grantLine s k p ecc) := by
  unfold State.grantLine
  repeat' with_reducible
    first
    | assumption | apply State.hostRead_keeps (sub_of hm rfl) | apply State.updHport_keeps (sub_of hm rfl)
    | apply State.recallLine_keeps (sub_of hm rfl) | dsimp only | split

theorem State.grantOrWait_keeps (hm : 0x20C008 &&& fp = 0x20C008) (s : State) (k : Nat) (p : HPkt) (ecc : Ecc)
    (h_s : Same fp z₀ s) : Same fp z₀ (State.grantOrWait s k p ecc) := by
  unfold State.grantOrWait
  repeat' with_reducible
    first
    | assumption | apply State.grantLine_keeps (sub_of hm rfl) | apply State.updHport_keeps (sub_of hm rfl)
    | apply State.recallLine_keeps (sub_of hm rfl) | dsimp only | split

theorem State.serveGrants_keeps (hm : 0x20C008 &&& fp = 0x20C008) (s : State) (k : Nat) (h_s : Same fp z₀ s) :
    Same fp z₀ (State.serveGrants s k) := by
  unfold State.serveGrants
  repeat' with_reducible
    first
    | intro _ | assumption | apply State.grantOrWait_keeps (sub_of hm rfl)
    | apply State.updHport_keeps (sub_of hm rfl) | apply kept_foldl

theorem State.onGrantRequest_keeps (hm : 0x20C008 &&& fp = 0x20C008) (s : State) (k : Nat) (p : HPkt) (ecc : Ecc)
    (h_s : Same fp z₀ s) : Same fp z₀ (State.onGrantRequest s k p ecc) := by
  unfold State.onGrantRequest
  repeat' with_reducible
    first
    | assumption | apply State.grantOrWait_keeps (sub_of hm rfl) | apply State.refuseRead_keeps (sub_of hm rfl)
    | dsimp only | split

theorem execRdShared_keeps (hm : 0x25CDCC &&& fp = 0x25CDCC) (port : Fin 2) (p : HPkt) (ecc : Ecc) (s : State)
    (h_s : Same fp z₀ s) : ∀ t, execRdShared port p ecc s = .next t → Same fp z₀ t := by
  intro t ht
  unfold execRdShared at ht
  obtain rfl := guarded_next ht
  repeat' with_reducible
    first
    | intro _ | assumption | apply guarded_keeps (sub_of hm rfl) | apply State.hostArrival_keeps (sub_of hm rfl)
    | apply State.onGrantRequest_keeps (sub_of hm rfl)

theorem execRdOwn_keeps (hm : 0x25CDCC &&& fp = 0x25CDCC) (port : Fin 2) (p : HPkt) (ecc : Ecc) (s : State)
    (h_s : Same fp z₀ s) : ∀ t, execRdOwn port p ecc s = .next t → Same fp z₀ t := by
  intro t ht
  unfold execRdOwn at ht
  obtain rfl := guarded_next ht
  repeat' with_reducible
    first
    | intro _ | assumption | apply guarded_keeps (sub_of hm rfl) | apply State.hostArrival_keeps (sub_of hm rfl)
    | apply State.onGrantRequest_keeps (sub_of hm rfl)

theorem State.hostParity_keeps (hm : 0x20C008 &&& fp = 0x20C008) (s : State) (a : Nat) (n : Nat) (ecc : Ecc)
    (h_s : Same fp z₀ s) : Same fp z₀ (State.hostParity s a n ecc).1 := by
  unfold State.hostParity
  repeat' with_reducible
    first
    | assumption | apply State.accessErrors_keeps (sub_of hm rfl) | apply State.recordFault_keeps (sub_of hm rfl)
    | dsimp only | split

theorem State.onWb_keeps (hm : 0x25CDCC &&& fp = 0x25CDCC) (s : State) (k : Nat) (p : HPkt) (ecc : Ecc)
    (h_s : Same fp z₀ s) : Same fp z₀ (State.onWb s k p ecc) := by
  unfold State.onWb
  repeat' with_reducible
    first
    | intro _ | assumption | apply State.refuseHost_keeps (sub_of hm rfl)
    | apply State.hostParity_keeps (sub_of hm rfl) | apply State.settleApertures_keeps (sub_of hm rfl)
    | apply State.serveGrants_keeps (sub_of hm rfl) | apply State.resumeReads_keeps (sub_of hm rfl)
    | apply State.sendOwed_keeps (sub_of hm rfl) | apply State.updHport_keeps (sub_of hm rfl) | split
    | apply memWf_memPut | apply memWf_memZero | apply memWf_foldl
    | (refine Same.of (s := ?_) ?_ ?_ ?_ ?_ ?_ ?_ ?_ ?_ ?_ ?_ ?_ ?_ ?_ ?_ ?_ ?_ ?_ ?_ ?_ ?_ ?_ ?_ ?_ ?_ ?_ ?_ ?_ ?_ ?_ <;>
        first | exact Or.inr rfl | exact Or.inl (bit_of hm rfl) | rfl | exact id | exact Or.inr fun _ h => h | skip)

theorem execWb_keeps (hm : 0x25CDCC &&& fp = 0x25CDCC) (port : Fin 2) (p : HPkt) (s : State) (ecc : Ecc)
    (h_s : Same fp z₀ s) : ∀ t, execWb port p s ecc = .next t → Same fp z₀ t := by
  intro t ht
  unfold execWb at ht
  obtain rfl := guarded_next ht
  repeat' with_reducible
    first
    | intro _ | assumption | apply guarded_keeps (sub_of hm rfl) | apply State.hostArrival_keeps (sub_of hm rfl)
    | apply State.onWb_keeps (sub_of hm rfl)

theorem execYlFence_keeps (hm : 0x25CDCC &&& fp = 0x25CDCC) (port : Fin 2) (p : HPkt) (s : State)
    (h_s : Same fp z₀ s) : ∀ t, execYlFence port p s = .next t → Same fp z₀ t := by
  intro t ht
  unfold execYlFence at ht
  obtain rfl := guarded_next ht
  repeat' with_reducible
    first
    | intro _ | assumption | apply guarded_keeps (sub_of hm rfl) | apply State.hostArrival_keeps (sub_of hm rfl)
    | apply State.send_keeps (sub_of hm rfl)

theorem execRecall_keeps (hm : 0x208000 &&& fp = 0x208000) (port : Fin 2) (line : Nat) (s : State)
    (h_s : Same fp z₀ s) : ∀ t, execRecall port line s = .next t → Same fp z₀ t := by
  intro t ht
  unfold execRecall at ht
  obtain rfl := Host.Outcome.next.inj ht
  repeat' with_reducible (first | assumption | apply State.recallLine_keeps (sub_of hm rfl) | split)

theorem execRecallTimeout_keeps (hm : 0x25CDCC &&& fp = 0x25CDCC) (port : Fin 2) (line : Nat) (s : State)
    (h_s : Same fp z₀ s) : ∀ t, execRecallTimeout port line s = .next t → Same fp z₀ t := by
  intro t ht
  unfold execRecallTimeout at ht
  obtain rfl := Host.Outcome.next.inj ht
  repeat' with_reducible
    first
    | assumption | apply State.hostFault_keeps (sub_of hm rfl) | apply State.updHport_keeps (sub_of hm rfl) | split

theorem State.answerHost_keeps (hm : 0x24CDCC &&& fp = 0x24CDCC) (s : State) (k : Nat) (core : Option Nat)
    (st : Half) (ecc : Ecc) (h_s : Same fp z₀ s) : Same fp z₀ (State.answerHost s k core st ecc) := by
  unfold State.answerHost
  repeat' with_reducible
    first
    | assumption | apply State.sendOwed_keeps (sub_of hm rfl) | apply State.pumpHost_keeps (sub_of hm rfl)
    | apply State.moverAdvance_keeps (sub_of hm rfl) | apply State.setMover_keeps (sub_of hm rfl) | dsimp only
    | split

theorem State.onHAck_keeps (hm : 0x24CDCC &&& fp = 0x24CDCC) (s : State) (k : Nat) (p : HPkt) (h_s : Same fp z₀ s) :
    Same fp z₀ (State.onHAck s k p) := by
  unfold State.onHAck
  repeat' with_reducible
    first
    | assumption | apply State.answerHost_keeps (sub_of hm rfl) | apply State.updHport_keeps (sub_of hm rfl) | split

theorem execHAck_keeps (hm : 0x25CDCC &&& fp = 0x25CDCC) (port : Fin 2) (p : HPkt) (s : State) (h_s : Same fp z₀ s) :
    ∀ t, execHAck port p s = .next t → Same fp z₀ t := by
  intro t ht
  unfold execHAck at ht
  obtain rfl := guarded_next ht
  repeat' with_reducible
    first
    | intro _ | assumption | apply guarded_keeps (sub_of hm rfl) | apply State.hostArrival_keeps (sub_of hm rfl)
    | apply State.onHAck_keeps (sub_of hm rfl)

theorem State.stageHost_keeps (hm : 0x40 &&& fp = 0x40) (s : State) (k : Nat) (r : HostReq) (bs : List Byte)
    (h_s : Same fp z₀ s) : Same fp z₀ (State.stageHost s k r bs) := by
  unfold State.stageHost
  repeat' with_reducible (first | assumption | apply State.setMover_keeps (sub_of hm rfl) | split)

theorem State.onHResp_keeps (hm : 0x24CDCC &&& fp = 0x24CDCC) (s : State) (k : Nat) (p : HPkt) (ecc : Ecc)
    (h_s : Same fp z₀ s) : Same fp z₀ (State.onHResp s k p ecc) := by
  unfold State.onHResp
  repeat' with_reducible
    first
    | assumption | apply State.answerHost_keeps (sub_of hm rfl) | apply State.updHport_keeps (sub_of hm rfl)
    | apply State.stageHost_keeps (sub_of hm rfl) | dsimp only | split

theorem execHResp_keeps (hm : 0x25CDCC &&& fp = 0x25CDCC) (port : Fin 2) (p : HPkt) (s : State) (ecc : Ecc)
    (h_s : Same fp z₀ s) : ∀ t, execHResp port p s ecc = .next t → Same fp z₀ t := by
  intro t ht
  unfold execHResp at ht
  obtain rfl := guarded_next ht
  repeat' with_reducible
    first
    | intro _ | assumption | apply guarded_keeps (sub_of hm rfl) | apply State.hostArrival_keeps (sub_of hm rfl)
    | apply State.onHResp_keeps (sub_of hm rfl)

theorem execHostTimeout_keeps (hm : 0x25CDCC &&& fp = 0x25CDCC) (port : Fin 2) (tag : BitVec 12) (s : State)
    (h_s : Same fp z₀ s) : ∀ t, execHostTimeout port tag s = .next t → Same fp z₀ t := by
  intro t ht
  unfold execHostTimeout at ht
  obtain rfl := Host.Outcome.next.inj ht
  repeat' with_reducible (first | assumption | apply State.hostFault_keeps (sub_of hm rfl) | split)

theorem State.ring_keeps (hm : 0x84C0 &&& fp = 0x84C0) (s : State) (k : Nat) (n : Nat) (v : Word)
    (h_s : Same fp z₀ s) : Same fp z₀ (State.ring s k n v) := by
  unfold State.ring
  repeat' with_reducible (first | assumption | apply State.addTally_keeps (sub_of hm rfl) | dsimp only | split)

theorem execDoorbell_keeps (hm : 0x84C0 &&& fp = 0x84C0) (port : Fin 2) (n : BitVec 6) (value : Word) (s : State)
    (h_s : Same fp z₀ s) : ∀ t, execDoorbell port n value s = .next t → Same fp z₀ t := by
  intro t ht
  unfold execDoorbell at ht
  obtain rfl := Host.Outcome.next.inj ht
  repeat' with_reducible (first | assumption | apply State.ring_keeps (sub_of hm rfl))

theorem State.bindDoorbell_keeps (hm : 0x88000 &&& fp = 0x88000) (s : State) (k : Nat) (n : Nat) (v : Word)
    (h_s : Same fp z₀ s) : Same fp z₀ (State.bindDoorbell s k n v) := by
  unfold State.bindDoorbell
  repeat' with_reducible
    first
    | assumption | apply State.updHport_keeps (sub_of hm rfl) | split | apply Same.set_tenancy (bit_of hm rfl)

theorem execDbBind_keeps (hm : 0x88000 &&& fp = 0x88000) (port : Fin 2) (n : BitVec 6) (value : Word) (s : State)
    (h_s : Same fp z₀ s) : ∀ t, execDbBind port n value s = .next t → Same fp z₀ t := by
  intro t ht
  unfold execDbBind at ht
  obtain rfl := Host.Outcome.next.inj ht
  repeat' with_reducible (first | assumption | apply State.bindDoorbell_keeps (sub_of hm rfl))

theorem execInterrupt_keeps (hm : 0x208000 &&& fp = 0x208000) (part : Fin 16) (cause : Fin 6) (s : State)
    (h_s : Same fp z₀ s) : ∀ t, execInterrupt part cause s = .next t → Same fp z₀ t := by
  intro t ht
  unfold execInterrupt at ht
  obtain rfl := Host.Outcome.next.inj ht
  repeat' with_reducible (first | assumption | apply State.raiseCause_keeps (sub_of hm rfl))

theorem State.coalesceEnd_keeps (hm : 0x208000 &&& fp = 0x208000) (s : State) (k : Nat) (v : Nat)
    (h_s : Same fp z₀ s) : Same fp z₀ (State.coalesceEnd s k v) := by
  unfold State.coalesceEnd
  repeat' with_reducible
    first
    | assumption | apply State.sendInterrupt_keeps (sub_of hm rfl) | apply State.updHport_keeps (sub_of hm rfl)
    | dsimp only | split

theorem execCoalesceExpiry_keeps (hm : 0x208000 &&& fp = 0x208000) (port : Fin 2) (vec : Fin 32) (s : State)
    (h_s : Same fp z₀ s) : ∀ t, execCoalesceExpiry port vec s = .next t → Same fp z₀ t := by
  intro t ht
  unfold execCoalesceExpiry at ht
  obtain rfl := Host.Outcome.next.inj ht
  repeat' with_reducible (first | assumption | apply State.coalesceEnd_keeps (sub_of hm rfl))

theorem State.commitQueue_keeps (hm : 0x8000 &&& fp = 0x8000) (s : State) (k : Nat) (q : Nat) (h_s : Same fp z₀ s) :
    Same fp z₀ (State.commitQueue s k q) := by
  unfold State.commitQueue
  repeat' with_reducible (first | assumption | apply State.updQueue_keeps (sub_of hm rfl) | dsimp only | split)

theorem execHqCommit_keeps (hm : 0x8000 &&& fp = 0x8000) (port : Fin 2) (queue : Fin 32) (s : State)
    (h_s : Same fp z₀ s) : ∀ t, execHqCommit port queue s = .next t → Same fp z₀ t := by
  intro t ht
  unfold execHqCommit at ht
  obtain rfl := Host.Outcome.next.inj ht
  repeat' with_reducible (first | assumption | apply State.commitQueue_keeps (sub_of hm rfl))

theorem State.flushQueue_keeps (hm : 0x8000 &&& fp = 0x8000) (s : State) (k : Nat) (q : Nat) (h_s : Same fp z₀ s) :
    Same fp z₀ (State.flushQueue s k q) := by
  unfold State.flushQueue
  repeat' with_reducible (first | assumption | apply State.updQueue_keeps (sub_of hm rfl) | split)

theorem execHqFlush_keeps (hm : 0x8000 &&& fp = 0x8000) (port : Fin 2) (queue : Fin 32) (s : State)
    (h_s : Same fp z₀ s) : ∀ t, execHqFlush port queue s = .next t → Same fp z₀ t := by
  intro t ht
  unfold execHqFlush at ht
  obtain rfl := Host.Outcome.next.inj ht
  repeat' with_reducible (first | assumption | apply State.flushQueue_keeps (sub_of hm rfl))

theorem State.strandQueue_keeps (hm : 0x208000 &&& fp = 0x208000) (s : State) (k : Nat) (q : Nat)
    (h_s : Same fp z₀ s) : Same fp z₀ (State.strandQueue s k q) := by
  unfold State.strandQueue
  repeat' with_reducible
    first
    | assumption | apply State.raiseCause_keeps (sub_of hm rfl) | apply State.updQueue_keeps (sub_of hm rfl)
    | dsimp only | split

theorem execHqIdleTimeout_keeps (hm : 0x208000 &&& fp = 0x208000) (port : Fin 2) (queue : Fin 32) (s : State)
    (h_s : Same fp z₀ s) : ∀ t, execHqIdleTimeout port queue s = .next t → Same fp z₀ t := by
  intro t ht
  unfold execHqIdleTimeout at ht
  obtain rfl := Host.Outcome.next.inj ht
  repeat' with_reducible (first | assumption | apply State.strandQueue_keeps (sub_of hm rfl))

theorem State.stopHostQueue_keeps (hm : 0x208000 &&& fp = 0x208000) (s : State) (k : Nat) (q : Nat) (st : Half)
    (bytes : Nat) (h_s : Same fp z₀ s) : Same fp z₀ (State.stopHostQueue s k q st bytes) := by
  unfold State.stopHostQueue
  repeat' with_reducible
    first
    | assumption | apply State.raiseCause_keeps (sub_of hm rfl) | apply State.updQueue_keeps (sub_of hm rfl)

theorem State.deliver_keeps (hm : 0x2084C0 &&& fp = 0x2084C0) (s : State) (k : Nat) (q : Nat) (a : Nat)
    (h_s : Same fp z₀ s) : Same fp z₀ (State.deliver s k q a) := by
  induction a generalizing s with
  | zero => exact h_s
  | succ fuel ih =>
    unfold State.deliver
    repeat' with_reducible
      first
      | assumption | apply ih | apply State.stopHostQueue_keeps (sub_of hm rfl)
      | apply State.updQueue_keeps (sub_of hm rfl) | apply State.raiseCause_keeps (sub_of hm rfl)
      | apply State.addTally_keeps (sub_of hm rfl) | apply kept_ite | apply Same.set_host (bit_of hm rfl)

theorem State.judgeWr_keeps (hm : 0x208000 &&& fp = 0x208000) (s : State) (k : Nat) (q : Nat) (o : Nat)
    (bs : List Byte) (h_s : Same fp z₀ s) : Same fp z₀ (State.judgeWr s k q o bs).1 := by
  unfold State.judgeWr
  repeat' with_reducible
    first
    | assumption | apply State.updQueue_keeps (sub_of hm rfl) | apply State.stopHostQueue_keeps (sub_of hm rfl)
    | dsimp only | split

theorem State.hostWrite_keeps (hm : 0x20C4CC &&& fp = 0x20C4CC) (s : State) (k : Nat) (a : Nat) (bs : List Byte)
    (ecc : Ecc) (h_s : Same fp z₀ s) : Same fp z₀ (State.hostWrite s k a bs ecc) := by
  unfold State.hostWrite
  repeat' with_reducible
    first
    | intro _ | assumption | apply State.judgeWr_keeps (sub_of hm rfl)
    | apply State.hostParity_keeps (sub_of hm rfl) | apply State.liftPoison_keeps (sub_of hm rfl)
    | apply State.dropTags_keeps (sub_of hm rfl) | apply State.deliver_keeps (sub_of hm rfl) | apply kept_foldl
    | apply kept_foldl1 | dsimp only | split | apply Same.put (bit_of hm rfl) | apply Same.zero (bit_of hm rfl)


/-! ### Machine/Firmware.lean -/

theorem State.finishSlot_keeps (hm : 0x20000 &&& fp = 0x20000) (s : State) (i : Nat) (kind : Nat)
    (h_s : Same fp z₀ s) : Same fp z₀ (State.finishSlot s i kind) := by
  unfold State.finishSlot
  repeat' with_reducible (first | assumption | apply State.updSlot_keeps (sub_of hm rfl))

theorem State.writeBoot_keeps (hm : 0x20000 &&& fp = 0x20000) (s : State) (h_s : Same fp z₀ s) :
    Same fp z₀ (State.writeBoot s) := by
  unfold State.writeBoot
  repeat' with_reducible (first | assumption | apply Same.set_fw (bit_of hm rfl))

theorem State.keepBoot_keeps (hm : 0x20000 &&& fp = 0x20000) (s : State) (h_s : Same fp z₀ s) :
    Same fp z₀ (State.keepBoot s) := by
  unfold State.keepBoot
  repeat' with_reducible (first | assumption | apply State.writeBoot_keeps (sub_of hm rfl) | split)

theorem State.storeWrite_keeps (hm : 0x20000 &&& fp = 0x20000) (s : State) (i : Nat) (off : Nat) (total : Nat)
    (data : List Byte) (h_s : Same fp z₀ s) : Same fp z₀ (State.storeWrite s i off total data).1 := by
  unfold State.storeWrite
  repeat' with_reducible
    first
    | assumption | apply State.updSlot_keeps (sub_of hm rfl) | apply State.keepBoot_keeps (sub_of hm rfl)
    | apply State.finishSlot_keeps (sub_of hm rfl) | dsimp only | split | apply Same.set_fw (bit_of hm rfl)

theorem execImageStoreWrite_keeps (hm : 0x20000 &&& fp = 0x20000) (store : Fin 3) (offset : Nat) (total : Nat)
    (data : List Byte) (s : State) (h_s : Same fp z₀ s) :
    ∀ t, execImageStoreWrite store offset total data s = .next t → Same fp z₀ t := by
  intro t ht
  unfold execImageStoreWrite at ht
  obtain rfl := Host.Outcome.next.inj ht
  repeat' with_reducible (first | assumption | apply State.storeWrite_keeps (sub_of hm rfl) | dsimp only)

theorem State.eraseSlot_keeps (hm : 0x20000 &&& fp = 0x20000) (s : State) (i : Nat) (h_s : Same fp z₀ s) :
    Same fp z₀ (State.eraseSlot s i).1 := by
  unfold State.eraseSlot
  repeat' with_reducible
    first
    | assumption | apply State.keepBoot_keeps (sub_of hm rfl) | apply State.updSlot_keeps (sub_of hm rfl) | split
    | apply Same.set_fw (bit_of hm rfl)

theorem execErase_keeps (hm : 0x20000 &&& fp = 0x20000) (which : Fin 3) (s : State) (h_s : Same fp z₀ s) :
    ∀ t, execErase which s = .next t → Same fp z₀ t := by
  intro t ht
  unfold execErase at ht
  obtain rfl := Host.Outcome.next.inj ht
  repeat' with_reducible (first | assumption | apply State.eraseSlot_keeps (sub_of hm rfl))

theorem State.reconstruct_keeps (hm : 0x20000 &&& fp = 0x20000) (s : State) (h_s : Same fp z₀ s) :
    Same fp z₀ (State.reconstruct s) := by
  unfold State.reconstruct
  repeat' with_reducible
    first
    | assumption | apply State.updSlot_keeps (sub_of hm rfl) | apply State.keepBoot_keeps (sub_of hm rfl)
    | apply State.finishSlot_keeps (sub_of hm rfl) | split | apply Same.set_fw (bit_of hm rfl)

theorem execReconstruct_keeps (hm : 0x20000 &&& fp = 0x20000) (s : State) (h_s : Same fp z₀ s) :
    ∀ t, execReconstruct s = .next t → Same fp z₀ t := by
  intro t ht
  unfold execReconstruct at ht
  obtain rfl := Host.Outcome.next.inj ht
  repeat' with_reducible (first | assumption | apply State.reconstruct_keeps (sub_of hm rfl))

theorem State.confirm_keeps (hm : 0x20001 &&& fp = 0x20001) (s : State) (i : Nat) (h_s : Same fp z₀ s) :
    Same fp z₀ (State.confirm s i) := by
  unfold State.confirm
  repeat' with_reducible
    first
    | assumption | apply State.updSlot_keeps (sub_of hm rfl) | split
    | (refine Same.of (s := ?_) ?_ ?_ ?_ ?_ ?_ ?_ ?_ ?_ ?_ ?_ ?_ ?_ ?_ ?_ ?_ ?_ ?_ ?_ ?_ ?_ ?_ ?_ ?_ ?_ ?_ ?_ ?_ ?_ ?_ <;>
        first | exact Or.inr rfl | exact Or.inl (bit_of hm rfl) | rfl | exact id | exact Or.inr fun _ h => h | skip)

theorem State.considerSlot_keeps (hm : 0x20000 &&& fp = 0x20000) (s : State) (i : Nat) (h_s : Same fp z₀ s) :
    Same fp z₀ (State.considerSlot s i).1 := by
  unfold State.considerSlot
  repeat' with_reducible
    first
    | assumption | apply State.updSlot_keeps (sub_of hm rfl) | dsimp only | split
    | apply Same.set_fw (bit_of hm rfl)

theorem State.loadSlot_keeps (hm : 0x20010 &&& fp = 0x20010) (s : State) (i : Nat) (h_s : Same fp z₀ s) :
    Same fp z₀ (State.loadSlot s i) := by
  unfold State.loadSlot
  repeat' with_reducible
    first
    | assumption
    | (refine Same.of (s := ?_) ?_ ?_ ?_ ?_ ?_ ?_ ?_ ?_ ?_ ?_ ?_ ?_ ?_ ?_ ?_ ?_ ?_ ?_ ?_ ?_ ?_ ?_ ?_ ?_ ?_ ?_ ?_ ?_ ?_ <;>
        first | exact Or.inr rfl | exact Or.inl (bit_of hm rfl) | rfl | exact id | exact Or.inr fun _ h => h | skip)

theorem State.enterRecovery_keeps (hm : 0x20030 &&& fp = 0x20030) (s : State) (reason : Nat) (h_s : Same fp z₀ s) :
    Same fp z₀ (State.enterRecovery s reason) := by
  unfold State.enterRecovery
  repeat' with_reducible
    first
    | assumption
    | (refine Same.of (s := ?_) ?_ ?_ ?_ ?_ ?_ ?_ ?_ ?_ ?_ ?_ ?_ ?_ ?_ ?_ ?_ ?_ ?_ ?_ ?_ ?_ ?_ ?_ ?_ ?_ ?_ ?_ ?_ ?_ ?_ <;>
        first | exact Or.inr rfl | exact Or.inl (bit_of hm rfl) | rfl | exact id | exact Or.inr fun _ h => h | skip)

theorem State.chooseSlot_keeps (hm : 0x20030 &&& fp = 0x20030) (s : State) (h_s : Same fp z₀ s) :
    Same fp z₀ (State.chooseSlot s) := by
  unfold State.chooseSlot
  repeat' with_reducible
    first
    | assumption | apply State.enterRecovery_keeps (sub_of hm rfl) | apply State.considerSlot_keeps (sub_of hm rfl)
    | apply State.writeBoot_keeps (sub_of hm rfl) | apply State.loadSlot_keeps (sub_of hm rfl) | dsimp only | split

theorem State.activateLive_keeps (hm : 0x20000 &&& fp = 0x20000) (s : State) (h_s : Same fp z₀ s) :
    Same fp z₀ (State.activateLive s).1 := by
  unfold State.activateLive
  repeat' with_reducible (first | assumption | dsimp only | split | apply Same.set_fw (bit_of hm rfl))

theorem execActivateLive_keeps (hm : 0x20000 &&& fp = 0x20000) (s : State) (h_s : Same fp z₀ s) :
    ∀ t, execActivateLive s = .next t → Same fp z₀ t := by
  intro t ht
  unfold execActivateLive at ht
  obtain rfl := Host.Outcome.next.inj ht
  repeat' with_reducible (first | assumption | apply State.activateLive_keeps (sub_of hm rfl) | dsimp only)

theorem State.markTrial_keeps (hm : 0x20000 &&& fp = 0x20000) (s : State) (i : Nat) (h_s : Same fp z₀ s) :
    Same fp z₀ (State.markTrial s i) := by
  unfold State.markTrial
  repeat' with_reducible
    first
    | assumption | apply State.updSlot_keeps (sub_of hm rfl) | apply Same.set_fw (bit_of hm rfl)

theorem State.activateAtReset_keeps (hm : 0x20010 &&& fp = 0x20010) (s : State) (h_s : Same fp z₀ s) :
    Same fp z₀ (State.activateAtReset s).1 := by
  unfold State.activateAtReset
  repeat' with_reducible
    first
    | assumption | apply State.markTrial_keeps (sub_of hm rfl) | apply State.writeBoot_keeps (sub_of hm rfl)
    | apply State.loadSlot_keeps (sub_of hm rfl) | apply State.keepBoot_keeps (sub_of hm rfl) | split
    | apply Same.set_fw (bit_of hm rfl)

theorem execActivateAtReset_keeps (hm : 0x20010 &&& fp = 0x20010) (s : State) (h_s : Same fp z₀ s) :
    ∀ t, execActivateAtReset s = .next t → Same fp z₀ t := by
  intro t ht
  unfold execActivateAtReset at ht
  obtain rfl := Host.Outcome.next.inj ht
  repeat' with_reducible (first | assumption | apply State.activateAtReset_keeps (sub_of hm rfl))

theorem State.beginHandover_keeps (hm : 0x20000 &&& fp = 0x20000) (s : State) (h_s : Same fp z₀ s) :
    Same fp z₀ (State.beginHandover s) := by
  unfold State.beginHandover
  repeat' with_reducible (first | assumption | split | apply Same.set_fw (bit_of hm rfl))

theorem State.writeHeld_keeps (hm : 0x22C000 &&& fp = 0x22C000) (s : State) (h_s : Same fp z₀ s) :
    Same fp z₀ (State.writeHeld s) := by
  unfold State.writeHeld
  repeat' with_reducible
    first
    | assumption | apply State.writeFault_keeps (sub_of hm rfl) | apply kept_foldl
    | (refine Same.of (s := ?_) ?_ ?_ ?_ ?_ ?_ ?_ ?_ ?_ ?_ ?_ ?_ ?_ ?_ ?_ ?_ ?_ ?_ ?_ ?_ ?_ ?_ ?_ ?_ ?_ ?_ ?_ ?_ ?_ ?_ <;>
        first | exact Or.inr rfl | exact Or.inl (bit_of hm rfl) | rfl | exact id | exact Or.inr fun _ h => h | skip)

theorem State.handover_keeps (hm : 0x22C001 &&& fp = 0x22C001) (s : State) (ok : Bool) (h_s : Same fp z₀ s) :
    Same fp z₀ (State.handover s ok) := by
  unfold State.handover
  repeat' with_reducible
    first
    | assumption | apply State.confirm_keeps (sub_of hm rfl) | apply State.updSlot_keeps (sub_of hm rfl)
    | apply State.writeHeld_keeps (sub_of hm rfl) | apply State.keepBoot_keeps (sub_of hm rfl) | split
    | apply Same.set_fw (bit_of hm rfl)

theorem State.sendNeed_keeps (hm : 0x200400 &&& fp = 0x200400) (s : State) (h_s : Same fp z₀ s) :
    Same fp z₀ (State.sendNeed s) := by
  unfold State.sendNeed
  repeat' with_reducible (first | assumption | apply State.sendMaint_keeps (sub_of hm rfl))

theorem execOfferSend_keeps (hm : 0x200400 &&& fp = 0x200400) (s : State) (h_s : Same fp z₀ s) :
    ∀ t, execOfferSend s = .next t → Same fp z₀ t := by
  intro t ht
  unfold execOfferSend at ht
  obtain rfl := Host.Outcome.next.inj ht
  repeat' with_reducible
    first
    | intro _ | assumption | apply State.sendMaint_keeps (sub_of hm rfl) | apply kept_foldl | split

theorem State.sendBlocks_keeps (hm : 0x220400 &&& fp = 0x220400) (s : State) (k : Nat) (h_s : Same fp z₀ s) :
    Same fp z₀ (State.sendBlocks s k) := by
  unfold State.sendBlocks
  repeat' with_reducible
    first
    | intro _ | assumption | apply State.sendMaint_keeps (sub_of hm rfl) | apply kept_foldl
    | apply Same.set_fw (bit_of hm rfl)

theorem State.settleDist_keeps (hm : 0x20000 &&& fp = 0x20000) (s : State) (h_s : Same fp z₀ s) :
    Same fp z₀ (State.settleDist s) := by
  unfold State.settleDist
  repeat' with_reducible (first | assumption | split | apply Same.set_fw (bit_of hm rfl))

theorem State.acceptOffer_keeps (hm : 0x220400 &&& fp = 0x220400) (s : State) (f : List Byte) (h_s : Same fp z₀ s) :
    Same fp z₀ (State.acceptOffer s f) := by
  unfold State.acceptOffer
  repeat' with_reducible
    first
    | assumption | apply State.sendMaint_keeps (sub_of hm rfl) | apply State.sendNeed_keeps (sub_of hm rfl)
    | apply State.keepBoot_keeps (sub_of hm rfl) | apply State.updSlot_keeps (sub_of hm rfl) | split
    | apply Same.set_fw (bit_of hm rfl)

theorem State.onOffer_keeps (hm : 0x220400 &&& fp = 0x220400) (s : State) (k : Nat) (f : List Byte)
    (h_s : Same fp z₀ s) : Same fp z₀ (State.onOffer s k f) := by
  unfold State.onOffer
  repeat' with_reducible
    first
    | assumption | apply State.acceptOffer_keeps (sub_of hm rfl) | apply State.sendMaint_keeps (sub_of hm rfl)
    | split

theorem State.distFrame_keeps (hm : 0x400 &&& fp = 0x400) (s : State) (k : Nat) (f : List Byte) (h : State → State)
    (h_s : Same fp z₀ s) (h_h : ∀ y0, Same fp z₀ y0 → Same fp z₀ ((h y0))) :
    Same fp z₀ (State.distFrame s k f h) := by
  unfold State.distFrame
  repeat' with_reducible (first | assumption | apply h_h | apply State.countFrame_keeps (sub_of hm rfl) | split)

theorem execOffer_keeps (hm : 0x220400 &&& fp = 0x220400) (port : Fin 6) (frame : List Byte) (s : State)
    (h_s : Same fp z₀ s) : ∀ t, execOffer port frame s = .next t → Same fp z₀ t := by
  intro t ht
  unfold execOffer at ht
  obtain rfl := guarded_next ht
  repeat' with_reducible
    first
    | intro _ | assumption | apply guarded_keeps (sub_of hm rfl) | apply State.distFrame_keeps (sub_of hm rfl)
    | apply State.onOffer_keeps (sub_of hm rfl)

theorem State.onNeed_keeps (hm : 0x220400 &&& fp = 0x220400) (s : State) (k : Nat) (f : List Byte)
    (h_s : Same fp z₀ s) : Same fp z₀ (State.onNeed s k f) := by
  unfold State.onNeed
  repeat' with_reducible
    first
    | assumption | apply State.settleDist_keeps (sub_of hm rfl) | apply State.sendBlocks_keeps (sub_of hm rfl)
    | split | apply Same.set_fw (bit_of hm rfl)

theorem execNeed_keeps (hm : 0x220400 &&& fp = 0x220400) (port : Fin 6) (frame : List Byte) (s : State)
    (h_s : Same fp z₀ s) : ∀ t, execNeed port frame s = .next t → Same fp z₀ t := by
  intro t ht
  unfold execNeed at ht
  obtain rfl := guarded_next ht
  repeat' with_reducible
    first
    | intro _ | assumption | apply guarded_keeps (sub_of hm rfl) | apply State.distFrame_keeps (sub_of hm rfl)
    | apply State.onNeed_keeps (sub_of hm rfl)

theorem execNeedProgressTimeout_keeps (hm : 0x200400 &&& fp = 0x200400) (s : State) (h_s : Same fp z₀ s) :
    ∀ t, execNeedProgressTimeout s = .next t → Same fp z₀ t := by
  intro t ht
  unfold execNeedProgressTimeout at ht
  obtain rfl := Host.Outcome.next.inj ht
  repeat' with_reducible (first | assumption | apply State.sendNeed_keeps (sub_of hm rfl) | split)

theorem State.failDist_keeps (hm : 0x20000 &&& fp = 0x20000) (s : State) (h_s : Same fp z₀ s) :
    Same fp z₀ (State.failDist s) := by
  unfold State.failDist
  repeat' with_reducible
    first
    | assumption | apply State.updSlot_keeps (sub_of hm rfl) | apply State.keepBoot_keeps (sub_of hm rfl)
    | apply Same.set_fw (bit_of hm rfl)

theorem State.finishDist_keeps (hm : 0x20000 &&& fp = 0x20000) (s : State) (h_s : Same fp z₀ s) :
    Same fp z₀ (State.finishDist s) := by
  unfold State.finishDist
  repeat' with_reducible
    first
    | assumption | apply State.keepBoot_keeps (sub_of hm rfl) | apply State.finishSlot_keeps (sub_of hm rfl)
    | apply State.settleDist_keeps (sub_of hm rfl) | split | apply Same.set_fw (bit_of hm rfl)

theorem State.onPart_keeps (hm : 0x220400 &&& fp = 0x220400) (s : State) (k : Nat) (f : List Byte)
    (h_s : Same fp z₀ s) : Same fp z₀ (State.onPart s k f) := by
  unfold State.onPart
  repeat' with_reducible
    first
    | assumption | apply State.updSlot_keeps (sub_of hm rfl) | apply State.sendBlocks_keeps (sub_of hm rfl)
    | apply State.sendNeed_keeps (sub_of hm rfl) | apply State.finishDist_keeps (sub_of hm rfl) | apply kept_foldl
    | split | apply Same.set_fw (bit_of hm rfl)

theorem execPart_keeps (hm : 0x220400 &&& fp = 0x220400) (port : Fin 6) (frame : List Byte) (s : State)
    (h_s : Same fp z₀ s) : ∀ t, execPart port frame s = .next t → Same fp z₀ t := by
  intro t ht
  unfold execPart at ht
  obtain rfl := guarded_next ht
  repeat' with_reducible
    first
    | intro _ | assumption | apply guarded_keeps (sub_of hm rfl) | apply State.distFrame_keeps (sub_of hm rfl)
    | apply State.onPart_keeps (sub_of hm rfl)

theorem State.onAbort_keeps (hm : 0x20000 &&& fp = 0x20000) (s : State) (k : Nat) (f : List Byte)
    (h_s : Same fp z₀ s) : Same fp z₀ (State.onAbort s k f) := by
  unfold State.onAbort
  repeat' with_reducible (first | assumption | apply State.failDist_keeps (sub_of hm rfl) | split)

theorem execAbort_keeps (hm : 0x20400 &&& fp = 0x20400) (port : Fin 6) (frame : List Byte) (s : State)
    (h_s : Same fp z₀ s) : ∀ t, execAbort port frame s = .next t → Same fp z₀ t := by
  intro t ht
  unfold execAbort at ht
  obtain rfl := guarded_next ht
  repeat' with_reducible
    first
    | intro _ | assumption | apply guarded_keeps (sub_of hm rfl) | apply State.distFrame_keeps (sub_of hm rfl)
    | apply State.onAbort_keeps (sub_of hm rfl)

theorem execUpstreamSilence_keeps (hm : 0x20000 &&& fp = 0x20000) (s : State) (h_s : Same fp z₀ s) :
    ∀ t, execUpstreamSilence s = .next t → Same fp z₀ t := by
  intro t ht
  unfold execUpstreamSilence at ht
  obtain rfl := Host.Outcome.next.inj ht
  repeat' with_reducible (first | assumption | apply State.failDist_keeps (sub_of hm rfl) | split)

theorem State.setLimit_keeps (hm : 0x10 &&& fp = 0x10) (s : State) (w : Word) (h_s : Same fp z₀ s) :
    Same fp z₀ (State.setLimit s w) := by
  unfold State.setLimit
  repeat' with_reducible (first | assumption | apply Same.set_power (bit_of hm rfl))

theorem State.attestNonce_keeps (hm : 0x20080 &&& fp = 0x20080) (s : State) (p : Nat) (nonce : List Byte)
    (h_s : Same fp z₀ s) : Same fp z₀ (State.attestNonce s p nonce).1 := by
  unfold State.attestNonce
  repeat' with_reducible
    first
    | assumption | apply State.updPart_keeps (sub_of hm rfl) | split | apply Same.set_fw (bit_of hm rfl)

theorem execAttestNonce_keeps (hm : 0x20080 &&& fp = 0x20080) (part : Fin 16) (nonce : List Byte) (s : State)
    (h_s : Same fp z₀ s) : ∀ t, execAttestNonce part nonce s = .next t → Same fp z₀ t := by
  intro t ht
  unfold execAttestNonce at ht
  obtain rfl := Host.Outcome.next.inj ht
  repeat' with_reducible (first | assumption | apply State.attestNonce_keeps (sub_of hm rfl))

theorem execAttestReportDone_keeps (hm : 0x20080 &&& fp = 0x20080) (part : Fin 16) (s : State) (h_s : Same fp z₀ s) :
    ∀ t, execAttestReportDone part s = .next t → Same fp z₀ t := by
  intro t ht
  unfold execAttestReportDone at ht
  obtain rfl := Host.Outcome.next.inj ht
  repeat' with_reducible
    first
    | assumption | apply State.updPart_keeps (sub_of hm rfl) | split | apply Same.set_fw (bit_of hm rfl)


/-! ### Machine/Power.lean -/

theorem State.restart_keeps (hm : 0xFFFFC &&& fp = 0xFFFFC) (s : State) (h_s : Same fp z₀ s) :
    Same fp z₀ (State.restart s) := by
  have h0 : ∀ (l : Sparse Link) k, ((Sparse.find (l.map fun x => (x.1, x.2.restart x.1)) k).getD (Link.reset k)).state = 0 := by
    intro l k
    induction l with
    | nil => rfl
    | cons x l ih =>
      simp only [List.map_cons, Sparse.find]
      split
      · rfl
      · exact ih
  unfold State.restart
  refine Same.of (s := s) h_s rfl ?_ ?_ ?_ ?_ ?_ ?_ ?_ ?_ ?_ ?_ ?_ ?_ ?_ ?_ ?_ ?_ ?_ ?_ ?_ ?_ ?_ ?_ ?_ ?_ ?_ ?_ ?_ <;>
    first | exact Or.inr rfl | exact Or.inl (bit_of hm rfl) | rfl |
      exact Or.inr fun k e => absurd (e.symm.trans (h0 _ k)) (by decide) | exact fun _ => rfl

theorem State.latch_keeps (hm : 0x10410 &&& fp = 0x10410) (s : State) (modid : BitVec 13) (segpos : BitVec 3)
    (recoveryN : Bool) (h_s : Same fp z₀ s) : Same fp z₀ (State.latch s modid segpos recoveryN) := by
  unfold State.latch
  repeat' with_reducible
    first
    | assumption
    | (refine Same.of (s := ?_) ?_ ?_ ?_ ?_ ?_ ?_ ?_ ?_ ?_ ?_ ?_ ?_ ?_ ?_ ?_ ?_ ?_ ?_ ?_ ?_ ?_ ?_ ?_ ?_ ?_ ?_ ?_ ?_ ?_ <;>
        first | exact Or.inr rfl | exact Or.inl (bit_of hm rfl) | rfl | exact id | exact Or.inr fun _ h => h | skip)

theorem State.resetNow_keeps (hm : 0xFFFFC &&& fp = 0xFFFFC) (s : State) (modid : BitVec 13) (segpos : BitVec 3)
    (recoveryN : Bool) (h_s : Same fp z₀ s) : Same fp z₀ (State.resetNow s modid segpos recoveryN) := by
  unfold State.resetNow
  repeat' with_reducible
    first
    | assumption | apply State.chooseSlot_keeps (sub_of hm rfl) | apply State.latch_keeps (sub_of hm rfl)
    | apply State.restart_keeps (sub_of hm rfl) | split

theorem execReset_keeps (hm : 0xFFFFC &&& fp = 0xFFFFC) (lowNs : Nat) (modid : BitVec 13) (segpos : BitVec 3)
    (recoveryN : Bool) (s : State) (torn : Bool) (h_s : Same fp z₀ s) :
    ∀ t, execReset lowNs modid segpos recoveryN s torn = .next t → Same fp z₀ t := by
  intro t ht
  unfold execReset at ht
  obtain rfl := Host.Outcome.next.inj ht
  repeat' with_reducible
    first
    | assumption | apply State.resetNow_keeps (sub_of hm rfl) | split
    | (refine Same.of (s := ?_) ?_ ?_ ?_ ?_ ?_ ?_ ?_ ?_ ?_ ?_ ?_ ?_ ?_ ?_ ?_ ?_ ?_ ?_ ?_ ?_ ?_ ?_ ?_ ?_ ?_ ?_ ?_ ?_ ?_ <;>
        first | exact Or.inr rfl | exact Or.inl (bit_of hm rfl) | rfl | exact id | exact Or.inr fun _ h => h | skip)

theorem execRailBringUp_keeps (hm : 0x6030 &&& fp = 0x6030) (s : State) (h_s : Same fp z₀ s) :
    ∀ t, execRailBringUp s = .next t → Same fp z₀ t := by
  intro t ht
  unfold execRailBringUp at ht
  obtain rfl := Host.Outcome.next.inj ht
  repeat' with_reducible
    first
    | intro _ | assumption | refine State.updLink_kept (sub_of hm rfl) _ _ _ (fun e => e) ?_
    | refine State.updLink_kept (sub_of hm rfl) _ _ _ (fun e => absurd (show (1 : Byte) = 5 from e) (by decide)) ?_
    | refine State.updLink_kept (sub_of hm rfl) _ _ _ (fun e => absurd (show (0 : Byte) = 5 from e) (by decide)) ?_
    | apply kept_foldl | split
    | (refine Same.of (s := ?_) ?_ ?_ ?_ ?_ ?_ ?_ ?_ ?_ ?_ ?_ ?_ ?_ ?_ ?_ ?_ ?_ ?_ ?_ ?_ ?_ ?_ ?_ ?_ ?_ ?_ ?_ ?_ ?_ ?_ <;>
        first | exact Or.inr rfl | exact Or.inl (bit_of hm rfl) | rfl | exact id | exact Or.inr fun _ h => h | skip)

theorem execHbmTraining_keeps (hm : 0x18 &&& fp = 0x18) (s : State) (h_s : Same fp z₀ s) :
    ∀ t, execHbmTraining s = .next t → Same fp z₀ t := by
  intro t ht
  unfold execHbmTraining at ht
  obtain rfl := Host.Outcome.next.inj ht
  repeat' with_reducible
    first
    | assumption | apply State.repairRow_keeps (sub_of hm rfl) | apply kept_foldl | split
    | apply Same.set_power (bit_of hm rfl)

theorem execModuleReady_keeps (hm : 0x20015 &&& fp = 0x20015) (s : State) (h_s : Same fp z₀ s) :
    ∀ t, execModuleReady s = .next t → Same fp z₀ t := by
  intro t ht
  unfold execModuleReady at ht
  obtain rfl := Host.Outcome.next.inj ht
  repeat' with_reducible
    first
    | assumption | apply State.keepBoot_keeps (sub_of hm rfl) | apply State.confirm_keeps (sub_of hm rfl) | split
    | apply memWf_memPut | apply memWf_memZero | apply memWf_foldl
    | (refine Same.of (s := ?_) ?_ ?_ ?_ ?_ ?_ ?_ ?_ ?_ ?_ ?_ ?_ ?_ ?_ ?_ ?_ ?_ ?_ ?_ ?_ ?_ ?_ ?_ ?_ ?_ ?_ ?_ ?_ ?_ ?_ <;>
        first | exact Or.inr rfl | exact Or.inl (bit_of hm rfl) | rfl | exact id | exact Or.inr fun _ h => h | skip)

theorem execInputRise_keeps (hm : 0x10 &&& fp = 0x10) (s : State) (h_s : Same fp z₀ s) :
    ∀ t, execInputRise s = .next t → Same fp z₀ t := by
  intro t ht
  unfold execInputRise at ht
  obtain rfl := Host.Outcome.next.inj ht
  repeat' with_reducible (first | assumption | split | apply Same.set_power (bit_of hm rfl))

theorem State.cut_keeps (hm : 0xFFFFC &&& fp = 0xFFFFC) (s : State) (h_s : Same fp z₀ s) :
    Same fp z₀ (State.cut s) := by
  unfold State.cut
  repeat' with_reducible
    first
    | assumption | apply State.restart_keeps (sub_of hm rfl)
    | (refine Same.of (s := ?_) ?_ ?_ ?_ ?_ ?_ ?_ ?_ ?_ ?_ ?_ ?_ ?_ ?_ ?_ ?_ ?_ ?_ ?_ ?_ ?_ ?_ ?_ ?_ ?_ ?_ ?_ ?_ ?_ ?_ <;>
        first | exact Or.inr rfl | exact Or.inl (bit_of hm rfl) | rfl | exact id | exact Or.inr fun _ h => h | skip)

theorem execPowerLoss_keeps (hm : 0xFFFFC &&& fp = 0xFFFFC) (m : Meas) (s : State) (h_s : Same fp z₀ s) :
    ∀ t, execPowerLoss m s = .next t → Same fp z₀ t := by
  intro t ht
  unfold execPowerLoss at ht
  obtain rfl := Host.Outcome.next.inj ht
  repeat' with_reducible
    first
    | assumption | apply State.cut_keeps (sub_of hm rfl) | split | apply Same.set_power (bit_of hm rfl)

theorem execOvervoltage_keeps (hm : 0xFFFFC &&& fp = 0xFFFFC) (s : State) (h_s : Same fp z₀ s) :
    ∀ t, execOvervoltage s = .next t → Same fp z₀ t := by
  intro t ht
  unfold execOvervoltage at ht
  obtain rfl := Host.Outcome.next.inj ht
  repeat' with_reducible
    first
    | assumption | apply State.cut_keeps (sub_of hm rfl) | split | apply Same.set_power (bit_of hm rfl)

theorem execInputFallsBelow54v_keeps (hm : 0x10 &&& fp = 0x10) (s : State) (h_s : Same fp z₀ s) :
    ∀ t, execInputFallsBelow54v s = .next t → Same fp z₀ t := by
  intro t ht
  unfold execInputFallsBelow54v at ht
  obtain rfl := Host.Outcome.next.inj ht
  repeat' with_reducible (first | assumption | split | apply Same.set_power (bit_of hm rfl))

theorem State.countEvent_keeps (hm : 0x10 &&& fp = 0x10) (s : State) (h_s : Same fp z₀ s) :
    Same fp z₀ (State.countEvent s) := by
  unfold State.countEvent
  repeat' with_reducible (first | assumption | apply Same.set_power (bit_of hm rfl))

theorem execPowerInputFault_keeps (hm : 0x24CDDC &&& fp = 0x24CDDC) (s : State) (h_s : Same fp z₀ s) :
    ∀ t, execPowerInputFault s = .next t → Same fp z₀ t := by
  intro t ht
  unfold execPowerInputFault at ht
  obtain rfl := Host.Outcome.next.inj ht
  repeat' with_reducible
    first
    | assumption | apply State.fault_keeps (sub_of hm rfl) | apply State.countEvent_keeps (sub_of hm rfl) | split
    | apply Same.set_power (bit_of hm rfl)

theorem execInputSettled_keeps (hm : 0x10 &&& fp = 0x10) (s : State) (h_s : Same fp z₀ s) :
    ∀ t, execInputSettled s = .next t → Same fp z₀ t := by
  intro t ht
  unfold execInputSettled at ht
  obtain rfl := Host.Outcome.next.inj ht
  repeat' with_reducible (first | assumption | apply Same.set_power (bit_of hm rfl))

theorem execPowerLimitExceeded_keeps (hm : 0x24CDDC &&& fp = 0x24CDDC) (watts : Nat) (s : State)
    (h_s : Same fp z₀ s) : ∀ t, execPowerLimitExceeded watts s = .next t → Same fp z₀ t := by
  intro t ht
  unfold execPowerLimitExceeded at ht
  obtain rfl := Host.Outcome.next.inj ht
  repeat' with_reducible
    first
    | assumption | apply State.fault_keeps (sub_of hm rfl) | apply State.countEvent_keeps (sub_of hm rfl) | split
    | apply Same.set_power (bit_of hm rfl)

theorem State.tripPort_keeps (hm : 0x2DEDCC &&& fp = 0x2DEDCC) (s : State) (k : Nat) (h_s : Same fp z₀ s) :
    Same fp z₀ (State.tripPort s k) := by
  unfold State.tripPort
  repeat' with_reducible
    first
    | assumption | refine State.updLink_kept (sub_of hm rfl) _ _ _ (fun e => e) ?_
    | refine State.updLink_kept (sub_of hm rfl) _ _ _ (fun e => absurd (show (1 : Byte) = 5 from e) (by decide)) ?_
    | refine State.updLink_kept (sub_of hm rfl) _ _ _ (fun e => absurd (show (0 : Byte) = 5 from e) (by decide)) ?_
    | apply State.losePort_keeps (sub_of hm rfl) | refine State.setPort_kept (sub_of hm rfl) _ _ _ (by decide) ?_
    | apply State.loseHost_keeps (sub_of hm rfl) | apply State.updHport_keeps (sub_of hm rfl) | dsimp only | split

theorem execThermalTrip_keeps (hm : 0x2DEDDC &&& fp = 0x2DEDDC) (sensor : Sensor) (s : State) (h_s : Same fp z₀ s) :
    ∀ t, execThermalTrip sensor s = .next t → Same fp z₀ t := by
  intro t ht
  unfold execThermalTrip at ht
  obtain rfl := Host.Outcome.next.inj ht
  repeat' with_reducible
    first
    | assumption | apply State.countEvent_keeps (sub_of hm rfl) | apply State.fault_keeps (sub_of hm rfl)
    | apply State.tripPort_keeps (sub_of hm rfl) | split | apply Same.set_power (bit_of hm rfl)

theorem execThermalWarning_keeps (hm : 0x10 &&& fp = 0x10) (_sensor : Sensor) (s : State) (h_s : Same fp z₀ s) :
    ∀ t, execThermalWarning _sensor s = .next t → Same fp z₀ t := by
  intro t ht
  unfold execThermalWarning at ht
  obtain rfl := Host.Outcome.next.inj ht
  repeat' with_reducible
    first
    | assumption | apply State.countEvent_keeps (sub_of hm rfl) | split | apply Same.set_power (bit_of hm rfl)

theorem execThermalHoldEnd_keeps (hm : 0xE010 &&& fp = 0xE010) (port : Option (Fin 8)) (s : State)
    (h_s : Same fp z₀ s) : ∀ t, execThermalHoldEnd port s = .next t → Same fp z₀ t := by
  intro t ht
  unfold execThermalHoldEnd at ht
  obtain rfl := Host.Outcome.next.inj ht
  repeat' with_reducible
    first
    | assumption | refine State.updLink_kept (sub_of hm rfl) _ _ _ (fun e => e) ?_
    | refine State.updLink_kept (sub_of hm rfl) _ _ _ (fun e => absurd (show (1 : Byte) = 5 from e) (by decide)) ?_
    | refine State.updLink_kept (sub_of hm rfl) _ _ _ (fun e => absurd (show (0 : Byte) = 5 from e) (by decide)) ?_
    | apply State.updHport_keeps (sub_of hm rfl) | split | apply Same.set_power (bit_of hm rfl)

theorem execHistoryRecord_keeps (hm : 0x10 &&& fp = 0x10) (m : Meas) (s : State) (h_s : Same fp z₀ s) :
    ∀ t, execHistoryRecord m s = .next t → Same fp z₀ t := by
  intro t ht
  unfold execHistoryRecord at ht
  obtain rfl := Host.Outcome.next.inj ht
  repeat' with_reducible (first | assumption | split | apply Same.set_power (bit_of hm rfl))


/-! ### Machine/Asrel.lean -/

theorem carried_keeps (hm : 0x0 &&& fp = 0x0) (s : State) (h_s : Same fp z₀ s) : Same fp z₀ (carried s).1 := by
  unfold carried
  repeat' with_reducible (first | assumption)

theorem whenLegal_keeps (hm : 0x0 &&& fp = 0x0) (ok : Bool) (s : State) (t : State) (h_s : Same fp z₀ s)
    (h_t : Same fp z₀ t) : Same fp z₀ (whenLegal ok s t).1 := by
  unfold whenLegal
  repeat' with_reducible (first | assumption | apply carried_keeps (sub_of hm rfl) | split)

theorem whenOne_keeps (hm : 0x0 &&& fp = 0x0) (v : Nat) (s : State) (f : State → State × Answer)
    (h_s : Same fp z₀ s) (h_f : ∀ y0, Same fp z₀ y0 → Same fp z₀ ((f y0).1)) : Same fp z₀ (whenOne v s f).1 := by
  unfold whenOne
  repeat' with_reducible (first | assumption | apply h_f | split)

theorem State.netShadow_keeps (hm : 0x10000 &&& fp = 0x10000) (s : State) (f : NetGroup → NetGroup)
    (h_s : Same fp z₀ s) : Same fp z₀ (State.netShadow s f) := by
  unfold State.netShadow
  repeat' with_reducible (first | assumption | apply State.updMgmt_keeps (sub_of hm rfl))

theorem State.sendNet_keeps (hm : 0x210000 &&& fp = 0x210000) (s : State) (o : Out) (h_s : Same fp z₀ s) :
    Same fp z₀ (State.sendNet s o) := by
  unfold State.sendNet
  repeat' with_reducible
    first
    | assumption | apply State.send_keeps (sub_of hm rfl) | apply State.updMgmt_keeps (sub_of hm rfl)

theorem State.applyNet_keeps (hm : 0x210000 &&& fp = 0x210000) (s : State) (h_s : Same fp z₀ s) :
    Same fp z₀ (State.applyNet s) := by
  unfold State.applyNet
  repeat' with_reducible
    first
    | assumption | apply State.updMgmt_keeps (sub_of hm rfl) | apply State.sendNet_keeps (sub_of hm rfl)
    | dsimp only | split

theorem State.commitNet_keeps (hm : 0x210000 &&& fp = 0x210000) (s : State) (path : Path) (h_s : Same fp z₀ s) :
    Same fp z₀ (State.commitNet s path).1 := by
  unfold State.commitNet
  repeat' with_reducible
    first
    | assumption | apply State.updMgmt_keeps (sub_of hm rfl) | apply carried_keeps (sub_of hm rfl)
    | apply State.applyNet_keeps (sub_of hm rfl) | dsimp only | split

theorem execNetCommit_keeps (hm : 0x210000 &&& fp = 0x210000) (path : Path) (s : State) (h_s : Same fp z₀ s) :
    ∀ t, execNetCommit path s = .next t → Same fp z₀ t := by
  intro t ht
  unfold execNetCommit at ht
  obtain rfl := Host.Outcome.next.inj ht
  repeat' with_reducible (first | assumption | apply State.commitNet_keeps (sub_of hm rfl))

theorem State.write1100_keeps (hm : 0x210000 &&& fp = 0x210000) (s : State) (path : Path) (sub : Nat)
    (bs : List Byte) (h_s : Same fp z₀ s) : Same fp z₀ (State.write1100 s path sub bs).1 := by
  unfold State.write1100
  repeat' with_reducible
    first
    | intro _ | assumption | apply whenLegal_keeps (sub_of hm rfl) | apply State.netShadow_keeps (sub_of hm rfl)
    | apply carried_keeps (sub_of hm rfl) | apply whenOne_keeps (sub_of hm rfl)
    | apply State.commitNet_keeps (sub_of hm rfl) | split

theorem State.write1200_keeps (hm : 0x20010 &&& fp = 0x20010) (s : State) (sub : Nat) (v : Nat) (h_s : Same fp z₀ s) :
    Same fp z₀ (State.write1200 s sub v).1 := by
  unfold State.write1200
  repeat' with_reducible
    first
    | assumption | apply State.activateLive_keeps (sub_of hm rfl)
    | apply State.activateAtReset_keeps (sub_of hm rfl) | apply State.eraseSlot_keeps (sub_of hm rfl) | split

theorem State.write1202_keeps (hm : 0x20000 &&& fp = 0x20000) (s : State) (sub : Nat) (v : Nat) (h_s : Same fp z₀ s) :
    Same fp z₀ (State.write1202 s sub v).1 := by
  unfold State.write1202
  repeat' with_reducible
    first
    | assumption | apply whenLegal_keeps (sub_of hm rfl) | split | apply Same.set_fw (bit_of hm rfl)

theorem State.write2101_keeps (hm : 0x80 &&& fp = 0x80) (s : State) (sub : Nat) (v : Nat) (h_s : Same fp z₀ s) :
    Same fp z₀ (State.write2101 s sub v).1 := by
  unfold State.write2101
  repeat' with_reducible
    first
    | intro _ | assumption | apply whenOne_keeps (sub_of hm rfl) | apply State.commitWindows_keeps (sub_of hm rfl)
    | apply carried_keeps (sub_of hm rfl) | apply State.updPart_keeps (sub_of hm rfl) | split

theorem State.write2102_keeps (hm : 0x80 &&& fp = 0x80) (s : State) (sub : Nat) (v : Nat) (h_s : Same fp z₀ s) :
    Same fp z₀ (State.write2102 s sub v).1 := by
  unfold State.write2102
  repeat' with_reducible
    first
    | intro _ | assumption | apply carried_keeps (sub_of hm rfl) | apply State.updPart_keeps (sub_of hm rfl)
    | apply whenOne_keeps (sub_of hm rfl) | apply State.commitLarder_keeps (sub_of hm rfl) | split

theorem State.write2200_keeps (hm : 0x280 &&& fp = 0x280) (s : State) (sub : Nat) (v : Nat) (h_s : Same fp z₀ s) :
    Same fp z₀ (State.write2200 s sub v).1 := by
  unfold State.write2200
  repeat' with_reducible
    first
    | assumption | apply whenLegal_keeps (sub_of hm rfl) | apply carried_keeps (sub_of hm rfl)
    | apply State.updPart_keeps (sub_of hm rfl) | split | apply Same.set_arith (bit_of hm rfl)

theorem State.releaseHold_keeps (hm : 0x200400 &&& fp = 0x200400) (s : State) (h_s : Same fp z₀ s) :
    Same fp z₀ (State.releaseHold s) := by
  unfold State.releaseHold
  repeat' with_reducible
    first
    | assumption | apply State.inject_keeps (sub_of hm rfl) | apply State.updFabric_keeps (sub_of hm rfl)
    | apply State.pump_keeps (sub_of hm rfl) | apply State.flushMaint_keeps (sub_of hm rfl) | apply kept_foldl

theorem State.write2300_keeps (hm : 0x2CEDCC &&& fp = 0x2CEDCC) (s : State) (sub : Nat) (v : Nat)
    (h_s : Same fp z₀ s) : Same fp z₀ (State.write2300 s sub v).1 := by
  unfold State.write2300
  repeat' with_reducible
    first
    | assumption | apply carried_keeps (sub_of hm rfl) | apply State.updFabric_keeps (sub_of hm rfl)
    | apply State.releaseHold_keeps (sub_of hm rfl) | apply whenOne_keeps (sub_of hm rfl)
    | apply State.commitRoute_keeps (sub_of hm rfl) | apply whenLegal_keeps (sub_of hm rfl) | split

theorem State.write2303_keeps (hm : 0x400 &&& fp = 0x400) (s : State) (sub : Nat) (v : Nat) (h_s : Same fp z₀ s) :
    Same fp z₀ (State.write2303 s sub v).1 := by
  unfold State.write2303
  repeat' with_reducible
    first
    | assumption | apply whenLegal_keeps (sub_of hm rfl) | apply State.updFabric_keeps (sub_of hm rfl)
    | apply carried_keeps (sub_of hm rfl) | split

theorem State.write2403_keeps (hm : 0x80 &&& fp = 0x80) (s : State) (sub : Nat) (bs : List Byte)
    (h_s : Same fp z₀ s) : Same fp z₀ (State.write2403 s sub bs).1 := by
  unfold State.write2403
  repeat' with_reducible
    first
    | assumption | apply whenLegal_keeps (sub_of hm rfl) | apply State.updPart_keeps (sub_of hm rfl) | split

theorem State.write2500_keeps (hm : 0x1000 &&& fp = 0x1000) (s : State) (sub : Nat) (v : Nat) (h_s : Same fp z₀ s) :
    Same fp z₀ (State.write2500 s sub v).1 := by
  unfold State.write2500
  repeat' with_reducible
    first
    | assumption | apply whenLegal_keeps (sub_of hm rfl) | split | apply Same.set_tb (bit_of hm rfl)

theorem State.write2600_keeps (hm : 0x2B80CC &&& fp = 0x2B80CC) (s : State) (sub : Nat) (v : Nat)
    (h_s : Same fp z₀ s) : Same fp z₀ (State.write2600 s sub v).1 := by
  unfold State.write2600
  repeat' with_reducible
    first
    | intro _ | assumption | apply carried_keeps (sub_of hm rfl) | apply State.updPart_keeps (sub_of hm rfl)
    | apply whenOne_keeps (sub_of hm rfl) | apply State.commitLayout_keeps (sub_of hm rfl) | split

theorem State.write2601_keeps (hm : 0x90080 &&& fp = 0x90080) (s : State) (sub : Nat) (v : Nat) (h_s : Same fp z₀ s) :
    Same fp z₀ (State.write2601 s sub v).1 := by
  unfold State.write2601
  repeat' with_reducible
    first
    | intro _ | assumption | apply carried_keeps (sub_of hm rfl) | apply State.updPart_keeps (sub_of hm rfl)
    | apply whenOne_keeps (sub_of hm rfl) | apply State.commitGuarantee_keeps (sub_of hm rfl) | split

theorem State.write2602_keeps (hm : 0x10080 &&& fp = 0x10080) (s : State) (sub : Nat) (bs : List Byte)
    (h_s : Same fp z₀ s) : Same fp z₀ (State.write2602 s sub bs).1 := by
  unfold State.write2602
  repeat' with_reducible
    first
    | intro _ | assumption | apply carried_keeps (sub_of hm rfl) | apply State.updPart_keeps (sub_of hm rfl)
    | apply whenOne_keeps (sub_of hm rfl) | apply State.commitPlacement_keeps (sub_of hm rfl) | split

theorem State.write2603_keeps (hm : 0x80080 &&& fp = 0x80080) (s : State) (sub : Nat) (v : Nat) (h_s : Same fp z₀ s) :
    Same fp z₀ (State.write2603 s sub v).1 := by
  unfold State.write2603
  repeat' with_reducible
    first
    | assumption | apply whenLegal_keeps (sub_of hm rfl) | apply State.afterCapacity_keeps (sub_of hm rfl) | split
    | apply Same.set_tenancy (bit_of hm rfl)

theorem State.write2700_keeps (hm : 0x4000 &&& fp = 0x4000) (s : State) (sub : Nat) (v : Nat) (h_s : Same fp z₀ s) :
    Same fp z₀ (State.write2700 s sub v).1 := by
  unfold State.write2700
  repeat' with_reducible
    first
    | assumption | apply whenLegal_keeps (sub_of hm rfl) | split
    | (refine Same.of (s := ?_) ?_ ?_ ?_ ?_ ?_ ?_ ?_ ?_ ?_ ?_ ?_ ?_ ?_ ?_ ?_ ?_ ?_ ?_ ?_ ?_ ?_ ?_ ?_ ?_ ?_ ?_ ?_ ?_ ?_ <;>
        first | exact Or.inr rfl | exact Or.inl (bit_of hm rfl) | rfl | exact id | exact Or.inr fun _ h => h | skip)

theorem State.write2701_keeps (hm : 0x86080 &&& fp = 0x86080) (s : State) (sub : Nat) (v : Nat) (h_s : Same fp z₀ s) :
    Same fp z₀ (State.write2701 s sub v).1 := by
  unfold State.write2701
  repeat' with_reducible
    first
    | intro _ | assumption | apply carried_keeps (sub_of hm rfl)
    | refine State.updLink_kept (sub_of hm rfl) _ _ _ (fun e => e) ?_
    | refine State.updLink_kept (sub_of hm rfl) _ _ _ (fun e => absurd (show (1 : Byte) = 5 from e) (by decide)) ?_
    | refine State.updLink_kept (sub_of hm rfl) _ _ _ (fun e => absurd (show (0 : Byte) = 5 from e) (by decide)) ?_
    | apply whenOne_keeps (sub_of hm rfl) | apply State.retrain_keeps (sub_of hm rfl) | split

theorem State.write2800_keeps (hm : 0x218080 &&& fp = 0x218080) (s : State) (sub : Nat) (v : Nat)
    (h_s : Same fp z₀ s) : Same fp z₀ (State.write2800 s sub v).1 := by
  unfold State.write2800
  repeat' with_reducible
    first
    | intro _ | assumption | apply carried_keeps (sub_of hm rfl) | apply State.updPart_keeps (sub_of hm rfl)
    | apply whenLegal_keeps (sub_of hm rfl) | apply whenOne_keeps (sub_of hm rfl)
    | apply State.commitAperture_keeps (sub_of hm rfl) | split | apply Same.set_host (bit_of hm rfl)

theorem State.writeValue_keeps (hm : 0x2FFFDC &&& fp = 0x2FFFDC) (s : State) (path : Path) (index : Nat) (sub : Nat)
    (bs : List Byte) (h_s : Same fp z₀ s) : Same fp z₀ (State.writeValue s path index sub bs).1 := by
  unfold State.writeValue
  repeat' with_reducible
    first
    | intro _ | assumption | apply carried_keeps (sub_of hm rfl) | apply State.updMgmt_keeps (sub_of hm rfl)
    | apply State.write1100_keeps (sub_of hm rfl) | apply State.write1200_keeps (sub_of hm rfl)
    | apply State.attestNonce_keeps (sub_of hm rfl) | apply State.write1202_keeps (sub_of hm rfl)
    | apply whenLegal_keeps (sub_of hm rfl) | apply State.setLimit_keeps (sub_of hm rfl)
    | apply State.write2101_keeps (sub_of hm rfl) | apply State.write2102_keeps (sub_of hm rfl)
    | apply State.write2200_keeps (sub_of hm rfl) | apply State.write2300_keeps (sub_of hm rfl)
    | apply whenOne_keeps (sub_of hm rfl) | apply State.updCtr_keeps (sub_of hm rfl)
    | apply State.write2303_keeps (sub_of hm rfl) | apply State.write2403_keeps (sub_of hm rfl)
    | apply State.write2500_keeps (sub_of hm rfl) | apply State.write2600_keeps (sub_of hm rfl)
    | apply State.write2601_keeps (sub_of hm rfl) | apply State.write2602_keeps (sub_of hm rfl)
    | apply State.write2603_keeps (sub_of hm rfl) | apply State.write2700_keeps (sub_of hm rfl)
    | apply State.write2701_keeps (sub_of hm rfl) | apply State.write2800_keeps (sub_of hm rfl)
    | apply State.updPart_keeps (sub_of hm rfl) | split | apply Same.set_memStat (bit_of hm rfl)
    | apply Same.set_coll (bit_of hm rfl) | apply Same.set_tb (bit_of hm rfl)

theorem State.readEntry_keeps (hm : 0x10000 &&& fp = 0x10000) (s : State) (path : Path) (r : AReq) (e : EntryRow)
    (h_s : Same fp z₀ s) : Same fp z₀ (State.readEntry s path r e).1 := by
  unfold State.readEntry
  repeat' with_reducible
    first
    | assumption | apply State.updMgmt_keeps (sub_of hm rfl) | dsimp only | split
    | (refine Same.of (s := ?_) ?_ ?_ ?_ ?_ ?_ ?_ ?_ ?_ ?_ ?_ ?_ ?_ ?_ ?_ ?_ ?_ ?_ ?_ ?_ ?_ ?_ ?_ ?_ ?_ ?_ ?_ ?_ ?_ ?_ <;>
        first | exact Or.inr rfl | exact Or.inl (bit_of hm rfl) | rfl | exact id | exact Or.inr fun _ h => h | skip)

theorem State.writeWhole_keeps (hm : 0x2FFFDC &&& fp = 0x2FFFDC) (s : State) (path : Path) (r : AReq) (e : EntryRow)
    (bs : List Byte) (h_s : Same fp z₀ s) : Same fp z₀ (State.writeWhole s path r e bs).1 := by
  unfold State.writeWhole
  repeat' with_reducible (first | assumption | apply State.writeValue_keeps (sub_of hm rfl) | dsimp only | split)

theorem State.writeSegment_keeps (hm : 0x2FFFDC &&& fp = 0x2FFFDC) (s : State) (path : Path) (r : AReq)
    (e : EntryRow) (h_s : Same fp z₀ s) : Same fp z₀ (State.writeSegment s path r e).1 := by
  unfold State.writeSegment
  repeat' with_reducible
    first
    | assumption | apply State.updMgmt_keeps (sub_of hm rfl) | apply carried_keeps (sub_of hm rfl)
    | apply State.writeWhole_keeps (sub_of hm rfl) | dsimp only | split

theorem State.writeEntry_keeps (hm : 0x2FFFDC &&& fp = 0x2FFFDC) (s : State) (path : Path) (r : AReq) (e : EntryRow)
    (h_s : Same fp z₀ s) : Same fp z₀ (State.writeEntry s path r e).1 := by
  unfold State.writeEntry
  repeat' with_reducible
    first
    | assumption | apply State.storeWrite_keeps (sub_of hm rfl) | apply State.writeSegment_keeps (sub_of hm rfl)
    | apply State.writeWhole_keeps (sub_of hm rfl) | dsimp only | split

theorem State.abortEntry_keeps (hm : 0x10000 &&& fp = 0x10000) (s : State) (path : Path) (r : AReq)
    (h_s : Same fp z₀ s) : Same fp z₀ (State.abortEntry s path r) := by
  unfold State.abortEntry
  repeat' with_reducible (first | assumption | apply State.updMgmt_keeps (sub_of hm rfl))

theorem State.serve_keeps (hm : 0x2FFFDC &&& fp = 0x2FFFDC) (s : State) (path : Path) (op : Nat) (r : AReq)
    (h_s : Same fp z₀ s) : Same fp z₀ (State.serve s path op r).1 := by
  unfold State.serve
  repeat' with_reducible
    first
    | assumption | apply State.readEntry_keeps (sub_of hm rfl) | apply State.writeEntry_keeps (sub_of hm rfl)
    | apply State.abortEntry_keeps (sub_of hm rfl) | dsimp only | split

theorem State.carryOut_keeps (hm : 0x2FFFDC &&& fp = 0x2FFFDC) (s : State) (path : Path) (op : Nat) (r : AReq)
    (h_s : Same fp z₀ s) : Same fp z₀ (State.carryOut s path op r) := by
  unfold State.carryOut
  repeat' with_reducible
    first
    | assumption | apply State.serve_keeps (sub_of hm rfl) | apply State.updMgmt_keeps (sub_of hm rfl)
    | apply State.deliverAnswer_keeps (sub_of hm rfl) | dsimp only | split

theorem State.fromFrame_keeps (hm : 0x10000 &&& fp = 0x10000) (s : State) (f : Frame) (h : State → State)
    (h_s : Same fp z₀ s) (h_h : ∀ y0, Same fp z₀ y0 → Same fp z₀ ((h y0))) :
    Same fp z₀ (State.fromFrame s f h) := by
  unfold State.fromFrame
  repeat' with_reducible
    first
    | assumption | apply h_h | apply State.updMgmt_keeps (sub_of hm rfl) | dsimp only | split

theorem State.serveNet_keeps (hm : 0x2FFFDC &&& fp = 0x2FFFDC) (s : State) (d : Dgram) (op : Nat) (r : AReq)
    (h_s : Same fp z₀ s) : Same fp z₀ (State.serveNet s d op r) := by
  unfold State.serveNet
  repeat' with_reducible
    first
    | assumption | apply State.updMgmt_keeps (sub_of hm rfl) | apply State.sendFrame_keeps (sub_of hm rfl)
    | apply State.carryOut_keeps (sub_of hm rfl) | dsimp only | split

theorem State.enqueue_keeps (hm : 0x10000 &&& fp = 0x10000) (s : State) (path : Path) (op : Nat) (r : AReq)
    (h_s : Same fp z₀ s) : Same fp z₀ (State.enqueue s path op r) := by
  unfold State.enqueue
  repeat' with_reducible (first | assumption | apply State.updMgmt_keeps (sub_of hm rfl))

theorem State.takeRequest_keeps (hm : 0x2FFFDC &&& fp = 0x2FFFDC) (s : State) (d : Dgram) (op : Nat) (r : AReq)
    (short : Bool) (h_s : Same fp z₀ s) : Same fp z₀ (State.takeRequest s d op r short) := by
  unfold State.takeRequest
  repeat' with_reducible
    first
    | assumption | apply State.updMgmt_keeps (sub_of hm rfl) | apply State.enqueue_keeps (sub_of hm rfl)
    | apply State.serveNet_keeps (sub_of hm rfl) | split

theorem State.fromNetwork_keeps (hm : 0x2FFFDC &&& fp = 0x2FFFDC) (s : State) (d : Dgram) (op : Nat) (r : AReq)
    (short : Bool) (h_s : Same fp z₀ s) : Same fp z₀ (State.fromNetwork s d op r short) := by
  unfold State.fromNetwork
  repeat' with_reducible
    first
    | intro _ | assumption | apply State.fromFrame_keeps (sub_of hm rfl)
    | apply State.takeRequest_keeps (sub_of hm rfl) | split

theorem State.fromMailbox_keeps (hm : 0x2FFFDC &&& fp = 0x2FFFDC) (s : State) (k : Fin 2) (op : Nat) (r : AReq)
    (h_s : Same fp z₀ s) : Same fp z₀ (State.fromMailbox s k op r) := by
  unfold State.fromMailbox
  repeat' with_reducible
    first
    | assumption | apply State.updHport_keeps (sub_of hm rfl) | apply State.enqueue_keeps (sub_of hm rfl)
    | apply State.carryOut_keeps (sub_of hm rfl) | dsimp only | split

theorem State.request_keeps (hm : 0x2FFFDC &&& fp = 0x2FFFDC) (s : State) (path : Path) (op : Nat) (r : AReq)
    (form : ReqForm) (h_s : Same fp z₀ s) : Same fp z₀ (State.request s path op r form) := by
  unfold State.request
  repeat' with_reducible
    first
    | assumption | apply State.fromNetwork_keeps (sub_of hm rfl) | apply State.fromMailbox_keeps (sub_of hm rfl)
    | split

theorem execAsrelRead_keeps (hm : 0x2FFFDC &&& fp = 0x2FFFDC) (path : Path) (r : AReq) (s : State) (form : ReqForm)
    (h_s : Same fp z₀ s) : ∀ t, execAsrelRead path r s form = .next t → Same fp z₀ t := by
  intro t ht
  unfold execAsrelRead at ht
  obtain rfl := Host.Outcome.next.inj ht
  repeat' with_reducible (first | assumption | apply State.request_keeps (sub_of hm rfl))

theorem execAsrelWrite_keeps (hm : 0x2FFFDC &&& fp = 0x2FFFDC) (path : Path) (r : AReq) (s : State) (form : ReqForm)
    (h_s : Same fp z₀ s) : ∀ t, execAsrelWrite path r s form = .next t → Same fp z₀ t := by
  intro t ht
  unfold execAsrelWrite at ht
  obtain rfl := Host.Outcome.next.inj ht
  repeat' with_reducible (first | assumption | apply State.request_keeps (sub_of hm rfl))

theorem execDescribe_keeps (hm : 0x2FFFDC &&& fp = 0x2FFFDC) (path : Path) (r : AReq) (s : State) (form : ReqForm)
    (h_s : Same fp z₀ s) : ∀ t, execDescribe path r s form = .next t → Same fp z₀ t := by
  intro t ht
  unfold execDescribe at ht
  obtain rfl := Host.Outcome.next.inj ht
  repeat' with_reducible (first | assumption | apply State.request_keeps (sub_of hm rfl))

theorem execAsrelAbort_keeps (hm : 0x2FFFDC &&& fp = 0x2FFFDC) (path : Path) (r : AReq) (s : State) (form : ReqForm)
    (h_s : Same fp z₀ s) : ∀ t, execAsrelAbort path r s form = .next t → Same fp z₀ t := by
  intro t ht
  unfold execAsrelAbort at ht
  obtain rfl := Host.Outcome.next.inj ht
  repeat' with_reducible (first | assumption | apply State.request_keeps (sub_of hm rfl))

theorem State.serveQueue_keeps (hm : 0x2FFFDC &&& fp = 0x2FFFDC) (s : State) (h_s : Same fp z₀ s) :
    Same fp z₀ (State.serveQueue s) := by
  unfold State.serveQueue
  repeat' with_reducible
    first
    | intro _ | assumption | apply State.serveNet_keeps (sub_of hm rfl) | apply State.carryOut_keeps (sub_of hm rfl)
    | apply State.updMgmt_keeps (sub_of hm rfl) | apply kept_foldl | split

theorem execHandover_keeps (hm : 0x2FFFDD &&& fp = 0x2FFFDD) (ok : Bool) (s : State) (begins : Bool)
    (h_s : Same fp z₀ s) : ∀ t, execHandover ok s begins = .next t → Same fp z₀ t := by
  intro t ht
  unfold execHandover at ht
  obtain rfl := Host.Outcome.next.inj ht
  repeat' with_reducible
    first
    | assumption | apply State.beginHandover_keeps (sub_of hm rfl) | apply State.serveQueue_keeps (sub_of hm rfl)
    | apply State.handover_keeps (sub_of hm rfl) | split

theorem execZeroingComplete_keeps (hm : 0x298084 &&& fp = 0x298084) (part : Fin 16) (s : State) (h_s : Same fp z₀ s) :
    ∀ t, execZeroingComplete part s = .next t → Same fp z₀ t := by
  intro t ht
  unfold execZeroingComplete at ht
  obtain rfl := Host.Outcome.next.inj ht
  repeat' with_reducible
    first
    | assumption | apply State.answerWaiting_keeps (sub_of hm rfl) | apply State.zeroingDone_keeps (sub_of hm rfl)
    | split

theorem execSnapshotExpiry_keeps (hm : 0x10000 &&& fp = 0x10000) (n : Fin 4) (s : State) (h_s : Same fp z₀ s) :
    ∀ t, execSnapshotExpiry n s = .next t → Same fp z₀ t := by
  intro t ht
  unfold execSnapshotExpiry at ht
  obtain rfl := Host.Outcome.next.inj ht
  repeat' with_reducible (first | assumption | apply State.updMgmt_keeps (sub_of hm rfl))

theorem execSessionExpiry_keeps (hm : 0x10000 &&& fp = 0x10000) (n : Fin 4) (s : State) (h_s : Same fp z₀ s) :
    ∀ t, execSessionExpiry n s = .next t → Same fp z₀ t := by
  intro t ht
  unfold execSessionExpiry at ht
  obtain rfl := Host.Outcome.next.inj ht
  repeat' with_reducible (first | assumption | apply State.updMgmt_keeps (sub_of hm rfl))

theorem State.submit_keeps (hm : 0x2FFFDC &&& fp = 0x2FFFDC) (s : State) (k : Fin 2) (v : Word) (h_s : Same fp z₀ s) :
    Same fp z₀ (State.submit s k v) := by
  unfold State.submit
  repeat' with_reducible
    first
    | assumption | apply State.updHport_keeps (sub_of hm rfl) | apply State.fromMailbox_keeps (sub_of hm rfl)
    | dsimp only | split

theorem execMbSubmit_keeps (hm : 0x2FFFDC &&& fp = 0x2FFFDC) (port : Fin 2) (value : Word) (s : State)
    (h_s : Same fp z₀ s) : ∀ t, execMbSubmit port value s = .next t → Same fp z₀ t := by
  intro t ht
  unfold execMbSubmit at ht
  obtain rfl := Host.Outcome.next.inj ht
  repeat' with_reducible (first | assumption | apply State.submit_keeps (sub_of hm rfl))

theorem State.clearReady_keeps (hm : 0x8000 &&& fp = 0x8000) (s : State) (k : Nat) (h_s : Same fp z₀ s) :
    Same fp z₀ (State.clearReady s k) := by
  unfold State.clearReady
  repeat' with_reducible (first | assumption | apply State.updHport_keeps (sub_of hm rfl))

theorem execMbClearReady_keeps (hm : 0x8000 &&& fp = 0x8000) (port : Fin 2) (s : State) (h_s : Same fp z₀ s) :
    ∀ t, execMbClearReady port s = .next t → Same fp z₀ t := by
  intro t ht
  unfold execMbClearReady at ht
  obtain rfl := Host.Outcome.next.inj ht
  repeat' with_reducible (first | assumption | apply State.clearReady_keeps (sub_of hm rfl))

theorem State.clearRefused_keeps (hm : 0x8000 &&& fp = 0x8000) (s : State) (k : Nat) (h_s : Same fp z₀ s) :
    Same fp z₀ (State.clearRefused s k) := by
  unfold State.clearRefused
  repeat' with_reducible (first | assumption | apply State.updHport_keeps (sub_of hm rfl))

theorem execMbClearRefused_keeps (hm : 0x8000 &&& fp = 0x8000) (port : Fin 2) (s : State) (h_s : Same fp z₀ s) :
    ∀ t, execMbClearRefused port s = .next t → Same fp z₀ t := by
  intro t ht
  unfold execMbClearRefused at ht
  obtain rfl := Host.Outcome.next.inj ht
  repeat' with_reducible (first | assumption | apply State.clearRefused_keeps (sub_of hm rfl))

theorem State.duplicate_keeps (hm : 0x10000 &&& fp = 0x10000) (s : State) (h_s : Same fp z₀ s) :
    Same fp z₀ (State.duplicate s) := by
  unfold State.duplicate
  repeat' with_reducible (first | assumption | apply State.updMgmt_keeps (sub_of hm rfl))

theorem execNeighborSolicitation_keeps (hm : 0x210000 &&& fp = 0x210000) (f : Frame) (target : List Byte)
    (s : State) (h_s : Same fp z₀ s) : ∀ t, execNeighborSolicitation f target s = .next t → Same fp z₀ t := by
  intro t ht
  unfold execNeighborSolicitation at ht
  obtain rfl := Host.Outcome.next.inj ht
  repeat' with_reducible
    first
    | intro _ | assumption | apply State.fromFrame_keeps (sub_of hm rfl)
    | apply State.duplicate_keeps (sub_of hm rfl) | apply State.sendNet_keeps (sub_of hm rfl) | split

theorem execNeighborAdvertisement_keeps (hm : 0x10000 &&& fp = 0x10000) (a : Advert) (s : State)
    (h_s : Same fp z₀ s) : ∀ t, execNeighborAdvertisement a s = .next t → Same fp z₀ t := by
  intro t ht
  unfold execNeighborAdvertisement at ht
  obtain rfl := Host.Outcome.next.inj ht
  repeat' with_reducible
    first
    | intro _ | assumption | apply State.fromFrame_keeps (sub_of hm rfl)
    | apply State.duplicate_keeps (sub_of hm rfl) | split

theorem execIcmpEchoRequest_keeps (hm : 0x210000 &&& fp = 0x210000) (f : Frame) (ident : Word) (data : List Byte)
    (s : State) (h_s : Same fp z₀ s) : ∀ t, execIcmpEchoRequest f ident data s = .next t → Same fp z₀ t := by
  intro t ht
  unfold execIcmpEchoRequest at ht
  obtain rfl := Host.Outcome.next.inj ht
  repeat' with_reducible
    first
    | intro _ | assumption | apply State.fromFrame_keeps (sub_of hm rfl) | apply State.sendNet_keeps (sub_of hm rfl)

theorem execDadTimeout_keeps (hm : 0x10000 &&& fp = 0x10000) (s : State) (h_s : Same fp z₀ s) :
    ∀ t, execDadTimeout s = .next t → Same fp z₀ t := by
  intro t ht
  unfold execDadTimeout at ht
  obtain rfl := Host.Outcome.next.inj ht
  repeat' with_reducible (first | assumption | apply State.updMgmt_keeps (sub_of hm rfl) | split)


/-! ### Machine/Registers.lean -/

theorem State.writeDescStage_keeps (hm : 0x40 &&& fp = 0x40) (s : State) (c : Nat) (i : Nat) (v : Word)
    (h_s : Same fp z₀ s) : Same fp z₀ (State.writeDescStage s c i v) := by
  unfold State.writeDescStage
  repeat' with_reducible (first | assumption | apply State.updCore_keeps (sub_of hm rfl))

theorem State.writeCpl_keeps (hm : 0x40 &&& fp = 0x40) (s : State) (c : Nat) (f : Cpl → Cpl) (h_s : Same fp z₀ s) :
    Same fp z₀ (State.writeCpl s c f) := by
  unfold State.writeCpl
  repeat' with_reducible (first | assumption | apply State.updCore_keeps (sub_of hm rfl))

theorem State.writeQueueCtrl_keeps (hm : 0x40 &&& fp = 0x40) (s : State) (c : Nat) (v : Word) (h_s : Same fp z₀ s) :
    Same fp z₀ (State.writeQueueCtrl s c v) := by
  unfold State.writeQueueCtrl
  repeat' with_reducible
    first
    | assumption | apply State.queueFlush_keeps (sub_of hm rfl) | apply State.queueClearSticky_keeps (sub_of hm rfl)
    | apply State.queueResume_keeps (sub_of hm rfl) | split

theorem State.coreWrite_keeps (hm : 0x84C0 &&& fp = 0x84C0) (s : State) (c : Nat) (o : Nat) (v : Word)
    (h_s : Same fp z₀ s) : Same fp z₀ (State.coreWrite s c o v) := by
  unfold State.coreWrite
  repeat' with_reducible
    first
    | assumption | apply State.updCore_keeps (sub_of hm rfl) | apply State.startWrite_keeps (sub_of hm rfl)
    | apply State.writeQueueCtrl_keeps (sub_of hm rfl) | apply State.writeCpl_keeps (sub_of hm rfl)
    | apply State.cplCommit_keeps (sub_of hm rfl) | apply State.writeDescStage_keeps (sub_of hm rfl)
    | apply State.descCommit_keeps (sub_of hm rfl) | apply State.descRead_keeps (sub_of hm rfl)
    | apply State.tallyValueWrite_keeps (sub_of hm rfl) | apply State.tallyAddWrite_keeps (sub_of hm rfl)
    | apply kept_ite

theorem State.patWrite_keeps (hm : 0x2489C4 &&& fp = 0x2489C4) (s : State) (p : Nat) (o : Nat) (v : Word)
    (h_s : Same fp z₀ s) : Same fp z₀ (State.patWrite s p o v) := by
  unfold State.patWrite
  repeat' with_reducible
    first
    | assumption | apply State.patCommit_keeps (sub_of hm rfl) | apply State.startCommit_keeps (sub_of hm rfl)
    | apply State.manCommit_keeps (sub_of hm rfl) | apply State.updPart_keeps (sub_of hm rfl) | split

theorem State.partWrite_keeps (hm : 0x248DCC &&& fp = 0x248DCC) (s : State) (p : Nat) (o : Nat) (v : Word)
    (h_s : Same fp z₀ s) : Same fp z₀ (State.partWrite s p o v) := by
  unfold State.partWrite
  repeat' with_reducible
    first
    | assumption | apply State.partCtrl_keeps (sub_of hm rfl) | apply State.updPart_keeps (sub_of hm rfl) | split

theorem State.queueWrite_keeps (hm : 0x8000 &&& fp = 0x8000) (s : State) (k : Nat) (q : Nat) (o : Nat) (v : Word)
    (h_s : Same fp z₀ s) : Same fp z₀ (State.queueWrite s k q o v) := by
  unfold State.queueWrite
  repeat' with_reducible
    first
    | assumption | apply State.commitQueue_keeps (sub_of hm rfl) | apply State.flushQueue_keeps (sub_of hm rfl)
    | apply State.updQueue_keeps (sub_of hm rfl) | split

theorem State.yepecyWrite_keeps (hm : 0x2FFFDC &&& fp = 0x2FFFDC) (s : State) (k : Fin 2) (o : Nat) (v : Word)
    (h_s : Same fp z₀ s) : Same fp z₀ (State.yepecyWrite s k o v) := by
  unfold State.yepecyWrite
  repeat' with_reducible
    first
    | assumption | apply State.ring_keeps (sub_of hm rfl) | apply State.bindDoorbell_keeps (sub_of hm rfl)
    | apply State.queueWrite_keeps (sub_of hm rfl) | apply State.updHport_keeps (sub_of hm rfl)
    | apply State.submit_keeps (sub_of hm rfl) | apply State.clearReady_keeps (sub_of hm rfl)
    | apply State.clearRefused_keeps (sub_of hm rfl) | split

theorem State.countRefusal_keeps (hm : 0x80000 &&& fp = 0x80000) (s : State) (h_s : Same fp z₀ s) :
    Same fp z₀ (State.countRefusal s) := by
  unfold State.countRefusal
  repeat' with_reducible (first | assumption | apply Same.set_tenancy (bit_of hm rfl))

theorem State.regRead_keeps (hm : 0x80000 &&& fp = 0x80000) (s : State) (k : Nat) (off : Nat) (h_s : Same fp z₀ s) :
    Same fp z₀ (State.regRead s k off).1 := by
  unfold State.regRead
  repeat' with_reducible (first | assumption | apply State.countRefusal_keeps (sub_of hm rfl) | split)

theorem State.regWrite_keeps (hm : 0x2FFFDC &&& fp = 0x2FFFDC) (s : State) (k : Fin 2) (off : Nat) (v : Word)
    (h_s : Same fp z₀ s) : Same fp z₀ (State.regWrite s k off v) := by
  unfold State.regWrite
  repeat' with_reducible
    first
    | assumption | apply State.countRefusal_keeps (sub_of hm rfl) | apply State.coreWrite_keeps (sub_of hm rfl)
    | apply State.patWrite_keeps (sub_of hm rfl) | apply State.partWrite_keeps (sub_of hm rfl)
    | apply State.yepecyWrite_keeps (sub_of hm rfl) | split

theorem execRegisterWrite_keeps (hm : 0x2FFFDC &&& fp = 0x2FFFDC) (port : Fin 2) (offset : BitVec 27) (value : Word)
    (s : State) (h_s : Same fp z₀ s) : ∀ t, execRegisterWrite port offset value s = .next t → Same fp z₀ t := by
  intro t ht
  unfold execRegisterWrite at ht
  obtain rfl := Host.Outcome.next.inj ht
  repeat' with_reducible
    first
    | assumption | apply State.refuseHost_keeps (sub_of hm rfl) | apply State.regWrite_keeps (sub_of hm rfl) | split

theorem State.onRd_keeps (hm : 0x28C008 &&& fp = 0x28C008) (s : State) (k : Nat) (p : HPkt) (ecc : Ecc)
    (h_s : Same fp z₀ s) : Same fp z₀ (State.onRd s k p ecc) := by
  unfold State.onRd
  repeat' with_reducible
    first
    | assumption | apply State.hostRead_keeps (sub_of hm rfl) | apply State.regRead_keeps (sub_of hm rfl)
    | apply State.respond_keeps (sub_of hm rfl) | apply State.refuseRead_keeps (sub_of hm rfl) | split

theorem execRd_keeps (hm : 0x2DCDCC &&& fp = 0x2DCDCC) (port : Fin 2) (p : HPkt) (ecc : Ecc) (s : State)
    (h_s : Same fp z₀ s) : ∀ t, execRd port p ecc s = .next t → Same fp z₀ t := by
  intro t ht
  unfold execRd at ht
  obtain rfl := guarded_next ht
  repeat' with_reducible
    first
    | intro _ | assumption | apply guarded_keeps (sub_of hm rfl) | apply State.hostArrival_keeps (sub_of hm rfl)
    | apply State.onRd_keeps (sub_of hm rfl)

theorem State.onWr_keeps (hm : 0x2FFFDC &&& fp = 0x2FFFDC) (s : State) (k : Fin 2) (p : HPkt) (ecc : Ecc)
    (h_s : Same fp z₀ s) : Same fp z₀ (State.onWr s k p ecc) := by
  unfold State.onWr
  repeat' with_reducible
    first
    | assumption | apply State.hostWrite_keeps (sub_of hm rfl) | apply State.regWrite_keeps (sub_of hm rfl)
    | apply State.refuseHost_keeps (sub_of hm rfl) | split

theorem execWr_keeps (hm : 0x2FFFDC &&& fp = 0x2FFFDC) (port : Fin 2) (p : HPkt) (s : State) (ecc : Ecc)
    (h_s : Same fp z₀ s) : ∀ t, execWr port p s ecc = .next t → Same fp z₀ t := by
  intro t ht
  unfold execWr at ht
  obtain rfl := guarded_next ht
  repeat' with_reducible
    first
    | intro _ | assumption | apply guarded_keeps (sub_of hm rfl) | apply State.hostArrival_keeps (sub_of hm rfl)
    | apply State.onWr_keeps (sub_of hm rfl)


/-! ### Machine/Maint.lean -/

theorem State.maintEcho_keeps (hm : 0x200400 &&& fp = 0x200400) (s : State) (k : Nat) (h_s : Same fp z₀ s) :
    Same fp z₀ (State.maintEcho s k) := by
  unfold State.maintEcho
  repeat' with_reducible
    first
    | assumption | apply State.freeWord_keeps (sub_of hm rfl) | apply State.answerEcho_keeps (sub_of hm rfl) | split

theorem State.maintReply_keeps (hm : 0x687480 &&& fp = 0x687480) (s : State) (k : Nat) (f : List Byte)
    (h_s : Same fp z₀ s) : Same fp z₀ (State.maintReply s k f) := by
  unfold State.maintReply
  repeat' with_reducible
    first
    | assumption | apply State.freeWord_keeps (sub_of hm rfl) | apply State.onEcho_keeps (sub_of hm rfl) | split

theorem State.maintDist_keeps (hm : 0x0 &&& fp = 0x0) (s : State) (k : Nat) (h : State → State) (h_s : Same fp z₀ s)
    (h_h : ∀ y0, Same fp z₀ y0 → Same fp z₀ ((h y0))) : Same fp z₀ (State.maintDist s k h) := by
  unfold State.maintDist
  repeat' with_reducible (first | assumption | apply h_h | split)

theorem State.onMaintFrame_keeps (hm : 0x6EFDCC &&& fp = 0x6EFDCC) (s : State) (k : Nat) (f : List Byte)
    (h_s : Same fp z₀ s) : Same fp z₀ (State.onMaintFrame s k f) := by
  unfold State.onMaintFrame
  repeat' with_reducible
    first
    | intro _ | assumption | apply State.onIdentity_keeps (sub_of hm rfl)
    | apply State.maintEcho_keeps (sub_of hm rfl) | apply State.maintReply_keeps (sub_of hm rfl)
    | apply State.maintDist_keeps (sub_of hm rfl) | apply State.onOffer_keeps (sub_of hm rfl)
    | apply State.onNeed_keeps (sub_of hm rfl) | apply State.onPart_keeps (sub_of hm rfl)
    | apply State.onAbort_keeps (sub_of hm rfl) | apply State.discardPkt_keeps (sub_of hm rfl) | split

theorem State.onMaint_keeps (hm : 0x6EFDCC &&& fp = 0x6EFDCC) (s : State) (k : Nat) (p : Pkt) (h_s : Same fp z₀ s) :
    Same fp z₀ (State.onMaint s k p) := by
  unfold State.onMaint
  repeat' with_reducible
    first
    | assumption | apply State.countRx_keeps (sub_of hm rfl) | apply State.discardPkt_keeps (sub_of hm rfl)
    | apply State.onMaintFrame_keeps (sub_of hm rfl) | apply State.sample_keeps (sub_of hm rfl)
    | apply State.updFabric_keeps (sub_of hm rfl) | dsimp only | split

theorem execMaint_keeps (hm : 0x6EFDCC &&& fp = 0x6EFDCC) (port : Fin 6) (p : Pkt) (s : State) (h_s : Same fp z₀ s) :
    ∀ t, execMaint port p s = .next t → Same fp z₀ t := by
  intro t ht
  unfold execMaint at ht
  obtain rfl := guarded_next ht
  repeat' with_reducible
    first
    | assumption | apply guarded_keeps (sub_of hm rfl) | apply State.onMaint_keeps (sub_of hm rfl)

end Sys2Proof.Machine
end

