-- ==== Sys2Proof/Laws/FrameExec.lean ====
section
/-! SUPPORT. Laws/FrameExec.lean: the parts of the state each command may reach, and that it reaches no other (see
Laws/Frame.lean). -/

namespace Sys2Proof

/-- The parts of the state a command may reach, by the bits of Same. -/
def Instr.footprint : Instr → Nat
  | .reset .. | .powerLoss .. | .overvoltage => 0xFFFFC
  | .railBringUp => 0x6030
  | .hbmTraining => 0x18
  | .moduleReady => 0x20015
  | .inputRise | .inputSettled | .thermalWarning .. | .historyRecord .. | .inputFallsBelow54v => 0x10
  | .powerInputFault | .powerLimitExceeded .. | .vector .. | .layernormFwd .. | .rmsnormFwd ..
  | .softmaxFwd .. | .layernormBwd .. | .rmsnormBwd .. | .softmaxBwd .. | .copy .. | .larderPush ..
  | .larderRead .. => 0x24CDDC
  | .thermalTrip .. => 0x2DEDDC
  | .domainLockLoss .. => 0x2DEDEC
  | .parityError .. | .routeCommit | .identity .. | .codewordUncorrectable .. | .lightLoss .. => 0x2CEDCC
  | .stitchBoundary .. => 0x24FDDC
  | .drainEnd .. | .waitCycle .. => 0x248DCC
  | .drainTimeout .. | .spanEndShort .. | .quarantineScan .. | .collectiveDeadline .. | .commandComplete ..
  | .write .. | .read .. | .readData .. | .ack .. | .nack .. | .openTimeout .. | .transferTimeout ..
  | .packetRoute .. | .escape .. | .schedMove .. | .collective .. => 0x24CDCC
  | .atticHoldEnd .. | .windowCommit .. | .larderCommit .. | .statsClear .. => 0x80
  | .patternStart .. => 0x24DDCC
  | .stitchMarker .. => 0x2CFDCC
  | .timebaseLock | .holdover => 0x1000
  | .start .. | .queueResume .. | .queueFlush .. | .queueClearSticky .. | .descCommit .. | .descRead ..
  | .cplCommit .. => 0x80040
  | .streamEnqueue .. | .gate .. | .gateOpen .. | .segment .. | .body .. | .endStep .. => 0x208040
  | .issueChecks .. | .fnTableCheck .. => 0x208CCC
  | .matmul .. | .larderRelease .. | .wait .. | .fence .. | .tallyAdd .. | .tallySet .. | .publish ..
  | .rsSum .. | .rsSumCont .. | .rsMean .. | .rsMeanCont .. | .arSum .. | .arSumCont .. | .arMean ..
  | .arMeanCont .. | .allGather .. | .scalarSum .. | .scalarMax .. | .normReduce .. => 0x248CDC
  | .tileStart .. => 0x20804C
  | .accumulatorDrain .. => 0x24804C
  | .descCopyDone .. => 0xC0
  | .tallyValueWrite .. | .tallyAddRegister .. => 0x884C0
  | .registerWrite .. | .wr .. | .asrelRead .. | .asrelWrite .. | .describe .. | .asrelAbort ..
  | .mbSubmit .. => 0x2FFFDC
  | .cellarScrub .. => 0x20C008
  | .cellarLineSpare .. | .hbmRowRepair .. => 0x8
  | .spareCoreSubstitution .. => 0x28C0CE
  | .unitSpareSubstitution .. => 0x4800
  | .zeroingComplete .. => 0x298084
  | .patCommit .. => 0x2C89C4
  | .patternLoadDone .. => 0x208080
  | .startCommit .. => 0x80080
  | .manCommit .. => 0x288080
  | .partStart .. | .partStop .. | .partDrain .. => 0x2C8DCC
  | .layoutCommit .. => 0x2B80CC
  | .guaranteeCommit .. => 0x90080
  | .placementCommit .. => 0x10080
  | .ledgerClear .. => 0x800
  | .routeHold | .peakClear .. | .openRetry .. | .receiveContextExpiry .. | .skeinIdleClose .. => 0x400
  | .tally .. | .doorbell .. => 0x84C0
  | .fabOpen .. | .fabClose .. | .grant .. => 0x480
  | .maint .. => 0x6EFDCC
  | .portLight .. => 0x8E080
  | .training .. => 0x28E480
  | .stageTimeout .. | .retrain .. => 0x86080
  | .identitySend .. | .echoRequest .. | .offerSend | .needProgressTimeout => 0x200400
  | .echoReply .. => 0x687480
  | .extest => 0x3CEDCC
  | .idcode | .bypass | .testLogicReset => 0x100000
  | .samplePreload .. => 0x104000
  | .hello .. | .rdShared .. | .rdOwn .. | .wb .. | .ylFence .. | .hAck .. | .hResp .. | .recallTimeout ..
  | .hostTimeout .. | .hostLinkFault .. => 0x25CDCC
  | .helloSend .. => 0x200000
  | .rd .. => 0x2DCDCC
  | .recall .. | .interrupt .. | .coalesceExpiry .. | .hqIdleTimeout .. => 0x208000
  | .dbBind .. => 0x88000
  | .hqCommit .. | .hqFlush .. | .mbClearReady .. | .mbClearRefused .. => 0x8000
  | .apertureCommit .. => 0x218080
  | .snapshotExpiry .. | .sessionExpiry .. | .neighborAdvertisement .. | .dadTimeout => 0x10000
  | .netCommit .. | .neighborSolicitation .. | .icmpEchoRequest .. => 0x210000
  | .activateLive | .erase .. | .imageStoreWrite .. | .reconstruct | .upstreamSilence => 0x20000
  | .activateAtReset => 0x20010
  | .handover .. => 0x2FFFDD
  | .offer .. | .need .. | .part .. => 0x220400
  | .abort .. => 0x20400
  | .attestNonce .. | .attestReportDone .. => 0x20080
  | .thermalHoldEnd .. => 0xE010

namespace Machine

theorem Same.reach {f m : Nat} {s t : State} (e : m = f) (h : Same f s t) : Same m s t := e ▸ h

/-- A command changes no part of the state outside its footprint. -/
theorem exec_same (c : Instr) (s t : State) (h : exec c s = .next t) : Same c.footprint s t :=
  match c, h with
  | .reset lowNs modid segpos recoveryN torn, h => .reach (f := 0xFFFFC) rfl
      (execReset_keeps rfl lowNs modid segpos recoveryN s torn (Same.refl s) t h)
  | .railBringUp, h => .reach (f := 0x6030) rfl
      (execRailBringUp_keeps rfl s (Same.refl s) t h)
  | .hbmTraining, h => .reach (f := 0x18) rfl
      (execHbmTraining_keeps rfl s (Same.refl s) t h)
  | .moduleReady, h => .reach (f := 0x20015) rfl
      (execModuleReady_keeps rfl s (Same.refl s) t h)
  | .inputRise, h => .reach (f := 0x10) rfl
      (execInputRise_keeps rfl s (Same.refl s) t h)
  | .powerLoss m, h => .reach (f := 0xFFFFC) rfl
      (execPowerLoss_keeps rfl m s (Same.refl s) t h)
  | .overvoltage, h => .reach (f := 0xFFFFC) rfl
      (execOvervoltage_keeps rfl s (Same.refl s) t h)
  | .powerInputFault, h => .reach (f := 0x24CDDC) rfl
      (execPowerInputFault_keeps rfl s (Same.refl s) t h)
  | .inputSettled, h => .reach (f := 0x10) rfl
      (execInputSettled_keeps rfl s (Same.refl s) t h)
  | .powerLimitExceeded watts, h => .reach (f := 0x24CDDC) rfl
      (execPowerLimitExceeded_keeps rfl watts s (Same.refl s) t h)
  | .thermalTrip sensor, h => .reach (f := 0x2DEDDC) rfl
      (execThermalTrip_keeps rfl sensor s (Same.refl s) t h)
  | .thermalWarning sensor, h => .reach (f := 0x10) rfl
      (execThermalWarning_keeps rfl sensor s (Same.refl s) t h)
  | .historyRecord m, h => .reach (f := 0x10) rfl
      (execHistoryRecord_keeps rfl m s (Same.refl s) t h)
  | .domainLockLoss domain, h => .reach (f := 0x2DEDEC) rfl
      (execDomainLockLoss_keeps rfl domain s (Same.refl s) t h)
  | .parityError unit, h => .reach (f := 0x2CEDCC) rfl
      (execParityError_keeps rfl unit s (Same.refl s) t h)
  | .stitchBoundary ecc symbols, h => .reach (f := 0x24FDDC) rfl
      (execStitchBoundary_keeps rfl s ecc symbols (Same.refl s) t h)
  | .drainEnd part, h => .reach (f := 0x248DCC) rfl
      (execDrainEnd_keeps rfl part s (Same.refl s) t h)
  | .drainTimeout part, h => .reach (f := 0x24CDCC) rfl
      (execDrainTimeout_keeps rfl part s (Same.refl s) t h)
  | .spanEndShort part resv, h => .reach (f := 0x24CDCC) rfl
      (execSpanEndShort_keeps rfl part resv s (Same.refl s) t h)
  | .atticHoldEnd part handle, h => .reach (f := 0x80) rfl
      (execAtticHoldEnd_keeps rfl part handle s (Same.refl s) t h)
  | .patternStart part ecc, h => .reach (f := 0x24DDCC) rfl
      (execPatternStart_keeps rfl part s ecc (Same.refl s) t h)
  | .stitchMarker port m offsetCycles, h => .reach (f := 0x2CFDCC) rfl
      (execStitchMarker_keeps rfl port m offsetCycles s (Same.refl s) t h)
  | .timebaseLock, h => .reach (f := 0x1000) rfl
      (execTimebaseLock_keeps rfl s (Same.refl s) t h)
  | .holdover, h => .reach (f := 0x1000) rfl
      (execHoldover_keeps rfl s (Same.refl s) t h)
  | .waitCycle part, h => .reach (f := 0x248DCC) rfl
      (execWaitCycle_keeps rfl part s (Same.refl s) t h)
  | .start port core value, h => .reach (f := 0x80040) rfl
      (execStart_keeps rfl port core value s (Same.refl s) t h)
  | .streamEnqueue core, h => .reach (f := 0x208040) rfl
      (execStreamEnqueue_keeps rfl core s (Same.refl s) t h)
  | .gate core, h => .reach (f := 0x208040) rfl
      (execGate_keeps rfl core s (Same.refl s) t h)
  | .gateOpen core, h => .reach (f := 0x208040) rfl
      (execGateOpen_keeps rfl core s (Same.refl s) t h)
  | .segment core, h => .reach (f := 0x208040) rfl
      (execSegment_keeps rfl core s (Same.refl s) t h)
  | .body core, h => .reach (f := 0x208040) rfl
      (execBody_keeps rfl core s (Same.refl s) t h)
  | .endStep core, h => .reach (f := 0x208040) rfl
      (execEndStep_keeps rfl core s (Same.refl s) t h)
  | .issueChecks core, h => .reach (f := 0x208CCC) rfl
      (execIssueChecks_keeps rfl core s (Same.refl s) t h)
  | .matmul core, h => .reach (f := 0x248CDC) rfl
      (execMatmul_keeps rfl core s (Same.refl s) t h)
  | .tileStart core ecc, h => .reach (f := 0x20804C) rfl
      (execTileStart_keeps rfl core ecc s (Same.refl s) t h)
  | .accumulatorDrain core ecc, h => .reach (f := 0x24804C) rfl
      (execAccumulatorDrain_keeps rfl core ecc s (Same.refl s) t h)
  | .vector core ecc, h => .reach (f := 0x24CDDC) rfl
      (execVector_keeps rfl core ecc s (Same.refl s) t h)
  | .fnTableCheck core, h => .reach (f := 0x208CCC) rfl
      (execFnTableCheck_keeps rfl core s (Same.refl s) t h)
  | .layernormFwd core ecc, h => .reach (f := 0x24CDDC) rfl
      (execLayernormFwd_keeps rfl core ecc s (Same.refl s) t h)
  | .rmsnormFwd core ecc, h => .reach (f := 0x24CDDC) rfl
      (execRmsnormFwd_keeps rfl core ecc s (Same.refl s) t h)
  | .softmaxFwd core ecc, h => .reach (f := 0x24CDDC) rfl
      (execSoftmaxFwd_keeps rfl core ecc s (Same.refl s) t h)
  | .layernormBwd core ecc, h => .reach (f := 0x24CDDC) rfl
      (execLayernormBwd_keeps rfl core ecc s (Same.refl s) t h)
  | .rmsnormBwd core ecc, h => .reach (f := 0x24CDDC) rfl
      (execRmsnormBwd_keeps rfl core ecc s (Same.refl s) t h)
  | .softmaxBwd core ecc, h => .reach (f := 0x24CDDC) rfl
      (execSoftmaxBwd_keeps rfl core ecc s (Same.refl s) t h)
  | .copy core ecc, h => .reach (f := 0x24CDDC) rfl
      (execCopy_keeps rfl core ecc s (Same.refl s) t h)
  | .larderPush core ecc, h => .reach (f := 0x24CDDC) rfl
      (execLarderPush_keeps rfl core ecc s (Same.refl s) t h)
  | .larderRead core ecc, h => .reach (f := 0x24CDDC) rfl
      (execLarderRead_keeps rfl core ecc s (Same.refl s) t h)
  | .larderRelease core, h => .reach (f := 0x248CDC) rfl
      (execLarderRelease_keeps rfl core s (Same.refl s) t h)
  | .wait core, h => .reach (f := 0x248CDC) rfl
      (execWait_keeps rfl core s (Same.refl s) t h)
  | .fence core, h => .reach (f := 0x248CDC) rfl
      (execFence_keeps rfl core s (Same.refl s) t h)
  | .tallyAdd core, h => .reach (f := 0x248CDC) rfl
      (execTallyAdd_keeps rfl core s (Same.refl s) t h)
  | .tallySet core, h => .reach (f := 0x248CDC) rfl
      (execTallySet_keeps rfl core s (Same.refl s) t h)
  | .publish core, h => .reach (f := 0x248CDC) rfl
      (execPublish_keeps rfl core s (Same.refl s) t h)
  | .rsSum core, h => .reach (f := 0x248CDC) rfl
      (execRsSum_keeps rfl core s (Same.refl s) t h)
  | .rsSumCont core, h => .reach (f := 0x248CDC) rfl
      (execRsSumCont_keeps rfl core s (Same.refl s) t h)
  | .rsMean core, h => .reach (f := 0x248CDC) rfl
      (execRsMean_keeps rfl core s (Same.refl s) t h)
  | .rsMeanCont core, h => .reach (f := 0x248CDC) rfl
      (execRsMeanCont_keeps rfl core s (Same.refl s) t h)
  | .arSum core, h => .reach (f := 0x248CDC) rfl
      (execArSum_keeps rfl core s (Same.refl s) t h)
  | .arSumCont core, h => .reach (f := 0x248CDC) rfl
      (execArSumCont_keeps rfl core s (Same.refl s) t h)
  | .arMean core, h => .reach (f := 0x248CDC) rfl
      (execArMean_keeps rfl core s (Same.refl s) t h)
  | .arMeanCont core, h => .reach (f := 0x248CDC) rfl
      (execArMeanCont_keeps rfl core s (Same.refl s) t h)
  | .allGather core, h => .reach (f := 0x248CDC) rfl
      (execAllGather_keeps rfl core s (Same.refl s) t h)
  | .scalarSum core, h => .reach (f := 0x248CDC) rfl
      (execScalarSum_keeps rfl core s (Same.refl s) t h)
  | .scalarMax core, h => .reach (f := 0x248CDC) rfl
      (execScalarMax_keeps rfl core s (Same.refl s) t h)
  | .normReduce core, h => .reach (f := 0x248CDC) rfl
      (execNormReduce_keeps rfl core s (Same.refl s) t h)
  | .quarantineScan core resv ecc, h => .reach (f := 0x24CDCC) rfl
      (execQuarantineScan_keeps rfl core resv s ecc (Same.refl s) t h)
  | .collectiveDeadline core resv ecc, h => .reach (f := 0x24CDCC) rfl
      (execCollectiveDeadline_keeps rfl core resv s ecc (Same.refl s) t h)
  | .commandComplete core engine landing, h => .reach (f := 0x24CDCC) rfl
      (execCommandComplete_keeps rfl core engine s landing (Same.refl s) t h)
  | .queueResume port core, h => .reach (f := 0x80040) rfl
      (execQueueResume_keeps rfl port core s (Same.refl s) t h)
  | .queueFlush port core, h => .reach (f := 0x80040) rfl
      (execQueueFlush_keeps rfl port core s (Same.refl s) t h)
  | .queueClearSticky port core, h => .reach (f := 0x80040) rfl
      (execQueueClearSticky_keeps rfl port core s (Same.refl s) t h)
  | .descCommit port core handle, h => .reach (f := 0x80040) rfl
      (execDescCommit_keeps rfl port core handle s (Same.refl s) t h)
  | .descCopyDone core, h => .reach (f := 0xC0) rfl
      (execDescCopyDone_keeps rfl core s (Same.refl s) t h)
  | .descRead port core handle, h => .reach (f := 0x80040) rfl
      (execDescRead_keeps rfl port core handle s (Same.refl s) t h)
  | .cplCommit port core, h => .reach (f := 0x80040) rfl
      (execCplCommit_keeps rfl port core s (Same.refl s) t h)
  | .tallyValueWrite port core tally value, h => .reach (f := 0x884C0) rfl
      (execTallyValueWrite_keeps rfl port core tally value s (Same.refl s) t h)
  | .tallyAddRegister port core tally value, h => .reach (f := 0x884C0) rfl
      (execTallyAddRegister_keeps rfl port core tally value s (Same.refl s) t h)
  | .registerWrite port offset value, h => .reach (f := 0x2FFFDC) rfl
      (execRegisterWrite_keeps rfl port offset value s (Same.refl s) t h)
  | .cellarScrub line found, h => .reach (f := 0x20C008) rfl
      (execCellarScrub_keeps rfl line found s (Same.refl s) t h)
  | .cellarLineSpare line, h => .reach (f := 0x8) rfl
      (execCellarLineSpare_keeps rfl line s (Same.refl s) t h)
  | .hbmRowRepair row, h => .reach (f := 0x8) rfl
      (execHbmRowRepair_keeps rfl row s (Same.refl s) t h)
  | .spareCoreSubstitution core, h => .reach (f := 0x28C0CE) rfl
      (execSpareCoreSubstitution_keeps rfl core s (Same.refl s) t h)
  | .unitSpareSubstitution unit, h => .reach (f := 0x4800) rfl
      (execUnitSpareSubstitution_keeps rfl unit s (Same.refl s) t h)
  | .windowCommit part, h => .reach (f := 0x80) rfl
      (execWindowCommit_keeps rfl part s (Same.refl s) t h)
  | .larderCommit part, h => .reach (f := 0x80) rfl
      (execLarderCommit_keeps rfl part s (Same.refl s) t h)
  | .zeroingComplete part, h => .reach (f := 0x298084) rfl
      (execZeroingComplete_keeps rfl part s (Same.refl s) t h)
  | .patCommit port part, h => .reach (f := 0x2C89C4) rfl
      (execPatCommit_keeps rfl port part s (Same.refl s) t h)
  | .patternLoadDone part, h => .reach (f := 0x208080) rfl
      (execPatternLoadDone_keeps rfl part s (Same.refl s) t h)
  | .startCommit port part, h => .reach (f := 0x80080) rfl
      (execStartCommit_keeps rfl port part s (Same.refl s) t h)
  | .manCommit port part, h => .reach (f := 0x288080) rfl
      (execManCommit_keeps rfl port part s (Same.refl s) t h)
  | .partStart port part, h => .reach (f := 0x2C8DCC) rfl
      (execPartStart_keeps rfl port part s (Same.refl s) t h)
  | .partStop port part, h => .reach (f := 0x2C8DCC) rfl
      (execPartStop_keeps rfl port part s (Same.refl s) t h)
  | .partDrain port part, h => .reach (f := 0x2C8DCC) rfl
      (execPartDrain_keeps rfl port part s (Same.refl s) t h)
  | .layoutCommit part, h => .reach (f := 0x2B80CC) rfl
      (execLayoutCommit_keeps rfl part s (Same.refl s) t h)
  | .guaranteeCommit part, h => .reach (f := 0x90080) rfl
      (execGuaranteeCommit_keeps rfl part s (Same.refl s) t h)
  | .placementCommit part, h => .reach (f := 0x10080) rfl
      (execPlacementCommit_keeps rfl part s (Same.refl s) t h)
  | .ledgerClear part, h => .reach (f := 0x800) rfl
      (execLedgerClear_keeps rfl part s (Same.refl s) t h)
  | .statsClear part, h => .reach (f := 0x80) rfl
      (execStatsClear_keeps rfl part s (Same.refl s) t h)
  | .routeHold, h => .reach (f := 0x400) rfl
      (execRouteHold_keeps rfl s (Same.refl s) t h)
  | .routeCommit, h => .reach (f := 0x2CEDCC) rfl
      (execRouteCommit_keeps rfl s (Same.refl s) t h)
  | .peakClear port, h => .reach (f := 0x400) rfl
      (execPeakClear_keeps rfl port s (Same.refl s) t h)
  | .write port p ecc, h => .reach (f := 0x24CDCC) rfl
      (execWrite_keeps rfl port p s ecc (Same.refl s) t h)
  | .read port p ecc, h => .reach (f := 0x24CDCC) rfl
      (execRead_keeps rfl port p s ecc (Same.refl s) t h)
  | .tally port p, h => .reach (f := 0x84C0) rfl
      (execTally_keeps rfl port p s (Same.refl s) t h)
  | .fabOpen port p, h => .reach (f := 0x480) rfl
      (execFabOpen_keeps rfl port p s (Same.refl s) t h)
  | .fabClose port p, h => .reach (f := 0x480) rfl
      (execFabClose_keeps rfl port p s (Same.refl s) t h)
  | .readData port p ecc, h => .reach (f := 0x24CDCC) rfl
      (execReadData_keeps rfl port p s ecc (Same.refl s) t h)
  | .ack port p, h => .reach (f := 0x24CDCC) rfl
      (execAck_keeps rfl port p s (Same.refl s) t h)
  | .grant port p, h => .reach (f := 0x480) rfl
      (execGrant_keeps rfl port p s (Same.refl s) t h)
  | .nack port p, h => .reach (f := 0x24CDCC) rfl
      (execNack_keeps rfl port p s (Same.refl s) t h)
  | .openRetry skein, h => .reach (f := 0x400) rfl
      (execOpenRetry_keeps rfl skein s (Same.refl s) t h)
  | .openTimeout skein, h => .reach (f := 0x24CDCC) rfl
      (execOpenTimeout_keeps rfl skein s (Same.refl s) t h)
  | .transferTimeout skein tno, h => .reach (f := 0x24CDCC) rfl
      (execTransferTimeout_keeps rfl skein tno s (Same.refl s) t h)
  | .receiveContextExpiry src skein tno, h => .reach (f := 0x400) rfl
      (execReceiveContextExpiry_keeps rfl src skein tno s (Same.refl s) t h)
  | .skeinIdleClose skein, h => .reach (f := 0x400) rfl
      (execSkeinIdleClose_keeps rfl skein s (Same.refl s) t h)
  | .packetRoute port p credits waited ecc, h => .reach (f := 0x24CDCC) rfl
      (execPacketRoute_keeps rfl port p credits waited s ecc (Same.refl s) t h)
  | .escape port p, h => .reach (f := 0x24CDCC) rfl
      (execEscape_keeps rfl port p s (Same.refl s) t h)
  | .schedMove port p landing ecc, h => .reach (f := 0x24CDCC) rfl
      (execSchedMove_keeps rfl port p landing s ecc (Same.refl s) t h)
  | .collective port p ecc, h => .reach (f := 0x24CDCC) rfl
      (execCollective_keeps rfl port p s ecc (Same.refl s) t h)
  | .maint port p, h => .reach (f := 0x6EFDCC) rfl
      (execMaint_keeps rfl port p s (Same.refl s) t h)
  | .portLight port farIdle host, h => .reach (f := 0x8E080) rfl
      (execPortLight_keeps rfl port s farIdle host (Same.refl s) t h)
  | .training port failed host, h => .reach (f := 0x28E480) rfl
      (execTraining_keeps rfl port failed s host (Same.refl s) t h)
  | .stageTimeout port lost, h => .reach (f := 0x86080) rfl
      (execStageTimeout_keeps rfl port lost s (Same.refl s) t h)
  | .identity port frame, h => .reach (f := 0x2CEDCC) rfl
      (execIdentity_keeps rfl port frame s (Same.refl s) t h)
  | .identitySend port, h => .reach (f := 0x200400) rfl
      (execIdentitySend_keeps rfl port s (Same.refl s) t h)
  | .echoRequest port arrival, h => .reach (f := 0x200400) rfl
      (execEchoRequest_keeps rfl port arrival s (Same.refl s) t h)
  | .echoReply port roundTrip turnaround, h => .reach (f := 0x687480) rfl
      (execEchoReply_keeps rfl port roundTrip turnaround s (Same.refl s) t h)
  | .codewordUncorrectable port strand, h => .reach (f := 0x2CEDCC) rfl
      (execCodewordUncorrectable_keeps rfl port strand s (Same.refl s) t h)
  | .lightLoss port strand, h => .reach (f := 0x2CEDCC) rfl
      (execLightLoss_keeps rfl port strand s (Same.refl s) t h)
  | .retrain port, h => .reach (f := 0x86080) rfl
      (execRetrain_keeps rfl port s (Same.refl s) t h)
  | .extest, h => .reach (f := 0x3CEDCC) rfl
      (execExtest_keeps rfl s (Same.refl s) t h)
  | .idcode, h => .reach (f := 0x100000) rfl
      (execIdcode_keeps rfl s (Same.refl s) t h)
  | .samplePreload pins preload, h => .reach (f := 0x104000) rfl
      (execSamplePreload_keeps rfl s pins preload (Same.refl s) t h)
  | .bypass, h => .reach (f := 0x100000) rfl
      (execBypass_keeps rfl s (Same.refl s) t h)
  | .hello port version check, h => .reach (f := 0x25CDCC) rfl
      (execHello_keeps rfl port version s check (Same.refl s) t h)
  | .helloSend port, h => .reach (f := 0x200000) rfl
      (execHelloSend_keeps rfl port s (Same.refl s) t h)
  | .rd port p ecc, h => .reach (f := 0x2DCDCC) rfl
      (execRd_keeps rfl port p ecc s (Same.refl s) t h)
  | .rdShared port p ecc, h => .reach (f := 0x25CDCC) rfl
      (execRdShared_keeps rfl port p ecc s (Same.refl s) t h)
  | .rdOwn port p ecc, h => .reach (f := 0x25CDCC) rfl
      (execRdOwn_keeps rfl port p ecc s (Same.refl s) t h)
  | .wr port p ecc, h => .reach (f := 0x2FFFDC) rfl
      (execWr_keeps rfl port p s ecc (Same.refl s) t h)
  | .wb port p ecc, h => .reach (f := 0x25CDCC) rfl
      (execWb_keeps rfl port p s ecc (Same.refl s) t h)
  | .ylFence port p, h => .reach (f := 0x25CDCC) rfl
      (execYlFence_keeps rfl port p s (Same.refl s) t h)
  | .hAck port p, h => .reach (f := 0x25CDCC) rfl
      (execHAck_keeps rfl port p s (Same.refl s) t h)
  | .hResp port p ecc, h => .reach (f := 0x25CDCC) rfl
      (execHResp_keeps rfl port p s ecc (Same.refl s) t h)
  | .recall port line, h => .reach (f := 0x208000) rfl
      (execRecall_keeps rfl port line s (Same.refl s) t h)
  | .recallTimeout port line, h => .reach (f := 0x25CDCC) rfl
      (execRecallTimeout_keeps rfl port line s (Same.refl s) t h)
  | .hostTimeout port tag, h => .reach (f := 0x25CDCC) rfl
      (execHostTimeout_keeps rfl port tag s (Same.refl s) t h)
  | .hostLinkFault port, h => .reach (f := 0x25CDCC) rfl
      (execHostLinkFault_keeps rfl port s (Same.refl s) t h)
  | .doorbell port n value, h => .reach (f := 0x84C0) rfl
      (execDoorbell_keeps rfl port n value s (Same.refl s) t h)
  | .dbBind port n value, h => .reach (f := 0x88000) rfl
      (execDbBind_keeps rfl port n value s (Same.refl s) t h)
  | .interrupt part cause, h => .reach (f := 0x208000) rfl
      (execInterrupt_keeps rfl part cause s (Same.refl s) t h)
  | .coalesceExpiry port vec, h => .reach (f := 0x208000) rfl
      (execCoalesceExpiry_keeps rfl port vec s (Same.refl s) t h)
  | .hqCommit port queue, h => .reach (f := 0x8000) rfl
      (execHqCommit_keeps rfl port queue s (Same.refl s) t h)
  | .hqFlush port queue, h => .reach (f := 0x8000) rfl
      (execHqFlush_keeps rfl port queue s (Same.refl s) t h)
  | .hqIdleTimeout port queue, h => .reach (f := 0x208000) rfl
      (execHqIdleTimeout_keeps rfl port queue s (Same.refl s) t h)
  | .apertureCommit part, h => .reach (f := 0x218080) rfl
      (execApertureCommit_keeps rfl part s (Same.refl s) t h)
  | .asrelRead path r form, h => .reach (f := 0x2FFFDC) rfl
      (execAsrelRead_keeps rfl path r s form (Same.refl s) t h)
  | .asrelWrite path r form, h => .reach (f := 0x2FFFDC) rfl
      (execAsrelWrite_keeps rfl path r s form (Same.refl s) t h)
  | .describe path r form, h => .reach (f := 0x2FFFDC) rfl
      (execDescribe_keeps rfl path r s form (Same.refl s) t h)
  | .asrelAbort path r form, h => .reach (f := 0x2FFFDC) rfl
      (execAsrelAbort_keeps rfl path r s form (Same.refl s) t h)
  | .snapshotExpiry n, h => .reach (f := 0x10000) rfl
      (execSnapshotExpiry_keeps rfl n s (Same.refl s) t h)
  | .sessionExpiry n, h => .reach (f := 0x10000) rfl
      (execSessionExpiry_keeps rfl n s (Same.refl s) t h)
  | .mbSubmit port value, h => .reach (f := 0x2FFFDC) rfl
      (execMbSubmit_keeps rfl port value s (Same.refl s) t h)
  | .mbClearReady port, h => .reach (f := 0x8000) rfl
      (execMbClearReady_keeps rfl port s (Same.refl s) t h)
  | .mbClearRefused port, h => .reach (f := 0x8000) rfl
      (execMbClearRefused_keeps rfl port s (Same.refl s) t h)
  | .netCommit path, h => .reach (f := 0x210000) rfl
      (execNetCommit_keeps rfl path s (Same.refl s) t h)
  | .neighborSolicitation f target, h => .reach (f := 0x210000) rfl
      (execNeighborSolicitation_keeps rfl f target s (Same.refl s) t h)
  | .neighborAdvertisement a, h => .reach (f := 0x10000) rfl
      (execNeighborAdvertisement_keeps rfl a s (Same.refl s) t h)
  | .icmpEchoRequest f ident data, h => .reach (f := 0x210000) rfl
      (execIcmpEchoRequest_keeps rfl f ident data s (Same.refl s) t h)
  | .dadTimeout, h => .reach (f := 0x10000) rfl
      (execDadTimeout_keeps rfl s (Same.refl s) t h)
  | .activateLive, h => .reach (f := 0x20000) rfl
      (execActivateLive_keeps rfl s (Same.refl s) t h)
  | .activateAtReset, h => .reach (f := 0x20010) rfl
      (execActivateAtReset_keeps rfl s (Same.refl s) t h)
  | .handover ok begins, h => .reach (f := 0x2FFFDD) rfl
      (execHandover_keeps rfl ok s begins (Same.refl s) t h)
  | .erase which, h => .reach (f := 0x20000) rfl
      (execErase_keeps rfl which s (Same.refl s) t h)
  | .imageStoreWrite store offset total data, h => .reach (f := 0x20000) rfl
      (execImageStoreWrite_keeps rfl store offset total data s (Same.refl s) t h)
  | .reconstruct, h => .reach (f := 0x20000) rfl
      (execReconstruct_keeps rfl s (Same.refl s) t h)
  | .offer port frame, h => .reach (f := 0x220400) rfl
      (execOffer_keeps rfl port frame s (Same.refl s) t h)
  | .offerSend, h => .reach (f := 0x200400) rfl
      (execOfferSend_keeps rfl s (Same.refl s) t h)
  | .need port frame, h => .reach (f := 0x220400) rfl
      (execNeed_keeps rfl port frame s (Same.refl s) t h)
  | .needProgressTimeout, h => .reach (f := 0x200400) rfl
      (execNeedProgressTimeout_keeps rfl s (Same.refl s) t h)
  | .part port frame, h => .reach (f := 0x220400) rfl
      (execPart_keeps rfl port frame s (Same.refl s) t h)
  | .abort port frame, h => .reach (f := 0x20400) rfl
      (execAbort_keeps rfl port frame s (Same.refl s) t h)
  | .upstreamSilence, h => .reach (f := 0x20000) rfl
      (execUpstreamSilence_keeps rfl s (Same.refl s) t h)
  | .attestNonce part nonce, h => .reach (f := 0x20080) rfl
      (execAttestNonce_keeps rfl part nonce s (Same.refl s) t h)
  | .attestReportDone part, h => .reach (f := 0x20080) rfl
      (execAttestReportDone_keeps rfl part s (Same.refl s) t h)
  | .thermalHoldEnd port, h => .reach (f := 0xE010) rfl
      (execThermalHoldEnd_keeps rfl port s (Same.refl s) t h)
  | .inputFallsBelow54v, h => .reach (f := 0x10) rfl
      (execInputFallsBelow54v_keeps rfl s (Same.refl s) t h)
  | .testLogicReset, h => .reach (f := 0x100000) rfl
      (execTestLogicReset_keeps rfl s (Same.refl s) t h)

/-- A step changes no part of the state outside the footprint of the command at the front of the queue. -/
theorem step_same (s t : State) (h : step s = .next t) : t = s ∨ ∃ c rest, s.pending = c :: rest ∧
    exec c { s with pending := rest } = .next t ∧ Same c.footprint { s with pending := rest } t := by
  unfold step at h
  split at h
  · exact .inl (Host.Outcome.next.inj h).symm
  · rename_i c rest e
    exact .inr ⟨c, rest, e, h, exec_same c _ t h⟩

end Machine

end Sys2Proof
end

