-- ==== Sys2Proof/Laws/Effects.lean ====
section
/-! SUPPORT. Laws/Effects.lean: what the shared operations do: a write of a port's state, a stop, a fault, a completion. -/

namespace Sys2Proof.Machine

/-! ### Reads of parts that a footprint leaves alone -/

theorem Same.core_eq {m : Nat} {s t : State} (h : Same m s t) (hb : m.testBit 6 = false) (c : Nat) : t.core c = s.core c := by
  unfold State.core
  rw [h.cores.resolve_left (by simp [hb])]

theorem Same.part_eq {m : Nat} {s t : State} (h : Same m s t) (hb : m.testBit 7 = false) (p : Nat) : t.part p = s.part p := by
  unfold State.part
  rw [h.parts.resolve_left (by simp [hb])]

theorem Same.link_eq {m : Nat} {s t : State} (h : Same m s t) (hb : m.testBit 13 = false) (k : Nat) : t.link k = s.link k := by
  unfold State.link
  rw [h.ports.resolve_left (by simp [hb])]

theorem Same.ctx_eq {m : Nat} {s t : State} (h : Same m s t) (hb : m.testBit 8 = false) (n : Nat) : t.ctx n = s.ctx n := by
  unfold State.ctx
  rw [h.ctxs.resolve_left (by simp [hb])]

theorem Same.mem_eq {m : Nat} {s t : State} (h : Same m s t) (hb : m.testBit 2 = false) : t.mem = s.mem :=
  h.mem.resolve_left (by simp [hb])

theorem Same.cores_eq {m : Nat} {s t : State} (h : Same m s t) (hb : m.testBit 6 = false) : t.cores = s.cores :=
  h.cores.resolve_left (by simp [hb])

theorem Same.parts_eq {m : Nat} {s t : State} (h : Same m s t) (hb : m.testBit 7 = false) : t.parts = s.parts :=
  h.parts.resolve_left (by simp [hb])

theorem Same.power_eq {m : Nat} {s t : State} (h : Same m s t) (hb : m.testBit 4 = false) : t.power = s.power :=
  h.power.resolve_left (by simp [hb])

theorem Same.links_eq {m : Nat} {s t : State} (h : Same m s t) (hb : m.testBit 14 = false) : t.links = s.links :=
  h.links.resolve_left (by simp [hb])

theorem Same.tallyOf_eq {m : Nat} {s t : State} (h : Same m s t) (hb : m.testBit 6 = false) (c n : Nat) :
    t.tallyOf c n = s.tallyOf c n := by
  unfold State.tallyOf
  rw [h.core_eq hb]

/-! ### Host accesses -/

/-- A port that may reach a core's control block does what it asks. -/
theorem viaCore_reach {s : State} {k c p : Nat} (h : s.Reaches k c p) (f : State → State) : s.viaCore k c f = f s := by
  unfold State.viaCore
  rw [h.1.1]
  simp [h.1.2, h.2]

/-- Over a closed crossing nothing is done and nothing counted (R29). -/
theorem viaCore_closed {s : State} {k c p : Nat} (h : s.Owns k c p) (hc : s.coreOpen c = false) (f : State → State) :
    s.viaCore k c f = s := by
  unfold State.viaCore
  rw [h.1]
  simp [h.2, hc]

/-- A port that may not is ignored and counted. -/
theorem viaCore_refused {s : State} {k c : Nat} (h : ∀ p, ¬ s.Owns k c p) (f : State → State) :
    s.viaCore k c f = s.refusedAccess := by
  unfold State.viaCore
  cases e : s.partOf c with
  | none => rfl
  | some p =>
    have := h p
    simp only [State.Owns, e, true_and, Bool.not_eq_true] at this
    simp [this, State.refusedAccess]

/-- A port that a partition is bound to does what it asks of it. -/
theorem viaPart_bound {s : State} {k p : Nat} (h : s.boundTo p k = true) (f : State → State) : s.viaPart k p f = f s := by
  simp [State.viaPart, h]

/-- Another one is ignored and counted. -/
theorem viaPart_refused {s : State} {k p : Nat} (h : s.boundTo p k = false) (f : State → State) :
    s.viaPart k p f = s.refusedAccess := by
  simp [State.viaPart, h, State.refusedAccess]

/-! ### The state of a fabric port -/

/-- A change of the capacity judges the minima anew and leaves every port. -/
theorem afterCapacity_link (s t : State) (j : Nat) : (s.afterCapacity t).link j = t.link j := by
  unfold State.afterCapacity
  split
  · rfl
  · exact (State.refreshInject_keeps (fp := 0x80080) rfl _ (Same.refl _)).link_eq rfl j

theorem afterCapacity_links (s t : State) : (s.afterCapacity t).links = t.links := by
  unfold State.afterCapacity
  split
  · rfl
  · exact (State.refreshInject_keeps (fp := 0x80080) rfl _ (Same.refl _)).links_eq rfl

/-- A port's state set: that port alone changes. -/
theorem setPort_link (s : State) (k j : Nat) (st : Byte) :
    (s.setPort k st).link j = if k = j then { s.link k with state := st } else s.link j := by
  unfold State.setPort
  rw [afterCapacity_link, State.link_updLink]

theorem dropQueued_link (s : State) (k j : Nat) : (s.dropQueued k).link j = s.link j :=
  (State.dropQueued_keeps (fp := 0x400) rfl s k (Same.refl s)).link_eq rfl j

/-- Injection minima judged anew leave every partition in its state. -/
theorem refreshInject_active (s : State) (q : Nat) : (s.refreshInject.part q).active = (s.part q).active := by
  have e : ∀ (g : Nat → BitVec 32) (l : List Nat) (s : State),
      ((l.foldl (fun s p => s.updPart p fun q => { q with injectNow := g p }) s).part q).active
        = (s.part q).active := fun g l s =>
    foldl_same (fun s : State => (s.part q).active) _ (fun s p => by
      rw [State.part_updPart]
      split
      · rename_i h
        subst h
        rfl
      · rfl) l s
  unfold State.refreshInject
  dsimp only
  split
  · exact e _ _ _
  · rw [(State.recordReduced_keeps (fp := 0x80000) rfl _ _ _ _ (Same.refl _)).part_eq rfl]
    exact e _ _ _

theorem setPort_active (s : State) (k : Nat) (st : Byte) (q : Nat) :
    ((s.setPort k st).part q).active = (s.part q).active := by
  unfold State.setPort State.afterCapacity
  split
  · rfl
  · rw [refreshInject_active]
    rfl

/-- A port lost: state 8, but for one that is disabled; no other port changes. -/
theorem losePort_link (s : State) (k j d0 : Nat) :
    (s.losePort k d0).link j = if k = j ∧ (s.link k).state ≠ 0 then { s.link k with state := 8 } else s.link j := by
  have w := State.portFault_keeps (fp := 0x24CDCC) rfl s k d0 (Same.refl s)
  unfold State.losePort
  dsimp only
  split
  · rename_i h
    rw [w.link_eq rfl] at h ⊢
    simp [h]
  · rename_i h
    rw [w.link_eq rfl] at h
    rw [dropQueued_link, setPort_link, w.link_eq rfl, w.link_eq rfl]
    simp only [ne_eq, h, not_false_eq_true, and_true]

/-! ### Stops and faults -/

/-- A stop leaves its partition stopped and every other one as it was. -/
theorem stopPart_part (s : State) (p : Nat) (cause : Half) (keep : Bool) (q : Nat) :
    (s.stopPart p cause keep).part q
      = if q = p ∧ (s.part p).active = true then (s.part p).stop cause keep else s.part q := by
  unfold State.stopPart
  cases ha : (s.part p).active
  · simp
  · have key : ∀ x : State, x.parts = s.parts → ((((x.emptyContexts p).queuesOf p HQueue.discard).updPart p fun q =>
        q.stop cause keep).raiseCause p 2).part q = if q = p then (s.part p).stop cause keep else s.part q := by
      intro x hx
      have e : ∀ q, ((x.emptyContexts p).queuesOf p HQueue.discard).part q = s.part q := by
        intro q
        rw [(State.queuesOf_keeps (fp := 0x8100) rfl _ _ _
          (State.emptyContexts_keeps rfl _ _ (Same.refl x))).part_eq rfl]
        unfold State.part
        rw [hx]
      rw [(State.raiseCause_keeps (fp := 0x208000) rfl _ _ _ (Same.refl _)).part_eq rfl, State.part_updPart, e, e]
      by_cases h : p = q
      · simp [h]
      · simp [h, Ne.symm h]
    have w := State.discard_keeps (fp := 0x248C4C) rfl s p (Same.refl s)
    simp only [Bool.not_true, Bool.false_eq_true, if_false, and_true]
    apply key
    split
    · exact (kept_foldl (z := s) (m := 0x248C4C) State.clearCore _ _
        (fun s c h => State.clearCore_keeps rfl s c h) w).parts_eq rfl
    · exact w.parts_eq rfl

/-- A stopped partition does not run, and it is not armed unless it was told to stay so. -/
theorem Part.stop_active (q : Part) (cause : Half) (keep : Bool) : (q.stop cause keep).active = false := rfl

theorem Part.disarm_active (q : Part) : q.disarm.active = q.active := by
  unfold Part.disarm
  split <;> rfl

theorem Part.disarm_stop (q : Part) (cause : Half) : (q.stop cause false).disarm = q.stop cause false := by
  unfold Part.disarm
  rw [if_neg]
  unfold Part.stop
  cases q.patState <;> simp <;> split <;> simp

theorem Part.disarm_disarm (q : Part) : q.disarm.disarm = q.disarm := by
  by_cases h : q.patState = .armed <;> simp [Part.disarm, h]

theorem disarm_part (s : State) (p q : Nat) :
    (s.disarm p).part q = if p = q then (s.part p).disarm else s.part q := by
  unfold State.disarm
  rw [State.part_updPart]

/-- A stop ends its partition and no other. -/
theorem stopPart_active (s : State) (p : Nat) (cause : Half) (keep : Bool) (q : Nat) :
    ((s.stopPart p cause keep).part q).active = if q = p then false else (s.part q).active := by
  rw [stopPart_part]
  cases ha : (s.part p).active
  · by_cases h : q = p <;> simp [h, ha]
  · by_cases h : q = p <;> simp [h, Part.stop_active]

/-- A fault stops the partitions it names that run, disarms those that do not, and leaves every other one. -/
theorem fault_part (s : State) (st : Half) (cls kind unit : Nat) (parts : List Nat) (d0 d1 q : Nat) :
    (s.fault st cls kind unit parts d0 d1).part q
      = if q ∈ parts then (if (s.part q).active then (s.part q).stop st false else (s.part q).disarm)
        else s.part q := by
  unfold State.fault
  dsimp only
  rw [(State.recordFault_keeps (fp := 0x20C000) rfl _ _ _ _ _ _ _ _ (Same.refl _)).part_eq rfl]
  have key : ∀ (l : List Nat) (x : State),
      ((l.foldl (fun s p => if (s.part p).active then s.stopPart p st false else s.disarm p) x).part q)
      = if q ∈ l then (if (x.part q).active then (x.part q).stop st false else (x.part q).disarm) else x.part q := by
    intro l
    induction l with
    | nil => simp
    | cons p ps ih =>
      intro x
      rw [List.foldl_cons, ih]
      have step : (if (x.part p).active then x.stopPart p st false else x.disarm p).part q
          = if q = p then (if (x.part q).active then (x.part q).stop st false else (x.part q).disarm)
            else x.part q := by
        by_cases e : q = p
        · subst e
          cases ha : (x.part q).active
          · simp [disarm_part]
          · simp [stopPart_part, ha]
        · cases ha : (x.part p).active <;> simp [disarm_part, stopPart_part, e, Ne.symm e]
      rw [step]
      by_cases e : q = p
      · subst e
        cases ha : (x.part q).active <;>
          simp [Part.stop_active, Part.disarm_active, ha, Part.disarm_stop, Part.disarm_disarm]
      · simp [e]
  exact key parts s

/-- A fault ends the partitions it names and no other. -/
theorem fault_active (s : State) (st : Half) (cls kind unit : Nat) (parts : List Nat) (d0 d1 q : Nat) :
    ((s.fault st cls kind unit parts d0 d1).part q).active = if q ∈ parts then false else (s.part q).active := by
  rw [fault_part]
  by_cases h : q ∈ parts
  · cases ha : (s.part q).active <;> simp [h, Part.stop_active, Part.disarm_active, ha]
  · simp [h]

/-- A fault record: written and counted, or, while a handover pauses the controller, queued; counted as a module fault
in class 8. -/
theorem recordFault_links (s : State) (st : Half) (cls kind unit : Nat) (stopped : List Nat) (d0 d1 : Nat) :
    ∃ r h, (s.recordFault st cls kind unit stopped d0 d1).links = { s.links with
      faultRing := r, held := h, faultTaken := s.faultsAfter 1,
      moduleFaults := if cls = 8 then s.links.moduleFaults + 1 else s.links.moduleFaults } := by
  have e : ∀ (l : List Nat) (x : State), (l.foldl (fun s p => s.raiseCause p 5) x).links = x.links := fun l x =>
    (kept_foldl (m := 0x208000) _ _ _ (fun s p h => State.raiseCause_keeps rfl s p 5 h) (Same.refl x)).links_eq rfl
  have w : ∀ (x : State) f, (x.writeFault f).links = { x.links with
      faultTaken := x.links.faultTaken + 1, faultRing := pushRing 128 x.links.faultRing f.record } := fun x f => e _ _
  unfold State.recordFault State.faultsAfter
  cases hp : s.fw.paused <;> by_cases hc : cls = 8 <;> by_cases hl : s.links.held.length < 32 <;>
    simp only [hp, hc, hl, if_true, if_false, Bool.not_true, Bool.not_false, Bool.false_eq_true, w] <;>
    exact ⟨_, _, rfl⟩

/-- A fault writes one record and touches the links no further. -/
theorem fault_links (s : State) (st : Half) (cls kind unit : Nat) (parts : List Nat) (d0 d1 : Nat) :
    ∃ r h, (s.fault st cls kind unit parts d0 d1).links = { s.links with
      faultRing := r, held := h, faultTaken := s.faultsAfter 1,
      moduleFaults := if cls = 8 then s.links.moduleFaults + 1 else s.links.moduleFaults } := by
  unfold State.fault
  dsimp only
  have e : ∀ x : State, Same 0x248DCC x (parts.foldl (fun s p =>
      if (s.part p).active then s.stopPart p st false else s.disarm p) x) := fun x =>
    kept_foldl _ _ _ (fun s p h => kept_ite _ _ _ (State.stopPart_keeps rfl s p st false h)
      (State.disarm_keeps rfl s p h)) (Same.refl x)
  obtain ⟨r, h, hr⟩ := recordFault_links (parts.foldl (fun s p =>
    if (s.part p).active then s.stopPart p st false else s.disarm p) s) st cls kind unit
    (parts.filter fun p => (s.part p).active) d0 d1
  unfold State.faultsAfter at hr ⊢
  rw [(e s).links_eq rfl, (e s).fw.resolve_left (by decide)] at hr
  exact ⟨r, h, hr⟩

/-- The ports of a module that goes dark. -/
theorem darken_links (l : List Nat) (s : State) :
    ∃ r, (l.foldl (fun s k => if (s.link k).state = 0 then s else (s.setPort k 1).dropQueued k) s).links
      = { s.links with ports := r } := by
  induction l generalizing s with
  | nil => exact ⟨_, rfl⟩
  | cons a l ih =>
    rw [List.foldl_cons]
    obtain ⟨r, hr⟩ := ih (if (s.link a).state = 0 then s else (s.setPort a 1).dropQueued a)
    refine ⟨r, hr.trans ?_⟩
    split
    · rfl
    · rw [(State.dropQueued_keeps (fp := 0x400) rfl _ a (Same.refl _)).links_eq rfl]
      unfold State.setPort
      rw [afterCapacity_links]
      rfl

theorem darken_link (l : List Nat) (s : State) (j : Nat) :
    ((l.foldl (fun s k => if (s.link k).state = 0 then s else (s.setPort k 1).dropQueued k) s).link j).state
      = if j ∈ l ∧ (s.link j).state ≠ 0 then 1 else (s.link j).state := by
  induction l generalizing s with
  | nil => simp
  | cons a l ih =>
    rw [List.foldl_cons, ih]
    by_cases h : (s.link a).state = 0
    · rw [if_pos h]
      by_cases e : j = a
      · subst e
        simp [h]
      · simp [e]
    · rw [if_neg h, dropQueued_link, setPort_link]
      by_cases e : j = a
      · subst e
        simp only [if_true, List.mem_cons, true_or, true_and, ne_eq, h, not_false_eq_true]
        simp
      · simp [e, Ne.symm e]

theorem darken_active (l : List Nat) (s : State) (q : Nat) :
    ((l.foldl (fun s k => if (s.link k).state = 0 then s else (s.setPort k 1).dropQueued k) s).part q).active
      = (s.part q).active :=
  foldl_same (fun s : State => (s.part q).active) _ (fun s k => by
    split
    · rfl
    · rw [(State.dropQueued_keeps (fp := 0x400) rfl _ k (Same.refl _)).part_eq rfl]
      exact setPort_active s k 1 q) l s

/-- A module fault: every partition ends, every port is out of service, the module is dark and counts it. -/
theorem moduleFault_effect (s : State) (st : Half) (kind unit : Nat) :
    (∀ p < 16, ((s.moduleFault st kind unit).part p).active = false) ∧
    (∀ k < 6, ((s.moduleFault st kind unit).link k).state ≠ 5) ∧
    ∃ r f h, (s.moduleFault st kind unit).links = { s.links with
      ports := r, faultRing := f, held := h, faultTaken := s.faultsAfter 1,
      moduleFaults := s.links.moduleFaults + 1, dark := true } := by
  unfold State.moduleFault
  dsimp only
  refine ⟨fun p hp => ?_, fun k hk => ?_, ?_⟩
  · rw [darken_active]
    have := fault_active s st 8 kind unit allParts 0 0 p
    rw [if_pos (by simp [allParts, hp])] at this
    generalize s.fault st 8 kind unit allParts 0 0 = x at this ⊢
    exact this
  · rw [darken_link]
    split
    · decide
    · rename_i h
      intro h5
      exact h ⟨by simp [hk], by rw [h5]; decide⟩
  · obtain ⟨f, g, hf⟩ := fault_links s st 8 kind unit allParts 0 0
    generalize s.fault st 8 kind unit allParts 0 0 = x at hf ⊢
    obtain ⟨r, hr⟩ := darken_links (List.range 6) { x with links := { x.links with dark := true } }
    exact ⟨r, f, g, by rw [hr]; dsimp only; rw [hf]; rfl⟩

/-! ### Stores, tallies and completion -/

/-- A store changes of a core its tags alone. -/
theorem dropTags_core (s : State) (a n c : Nat) : ∃ g, (s.dropTags a n).core c = { s.core c with tags := g } := by
  unfold State.dropTags
  dsimp only
  split
  · split
    · rw [State.core_updCore]
      split
      · rename_i h
        subst h
        exact ⟨_, rfl⟩
      · exact ⟨_, rfl⟩
    · exact ⟨_, rfl⟩
  · exact ⟨_, rfl⟩

theorem storeRun_core (s : State) (a : Nat) (bs : List Byte) (c : Nat) :
    ∃ g, (s.storeRun a bs).core c = { s.core c with tags := g } := by
  unfold State.storeRun
  dsimp only
  rw [(State.liftPoison_keeps (fp := 0x8) rfl _ _ _ (Same.refl _)).core_eq rfl]
  refine (dropTags_core _ a _ c).imp fun g hg => hg.trans ?_
  have e : ∀ x : State, Same 0x208000 s x → (∀ m, State.core { x with mem := m } c = s.core c) := fun x h m => by
    rw [← h.core_eq (t := x) rfl c]
    rfl
  rw [e _ (kept_foldl (m := 0x208000) _ _ _ (fun s k h => by
    split
    · exact h
    · exact State.updHport_keeps rfl _ _ _ h) (State.recallFor_keeps rfl _ _ _ _ (Same.refl s)))]

/-- A tally set: its value, and of cores nothing else. -/
theorem setTally_core (s : State) (c t : Nat) (v : Word) (d : Nat) :
    (s.setTally c t v).core d
      = if c = d then { s.core c with tallies := Sparse.set 0 (s.core c).tallies t v } else s.core d := by
  have e : ((s.putTally c t v).releaseQueues c t).core d
      = if c = d then { s.core c with tallies := Sparse.set 0 (s.core c).tallies t v } else s.core d := by
    rw [(State.releaseQueues_keeps (fp := 0x8000) rfl _ _ _ (Same.refl _)).core_eq rfl]
    unfold State.putTally
    dsimp only
    split
    · rw [State.core_updPart, State.core_updCore]
    · rw [State.core_updCore]
  unfold State.setTally
  dsimp only
  split
  · exact e
  · split
    · exact e
    · rw [(kept_foldl (m := 0x400) _ _ _ (fun s q h => by
        split
        · exact State.enqueueX_keeps rfl _ _ _ _ h
        · exact h) (Same.refl _)).core_eq rfl]
      exact e

theorem setTally_tallyOf (s : State) (c t : Nat) (v : Word) (d n : Nat) :
    (s.setTally c t v).tallyOf d n = if d = c ∧ n = t then v else s.tallyOf d n := by
  unfold State.tallyOf
  rw [setTally_core]
  by_cases h : c = d
  · subst h
    simp only [if_true, Sparse.get_set, true_and]
    by_cases g : t = n <;> simp [g, eq_comm]
  · simp [h, Ne.symm h]

theorem addTally_tallyOf (s : State) (c t : Nat) (v : Word) (d n : Nat) :
    (s.addTally c t v).tallyOf d n = if d = c ∧ n = t then s.tallyOf c t + v else s.tallyOf d n := by
  unfold State.addTally
  exact setTally_tallyOf _ _ _ _ _ _

/-- A record changes of cores only the producer or the count of losses of its core, and tags. -/
theorem writeRecord_core (s : State) (c kind tag : Nat) (st flags : Half) (d : Nat) :
    ∃ g, (s.writeRecord c kind tag st flags).core d = if c = d
      then (if (s.core c).ringFree < (if stopsQueue st then 1 else 2) then { s.core c with lost := (s.core c).lost + 1 }
        else { s.core c with producer := (s.core c).producer + 1, tags := g })
      else { s.core d with tags := g } := by
  unfold State.writeRecord
  dsimp only
  by_cases h : (s.core c).ringFree < (if stopsQueue st then 1 else 2)
  · simp only [if_pos h]
    exact ⟨(s.core d).tags, by rw [State.core_updCore]⟩
  · simp only [if_neg h]
    obtain ⟨g, hg⟩ := storeRun_core s (addrLocal (s.core c).cpl.live.base.toNat +
      16 * ((s.core c).producer.toNat % 2 ^ fld (s.core c).cpl.live.entries 0 5))
      (recordOf c kind tag s.stitch32 st flags) d
    refine ⟨g, ?_⟩
    have e : ∀ x : State, (match x.partOf c with | some p => x.raiseCause p 0 | none => x).core d = x.core d := by
      intro x
      split
      · exact (State.raiseCause_keeps (fp := 0x208000) rfl _ _ _ (Same.refl _)).core_eq rfl d
      · rfl
    refine (e _).trans ?_
    rw [State.core_updCore]
    split
    · rename_i h
      subst h
      rw [hg]
    · exact hg

/-- A queue that stops: of cores only its state and its stop record change. -/
theorem stopQueue_core (s : State) (c tag : Nat) (st : Half) (d : Nat) :
    (s.stopQueue c tag st).core d = if c = d then { s.core c with
        qstate := if (s.core c).qstate = .partStopped then .partStopped else .stopped,
        stopInfo := BitVec.ofNat 32 (st.toNat <<< 16 ||| tag) } else s.core d := by
  have e : ∀ x : State, (match x.partOf c with
      | some p => if (s.core c).qstate = QState.running then x.raiseCause p 1 else x
      | none => x).core d = x.core d := by
    intro x
    split
    · split
      · exact (State.raiseCause_keeps (fp := 0x208000) rfl _ _ _ (Same.refl _)).core_eq rfl d
      · rfl
    · rfl
  unfold State.stopQueue
  exact (e _).trans (State.core_updCore s c d _)

/-- A record leaves every tally. -/
theorem writeRecord_tallyOf (s : State) (c kind tag : Nat) (st flags : Half) (d n : Nat) :
    (s.writeRecord c kind tag st flags).tallyOf d n = s.tallyOf d n := by
  obtain ⟨g, hg⟩ := writeRecord_core s c kind tag st flags d
  unfold State.tallyOf
  rw [hg]
  split
  · rename_i h
    subst h
    by_cases h : (s.core c).ringFree < (if stopsQueue st then 1 else 2)
    · simp only [if_pos h]
    · simp only [if_neg h]
  · rfl

theorem stopQueue_tallyOf (s : State) (c tag : Nat) (st : Half) (d n : Nat) :
    (s.stopQueue c tag st).tallyOf d n = s.tallyOf d n := by
  unfold State.tallyOf
  rw [stopQueue_core]
  split
  · rename_i h
    subst h
    rfl
  · rfl

/-- The memory after a record: the record in its slot, and nothing else. -/
theorem writeRecord_mem (s : State) (c kind tag : Nat) (st flags : Half) :
    (s.writeRecord c kind tag st flags).mem
      = if (s.core c).ringFree < (if stopsQueue st then 1 else 2) then s.mem
        else memPut s.mem (addrLocal (s.core c).cpl.live.base.toNat
          + 16 * ((s.core c).producer.toNat % 2 ^ fld (s.core c).cpl.live.entries 0 5))
          (recordOf c kind tag s.stitch32 st flags) := by
  have e : ∀ x : State, (match x.partOf c with | some p => x.raiseCause p 0 | none => x).mem = x.mem := by
    intro x
    split
    · exact (State.raiseCause_keeps (fp := 0x208000) rfl _ _ _ (Same.refl _)).mem_eq rfl
    · rfl
  unfold State.writeRecord
  dsimp only
  by_cases h : (s.core c).ringFree < (if stopsQueue st then 1 else 2)
  · simp only [if_pos h]
    rfl
  · simp only [if_neg h]
    exact (e _).trans (State.storeRun_mem ..)

/-- Counting a COLLECTIVE that completes touches the count alone. -/
theorem collDone_same (s : State) (kind : Nat) : Same 0x800 s (s.collDone kind) := State.collDone_keeps rfl _ _ (Same.refl s)

/-- What a completion does to tallies: its signal, where it applies one. -/
theorem complete_tallyOf (s : State) (p c : Nat) (e : Entry) (st flags : Half) (signal : Bool) (d n : Nat) :
    (s.complete p c e st flags signal).tallyOf d n
      = if signal && e.sigEnable && decide (d = e.sigCore (s.part p).layout.live.first.toNat) && decide (n = e.sigTally)
        then s.tallyOf d n + BitVec.ofNat 32 e.sigIncrement else s.tallyOf d n := by
  have a : ∀ x : State, (if stopsQueue st then x.stopQueue c e.tag st else x).tallyOf d n = x.tallyOf d n := by
    intro x
    split
    · exact stopQueue_tallyOf ..
    · rfl
  have b : ∀ x : State, (if st ≠ stDONE ∨ e.record then x.writeRecord c e.kind e.tag st flags else x).tallyOf d n
      = x.tallyOf d n := by
    intro x
    split
    · exact writeRecord_tallyOf ..
    · rfl
  unfold State.complete
  dsimp only
  rw [a, b, (collDone_same _ _).tallyOf_eq rfl]
  cases h : signal && e.sigEnable
  · simp
  · simp only [if_true, Bool.true_and, Bool.and_eq_true, decide_eq_true_eq]
    rw [addTally_tallyOf]
    split
    · rename_i h
      rw [h.1, h.2]
    · rfl

/-- What a completion may change of a core. -/
theorem complete_core (s : State) (p c : Nat) (e : Entry) (st flags : Half) (signal : Bool) (d : Nat) :
    ∃ ta tg lo pr qs si, (s.complete p c e st flags signal).core d = { s.core d with
      tallies := ta, tags := tg, lost := lo, producer := pr, qstate := qs, stopInfo := si } := by
  have a : ∀ x : State, ∃ qs si, (if stopsQueue st then x.stopQueue c e.tag st else x).core d
      = { x.core d with qstate := qs, stopInfo := si } := by
    intro x
    split
    · rw [stopQueue_core]
      split
      · rename_i h
        subst h
        exact ⟨_, _, rfl⟩
      · exact ⟨_, _, rfl⟩
    · exact ⟨_, _, rfl⟩
  have b : ∀ x : State, ∃ tg lo pr, (if st ≠ stDONE ∨ e.record then x.writeRecord c e.kind e.tag st flags else x).core d
      = { x.core d with tags := tg, lost := lo, producer := pr } := by
    intro x
    split
    · obtain ⟨g, hg⟩ := writeRecord_core x c e.kind e.tag st flags d
      rw [hg]
      split
      · rename_i h
        subst h
        by_cases h : (x.core c).ringFree < (if stopsQueue st then 1 else 2)
        · simp only [if_pos h]
          exact ⟨_, _, _, rfl⟩
        · simp only [if_neg h]
          exact ⟨_, _, _, rfl⟩
      · exact ⟨_, _, _, rfl⟩
    · exact ⟨_, _, _, rfl⟩
  have t : ∃ ta, (if signal && e.sigEnable then
      s.addTally (e.sigCore (s.part p).layout.live.first.toNat) e.sigTally (BitVec.ofNat 32 e.sigIncrement)
      else s).core d = { s.core d with tallies := ta } := by
    split
    · unfold State.addTally
      rw [setTally_core]
      split
      · rename_i h
        subst h
        exact ⟨_, rfl⟩
      · exact ⟨_, rfl⟩
    · exact ⟨_, rfl⟩
  unfold State.complete
  dsimp only
  obtain ⟨ta, ht⟩ := t
  generalize (if signal && e.sigEnable then
    s.addTally (e.sigCore (s.part p).layout.live.first.toNat) e.sigTally (BitVec.ofNat 32 e.sigIncrement) else s) = x at ht ⊢
  obtain ⟨tg, lo, pr, hb⟩ := b (x.collDone e.kind)
  obtain ⟨qs, si, ha⟩ := a (if st ≠ stDONE ∨ e.record then (x.collDone e.kind).writeRecord c e.kind e.tag st flags
    else x.collDone e.kind)
  exact ⟨ta, tg, lo, pr, qs, si, by rw [ha, hb, (collDone_same _ _).core_eq rfl, ht]⟩

/-- A part of a core that a completion does not reach. -/
theorem complete_keeps_core {γ : Type} (g : Core → γ) (s : State) (p c : Nat) (e : Entry) (st flags : Half)
    (signal : Bool) (d : Nat) (hg : ∀ (k : Core) (ta tg : _) (lo pr : _) (qs : _) (si : _), g { k with
      tallies := ta, tags := tg, lost := lo, producer := pr, qstate := qs, stopInfo := si } = g k) :
    g ((s.complete p c e st flags signal).core d) = g (s.core d) := by
  obtain ⟨ta, tg, lo, pr, qs, si, h⟩ := complete_core s p c e st flags signal d
  rw [h, hg]

/-- Where the queue stands after a completion (R136). -/
theorem complete_qstate (s : State) (p c : Nat) (e : Entry) (st flags : Half) (signal : Bool) (d : Nat) :
    ((s.complete p c e st flags signal).core d).qstate
      = if c = d ∧ stopsQueue st = true ∧ (s.core d).qstate ≠ .partStopped then .stopped else (s.core d).qstate := by
  have b : ∀ x : State, ((if st ≠ stDONE ∨ e.record then x.writeRecord c e.kind e.tag st flags else x).core d).qstate
      = (x.core d).qstate := by
    intro x
    split
    · obtain ⟨g, hg⟩ := writeRecord_core x c e.kind e.tag st flags d
      rw [hg]
      split
      · rename_i h
        subst h
        by_cases h : (x.core c).ringFree < (if stopsQueue st then 1 else 2)
        · simp only [if_pos h]
        · simp only [if_neg h]
      · rfl
    · rfl
  have t : ((if signal && e.sigEnable then
      s.addTally (e.sigCore (s.part p).layout.live.first.toNat) e.sigTally (BitVec.ofNat 32 e.sigIncrement)
      else s).core d).qstate = (s.core d).qstate := by
    split
    · unfold State.addTally
      rw [setTally_core]
      split
      · rename_i h
        subst h
        rfl
      · rfl
    · rfl
  unfold State.complete
  dsimp only
  by_cases hs : stopsQueue st = true
  · rw [if_pos hs, stopQueue_core]
    by_cases hc : c = d
    · subst hc
      simp only [if_true]
      rw [b, (collDone_same _ _).core_eq rfl, t]
      cases (s.core c).qstate <;> simp [hs]
    · simp only [hc, false_and, if_false]
      rw [b, (collDone_same _ _).core_eq rfl, t]
  · rw [if_neg hs, b, (collDone_same _ _).core_eq rfl, t]
    simp [hs]

/-- The record of a completion (R166 to R168): written into its slot, lost for want of one, or none. -/
theorem complete_record (s : State) (p c : Nat) (e : Entry) (st flags : Half) (signal : Bool) :
    (st = stDONE ∧ e.record = false → (s.complete p c e st flags signal).mem = s.mem ∧
      ((s.complete p c e st flags signal).core c).producer = (s.core c).producer ∧
      ((s.complete p c e st flags signal).core c).lost = (s.core c).lost) ∧
    (st ≠ stDONE ∨ e.record = true → (s.core c).ringFree < (if stopsQueue st then 1 else 2) →
      (s.complete p c e st flags signal).mem = s.mem ∧
      ((s.complete p c e st flags signal).core c).producer = (s.core c).producer ∧
      ((s.complete p c e st flags signal).core c).lost = (s.core c).lost + 1) ∧
    (st ≠ stDONE ∨ e.record = true → ¬ (s.core c).ringFree < (if stopsQueue st then 1 else 2) →
      (s.complete p c e st flags signal).mem = memPut s.mem (addrLocal (s.core c).cpl.live.base.toNat
        + 16 * ((s.core c).producer.toNat % 2 ^ fld (s.core c).cpl.live.entries 0 5))
        (recordOf c e.kind e.tag s.stitch32 st flags) ∧
      ((s.complete p c e st flags signal).core c).producer = (s.core c).producer + 1 ∧
      ((s.complete p c e st flags signal).core c).lost = (s.core c).lost) := by
  have a : ∀ x : State, (if stopsQueue st then x.stopQueue c e.tag st else x).mem = x.mem ∧
      ((if stopsQueue st then x.stopQueue c e.tag st else x).core c).producer = (x.core c).producer ∧
      ((if stopsQueue st then x.stopQueue c e.tag st else x).core c).lost = (x.core c).lost := by
    intro x
    split
    · refine ⟨(State.stopQueue_keeps (fp := 0x208040) rfl _ _ _ _ (Same.refl x)).mem_eq rfl, ?_, ?_⟩ <;>
        rw [stopQueue_core, if_pos rfl]
    · exact ⟨rfl, rfl, rfl⟩
  have t : ∃ ta y, (if signal && e.sigEnable then
      s.addTally (e.sigCore (s.part p).layout.live.first.toNat) e.sigTally (BitVec.ofNat 32 e.sigIncrement) else s) = y
      ∧ y.core c = { s.core c with tallies := ta } ∧ y.mem = s.mem ∧ y.stitch32 = s.stitch32 := by
    split
    · have w := State.addTally_keeps (fp := 0x84C0) rfl s (e.sigCore (s.part p).layout.live.first.toNat) e.sigTally
        (BitVec.ofNat 32 e.sigIncrement) (Same.refl s)
      have m := w.mem_eq rfl
      have tb := w.tb.resolve_left (by decide)
      unfold State.addTally
      unfold State.addTally at m tb
      by_cases h : e.sigCore (s.part p).layout.live.first.toNat = c
      · exact ⟨_, _, rfl, by rw [setTally_core, if_pos h, h], m, by unfold State.stitch32; rw [tb]⟩
      · exact ⟨_, _, rfl, by rw [setTally_core, if_neg h], m, by unfold State.stitch32; rw [tb]⟩
    · exact ⟨_, _, rfl, rfl, rfl, rfl⟩
  unfold State.complete
  dsimp only
  obtain ⟨ta, x, hx, hc', hm', hs'⟩ := t
  rw [hx]
  have w := collDone_same x e.kind
  have hc : (x.collDone e.kind).core c = { s.core c with tallies := ta } := by rw [w.core_eq rfl, hc']
  have hm : (x.collDone e.kind).mem = s.mem := by rw [w.mem_eq rfl, hm']
  have hs : (x.collDone e.kind).stitch32 = s.stitch32 := by
    rw [← hs']
    unfold State.stitch32
    rw [w.tb.resolve_left (by decide)]
  generalize x.collDone e.kind = y at hc hm hs ⊢
  have rf : (y.core c).ringFree = (s.core c).ringFree := by rw [hc]; rfl
  obtain ⟨a1, a2, a3⟩ := a (if st ≠ stDONE ∨ e.record then y.writeRecord c e.kind e.tag st flags else y)
  rw [a1, a2, a3]
  refine ⟨fun h => ?_, fun h hf => ?_, fun h hf => ?_⟩
  · have : ¬ (st ≠ stDONE ∨ e.record = true) := by simp [h]
    rw [if_neg this, hc, hm]
    exact ⟨rfl, rfl, rfl⟩
  · obtain ⟨g, hg⟩ := writeRecord_core y c e.kind e.tag st flags c
    rw [if_pos h, writeRecord_mem, hg, rf, if_pos hf, hm, if_pos rfl]
    simp only [if_pos hf]
    rw [hc]
    exact ⟨trivial, rfl, rfl⟩
  · obtain ⟨g, hg⟩ := writeRecord_core y c e.kind e.tag st flags c
    rw [if_pos h, writeRecord_mem, hg, rf, if_neg hf, hm, if_pos rfl, hs]
    simp only [if_neg hf]
    rw [hc]
    exact ⟨rfl, rfl, rfl⟩

/-! ### Bytes stored one by one -/

theorem memPut_snoc (m : Mem) (a : Nat) (bs : List Byte) (b : Byte) :
    memPut m a (bs ++ [b]) = memWrite (memPut m a bs) (a + bs.length) b := by
  induction bs generalizing m a with
  | nil => rfl
  | cons c bs ih =>
    simp only [List.cons_append, memPut, List.length_cons]
    rw [ih]
    congr 1
    omega

/-- Runs stored in order are their bytes stored in order. -/
theorem joinRuns_store (ws : List (Nat × Byte)) (m : Mem) :
    (joinRuns ws).foldl (fun m r => memPut m r.1 r.2) m = memStore m ws := by
  have key : ∀ (ws : List (Nat × Byte)) (acc : List (Nat × List Byte)),
      ((ws.foldl (fun acc w => match acc with
        | (a, bs) :: rest => if w.1 = a + bs.length then (a, w.2 :: bs) :: rest
                             else (w.1, [w.2]) :: (a, bs) :: rest
        | [] => [(w.1, [w.2])]) acc).reverse.map fun r => (r.1, r.2.reverse)).foldl
          (fun m r => memPut m r.1 r.2) m
      = ws.foldl (fun m w => memWrite m w.1 w.2)
          ((acc.reverse.map fun r => (r.1, r.2.reverse)).foldl (fun m r => memPut m r.1 r.2) m) := by
    intro ws
    induction ws with
    | nil => intro acc; rfl
    | cons w ws ih =>
      intro acc
      rw [List.foldl_cons, List.foldl_cons, ih]
      congr 1
      match acc with
      | [] => rfl
      | (a, bs) :: rest =>
        dsimp only
        split
        · rename_i h
          simp only [List.reverse_cons, List.map_append, List.foldl_append, List.map_cons, List.map_nil,
            List.foldl_cons, List.foldl_nil]
          rw [memPut_snoc, List.length_reverse, ← h]
        · simp only [List.reverse_cons, List.map_append, List.foldl_append, List.map_cons, List.map_nil,
            List.foldl_cons, List.foldl_nil, List.reverse_nil, List.nil_append]
          rfl
  exact key ws []

/-- The memory after single bytes are stored. -/
theorem storeBytes_mem (s : State) (ws : List (Nat × Byte)) : (s.storeBytes ws).mem = memStore s.mem ws := by
  rw [← joinRuns_store]
  unfold State.storeBytes
  generalize joinRuns ws = l
  induction l generalizing s with
  | nil => rfl
  | cons r l ih => rw [List.foldl_cons, List.foldl_cons, ih, State.storeRun_mem]

/-- A byte after single bytes are stored: the last one written there, else what stood there. -/
theorem memRead_memStore (m : Mem) (ws : List (Nat × Byte)) (n : Nat) :
    memRead (memStore m ws) n = ((ws.reverse.find? (·.1 == n)).map (·.2)).getD (memRead m n) := by
  induction ws using List.reverseRecOn with
  | nil => rfl
  | append_singleton ws w ih =>
    unfold memStore at ih ⊢
    rw [List.foldl_append, List.foldl_cons, List.foldl_nil, memRead_memWrite, List.reverse_append]
    simp only [List.reverse_cons, List.reverse_nil, List.nil_append, List.singleton_append, List.find?_cons]
    by_cases h : w.1 = n
    · simp [h]
    · rw [if_neg h, ih, (by simp [h] : (w.1 == n) = false)]

/-- Bytes stored elsewhere leave a byte as it was. -/
theorem storeBytes_outside {s : State} {ws : List (Nat × Byte)} {n : Nat} (h : ∀ w ∈ ws, w.1 ≠ n) :
    memRead (s.storeBytes ws).mem n = memRead s.mem n := by
  rw [storeBytes_mem, memRead_memStore, List.find?_eq_none.2]
  · rfl
  · intro w hw
    simpa using h w (List.mem_reverse.1 hw)

/-- Single bytes stored change of a core its tags alone. -/
theorem storeBytes_core (s : State) (ws : List (Nat × Byte)) (c : Nat) :
    ∃ g, (s.storeBytes ws).core c = { s.core c with tags := g } := by
  unfold State.storeBytes
  generalize joinRuns ws = l
  induction l generalizing s with
  | nil => exact ⟨_, rfl⟩
  | cons r l ih =>
    rw [List.foldl_cons]
    obtain ⟨g, hg⟩ := ih (s.storeRun r.1 r.2)
    obtain ⟨t, ht⟩ := storeRun_core s r.1 r.2 c
    exact ⟨g, by rw [hg, ht]⟩

/-! ### What a stop leaves of cores -/

theorem freeRange_core (s : State) (a n c : Nat) : ∃ g, (s.freeRange a n).core c = { s.core c with tags := g } :=
  storeRun_core s a _ c

/-- A fold of a function that maps each listed core and leaves of the others all but their tags. -/
theorem foldl_stopped_core (l : List Nat) (s : State) (c : Nat) :
    (l.foldl (fun s c => s.updCore c Core.stopped) s).core c
      = if c ∈ l then (s.core c).stopped else s.core c := by
  induction l generalizing s with
  | nil => simp
  | cons a l ih =>
    rw [List.foldl_cons, ih, State.core_updCore]
    by_cases h : c = a
    · subst h
      by_cases hl : c ∈ l <;> simp [hl, Core.stopped]
    · simp [h, Ne.symm h]

/-- What the discard of a partition's work leaves of a core. -/
theorem discard_core (s : State) (p c : Nat) : ∃ g, (s.discard p).core c
    = if c ∈ s.coresOf p then { (s.core c).stopped with tags := g } else { s.core c with tags := g } := by
  have a : ∀ (l : List (Nat × Nat)) (x : State), ∃ g, (l.foldl (fun s x => s.freeRange x.1 x.2) x).core c
      = { x.core c with tags := g } := by
    intro l
    induction l with
    | nil => exact fun x => ⟨_, rfl⟩
    | cons y l ih =>
      intro x
      obtain ⟨g, hg⟩ := ih (x.freeRange y.1 y.2)
      obtain ⟨t, ht⟩ := freeRange_core x y.1 y.2 c
      exact ⟨g, by rw [List.foldl_cons, hg, ht]⟩
  unfold State.discard
  dsimp only
  generalize (s.coresOf p).flatMap (s.openExtents p) ++ (s.part p).sched.accum.map (fun x => (x.1, x.2.1))
    ++ (s.coll.runs.filter (·.part == p)).flatMap (fun r => r.chk.writeExtents) = exts
  obtain ⟨g, hg⟩ := a exts s
  have b := foldl_stopped_core (s.coresOf p) ((exts.foldl (fun s x => s.freeRange x.1 x.2) s).freeLedger p) c
  rw [(State.freeLedger_keeps (fp := 0x800) rfl _ p (Same.refl _)).core_eq rfl, hg] at b
  refine ⟨g, ?_⟩
  refine Eq.trans ?_ (b.trans ?_)
  · obtain ⟨y, hy⟩ : ∃ y, y = (s.coresOf p).foldl (fun s c => s.updCore c Core.stopped)
        ((exts.foldl (fun s x => s.freeRange x.1 x.2) s).freeLedger p) := ⟨_, rfl⟩
    rw [← hy]
    refine Same.core_eq (m := 0x248C00) ?_ rfl c
    refine Same.set_train rfl (kept_foldl _ _ _ (fun s k h => State.updHport_keeps rfl _ _ _ h)
      (kept_foldl _ _ _ (fun s k h => State.closeSkein_keeps rfl _ _ h) ?_))
    constructor <;>
      first | exact Or.inr rfl | exact Or.inl rfl | rfl | exact id | exact Or.inr fun _ h => h
  · by_cases h : c ∈ s.coresOf p <;> simp [h, Core.stopped]

theorem clearCore_core (s : State) (d c : Nat) :
    ∃ g, (s.clearCore d).core c = { s.core c with tags := g } := by
  unfold State.clearCore
  rw [(State.zeroRange_keeps (fp := 0x208004) rfl _ _ _ (State.zeroRange_keeps rfl _ _ _ (Same.refl _))).core_eq rfl,
    State.core_updCore]
  split
  · rename_i h
    subst h
    exact ⟨_, rfl⟩
  · exact ⟨_, rfl⟩

/-- What a stop leaves of a core: its queue and engines empty where it belongs to the partition, its tallies always. -/
theorem stopPart_core (s : State) (p : Nat) (cause : Half) (keep : Bool) (c : Nat) :
    ∃ g, (s.stopPart p cause keep).core c
      = if (s.part p).active = true ∧ c ∈ s.coresOf p then { (s.core c).stopped with tags := g }
        else { s.core c with tags := g } := by
  unfold State.stopPart
  cases ha : (s.part p).active
  · exact ⟨(s.core c).tags, by simp⟩
  · simp only [Bool.not_true, Bool.false_eq_true, if_false, true_and]
    have e : ∀ x : State, ((((x.emptyContexts p).queuesOf p HQueue.discard).updPart p fun q =>
        q.stop cause keep).raiseCause p 2).core c = x.core c := by
      intro x
      rw [(State.raiseCause_keeps (fp := 0x208000) rfl _ _ _ (Same.refl _)).core_eq rfl, State.core_updPart,
        (State.queuesOf_keeps (fp := 0x8100) rfl _ _ _ (State.emptyContexts_keeps rfl _ _ (Same.refl x))).core_eq rfl]
    obtain ⟨g, hg⟩ := discard_core s p c
    have f : ∀ (l : List Nat) (x : State), ∃ g, (l.foldl State.clearCore x).core c = { x.core c with tags := g } := by
      intro l
      induction l with
      | nil => exact fun x => ⟨_, rfl⟩
      | cons a l ih =>
        intro x
        obtain ⟨g, hg⟩ := ih (x.clearCore a)
        obtain ⟨t, ht⟩ := clearCore_core x a c
        exact ⟨g, by rw [List.foldl_cons, hg, ht]⟩
    rw [e]
    split
    · obtain ⟨t, ht⟩ := f ((s.discard p).coresOf p) (s.discard p)
      refine ⟨t, by rw [ht, hg]; split <;> rfl⟩
    · exact ⟨g, hg⟩

/-- A stop and a fault leave every tally. -/
theorem stopPart_tallyOf (s : State) (p : Nat) (cause : Half) (keep : Bool) (c n : Nat) :
    (s.stopPart p cause keep).tallyOf c n = s.tallyOf c n := by
  unfold State.tallyOf
  obtain ⟨g, hg⟩ := stopPart_core s p cause keep c
  rw [hg]
  split <;> rfl

theorem fault_tallyOf (s : State) (st : Half) (cls kind unit : Nat) (parts : List Nat) (d0 d1 c n : Nat) :
    (s.fault st cls kind unit parts d0 d1).tallyOf c n = s.tallyOf c n := by
  unfold State.fault
  dsimp only
  rw [(State.recordFault_keeps (fp := 0x20C000) rfl _ _ _ _ _ _ _ _ (Same.refl _)).tallyOf_eq rfl]
  refine foldl_same (fun s : State => s.tallyOf c n) _ (fun s p => ?_) parts s
  split
  · exact stopPart_tallyOf ..
  · rfl

/-- A completion without its signal reaches memory, the state of the memories, cores, the count of
collectives and the hosts alone. -/
theorem complete_unsignalled {fp : Nat} {z : State} (hm : 0x20884C &&& fp = 0x20884C) (s : State) (p c : Nat) (e : Entry)
    (st flags : Half) (h : Same fp z s) : Same fp z (s.complete p c e st flags false) := by
  unfold State.complete
  dsimp only
  simp only [Bool.false_and, Bool.false_eq_true, if_false]
  have h := State.collDone_keeps (sub_of hm rfl) s e.kind h
  generalize s.collDone e.kind = s at h ⊢
  have w : Same fp z (if st ≠ stDONE ∨ e.record then s.writeRecord c e.kind e.tag st flags else s) :=
    kept_ite _ _ _ (State.writeRecord_keeps (sub_of hm rfl) _ _ _ _ _ _ h) h
  exact kept_ite _ _ _ (State.stopQueue_keeps (sub_of hm rfl) _ _ _ _ w) w

end Sys2Proof.Machine
end

