-- ==== Sys2Proof/Tests/Slice0.lean ====
section
/-! SUPPORT. Tests/Slice0.lean: commands that no agent can send are told apart (the wf_ tests), a witness of the
hypotheses of every statement (the meets_ theorems), and single steps of single rows (the test_ theorems). -/

namespace Sys2Proof.Tests

set_option Elab.async false

open Machine

/-- The next state that a command answers, the reset state where it answers none. -/
def next (o : Host.Outcome State Fault Refusal) : State :=
  match o with
  | .next t => t
  | _ => State.reset

/-- Whether a command answers the model's own fault. -/
def malformed (o : Host.Outcome State Fault Refusal) : Bool :=
  match o with
  | .fault .malformedCommand => true
  | _ => false

/-- The state after a command. -/
def after (c : Instr) (s : State) : State := next (exec c s)

/-- A layout of one shelf from shelf 0, on Yepecy port 0, with context 0. -/
def lay : Layout := { Layout.reset with count := 1, ctxMask := 1 }

/-- Four windows, the first of 1 MiB at 0. -/
def wins : List (Word × Word) := [(0, 4), (0, 0), (0, 0), (0, 0)]

/-- A running partition of one shelf. -/
def part0 : Part := { Part.reset with layout := ⟨lay, lay⟩, windows := ⟨wins, wins⟩, state := .running }

/-- A module that is ready, its six fabric ports and its Yepecy port 0 in service. -/
def base : State := { State.reset with
  power := { State.reset.power with boot := .ready },
  locked := 0xFFFFFFFFFF,
  parts := [(0, part0)],
  links := { State.reset.links with ports := (List.range 6).map fun k => (k, { Link.reset k with state := 5 }) },
  host := { State.reset.host with ports := [(0, { HostPort.reset with state := 3 })] } }

/-- base with partition 0 changed. -/
def withPart (f : Part → Part) : State := base.updPart 0 f

/-- base with core 0 changed. -/
def withCore (f : Core → Core) : State := base.updCore 0 f

/-- base with fabric port 0 changed. -/
def withLink (f : Link → Link) : State := base.updLink 0 f

/-- base in a state of start-up. -/
def booted (b : Boot) : State := { base with power := { base.power with boot := b } }

/-- base with Yepecy port 0 changed. -/
def withHost (f : HostPort → HostPort) : State := base.updHport 0 f

/-- A state with a line owned by the host of Yepecy port 0. -/
def owned (l : Nat) (s : State) : State := s.updHport 0 fun h => { h with directory := [(l, true)] }

/-- base with Yepecy port 0 in a state, after some HELLOs. -/
def trained (st n : Nat) : State := withHost fun h => { h with state := st, hellos := n }

/-! ### Reset, power, ports -/

/-- RESET: the three ranges of the pulse, at their ends. -/
theorem meets_ResetRestartsTheModule : (249 < 250 ∧ 250 ≤ 250 ∧ 999 < 1000 ∧ 1000 ≤ 1000) ∧ base.power.boot ≠ .off := by
  decide +kernel

theorem meets_StartUpAndInputCuts :
    ((booted .off).power.boot = .off ∧ (booted .off).power.overvolt = false) ∧
    (booted .booting).power.boot = .booting ∧ (booted .railsUp).power.boot = .railsUp ∧
    ((booted .hbmTrained).power.boot = .hbmTrained ∧ (booted .hbmTrained).power.settling = false) ∧
    (let s := (booted .hbmTrained).updSlot 0 fun x => { x with state := 3 }
     s.power.boot = .hbmTrained ∧ (s.slot s.fw.running).state = 3) ∧
    base.power.boot ≠ .off := by
  decide +kernel

theorem meets_PowerAndThermalEvents :
    base.power.boot ≠ .off ∧ base.limitNow.toNat < 2601 ∧ 2600 ≤ base.limitNow.toNat ∧
    sensorUnit (.compute 7) = .inl (2, 7) ∧ sensorUnit (.hbm 0) = .inl (3, 0) ∧ sensorUnit (.optical 0) = .inr 0 ∧
    sensorUnit (.optical 15) = .inr 5 := by
  decide +kernel

theorem meets_TestPortInstructions : 2 < (0xFF : BitVec 8).toNat ∧
    base.jtag ≠ .extest ∧ ({ base with jtag := .extest } : State).jtag = .extest := by decide +kernel

theorem meets_PortsComeUp :
    (((withLink fun l => { l with state := 1 }).link 0).state = 1 ∧
      (withLink fun l => { l with state := 1 }).retrainOk 0 = true) ∧
    (((withLink fun l => { l with state := 8 }).link 0).state = 8 ∧
      (withLink fun l => { l with state := 8 }).retrainOk 0 = true) ∧
    (((withLink fun l => { l with state := 2 }).link 0).state = 2 ∧
      (((withLink fun l => { l with state := 2 }).link 0).bringSpares 0 []).isSome = true ∧
      ((withLink fun l => { l with state := 2 }).link 0).bringSpares 0 (List.range 9) = none) ∧
    (((withHost fun h => { h with state := 0 }).hport 0).state = 0 ∧
      (withHost fun h => { h with state := 0 }).hostMayRise 0 = true ∧ (trained 1 0).hport 0 ≠ base.hport 0 ∧
      ((trained 1 0).hport 0).state = 1) ∧
    (3 ≤ (base.link 0).state.toNat ∧ (base.link 0).state.toNat ≤ 7) := by
  decide +kernel

/-- A frame of n bytes, zero but for those listed. -/
def bytesOf (n : Nat) (l : List (Nat × Byte)) : List Byte := (List.range n).map fun i => Sparse.get 0 l i

/-- An identity frame as the neighbour on link 0 sends it: protocol 3, its port 1, its id 1. -/
def goodFrame : List Byte := bytesOf 64 [(0, 1), (1, 1), (6, 3), (12, 1)]

/-- Port 0 in stage 3, with n good frames behind it. -/
def stage3 (n : Nat) : State := withLink fun l => { l with state := 3, good := n }

/-- Port 0 in stage 4, with n exchanges behind it. -/
def stage4 (n : Nat) : State := withLink fun l => { l with state := 4, echoes := List.replicate n 40 }

theorem meets_PortsComeUp_frames :
    (goodFrame.length = 64 ∧ ((stage3 0).link 0).state = 3 ∧ (stage3 0).judgeFrame 0 goodFrame = .pass ∧
      2 ≤ ((stage3 2).link 0).good ∧ (stage3 2).judgeFrame 0 goodFrame = .pass) ∧
    ((List.replicate 64 (0 : Byte)).length = 64 ∧ (stage3 0).judgeFrame 0 (List.replicate 64 0) = .version) ∧
    (bytesOf 64 [(6, 3)]).length = 64 ∧ (stage3 0).judgeFrame 0 (bytesOf 64 [(6, 3)]) = .miswired ∧
    ((stage4 0).link 0).answers = true ∧ ((stage4 14).link 0).echoes.length < 15 ∧
    ((stage4 15).link 0).echoes.length = 15 ∧ (stage4 15).tb.latency.length = 6 ∧ ((stage4 15).link 0).state = 4 := by
  decide +kernel

/-- base under route_hold. -/
def heldBase : State := { base with fabric := { base.fabric with hold := true } }

theorem meets_PortsComeUp_room :
    (withLink fun l => { l with state := 2 }).maintRoom 0 6 = true ∧ (stage3 2).maintRoom 0 6 = true ∧
    (stage3 2).maintRoom 0 3 = true ∧ (stage4 0).maintRoom 0 9 = true ∧ (stage4 14).maintRoom 0 3 = true ∧
    base.maintRoom 0 4 = true ∧ ((stage4 0).link 0).echoes = [] ∧ heldBase.maintRoom 0 6 = false := by
  decide +kernel

/-- R475: the third good frame in a row opens stage 4; R477: the sixteenth exchange ends it, with half the median. -/
theorem test_identity_third : ((after (.identity 0 goodFrame) (stage3 2)).link 0).state = 4 := by decide +kernel

theorem test_echo_sixteenth : ((after (.echoReply 0 50 10) (stage4 15)).link 0).state = 5 ∧
    (after (.echoReply 0 50 10) (stage4 15)).tb.latency[0]? = some 20 := by decide +kernel

theorem meets_PortFaultsLeaveService :
    (2 ≤ ((stage3 0).link 0).state.toNat ∧ ((stage3 0).link 0).state.toNat ≤ 4) ∧
    (((stage4 1).link 0).state = 4 ∧ ((stage4 1).link 0).echoes ≠ [] ∧ ((stage4 0).link 0).echoes = []) ∧
    (base.link 0).farSlices = [] ∧
    (let s := withLink fun l => { l with farSlices := [9] }
     s.portParts 0 = [] ∧ (s.link 0).state = 5 ∧ (s.link 0).farSlices ≠ []) ∧
    (base.portParts 0 = [] ∧ (base.link 0).state ≠ 0) ∧
    ({ base with parts := [(0, { part0 with patState := .running, place := ⟨part0.place.sh, { part0.place.live with
        tag := 1, size := 1 }⟩ })] } : State).portParts 0 ≠ [] := by
  decide +kernel

theorem meets_LockLossAndParity :
    (base.locked.toNat.testBit 0 = true ∧ base.locked.toNat.testBit 15 = true ∧ base.locked.toNat.testBit 16 = true ∧
      base.locked.toNat.testBit 27 = true ∧ base.locked.toNat.testBit 28 = true ∧
      base.locked.toNat.testBit 33 = true ∧ base.locked.toNat.testBit 39 = true) ∧
    base.partsOnDie 0 = [0] ∧ base.partOf 7 = some 0 := by
  decide +kernel

/-- base with the given memory state. -/
def withMem (f : MemStat → MemStat) : State := { base with memStat := f base.memStat }

theorem meets_WearProgramme :
    cellarCore (cellarBase + 256 * 67108863) < 512 ∧ cellarCore (cellarBase + 256 * 67108863) < base.coreCount ∧
    ((8388608 : Nat) ∈ (withMem fun m => { m with linesPending := [8388608] }).memStat.linesPending ∧
      (withMem fun m => { m with linesPending := [8388608] }).shelfIdle (8388608 / 131072 / 8) = true ∧
      (withMem fun m => { m with linesPending := [8388608] }).sparesOf (bankOf 8388608) ≠ 0) ∧
    ((5 : Nat) ∈ (withMem fun m => { m with repairsPending := [5] }).memStat.repairsPending ∧
      (∀ p < 16, (({ withMem (fun m => { m with repairsPending := [5] }) with parts := [] } : State).part p).active
        = false) ∧ base.memStat.repairsFree.getD (5 % 384 % 12) 0 ≠ 0) ∧
    (((base.updCore 511 fun k => { k with marked := true }).core 511).marked = true ∧
      (base.updCore 511 fun k => { k with marked := true }).shelfIdle (511 / 8) = true ∧ 511 < base.coreCount ∧
      (substitute (base.hw.dieMap.getD (511 / 64) []) (511 % 64)).isSome = true) ∧
    ((55 : Nat) ∈ ({ base with coll := { base.coll with markedUnits := [55] } } : State).coll.markedUnits ∧
      ∀ p < 16, (base.part p).patterned = false) := by
  decide +kernel

/-! ### The queue and the control block -/

theorem meets_StepRunsTheFrontCommand :
    ({ base with pending := [.bypass, .idcode] } : State).pending = .bypass :: [.idcode] ∧ base.pending = [] := by
  decide +kernel

theorem meets_EveryCommandCompletes :
    Instr.wf .bypass = true ∧ (next (exec .bypass base)).pending = base.pending ∧
    malformed (exec (.identity 0 []) base) = true := by
  decide +kernel

theorem meets_StepKeepsMemoryCanonical :
    memWf base.mem = true ∧ step base = .next base := ⟨by decide +kernel, rfl⟩

theorem meets_FusesOnlyAdvance : step base = .next base := rfl

/-- R477: the one command that puts a port into service. -/
theorem meets_PortsEnterServiceByEchoAlone :
    ((after (.echoReply 0 50 10) (stage4 15)).link 0).state = 5 ∧ ((stage4 15).link 0).state ≠ 5 := by decide +kernel

/-- n entries in a queue. -/
def blocks (n : Nat) : List Entry :=
  List.replicate n { words := [], startWords := 0, badMagic := false, fromStream := false, segClass := 0 }

/-- base where the domain of compute die 0 has lost lock. -/
def unlocked : State := { base with locked := 0xFFFFFFFFFE }

/-- R29: the way to a core, open and closed. -/
theorem meets_Reaches : base.Reaches 0 0 0 ∧ base.Reaches 0 7 0 ∧ unlocked.Owns 0 7 0 ∧
  unlocked.coreOpen 7 = false := by
  unfold State.Reaches State.Owns; decide +kernel

theorem meets_StartEnqueuesTheStagedBlock :
    (base.partOf 7 = some 0 ∧ base.boundTo 0 0 = true) ∧ base.partOf 8 = none ∧ base.boundTo 0 1 = false ∧
    (fld (0x53530000 : Word) 16 16 ≠ 0x5354 ∧ 96 < fld (0x53540061 : Word) 0 7) ∧
    (fld (0x53540060 : Word) 16 16 = 0x5354 ∧ fld (0x53540060 : Word) 0 7 ≤ 96) ∧
    64 ≤ ((withCore fun k => { k with queue := blocks 64 }).core 0).queue.length ∧
    ((withCore fun k => { k with queue := blocks 63 }).core 0).queue.length < 64 ∧
    ((withPart fun q => { q with patState := .running }).part 0).patState = .running ∧
    (base.part 0).patState ≠ .running := by
  decide +kernel

/-- R130: the staged words enter the queue; R155: 97 words do not. -/
theorem test_start :
    ((after (.start 0 0 0x53540008) (withCore fun k => { k with stage := [(7, 9)] })).core 0).queue.map (·.words)
      = [[0, 0, 0, 0, 0, 0, 0, 9]] ∧
    ((after (.start 0 0 0x53540061) base).core 0).refused = true := by
  decide +kernel

theorem meets_QueueControl :
    base.partOf 0 = some 0 ∧ base.boundTo 0 0 = true ∧
    ((withCore fun k => { k with qstate := .stopped }).core 0).qstate = .stopped ∧
    (base.core 0).qstate ≠ .stopped ∧ (base.part 0).active = true ∧
    ((withPart fun q => { q with state := .stopped }).part 0).active = false := by
  decide +kernel

/-- R172: one write of all three bits to a stopped queue. -/
theorem test_queue_ctrl :
    ((after (.registerWrite 0 0x188 7) (withCore fun k =>
        { k with qstate := .stopped, queue := blocks 2, refused := true })).core 0)
      = (base.core 0) := by
  decide +kernel

/-- The staged words of a descriptor of 16 FP32 elements at 0x40000. -/
def staged : Sparse Word := [(0, 0x00200000), (4, 0x40000), (10, 16), (16, 4)]

/-- The descriptor of 16 FP32 elements at 0x40000. -/
def desc16 : Desc := Desc.ofWords 0 fun i => Sparse.get 0 staged i

theorem meets_DescriptorRegisters :
    ((withCore fun k => { k with busy := true }).core 0).busy = true ∧ (base.core 0).busy = false ∧
    (withCore fun k => { k with descStage := staged }).descStatus 0 desc16 = stDONE ∧
    base.descStatus 0 (Desc.ofWords 0 fun i => Sparse.get 0 (base.core 0).descStage i) ≠ stDONE ∧
    Sparse.find ((withPart fun q => { q with descs := [(1023, desc16)] }).part 0).descs 1023 = some desc16 ∧
    Sparse.find (base.part 0).descs 0 = none := by
  decide +kernel

/-- R143: a good commit, then the end of the copy. -/
theorem test_desc_commit :
    Sparse.find ((after (.descCopyDone 0) (after (.descCommit 0 0 5) (withCore fun k =>
      { k with descStage := staged }))).part 0).descs 5 = some desc16 := by
  decide +kernel

/-- base with the shadow of core 0's ring. -/
def ring (b : Long) (n : Word) : State := withCore fun k => { k with cpl := ⟨⟨b, n⟩, k.cpl.live⟩ }

theorem meets_RingAndTallyRegisters :
    ((after (.cplCommit 0 0) (ring 0x10000 4)).core 0).cplStatus = stDONE ∧
    ((after (.cplCommit 0 0) (ring 0x10000 3)).core 0).cplStatus = stCONFIG ∧
    ((after (.cplCommit 0 0) (ring 0x100000 16)).core 0).cplStatus = stPRIVILEGE ∧
    ((after (.cplCommit 0 0) (ring 0 17)).core 0).cplStatus = stCONFIG ∧
    ((after (.cplCommit 0 0) (ring 0 0)).core 0).cplStatus = stDONE ∧
    ((after (.cplCommit 0 0) (ring (BitVec.ofNat 64 (5 * 2 ^ 51)) 0)).core 0).cplStatus = stPRIVILEGE ∧
    (base.part 0).active = true ∧ ((withPart fun q => { q with state := .stopped }).part 0).active = false := by
  decide +kernel

/-- R159: modulo 2^32. -/
theorem test_tally_add :
    (after (.tallyAddRegister 0 0 255 2) (withCore fun k => { k with tallies := [(255, 0xFFFFFFFF)] })).tallyOf 0 255
      = 1 := by
  decide +kernel

/-! ### Issue and SYNC -/

/-- A SYNC block with an operation, its operand, a value, and words 1 to 3 of the header. -/
def sync (op : Nat) (operand : Word) (value : Word) (w1 w2 w3 : Word) : Entry :=
  { words := [0x51000000, w1, w2, w3, 0, BitVec.ofNat 32 op, operand, value],
    startWords := 8, badMagic := false, fromStream := false, segClass := 0 }

/-- base with an entry in core 0's queue. -/
def queued (e : Entry) : State := withCore fun k => { k with queue := [e] }

/-- base with an entry at issue in core 0, with the descriptors it reads. -/
def atIssue (e : Entry) (ds : Sparse Desc) : State :=
  (base.updPart 0 fun q => { q with descs := ds }).updCore 0 fun k =>
    { k with queue := [e], head := some { entry := e, descs := ds } }

theorem meets_AFailedCheckHasNoSideEffect :
    (queued (sync 0 0 0 0 0 0)).partOf 0 = some 0 ∧ ((queued (sync 0 0 0 0 0 0)).part 0).active = true ∧
    ((queued (sync 0 0 0 0 0 0)).core 0).qstate = .running ∧ ((queued (sync 0 0 0 0 0 0)).core 0).head = none ∧
    ((queued (sync 0 0 0 0 0 0)).core 0).queue = sync 0 0 0 0 0 0 :: [] ∧
    (queued (sync 0 0 0 0 0 0)).issueStatus 0 0 { entry := sync 0 0 0 0 0 0, descs := [] } = stDONE ∧
    (queued (sync 4 0 0 0 0 0)).issueStatus 0 0 { entry := sync 4 0 0 0 0 0, descs := [] } = stHANDLE_INVALID ∧
    stopsQueue stHANDLE_INVALID = true := by
  decide +kernel

/-- R137: a block that names no committed handle completes with its status and stops the queue. -/
theorem test_issue_checks :
    ((after (.issueChecks 0) (queued (sync 4 0 0 0 0 0))).core 0).qstate = .stopped ∧
    ((after (.issueChecks 0) (queued (sync 0 0 0 0 0 0))).core 0).head.isSome = true := by
  decide +kernel

/-- A wait for tally 1 to reach a target. -/
def waitBlock (op : Nat) (target : Word) : Entry := sync op 0 0 0x80000001 target 0x80000000

theorem meets_WaitsHoldUntilTheirTally :
    ((waitBlock 0 0x80000000).kind = 5 ∧ (waitBlock 0 0x80000000).waitEnable = true ∧
      2 ^ 31 ≤ ((0 : Word) - 0x80000000).toNat ∧ ((0 : Word) - 0x80000001).toNat < 2 ^ 31) ∧
    ((atIssue (waitBlock 0 0) []).partOf 0 = some 0 ∧
      ((atIssue (waitBlock 0 0) []).core 0).head = some { entry := waitBlock 0 0, descs := [] } ∧
      ({ entry := waitBlock 0 0, descs := [] } : Checked).noop = false ∧
      (atIssue (waitBlock 0 0) []).holdOf 0 { entry := waitBlock 0 0, descs := [] } = .go ∧
      (waitBlock 0 0).syncOp = 0 ∧ (waitBlock 1 0).syncOp = 1 ∧ (waitBlock 2 0).syncOp = 2 ∧
      (atIssue (waitBlock 1 0) []).outstanding 0 = 0) ∧
    ((atIssue (waitBlock 1 0) []).updCore 0 fun k => { k with row := some ⟨⟨waitBlock 1 0, []⟩, 0, 0,
      none⟩ }).outstanding 0
      ≠ 0 := by
  decide +kernel

/-- R160: the comparison is modulo 2^32. -/
theorem test_wait :
    ((after (.wait 0) (atIssue (waitBlock 0 0x80000000) [])).core 0).queue.length = 1 ∧
    ((after (.wait 0) (atIssue (waitBlock 0 0x80000001) [])).core 0).queue = [] := by
  decide +kernel

/-- A block that signals tally 3 of core 2 by 255 and asks for a record. -/
def signals : Entry :=
  { words := [0x51100007, 0, 0, 0x8080FF03, 0, 2, 0, 0], startWords := 8, badMagic := false, fromStream := false,
    segClass := 0 }

/-- base with a ring of 16 records at 0x10000 in force for core 0. -/
def ringed : State := withCore fun k => { k with cpl := ⟨⟨0x10000, 4⟩, ⟨0x10000, 4⟩⟩ }

theorem meets_CompletionSignalsRecordsAndStops :
    ((true && signals.sigEnable) = true ∧ (false && signals.sigEnable) = false ∧ signals.record = true ∧
      (sync 0 0 0 0 0 0).record = false) ∧
    ((base.core 0).ringFree < 1 ∧ 2 ≤ (ringed.core 0).ringFree) ∧
    stopsQueue stCONFIG = true ∧ stopsQueue stNONFINITE = false ∧ (base.core 0).qstate = .running := by
  decide +kernel

/-- R135, R168: the signal, and the tag in the record. -/
theorem test_complete :
    (ringed.complete 0 0 signals stDONE 0 true).tallyOf 2 3 = 255 ∧
    memRead (ringed.complete 0 0 signals stDONE 0 true).mem 0x10000 = 7 := by
  decide +kernel

/-- A versioned descriptor. -/
def versioned : Desc := { desc16 with versioned := true, twin := 0x50000, version := 4 }

theorem meets_TallySetAndPublish :
    (atIssue (sync 3 255 9 0 0 0) []).ready 0 = some (0, { entry := sync 3 255 9 0 0 0, descs := [] }) ∧
    (sync 3 255 9 0 0 0).sigEnable = false ∧ (sync 3 255 9 0 0 0).syncOp = 3 ∧
    (atIssue (sync 4 1023 0 0 0 0) [(1023, versioned)]).ready 0
      = some (0, { entry := sync 4 1023 0 0 0 0, descs := [(1023, versioned)] }) ∧
    (sync 4 1023 0 0 0 0).syncOperand = 1023 ∧ versioned.versioned = true ∧ desc16.versioned = false ∧
    (∃ a ∈ [({ handle := 1023, step := 0, base := 0x40000, release := 5, exts := [] } : Attic)], a.handle = 1023) := by
  decide +kernel

/-- R153: base and twin change places and the version counts up. -/
theorem test_publish :
    (Sparse.find ((after (.publish 0) (atIssue (sync 4 1023 0 0 0 0) [(1023, versioned)])).part 0).descs 1023).map
      (fun d => (d.base, d.twin, d.version)) = some (0x50000, 0x40000, 5) ∧
    (after (.tallySet 0) (atIssue (sync 3 255 9 0 0 0) [])).tallyOf 0 255 = 9 := by
  decide +kernel

/-! ### Engines -/

/-- No error is reported. -/
def clean : Ecc :=
  { cellarCorrected := [], cellarBad := [], hbmCorrected := [], hbmBad := [], retries := 0, parityBad := [] }

/-- A tensor in the cellar of core 0. -/
def cell (fmt rank off : Nat) (dims : List Nat) (strides : List Int) : Desc :=
  { loc := 1, fmt := fmt, rank := rank, versioned := false, part := 0, key := 0, version := 0,
    base := BitVec.ofNat 64 (cellarBase + off), twin := 0, scale := 0, dims := dims, strides := strides }

/-- A block of a kind and length, every trip count 1 where the kind has them, its other words as listed. -/
def block (kind len : Nat) (ws : Sparse Word) : Entry :=
  { words := (List.range len).map fun i => if i = 0 then BitVec.ofNat 32 (kind <<< 28 ||| len <<< 21)
      else if 5 ≤ i ∧ i ≤ 7 ∧ kind ≤ 4 then 0x00010001 else Sparse.get 0 ws i,
    startWords := len, badMagic := false, fromStream := false, segClass := 0 }

/-- The checked form of an entry. -/
def chk (e : Entry) (ds : Sparse Desc) : Checked := { entry := e, descs := ds }

/-- A MATMUL of A (1 by 1) and B (1 by 1), both BF16, drained to D (FP32). -/
def matmul : Entry := block 1 21 [(8, 0x80000001), (12, 0x80000002), (16, 0x80000003), (20, 0x164)]

/-- Its descriptors. -/
def mmDescs : Sparse Desc := [(1, cell 1 2 0x1000 [1, 1] [2, 2]), (2, cell 1 2 0x2000 [1, 1] [2, 2]),
  (3, cell 0 2 0x3000 [1, 1] [4, 4])]

/-- base with the MATMUL in the array, the tile still to start, or still to drain. -/
def inArray (next : Nat) (undrained : List Nat) : State :=
  (base.updCore 0 fun k => { k with tensor := some ⟨chk matmul mmDescs, 1, next, undrained, [], 0, none, false⟩ })

/-- inArray with 2.0 in A and 3.0 in B. -/
def loaded : State := { inArray 0 [] with
  mem := memPut (memPut [] (cellarBase + 0x1000) [0, 0x40]) (cellarBase + 0x2000) [0x40, 0x40] }

theorem meets_MatmulRuns :
    (atIssue matmul mmDescs).ready 0 = some (0, chk matmul mmDescs) ∧ (chk matmul mmDescs).noop = false ∧
    (atIssue matmul mmDescs).holdOf 0 (chk matmul mmDescs) = .go ∧
    (atIssue matmul mmDescs).overRise matmul.kind = false ∧ matmul.kind = 1 ∧
    ((loaded.core 0).tensor.map (fun r => (r.chk.desc 8).isSome && (r.chk.desc 12).isSome && loaded.tileReady 0 r)
      = some true) ∧
    (((inArray 1 [0]).core 0).tensor.map fun r => (inArray 1 [0]).tileReady 0 r) = some false ∧
    (∀ iv ∈ matmul.tileVectors 0, loaded.badRead clean (iterRanges (chk matmul mmDescs)
      (cell 1 2 0x1000 [1, 1] [2, 2]) (cell 1 2 0x2000 [1, 1] [2, 2]) iv) = false) ∧
    (((inArray 1 [0]).core 0).tensor.map fun r => (r.undrained, r.bad, (r.chk.desc 16).isSome)) = some ([0], none,
      true) ∧
    (inArray 1 [0]).badRead clean (drainRanges (chk matmul mmDescs) (cell 0 2 0x3000 [1, 1] [4, 4]) 0) = false := by
  decide +kernel

/-- A VECTOR of one instruction. -/
def vector (w : Word) (ds : Sparse Word) : Entry := block 2 26 ((24, 1) :: (25, w) :: ds)

/-- LD of slot 0. -/
def ld : Entry := vector 0x04000000 [(8, 0x80000001)]

/-- FNLOAD of table 0 from slot 0. -/
def fnload : Entry := vector 0x64000000 [(8, 0x80000001)]

/-- FN through table 0. -/
def fn0 : Entry := vector 0x60000000 [(8, 0x80000001)]

/-- The image's place. -/
def table : Desc := cell 0 1 0x8000 [2056] [4]

/-- The descriptors of the VECTOR blocks. -/
def vDescs : Sparse Desc := [(1, table)]

/-- fnload at issue, with an image whose header is good. -/
def withTable (h : List Byte) : State := { atIssue fnload vDescs with mem := memPut [] (cellarBase + 0x8000) h }

/-- base with the attic of a handle over a range. -/
def atticOver (a n : Nat) (s : State) : State := s.updPart 0 fun q =>
  { q with attic := [{ handle := 5, step := 0, base := a, release := 9, exts := [(a, n)] }] }

/-- base with a gather of core 1 that holds a range. -/
def gatherOver (a n : Nat) (s : State) : State :=
  let m : MoverRun := { chk := chk (sync 0 0 0 0 0 0) [], phase := .writing, flags := 0, status := stDONE, live := 0,
                        hostLive := 0, hostTodo := [], staging := [], src := none, dst := none, record := none,
                        gatherKey := none, held := [(a, n)] }
  s.updCore 1 fun k => { k with mover := some m }

/-- R414: a drain that meets a hold of each kind, and one that meets none. -/
theorem meets_MatmulRuns_hold :
    let w := fun s : State => (s.drainWrites 0 (chk matmul mmDescs) false (cell 0 2 0x3000 [1, 1] [4, 4])
      (s.envOf 0 matmul) 0).1
    let held := fun s : State => s.heldAgainst 0 s.gatherHolds ((toLocal (w s)).map fun b => (b.1, 1))
    held (inArray 1 [0]) = none ∧ held (atticOver (cellarBase + 0x3003) 1 (inArray 1 [0])) = some false ∧
    held (gatherOver (cellarBase + 0x3000) 1 (inArray 1 [0])) = some true ∧
    held (gatherOver (cellarBase + 0x3004) 4 (inArray 1 [0])) = none := by
  decide +kernel

theorem meets_FunctionTables :
    ((atIssue fn0 vDescs).ready 0 = some (0, chk fn0 vDescs) ∧ (chk fn0 vDescs).noop = false ∧
      (atIssue fn0 vDescs).holdOf 0 (chk fn0 vDescs) = .go ∧ (atIssue fn0 vDescs).overRise fn0.kind = false ∧
      fn0.kind = 2) ∧
    ((atIssue fn0 vDescs).core 0).fnChecked = false ∧ ((atIssue fn0 vDescs).core 0).tablesLoaded fn0 = false ∧
    ((atIssue ld vDescs).core 0).tablesLoaded ld = true ∧
    fnload.instrs = [0x64000000] ∧ vOp 0x64000000 = 25 ∧
      (chk fnload vDescs).desc (8 + 4 * vSlot 0x64000000) = some table ∧
    (withTable []).badRead clean (tableRanges table) = false := by
  decide +kernel

theorem meets_VectorRunsItsIterations :
    (atIssue ld vDescs).ready 0 = some (0, chk ld vDescs) ∧ (chk ld vDescs).noop = false ∧
    (atIssue ld vDescs).holdOf 0 (chk ld vDescs) = .go ∧ (atIssue ld vDescs).overRise ld.kind = false ∧
    ld.kind = 2 ∧ ld.namesTable = false ∧ ld.isFnload = false ∧
    (let v : VecRun :=
      { chk := chk ld vDescs, env := (atIssue ld vDescs).envOf 0 ld, wide := false, fn0 := none, fn1 := none }
     let x := (indexVectors ld.trips).zipIdx.foldl (v.iteration clean 0) ⟨(atIssue ld vDescs).popHead 0, 0, [], false⟩
     x.reads ≠ [] ∧ (x.st.readErrors x.reads clean).2 = none) := by
  decide +kernel

/-- A ROW block of an operation on X and Y, 2 elements of FP32 a row. -/
def row (op : Nat) : Entry := block 3 23 [(8, 0x80000001), (12, 0x80000002), (20, BitVec.ofNat 32 op)]

/-- The descriptors of the ROW blocks, the row at dimension 0. -/
def rowDescs : Sparse Desc := [(1, cell 0 3 0x1000 [2, 2, 1] [4, 8, 16]), (2, cell 0 1 0x2000 [2] [4])]

theorem meets_RowCommandsRunTheirRows :
    (∀ op ∈ [0, 1, 2, 8, 9, 10], (atIssue (row op) rowDescs).ready 0 = some (0, chk (row op) rowDescs) ∧
      (row op).kind = 3 ∧ (row op).rowOp = op ∧ (chk (row op) rowDescs).noop = false ∧
      (atIssue (row op) rowDescs).holdOf 0 (chk (row op) rowDescs) = .go ∧
      (atIssue (row op) rowDescs).overRise (row op).kind = false ∧
      ((chk (row op) rowDescs).desc 8).isSome = true ∧ ((chk (row op) rowDescs).desc 12).isSome = true ∧
      ∀ iv ∈ indexVectors (row op).trips,
        (atIssue (row op) rowDescs).badRead clean (rowReads (chk (row op) rowDescs) iv)
        = false) ∧
    (∃ n ∈ List.range (indexVectors (row 8).trips).length,
      Sparse.find ((atIssue (row 8) rowDescs).core 0).tags ((row 8).rowBase + n) ≠ some (row 8).rowCtx) := by
  decide +kernel

/-- A MOVE: operation, record id, context, run length, reservation. -/
def move (op id ctx len resv : Nat) : Entry := block 4 20 [(8, 0x80000001), (12, 0x80000002),
  (16, BitVec.ofNat 32 (id <<< 16 ||| ctx <<< 4 ||| op)), (17, BitVec.ofNat 32 len), (18, BitVec.ofNat 32 resv)]

/-- Source and destination of the MOVE blocks: 4 FP32 elements each. -/
def mvDescs : Sparse Desc := [(1, cell 0 1 0x1000 [4] [4]), (2, cell 0 1 0x2000 [4] [4])]

/-- A MOVE at issue of a partition that owns context 0, with a larder of 256 KiB in its window. -/
def moving (e : Entry) (ctx : Ctx) : State :=
  { (atIssue e mvDescs).updPart 0 fun q => { q with larder := ⟨⟨0, 1⟩, ⟨0, 1⟩⟩ } with ctxs := [(0, ctx)] }

theorem meets_CopyMovesElements :
    (∀ resv ∈ [0, 65535], (moving (move 0 0 0 4 resv) Ctx.reset).ready 0 = some (0, chk (move 0 0 0 4 resv) mvDescs) ∧
      (chk (move 0 0 0 4 resv) mvDescs).noop = false ∧ (move 0 0 0 4 resv).moveResv = resv ∧
      (move 0 0 0 4 resv).kind = 4 ∧ (move 0 0 0 4 resv).moveOp = 0 ∧
      (moving (move 0 0 0 4 resv) Ctx.reset).holdOf 0 (chk (move 0 0 0 4 resv) mvDescs) = .go ∧
      (moving (move 0 0 0 4 resv) Ctx.reset).overRise 4 = false ∧
      ((moving (move 0 0 0 4 resv) Ctx.reset).accessErrors
        (copyReadRanges (chk (move 0 0 0 4 resv) mvDescs) (cell 0 1 0x1000 [4] [4]) (cell 0 1 0x2000 [4] [4]))
        (copyWriteRanges (chk (move 0 0 0 4 resv) mvDescs) (cell 0 1 0x2000 [4] [4])) clean).2 = none) ∧
    remoteModule (chk (move 0 0 0 4 0) mvDescs) = none ∧
    (chk (move 0 0 0 4 65535) mvDescs).requestClass = false ∧
    (chk (move 0 0 0 4 0) mvDescs).destReads = [] ∧
    (let s := moving (move 0 0 0 4 0) Ctx.reset
     let k := chk (move 0 0 0 4 0) mvDescs
     let w := (copyWrites k (cell 0 1 0x1000 [4] [4]) (cell 0 1 0x2000 [4] [4]) (s.moveReader []) (s.envOf 0 k.entry)).1
     s.heldAgainst 0 (s.gatherHoldsBut 0) ((toLocal (w.map (·.2))).map fun b => (b.1, 1)) = none ∧
      (s.part 0).sched.occs = [] ∧
      (s.accessErrors (copyReadRanges k (cell 0 1 0x1000 [4] [4]) (cell 0 1 0x2000 [4] [4]))
        (copyWriteRanges k (cell 0 1 0x2000 [4] [4])) { clean with cellarBad := [cellarBase + 0x1000] }).2 ≠ none ∧
      (gatherOver (cellarBase + 0x200F) 1 s).heldAgainst 0 ((gatherOver (cellarBase + 0x200F) 1 s).gatherHoldsBut 0)
        ((toLocal (w.map (·.2))).map fun b => (b.1, 1)) = some true) ∧
    ((chk (move 0 0 0 4 0) mvDescs).desc 8 = some (cell 0 1 0x1000 [4] [4])) ∧
    (chk (move 0 0 0 4 0) mvDescs).desc 12 = some (cell 0 1 0x2000 [4] [4]) := by
  decide +kernel

/-- R153: the fourth element arrives. -/
theorem test_copy :
    memRead (after (.copy 0 clean) ({ moving (move 0 0 0 4 0) Ctx.reset with
      mem := memPut [] (cellarBase + 0x100C) [7, 8, 9, 10] })).mem (cellarBase + 0x200F) = 10 := by
  decide +kernel

/-- A context with one record of 256 bytes. -/
def oneRecord (id : Nat) : Ctx := { Ctx.reset with records := [⟨id, 0, 256, true⟩], fill := 256, quota := 512 }

theorem meets_LarderIsAStack :
    (∀ op ∈ [1, 2, 3], (moving (move op 9 0 0 0) (oneRecord 9)).ready 0 = some (0, chk (move op 9 0 0 0) mvDescs) ∧
      (move op 9 0 0 0).moveOp = op ∧ (move op 9 0 0 0).recordId = 9 ∧ (move op 9 0 0 0).moveCtx = 0 ∧
      (chk (move op 9 0 0 0) mvDescs).noop = false ∧
      (moving (move op 9 0 0 0) (oneRecord 9)).holdOf 0 (chk (move op 9 0 0 0) mvDescs) = .go ∧
      remoteModule (chk (move op 9 0 0 0) mvDescs) = none) ∧
    ((oneRecord 9).joinedTo = false ∧ (cell 0 1 0x1000 [4] [4]).packedBytes = 16) ∧
    (((moving (move 1 9 0 0 0) (oneRecord 9)).popHead 0).pushInto 0 0 0 9 256).isSome = true ∧
    ((moving (move 1 9 0 0 0) { oneRecord 9 with quota := 511 }).popHead 0).pushInto 0 0 0 9 256 = none ∧
    (moving (move 2 9 0 0 0) (oneRecord 9)).findRecord 0 9 = some 0 ∧
    (moving (move 2 8 0 0 0) (oneRecord 9)).findRecord 0 8 = none ∧
    (moving (move 3 9 0 0 0) (oneRecord 9)).onRecord 3 0 0 = false ∧
    (after (.larderRelease 0) (moving (move 3 9 0 0 0) (oneRecord 9))).releasable 0 0 = true ∧
    (oneRecord 8).records.getLast? = some ⟨8, 0, 256, true⟩ ∧
    (let s := (moving (move 2 9 0 0 0) (oneRecord 9)).popHead 0
     (s.accessErrors [((s.part 0).regionBase 0, 16)] [(cellarBase + 0x2000, 16)] clean).2 = none ∧
      s.heldAgainst 0 (s.gatherHoldsBut 0) [(cellarBase + 0x2000, 16)] = none) := by
  decide +kernel

/-- R118: the record is taken at issue and readable at completion. -/
theorem test_push :
    ((after (.larderPush 0 clean) (moving (move 1 9 0 0 0) (oneRecord 8))).ctx 0).records.map (·.readable)
      = [true, false] ∧
    ((after (.commandComplete 0 .mover) (after (.larderPush 0 clean) (moving (move 1 9 0 0 0) (oneRecord 8)))).ctx
      0).records.map (·.readable) = [true, true] := by
  decide +kernel

/-- A table that goes from 0 to 1: its header, lo and hi. -/
def header : List Byte := [1, 0, 0x4E, 0x46, 0, 0, 0, 0, 0, 0, 0x80, 0x3F]

theorem table_addr (i : Nat) (hi : i < 2056) : table.addrOf [i, 0, 0, 0, 0, 0] = cellarBase + 0x8000 + 4 * i := by
  have hb : table.base.toNat = 0x800000008000 := by decide +kernel
  have hs : ((List.range 6).foldl (fun (a : Int) k => if k < (if isMx table.fmt then 1 else 0) then a
      else a + (([i, 0, 0, 0, 0, 0] : List Nat).getD k 0 : Int) * table.stride k) 0) = (i : Int) * 4 := by
    simp [List.range_succ, isMx, table, cell, Desc.stride]
  unfold Desc.addrOf
  simp only [hs, hb, addrFrom]
  rw [if_pos (by simp [addrOffset]; omega)]
  simp [addrOffset, cellarBase]
  omega

theorem table_word (i : Nat) (hi : i < 2056) (h3 : 3 ≤ i) : ((withTable header).tableImage table).getD i 0 = 0 := by
  have hb : ∀ n < 4, memRead (withTable header).mem (addrLocal (cellarBase + 0x8000 + 4 * i + n)) = 0 := by
    intro n hn
    have ha : addrLocal (cellarBase + 0x8000 + 4 * i + n) = cellarBase + 0x8000 + 4 * i + n := by
      rw [addrLocal, Nat.mod_eq_of_lt]; simp [cellarBase]; omega
    rw [ha]
    show memRead (memPut [] (cellarBase + 0x8000) header) _ = 0
    rw [memRead_memPut_outside (by right; simp [header]; omega)]
    simp [memRead, Sparse.get]
  simp only [State.tableImage, List.getD, List.getElem?_map, List.getElem?_range hi, Option.map_some,
    Option.getD_some, readN, memReader, table_addr i hi]
  have h0 := hb 0 (by omega)
  have h1 := hb 1 (by omega)
  have h2 := hb 2 (by omega)
  have h4 := hb 3 (by omega)
  simp only [Nat.add_zero] at h0
  simp [List.range_succ, ofLe, h0, h1, h2, h4]

theorem table_low : (((withTable header).tableImage table).getD 0 0, ((withTable header).tableImage table).getD 1 0,
    ((withTable header).tableImage table).getD 2 0) = (0x464E0001, 0, 0x3F800000) := by
  decide +kernel

theorem meets_FunctionTables_image : tableOk ((withTable header).tableImage table) = true := by
  have hl := table_low
  simp only [Prod.mk.injEq] at hl
  obtain ⟨a, b, c⟩ := hl
  have hall : (List.range 2056).all (fun i => i == 0 || i == 7 ||
      (tableF ((withTable header).tableImage table) i).finite) = true := by
    rw [List.all_eq_true]
    intro i hi
    have hi := List.mem_range.1 hi
    by_cases h : i < 3
    · interval_cases i
      · rfl
      · simp only [tableF, b]; decide +kernel
      · simp only [tableF, c]; decide +kernel
    · simp only [tableF, table_word i hi (by omega)]
      rw [show (f32 0).finite = true by decide +kernel, Bool.or_true]
  unfold tableOk
  rw [hall, a]
  have hp : tableP ((withTable header).tableImage table) = some 0 := by
    simp only [tableP, tableF, b, c]; decide +kernel
  rw [hp]; decide

theorem meets_FunctionTables_bad : tableOk ((withTable []).tableImage table) = false := by decide +kernel

/-- R180: 2.0 times 3.0 is FP32 6.0 in the cell of the bank. -/
theorem test_matmul_cell :
    (match (cellRun (chk matmul mmDescs) (cell 1 2 0x1000 [1, 1] [2, 2]) (cell 1 2 0x2000 [1, 1] [2, 2])
        (memReader loaded.mem) (loaded.envOf 0 matmul) (matmul.tileVectors 0) (Acc.pair PairN.zero) 0 0).1 with
      | .pair v => encode fp32 v.s
      | .int _ => 0) = 0x40C00000 := by
  decide +kernel

/-! ### Streams, the schedule, partitions -/

/-- A pattern of no stream, its step 100 stitches after a prologue of 10. -/
def pat0 : Pattern :=
  { base := 0x10000, bytes := 0x1000, iface := 1, patternId := 7, tag := 0, stages := 1, stageIndex := 0, shelves := 1,
    micro := 1, maxLong := 0, prologue := 10, stepStitches := 100, bubble := 0, slipLag := 8, class0 := 100,
    class1 := 200, streams := [], resvs := [], queues := [], plan := [], points := [], power := [], quotas := [] }

/-- A fetcher at a word, of a stream at 0x20000. -/
def fetcher (pos : Nat) (w : FetchWait) (body : Option Nat) : Fetcher :=
  { base := 0x20000, len := 64, pos := pos, body := body, step := 0, seg := none, wait := w, governed := none }

/-- Partition 0 with its pattern in a state, a step begun, and core 0's stream at these words. -/
def patterned (st : PatState) (f : Option Fetcher) (ws : List Word) (d : Sched) : State :=
  { (base.updPart 0 fun q => { q with pattern := some pat0, patState := st, sched := d }).updCore 0 fun k =>
      { k with fetch := f } with
    mem := memPut [] 0x20000 (ws.flatMap fun w => leBytes 4 w.toNat) }

/-- The words of a SYNC block in a stream, and its START. -/
def streamed : List Word := [0x51000000, 0, 0, 0, 0, 0, 0, 0, 0x53540008]

/-- A run at pattern stitch 5 with one manifest. -/
def run5 : Sched := { Sched.reset with pstitch := 5, next := 6, begun := 1, nextStep := 2, manifests := [⟨0, [100]⟩] }

/-- patterned, running. -/
def fetching (f : Fetcher) (ws : List Word) : State := patterned .running (some f) ws run5

theorem meets_StreamFetcher :
    ((fetching (fetcher 0 .go none) streamed).partOf 0 = some 0 ∧
      ((fetching (fetcher 0 .go none) streamed).part 0).pattern = some pat0 ∧
      ((fetching (fetcher 0 .go none) streamed).part 0).patState = .running ∧
      ((fetching (fetcher 0 .go none) streamed).part 0).active = true ∧
      ((fetching (fetcher 0 .go none) streamed).core 0).fetch = some (fetcher 0 .go none) ∧
      (fetcher 0 .go none).norm = fetcher 0 .go none) ∧
    fld ((fetching (fetcher 0 .go none) streamed).streamWord (fetcher 0 .go none) 0) 28 4 ≠ 15 ∧
    64 ≤ (((fetching (fetcher 0 .go none) streamed).updCore 0 fun k => { k with queue := blocks 64 }).core 0).queue.length ∧
    (∀ code ∈ [1, 2, 3, 4], (fetching (fetcher 0 .go none) [BitVec.ofNat 32 (0xF0000000 + code * 0x1000000)]).atControl
      (fetcher 0 .go none) code = true) ∧
    ((fetching (fetcher 0 .gate none) [0xF1000000, 5]).gateStitch pat0 run5 (fetcher 0 .gate none) < run5.next ∧
      run5.next < (fetching (fetcher 0 .gate none) [0xF1000000, 7]).gateStitch pat0 run5 (fetcher 0 .gate none)) ∧
    ((fetcher 0 .go (some 1)).step + 1 < run5.nextStep ∧ (base.part 0).state = .running ∧
      { run5 with nextStep := 1 }.nextStep ≤ (fetcher 0 .go (some 1)).step + 1) ∧
    run5.slipNow = false ∧ (base.part 0).drainStep = none ∧
    (((withPart fun q => { q with drainStep := some 0 }).part 0).drainStep.any (· ≤ (fetcher 0 .go (some 1)).step)) = true := by
  decide +kernel

/-- R131, R368: a block enters the queue with its words, and the fetcher goes past its START. -/
theorem test_stream :
    ((after (.streamEnqueue 0) (fetching (fetcher 0 .go none) streamed)).core 0).queue.map (·.words.length) = [8] ∧
    ((after (.streamEnqueue 0) (fetching (fetcher 0 .go none) streamed)).core 0).fetch.map (·.pos) = some 9 ∧
    ((after (.gateOpen 0) (fetching (fetcher 0 .gate none) [0xF1000000, 5])).core 0).fetch.map (·.wait) = some .go ∧
    ((after (.body 0) (fetching (fetcher 0 .go none) [0xF3000000])).core 0).fetch.map (·.body) = some (some 1) := by
  decide +kernel

/-- A hold at a stitch count. -/
def holdAt (t : Nat) : HoldAt := { target := t, cause := stOUT_OF_STEP, isLocal := true, resv := 0, core := 0 }

theorem meets_StitchBoundaries :
    (booted .off).clocked = false ∧ (patterned .running none [] run5).clocked = true ∧
    ((patterned .running none [] run5).part 0).active = true ∧
    (∃ h ∈ [holdAt 1], h.target = ((patterned .running none [] run5).tb.count + 1).toNat) ∧
    base.portEnabled 5 = true ∧ (base.link 5).state = 5 ∧ base.tb.missed = 0 ∧
    ({ base with tb := { base.tb with missed := 1, good := 63 } } : State).tb.missed ≠ 0 := by
  decide +kernel

/-- R361, R382: a stitch, a slip, and a row of markers broken. -/
theorem test_stitch :
    (after (.stitchBoundary clean) { base with tb := { base.tb with missed := 1, good := 63 } }).tb.good = 0 ∧
    ((after (.stitchBoundary clean) (patterned .running none [] run5)).part 0).sched.pstitch = 6 ∧
    ((after (.stitchBoundary clean) (patterned .running none [] { run5 with holds := [holdAt 1] })).part 0).sched.pstitch = 5 := by
  decide +kernel

/-- An armed pattern, its start stitch at the count the module stands at. -/
def armed : State := (patterned .armed none [] Sched.reset).updPart 0 fun q => { q with armed := some 0 }

/-- armed, its pattern running a slice with tag 9 on link 0. -/
def sliced (d : Sched) : State :=
  ((patterned .running none [] d).updPart 0 fun q =>
    { q with place := ⟨q.place.sh, { q.place.live with tag := 9, size := 1 }⟩ }).updLink 0 fun l =>
      { l with neighbourId := 1 }

/-- A marker with its check. -/
def marker (n : Long) (es : List SliceMark) (hs : List HoldMark) : Marker :=
  { count := n, crc := Marker.sum { count := n, crc := 0, slices := es, holds := hs }, slices := es, holds := hs }

theorem meets_SlicesStartAndHoldTogether :
    ((armed.part 0).pattern = some pat0 ∧ (armed.part 0).patState = .armed ∧
      (armed.part 0).armed = some armed.tb.count.toNat ∧
      armed.mayStart = true ∧ (armed.part 0).state = .running ∧ armed.coll.runs = []) ∧
    ({ armed with power := { armed.power with settling := true } } : State).mayStart = false ∧
    ((armed.updPart 0 fun q => { q with state := .zeroing }).part 0).state = .zeroing ∧
    armed.coreOpen 7 = true ∧
    (let s : State := { armed.updPart 0 fun q => { q with pattern := some { pat0 with streams := [(7, 0, 1)] } } with
        locked := 0xFFFFFFFFFE }
     (s.part 0).pattern.isSome = true ∧ s.coreOpen 7 = false) ∧
    (((patterned .loaded none [] Sched.reset).part 0).patState ≠ .armed) ∧
    (((sliced run5).link 0).state = 5 ∧ (marker 1 [⟨9, 2, 6⟩] []).crc = (marker 1 [⟨9, 2, 6⟩] []).sum ∧
      ((sliced run5).updLink 0 id).joinedParts 0 = [0] ∧ ((sliced run5).part 0).patState = .running ∧
      (sliced run5).pstitchAt 0 1 = some 6 ∧
        ({ (sliced run5) with tb := { (sliced run5).tb with role := 1 } } : State).tb.role ≠ 0) ∧
    run5.isSlip 2 = false ∧ ({ run5 with holds := [holdAt 2] }).isSlip 2 = true ∧
      (sliced run5).tb.count.toNat < 1 ∧ 0 ≤ (sliced run5).tb.count.toNat := by
  decide +kernel

/-- R381: a slice elsewhere at another pattern stitch stops the partition. -/
theorem test_marker :
    ((after (.stitchMarker 1 (marker 1 [⟨9, 2,
      7⟩] []) 0) ((sliced run5).updLink 1 fun l => { l with neighbourId := 1 })).part
      0).active = false ∧
    ((after (.patternStart 0 clean) armed).part 0).patState = .running := by
  decide +kernel

/-- Partition 0 in a state. -/
def inState (st : PState) : State := (patterned .running none [] run5).updPart 0 fun q => { q with state := st }

theorem meets_PartitionsEnd :
    (((inState .draining).part 0).state = .draining ∧ (inState .draining).quiet 0 = true) ∧
    ((inState .running).part 0).state ≠ .draining ∧
    (let s : State := { (inState .draining) with power := { base.power with ticks := 100000 } }
     (0 : Nat) + s.tenancy.drainLimit.toNat ≤ s.power.ticks ∧ base.power.ticks < 0 + base.tenancy.drainLimit.toNat) ∧
    (let o : Occ := ⟨⟨65535, 0, 0, 0, 0, 0, 0, 3, 6, 0, 0, 0, 0, 1, 512⟩, 2, 0, 0, [], 1, 0, false⟩
     o.over = false ∧ o.start + o.resv.span ≤ run5.pstitch ∧ o.resv.number = (65535 : Half).toNat) ∧
    (((inState .running).updPart 0 fun q => { q with idleTicks := 64 }).part 0).idleTicks = 64 ∧
    ((inState .running).part 0).idleTicks < 64 := by
  decide +kernel

/-- base with the timebase in a state. -/
def timed (st : TbState) (good missed : Nat) : State :=
  { base with tb := { base.tb with state := st, good := good, missed := missed } }

theorem meets_TimebaseFollowsItsParent :
    ((timed .acquiring 64 0).tb.state = .acquiring ∧ 64 ≤ (timed .acquiring 64 0).tb.good) ∧
    (timed .acquiring 63 0).tb.good < 64 ∧ (timed .locked 0 16).tb.state = .locked ∧
      16 ≤ (timed .locked 0 16).tb.missed ∧
    (timed .locked 0 15).tb.missed < 16 ∧
    ((timed .free 0 0).anyPatterned = false ∧ (timed .free 0 0).tb.role = 0 ∧ (timed .free 0 0).tb.parent.toNat = 0 ∧
      (marker 5 [] []).crc = (marker 5 [] []).sum ∧
        ({ marker 5 [] [] with crc := 0 }).crc ≠ ({ marker 5 [] [] with crc := 0 }).sum) ∧
    ((withLink fun l => { l with state := 4 }).link 0).state ≠ 5 ∧ (28 : Int).natAbs ≤ 28 ∧ 28 < (-29 : Int).natAbs ∧
    (timed .acquiring 63 0).tb.missed = 0 ∧ (timed .acquiring 63 1).tb.missed ≠ 0 ∧ ¬ 2 < (-2 : Int).natAbs ∧
    2 < (3 : Int).natAbs := by
  decide +kernel

/-- R361, R365: the parent's marker takes a free module to acquiring, and a late one makes a fault. -/
theorem test_timebase :
    (after (.stitchMarker 0 (marker 5 [] []) 2) (timed .free 0 0)).tb.state = .acquiring ∧
    (after (.stitchMarker 0 (marker 5 [] []) (-29)) (timed .locked 0 0)).tb.faults = 1 ∧
    (after (.stitchMarker 0 (marker 5 [] []) 2) (timed .acquiring 63 1)).tb.good = 64 ∧
    (after (.stitchMarker 0 (marker 5 [] []) 2) (timed .acquiring 63 0)).tb.good = 63 ∧
    (after .timebaseLock (timed .acquiring 64 0)).tb.state = .locked := by
  decide +kernel

/-- Partition 0 stopped. -/
def stopped : State := withPart fun q => { q with state := .stopped }

theorem meets_PartitionStartAndDrain :
    (stopped.boundTo 0 0 = true ∧ (stopped.part 0).state = .stopped ∧ (stopped.part 0).patState ≠ .armed ∧
      (stopped.part 0).layout.live.count ≠ 0 ∧ stopped.mayStart = true ∧ stopped.coreOpen 0 = true) ∧
    (base.part 0).state ≠ .stopped ∧
    ((stopped.updPart 0 fun q => { q with layout := ⟨lay, Layout.reset⟩ }).part 0).layout.live.count = 0 ∧
    (((patterned .running none [] run5).part 0).drainOk = true ∧ (base.part 0).drainOk = false) ∧
    base.boundTo 0 1 = false ∧ base.boundTo 15 0 = false := by
  decide +kernel

theorem test_part_start : ((after (.partStart 0 0) stopped).part 0).state = .running ∧
    ((after (.partDrain 0 0) (patterned .running none [] run5)).part 0).drainStep = some 0 := by decide +kernel

theorem meets_StopDiscardsWorkInFlight :
    base.boundTo 0 0 = true ∧ (base.part 0).active = true ∧ (stopped.part 0).active = false := by decide +kernel

theorem test_part_stop :
    ((after (.partStop 0 0) (queued (sync 0 0 0 0 0 0))).core 0).queue = [] ∧
    ((after (.partStop 0 0) base).part 0).state = .stopped := by decide +kernel

/-- A stopped partition 0 whose shadow of the layout is another. -/
def newLayout (l : Layout) : State := withPart fun q => { q with state := .stopped, layout := ⟨l, q.layout.live⟩ }

theorem meets_LayoutCommitZeroesShelves :
    ((booted .railsUp).isReady = false ∧ base.isReady = true ∧ (base.part 0).active = true) ∧
    ((newLayout { lay with first := 64 }).layoutStatus 0 ≠ stDONE ∧
      (newLayout { lay with first := 63 }).layoutStatus 0 = stDONE ∧
      (newLayout { lay with first := 63 }).shelvesToZero 0 = [0, 63] ∧
      (newLayout lay).layoutStatus 0 = stDONE ∧ (newLayout lay).shelvesToZero 0 = [] ∧
      ((newLayout lay).part 0).clearing = false) ∧
    (let s := after (.layoutCommit 0) (newLayout { lay with first := 63 })
     (s.part 0).clearing = true ∧ (s.part 0).state = .zeroing ∧ (s.part 0).waitingWindows = none) := by
  decide +kernel

/-- A stopped partition 0 whose shadow of the windows is another. -/
def newWindows (ws : List (Word × Word)) : State :=
  withPart fun q => { q with state := .stopped, windows := ⟨ws, q.windows.live⟩ }

theorem meets_GroupCommits :
    ((stopped.part 0).active = false ∧ stopped.isReady = true ∧ stopped.larderStatus 0 = stDONE ∧
      (stopped.updPart 0 fun q => { q with larder := ⟨⟨4, 1⟩, q.larder.live⟩ }).larderStatus 0 ≠ stDONE) ∧
    ((newWindows [(0, 8), (0, 0), (0, 0), (0, 0)]).windowStatus 0 = stDONE ∧
      removedUnits wins [(0, 8), (0, 0), (0, 0), (0, 0)] = [] ∧
      (newWindows [(0, 3), (0, 0), (0, 0), (0, 0)]).windowStatus 0 = stDONE ∧
      removedUnits wins [(0, 3), (0, 0), (0, 0), (0, 0)] = [(3, 4)] ∧
      (newWindows [(0, 0xFFFFFFFF), (0, 0), (0, 0), (0, 0)]).windowStatus 0 ≠ stDONE ∧
      (stopped.part 0).waitingWindows = none ∧
      ((stopped.updPart 0 fun q => { q with waitingWindows := some wins }).part 0).waitingWindows.isSome = true) ∧
    (stopped.guaranteeStatus 0 = stDONE ∧
      (stopped.updPart 0 fun q => { q with guar := ⟨{ q.guar.sh with skein := 4097 },
        q.guar.live⟩ }).guaranteeStatus 0 ≠ stDONE ∧
      stopped.placementStatus 0 = stDONE ∧
      (stopped.updPart 0 fun q => { q with place := ⟨{ q.place.sh with tag := 1, lo := 1 },
        q.place.live⟩ }).placementStatus 0 ≠ stDONE ∧
      stopped.apertureStatus 0 = stDONE ∧
      (stopped.updPart 0 fun q => { q with aper := ⟨{ q.aper.sh with base := 4095 },
        q.aper.live⟩ }).apertureStatus 0 ≠ stDONE) := by
  decide +kernel

/-- R433: removed memory reads zero once the windows are in force. -/
theorem test_windows :
    memRead (after (.zeroingComplete 0) (after (.windowCommit 0)
      { newWindows [(0, 3), (0, 0), (0, 0), (0, 0)] with mem := memPut [] 0xC0000 [1] })).mem 0xC0000 = 0 := by
  decide +kernel

theorem meets_PatternLoad :
    base.boundTo 0 0 = true ∧ (base.part 0).patState = .empty ∧
    (∀ st ∈ [PatState.armed, .running, .checking, .loaded, .faulted],
      ((patterned st none [] run5).part 0).patState = st) := by
  decide +kernel

/-- Partition 0 loaded, on a locked timebase, with a start stitch. -/
def starting (st : PatState) (tb : TbState) (n : Long) : State :=
  { (patterned st none [] Sched.reset).updPart 0 fun q => { q with regs := { q.regs with start := ⟨n, 0⟩ } } with
    tb := { base.tb with state := tb } }

/-- A loaded pattern with a manifest of step 0 at 0x30000. -/
def manifested (step : Nat) : State :=
  { (patterned .loaded none [] Sched.reset).updPart 0 fun q => { q with regs := { q.regs with man := ⟨0x30000,
    0⟩ } } with
    mem := memPut [] 0x30000 ([0x4D460001, step, 1, 0, 50].flatMap (leBytes 4)) }

theorem meets_StartAndManifestCommit :
    (∀ st ∈ [PatState.loaded, .armed], ((starting st .locked 24).part 0).pattern = some pat0 ∧
      ((starting st .locked 24).part 0).patState = st ∧ ((starting st .locked 24).part 0).regs.start.sh ≠ 0 ∧
      (starting st .locked 24).aligned = true ∧
      (starting st .locked 24).tb.count.toNat + pat0.slipLag + 16 ≤ ((starting st .locked 24).part 0).regs.start.sh.toNat ∧
      ((starting st .locked 23).part 0).regs.start.sh.toNat < (starting st .locked 23).tb.count.toNat + pat0.slipLag + 16) ∧
    (starting .loaded .holdover 24).aligned = false ∧ ((starting .armed .locked 0).part 0).regs.start.sh = 0 ∧
    (manifested 0).manStatus 0 0x30000 = stDONE ∧ (manifested 1).manStatus 0 0x30000 ≠ stDONE ∧
    (manifested 0).manHeld 0 0x30000 = none ∧
    (owned (0x30000 / 64) (manifested 0)).manHeld 0 0x30000 = some (0x30000, 16) := by
  decide +kernel

theorem test_start_commit :
    ((after (.startCommit 0 0) (starting .loaded .locked 24)).part 0).armed = some 24 ∧
    ((after (.manCommit 0 0) (manifested 0)).part 0).sched.nextStep = 1 := by decide +kernel

theorem meets_RouteCommitAndClears :
    ((booted .railsUp).isReady = false ∧ base.isReady = true ∧ base.routeDrained = false ∧
      (after .routeHold base).routeDrained = true ∧ (after .routeHold base).fabric.route.sh.ok = true ∧
      ({ base.fabric.route.sh with sizeX := 0 }).ok = false) ∧ (base.part 0).active = true ∧
        (stopped.part 0).active = false := by
  decide +kernel

/-! ### Packets -/

/-- The contexts that module 1 holds. -/
def grant1 : Granted := { src := 1, skein := 2, part := 0, count := 1, done := [], newest := 255 }

/-- base with a placement that takes sources 1 to 15 into its box, and a skein granted to module 1. -/
def placed : State :=
  let s : State := withPart fun q =>
    { q with place := ⟨q.place.sh, { q.place.live with tag := 9, size := 15 ||| 1 <<< 5 ||| 1 <<< 10 }⟩ }
  { s with fabric := { base.fabric with grants := [grant1] } }

/-- A MOVE to module 1 with a remote signal. -/
def signalMove : Checked := chk (move 0 0 0 4 0x10000) [(1, cell 0 1 0x1000 [4] [4]),
  (2, { cell 0 1 0x2000 [4] [4] with loc := 8, base := BitVec.ofNat 64 (2 ^ 51 + 0x2000) })]

/-- R157: its check waits for a skein to module 1, whether or not one is under way. -/
theorem meets_AFailedCheckHasNoSideEffect_waits :
    placed.checkWaits 0 signalMove = some 1 ∧ (placed.skeinTo 0 1).isSome = false ∧
    (queued (sync 0 0 0 0 0 0)).checkWaits 0 { entry := sync 0 0 0 0 0 0, descs := [] } = none ∧
    (queued (sync 4 0 0 0 0 0)).checkWaits 0 { entry := sync 4 0 0 0 0 0, descs := [] } = none := by
  decide +kernel

/-- The payload of the WRITE packets. -/
def four : List Byte := [1, 2, 3, 4]

/-- A packet of module 1, of class 1. -/
def req (kind tbytes addr tpackets : Nat) (payload : List Byte) : Pkt :=
  buildPacket 1 kind 0 2 0 1 tbytes addr tpackets 7 0 true payload

/-- A packet of module 1, of class 2. -/
def rep (kind : Nat) (status : Half) (tbytes addr tpackets : Nat) (payload : List Byte) : Pkt :=
  buildPacket 2 kind 0 2 0 1 tbytes addr tpackets 7 status true payload

/-- A packet for module 1. -/
def other (kind : Nat) (hops : BitVec 6) (esc : Bool) : Pkt :=
  { buildPacket 1 kind 0 2 1 0 4 0 1 7 0 true four with hops := hops, esc := esc }

/-- base with the buffers of port 0 full of packets of the channel of other. -/
def full : State := { base with fabric := { base.fabric with
  transit := List.replicate 3641 (some 0, { other 0 0 false with payload := List.replicate 256 0 }) } }

/-- A packet that stands on port 0 for this module. -/
theorem meets_Delivers : ∀ s ∈ [base, placed], s.Delivers 0 (req 0 4 0x40000 1 four) ∧
  s.Delivers 0 (rep 9 0 0 0 1 []) := by
  unfold State.Delivers; decide +kernel

theorem meets_PacketsOnAPort :
    (∀ k ∈ [0, 1, 2, 3, 4], (req k 4 0x40000 1 four).isKind 1 k = true) ∧
    (∀ k ∈ [8, 9, 0xA, 0xB], (rep k 0 4 0x40000 1 four).isKind 2 k = true) ∧
    (withLink fun l => { l with state := 4 }).link 0 ≠ base.link 0 ∧
      ((withLink fun l => { l with state := 4 }).link 0).state ≠ 5 ∧
    (base.link 0).state = 5 ∧ (other 0 0 false).dest.toNat ≠ base.myId ∧
    base.isHere (req 0 4 0x40000 1 four).dest.toNat = true ∧ base.isHere (other 0 0 false).dest.toNat = false ∧
    base.fits 0 (other 0 0 false) = true ∧ full.fits 0 (other 0 0 false) = false ∧
    ({ other 0 0 false with channel := 3 } : Pkt).channel = 3 ∧ (other 0 0 false).channel ≠ 3 ∧
    ({ req 0 4 0x40000 1 four with check := 0 }).check ≠ ({ req 0 4 0x40000 1 four with check := 0 }).crc := by
  decide +kernel

/-- base after partition 0 has stopped. -/
def placedStopped : State := placed.updPart 0 fun q => { q with state := .stopped }

/-- base with a MATMUL whose tile is under way in bank 0 of core 0. -/
def inArrayStall : State := inArray 1 [0]

/-- A WRITE into that bank. -/
def inBank : Pkt := req 0 4 (bankAddr 0 0 0 0) 1 four

theorem meets_WritesAreStoredAndAcknowledged :
    (req 0 4 0x40000 1 four).isKind 1 0 = true ∧
    ((placed.link 0).state = 5 ∧ (req 0 4 0x40000 1 four).dest.toNat = placed.myId ∧
      (req 0 4 0x40000 1 four).check = (req 0 4 0x40000 1 four).crc) ∧
    placed.writeStalls (req 0 4 0x40000 1 four) = false ∧ inArrayStall.writeStalls inBank = true ∧
    inBank.isKind 1 0 = true ∧
    (placedStopped.part 0).active = false ∧ placedStopped.turnsAway 0 1 = false ∧
    ((placed.part 0).active = true ∧ base.turnsAway 0 1 = true) ∧ placed.turnsAway 3 1 = true ∧
    placed.turnsAway 0 1 = false ∧ base.grantOf (req 0 4 0x40000 1 four) = none ∧
    placed.fabric.grants.map (fun g => decide (7 ∈ (g.see 7).done)) = [false] ∧
    ({ src := 1, skein := 2, part := 0, count := 1, done := [7], newest := 7 } : Granted).see 7
      = { src := 1, skein := 2, part := 0, count := 1, done := [7], newest := 7 } ∧
    meetAny [(0x40000, 4)] ((atticOver 0x40003 1 placed).atticHolds 0 ++ placed.gatherHolds) = true ∧
    placed.grantOf (req 0 4 0x40000 1 four) = some grant1 ∧
    placed.fabric.contexts = [] ∧
    ((req 0 4 0x40000 1 four).tpackets = 1 ∧ (req 0 4 0x40000 1 four).tbytes.toNat = four.length) ∧
    placed.accessStatus 0 0x40000 4 = stDONE ∧ placed.accessStatus 0 0x100000 4 ≠ stDONE ∧
    meetAny [(0x40000, 4)] (placed.atticHolds 0 ++ placed.gatherHolds) = false ∧
    1 < (req 0 300 0x40000 2 four).tpackets.toNat ∧ (req 0 3 0x40000 1 four).tbytes.toNat < four.length := by
  decide +kernel

/-- R290: the bytes stand where the header says. -/
theorem test_write :
    memBytes (after (.write 0 (req 0 4 0x40000 1 four)) placed).mem 0x3FFFF 6 = [0, 1, 2, 3, 4, 0] ∧
    (after (.write 0 (req 0 4 0x40000 1 four)) placedStopped).fabric.stray = 1 := by decide +kernel

/-- An increment of 3 to tally 4 of core 0. -/
def inc3 : List Byte := leBytes 4 0x03040000 ++ leBytes 4 0

theorem meets_TallyAndReadArePerformed :
    (req 2 8 0 1 inc3).isKind 1 2 = true ∧ (req 2 8 0 1 inc3).check = (req 2 8 0 1 inc3).crc ∧
    placed.grantOf (req 2 8 0 1 inc3) = some grant1 ∧
    (BitVec.ofNat 32 (leAt inc3 0 4) : Word) = 0x03040000 ∧ placed.tallyStatus 0 0 = stDONE ∧
      placed.tallyStatus 0 8 = stPRIVILEGE ∧
    (req 1 300 0x40000 1 (leBytes 8 0)).isKind 1 1 = true ∧ placed.accessStatus 0 0x40000 300 = stDONE ∧
    placed.lineHeld 0x40000 300 false = false ∧ (placed.readErrors [(0x40000, 300)] clean).2 = none ∧
    (placed.readErrors [(0x40000, 300)] { clean with hbmBad := [0x40000 + 299] }).2 ≠ none ∧
    placed.accessStatus 0 0xFFFFF 2 ≠ stDONE := by
  decide +kernel

theorem test_tally_read :
    (after (.tally 0 (req 2 8 0 1 inc3)) placed).tallyOf 0 4 = 3 ∧
    (after (.read 0 (req 1 300 0x40000 1 (leBytes 8 0)) clean) placed).fabric.transit.map (fun x => (x.2.kind,
      x.2.payload.length))
      = [(8, 256), (8, 44)] := by decide +kernel

/-- A live transfer of core 0. -/
def live (core : Option Nat) (isRead : Bool) : LiveX :=
  { tno := 7, core := core, left := 0, sentAt := 0, xfer := { dest := 1, isRead := isRead, runs := [], tally := none } }

/-- Skein 2 of partition 0 to module 1. -/
def skein2 (isOpen retry : Bool) (ls : List LiveX) : Skein :=
  { num := 2, part := 0, dest := 1, isOpen := isOpen, granted := 1, cores := 8, nextTno := 8, openSentAt := 0,
    retry := retry, idleSince := 0, live := ls }

/-- placed with a skein, some ticks into its life. -/
def skeined (x : Skein) (ticks : Nat) : State :=
  { placed with fabric := { placed.fabric with skeins := [x] }, power := { placed.power with ticks := ticks } }

/-- A tensor of four FP32 elements on module 1, in the host window of partition 0, and here. -/
def away : Desc := { cell 0 1 0x2000 [4] [4] with loc := 8, base := BitVec.ofNat 64 (2 ^ 51 + 0x2000) }
def hosted : Desc := { cell 0 1 0 [4] [4] with loc := 4, base := BitVec.ofNat 64 (4 * 2 ^ 45) }
def here : Desc := cell 0 1 0x1000 [4] [4]

/-- A COPY at issue, in a partition of two modules with these skeins. -/
def copying (id : Nat) (sd dd : Desc) (sk : List Skein) : State :=
  let ds : Sparse Desc := [(1, sd), (2, dd)]
  { (placed.updPart 0 fun q => { q with descs := ds }).updCore 0 fun k =>
      { k with queue := [move 0 id 0 4 0], head := some { entry := move 0 id 0 4 0, descs := ds } } with
    fabric := { placed.fabric with skeins := sk } }

/-- R284: a COPY to module 1 asks for a skein, waits for it, and goes; one from module 1 and one from the host read. -/
theorem meets_CopyMovesElements_remote :
    (∀ x ∈ [(here, away), (away, here), (hosted, here)],
      let sk := [skein2 true false []]
      (copying 0 x.1 x.2 sk).ready 0 = some (0, chk (move 0 0 0 4 0) [(1, x.1), (2, x.2)]) ∧
      (chk (move 0 0 0 4 0) [(1, x.1), (2, x.2)]).noop = false ∧
      (copying 0 x.1 x.2 sk).holdOf 0 (chk (move 0 0 0 4 0) [(1, x.1), (2, x.2)]) = .go ∧
      (copying 0 x.1 x.2 sk).overRise 4 = false ∧
      (chk (move 0 0 0 4 0) [(1, x.1), (2, x.2)]).requestClass = true ∧
      (chk (move 0 0 0 4 0) [(1, x.1), (2, x.2)]).destReads = [] ∧
      (copying 0 x.1 x.2 sk).routable (chk (move 0 0 0 4 0) [(1, x.1), (2, x.2)]) = true ∧
      (copying 0 x.1 x.2 sk).remoteCoreAbsent 0 (chk (move 0 0 0 4 0) [(1, x.1), (2, x.2)]) = false ∧
      remoteModule (chk (move 0 0 0 4 0) [(1, x.1), (2, x.2)]) = (if x.1 = hosted then none else some 1) ∧
      ((copyElems (chk (move 0 0 0 4 0) [(1, x.1), (2, x.2)]) x.2).filter fun e => x.1.inBounds e.2.1) ≠ []) ∧
    ((copying 0 here away []).skeinTo 0 1 = none ∧
      (copying 0 here away [skein2 false false []]).skeinTo 0 1 = some (skein2 false false []) ∧
      (copying 0 here away [skein2 true false []]).skeinTo 0 1 = some (skein2 true false []) ∧
      (copying 0 here away []).routableTo (addrModule away.base.toNat) = true ∧
      ((copying 0 here away []).accessErrors (copyReadRanges (chk (move 0 0 0 4 0) [(1, here), (2, away)]) here away)
        (copyWriteRanges (chk (move 0 0 0 4 0) [(1, here), (2, away)]) away) clean).2 = none) ∧
    landsDirect (chk (move 0 0 0 4 0) [(1, away), (2, here)]) away here = true ∧
    landsDirect (chk (move 0 0 0 4 0) [(1, { away with fmt := 1 }), (2, here)]) { away with fmt := 1 } here = false := by
  decide +kernel

/-- A COPY that gathers from versioned, forward or backward, with the records kept. -/
def gathering (back : Bool) (gs : List Gather) : State :=
  { copying (if back then 2 ^ 15 + 5 else 5) versioned here [] with train := { base.train with records := gs } }

/-- Its record, of a version. -/
def record5 (v : Word) : Gather := { part := 0, dest := 0, ctx := 0, gid := 5, tag := v }

/-- No record is left for partition 0. -/
def noRecords : State := (gathering false []).updPart 1 fun q =>
  { q with guar := ⟨q.guar.sh, { q.guar.live with gather := 8192 }⟩ }

/-- R409 to R412: a forward gather with a record free and with none, a backward one with its record, stale, and from the
attic. -/
theorem meets_CopyMovesElements_gather :
    (∀ back, (gathering back [record5 4]).ready 0 =
        some (0, chk (move 0 (if back then 2 ^ 15 + 5 else 5) 0 4 0) [(1, versioned), (2, here)]) ∧
      (gathering back [record5 4]).holdOf 0 (chk (move 0 (if back then 2 ^ 15 + 5 else 5) 0 4 0) [(1, versioned), (2, here)])
        = .go ∧
      remoteModule (chk (move 0 (if back then 2 ^ 15 + 5 else 5) 0 4 0) [(1, versioned), (2, here)]) = none ∧
      ((gathering back [record5 4]).accessErrors
        (copyReadRanges (chk (move 0 (if back then 2 ^ 15 + 5 else 5) 0 4 0) [(1, versioned), (2, here)]) versioned here)
        (copyWriteRanges (chk (move 0 (if back then 2 ^ 15 + 5 else 5) 0 4 0) [(1, versioned), (2, here)]) here) clean).2
        = none) ∧
    (gathering false []).gatherDest (chk (move 0 5 0 4 0) [(1, versioned), (2, here)]) = 0 ∧
    (gathering false []).gatherPlan 0 0 (chk (move 0 5 0 4 0) [(1, versioned), (2, here)]) versioned = .reads versioned false ∧
    noRecords.gatherPlan 0 0 (chk (move 0 5 0 4 0) [(1, versioned), (2, here)]) versioned = .full ∧
    (gathering true []).gatherPlan 0 0 (chk (move 0 (2 ^ 15 + 5) 0 4 0) [(1, versioned), (2, here)]) versioned = .stale ∧
    (gathering true [record5 4]).gatherPlan 0 0 (chk (move 0 (2 ^ 15 + 5) 0 4 0) [(1, versioned), (2, here)])
        versioned = .reads versioned false ∧
    (let s : State := (gathering true [record5 3]).updPart 0 fun q =>
      { q with attic := [{ handle := 1, step := 0, base := 0x50000, release := 9, exts := [(0x50000, 64)] }] }
     (match s.gatherPlan 0 0 (chk (move 0 (2 ^ 15 + 5) 0 4 0) [(1, versioned), (2, here)]) versioned with
      | .reads _ a => a | _ => false) = true) := by
  decide +kernel

/-- R284, R411: the skein is asked for; the gather keeps its record. -/
theorem test_remote_copy :
    ((after (.copy 0 clean) (copying 0 here away [])).skeinTo 0 1).map (·.isOpen) = some false ∧
    ((after (.copy 0 clean) (copying 0 here away [skein2 true false []])).core 0).mover.map (·.phase) = some .writing ∧
    (after (.copy 0 clean) (gathering false [])).train.records = [record5 4] := by
  decide +kernel

/-- A receive context. -/
def ctx2 (reply : Bool) : RxCtx :=
  { src := 1, skein := 2, tno := 7, part := 0, packets := 0, bytes := 0, totPackets := 0, totBytes := 0,
    heldTally := none, fail := 0, seenAt := 0, isReply := reply }

/-- A state with a receive context more. -/
def withCtx (s : State) (x : RxCtx) : State := { s with fabric := { s.fabric with contexts := [x] } }

theorem meets_SkeinsAndTheirTimers :
    ((req 3 0 0 1 []).isKind 1 3 = true ∧ (req 3 0 0 1 []).check = (req 3 0 0 1 []).crc ∧
      (placed.part 0).active = true ∧
      placed.turnsAway 0 1 = false ∧ base.turnsAway 0 1 = true ∧ placedStopped.turnsAway 0 1 = false ∧
      (placedStopped.part 0).active = false ∧ (req 4 0 0 1 []).isKind 1 4 = true) ∧
    ((rep 0xA 0 0 0 1 [0, 0, 8, 0]).isKind 2 0xA = true ∧ (rep 0xA 0 0 0 1 [3, 0, 8, 0]).check = (rep 0xA 0 0 0 1 [3,
      0, 8, 0]).crc ∧
      (skeined (skein2 false false []) 0).skein 2 = some (skein2 false false []) ∧ leAt [0, 0, 8, 0] 0 1 = 0 ∧
      leAt [3, 0, 8, 0] 0 1 ≠ 0 ∧ (skeined (skein2 false false []) 0).fabric.waiting = []) ∧
    ((skein2 false true []).retry = true ∧ placed.fabric.hold = false ∧ heldBase.fabric.hold = true ∧
      (skein2 false true []).openSentAt < (skeined (skein2 false true []) 1).power.ticks ∧
      (skeined (skein2 false true []) 0).power.ticks ≤ (skein2 false true []).openSentAt ∧
      (skein2 false false []).openSentAt + placed.fabric.timeout.toNat ≤ 2000 ∧
      (0 : Nat) < (skein2 false false []).openSentAt + placed.fabric.timeout.toNat) ∧
    ((skein2 true false [live none false]).live.find? fun y => y.tno == 7) = some (live none false) ∧
    ((withCtx placed (ctx2 false)).fabric.contexts.find? fun z => z.src == 1 && z.skein == 2 && z.tno == 7 && !z.isReply)
      = some (ctx2 false) ∧
    ((skein2 true false []).idleSince + 16 ≤ 16 ∧ 15 < (skein2 true false []).idleSince + 16) := by
  decide +kernel

theorem test_skeins :
    (after (.fabOpen 0 (req 3 0 0 1 [])) { placed with fabric := base.fabric }).fabric.grants.map (fun g => (g.src,
      g.skein, g.count))
      = [(1, 2, 16)] ∧
    ((after (.grant 0 (rep 0xA 0 0 0 1 [3, 0, 8,
      0])) (skeined (skein2 false false []) 0)).skein 2).map (·.granted) = some 3 ∧
    (after (.skeinIdleClose 2) (skeined (skein2 true false []) 16)).fabric.skeins = [] ∧
    ((after (.openTimeout 2) (skeined (skein2 false false []) 2000)).part 0).active = false := by decide +kernel

/-- A mover of core 0 whose last write waits for its answer. -/
def lastWrite : MoverRun :=
  { chk := chk (move 0 0 0 4 0) mvDescs, phase := .writing, flags := 0, status := stDONE, live := 1, hostLive := 0,
    hostTodo := [], staging := [], src := none, dst := none, record := none, gatherKey := none, held := [] }

/-- The READ_DATA packets: all of a transfer, or its first half. -/
def half (n : Nat) : Pkt := rep 8 0 (4 * n) 0x50000 n four

theorem meets_RepliesEndTransfers :
    ((rep 9 0 0 0 1 []).isKind 2 9 = true ∧ (rep 9 0 0 0 1 []).check = (rep 9 0 0 0 1 []).crc ∧
      placed.liveOf (rep 9 0 0 0 1 []) = none ∧
      (skeined (skein2 true false [live none false]) 0).liveOf (rep 9 0 0 0 1 [])
        = some (skein2 true false [live none false], live none false) ∧ (rep 9 0 0 0 1 []).status = stDONE) ∧
    (let s := (skeined (skein2 true false [live (some 0) false]) 0).updCore 0 fun k => { k with mover := some lastWrite }
     s.liveOf (rep 9 0 0 0 1 []) = some (skein2 true false [live (some 0) false], live (some 0) false) ∧
      (s.core 0).mover = some lastWrite ∧ s.partOf 0 ≠ none) ∧
    ((rep 0xB 5 0 0 1 []).isKind 2 0xB = true ∧ (skein2 false false []).isOpen = false) ∧
    (let s := withCtx (skeined (skein2 true false [live none true]) 0) (ctx2 true)
     (half 1).isKind 2 8 = true ∧ (half 1).check = (half 1).crc ∧
      s.liveOf (half 1) = some (skein2 true false [live none true], live none true) ∧
      (s.fabric.contexts.find? fun z => z.isOf (half 1) true) = some (ctx2 true) ∧
      four.length ≤ (half 1).tbytes.toNat ∧ addrModule (half 1).addr.toNat = s.myId ∧ 1 < (half 2).tpackets.toNat ∧
      (half 1).tpackets.toNat = 1 ∧ (half 1).tbytes.toNat = four.length ∧ s.fabric.waiting = [] ∧
      (atticOver 0x50000 1 s).heldAgainst 0 ((atticOver 0x50000 1 s).gatherHoldsBut 0) [(0x50000, 4)] ≠ none ∧
      s.heldAgainst 0 (s.gatherHoldsBut 0) [(0x50000, 4)] = none) := by
  decide +kernel

theorem test_replies :
    (let s := (skeined (skein2 true false [live (some 0) false]) 0).updCore 0 fun k => { k with mover := some lastWrite }
     ((after (.ack 0 (rep 9 0 0 0 1 [])) s).core 0).mover.map (·.phase) = some .done) ∧
    memBytes (after (.readData 0 (half 1)) (withCtx (skeined (skein2 true false [live none true]) 0) (ctx2 true))).mem 0x50000 4
      = four ∧
    (after (.nack 0 (rep 0xB 5 0 0 1 [])) (skeined (skein2 false false []) 0)).fabric.skeins = [] := by decide +kernel

/-- A packet for module 1 that has come in by port 0. -/
def inTransit (p : Pkt) : State := { base with fabric := { base.fabric with transit := [(some 0, p)] } }

/-- A packet of this module for module 1, by skein 2, for partition 1. -/
def ours : Pkt := { buildPacket 1 0 0 2 1 0 4 0 1 7 0 true four with hops := 0, esc := false, owner := some 1 }

/-- One of partition 0. -/
def theirs : Pkt := { ours with skein := 3, owner := some 0 }

/-- ours waiting beside a packet of partition 1, whose partition has injected n flits of its 100. -/
def rivals (n : Nat) : State :=
  let s : State := { base with parts := [(0, { part0 with injectNow := 100 }), (1, { part0 with injectNow := 100 })] }
  { s with fabric := { s.fabric with
      skeins := [{ skein2 true false [] with part := 1 }, { skein2 true false [] with num := 3, part := 0 }],
      transit := [(none, ours), (none, theirs)], injected := [(0, n)] } }

/-- base with every flit of port 0 across the link taken for the adaptive channel. -/
def starved (p : Pkt) : State :=
  { inTransit p with fabric := { (inTransit p).fabric with creditUsed := [(0, [0, 0, 65536 + 256])] } }

theorem meets_PacketsAreRouted :
    (∀ esc, (other 0 0 esc).payload.length ≤ 256 ∧ (some 0,
      other 0 0 esc) ∈ (inTransit (other 0 0 esc)).fabric.transit ∧
      (other 0 0 esc).legal = true ∧ (inTransit (other 0 0 esc)).isHere (other 0 0 esc).dest.toNat = false ∧
      (inTransit (other 0 0 esc)).atHead (some 0) (other 0 0 esc) = true ∧ (other 0 0 esc).hops ≠ 63 ∧
      (other 0 0 esc).esc = esc ∧ base.takes 0 (other 0 0 esc) (base.escapeChannel (other 0 0 esc) 0) = true ∧
      (withLink fun l => { l with state := 4 }).takes 0 (other 0 0 esc)
        ((withLink fun l => { l with state := 4 }).escapeChannel (other 0 0 esc) 0) = false) ∧
    (other 0 63 false).hops = 63 ∧
    ((List.range 3).find? fun a => base.offsetTo a (other 0 0 false).dest.toNat != 0) = some 0 ∧
    (0 : Nat) = portToward 0 (base.offsetTo 0 (other 0 0 false).dest.toNat) ∧
    base.portsToward (other 0 0 false).dest.toNat = [0] ∧ base.takes 0 (other 0 0 false) 2 = true ∧
    (starved (other 0 0 false)).takes 0 (other 0 0 false) 2 = false ∧
    (starved (other 0 0 false)).takes 0 (other 0 0 false)
      ((starved (other 0 0 false)).escapeChannel (other 0 0 false) 0) = true ∧
    (withLink fun l => { l with state := 4 }).takes 0 (other 0 0 false) 2 = false ∧
    (63 : Nat) < base.fabric.patience.toNat ∧ base.fabric.patience.toNat ≤ 64 := by
  decide +kernel

/-- R442: partition 1 waits for partition 0, until that has injected its inject_now. -/
theorem meets_PacketsAreRouted_injection :
    ours.owner = some 1 ∧ theirs.owner = some 0 ∧ (none, theirs) ∈ (rivals 99).fabric.transit ∧
    (rivals 99).goesBefore 0 1 = true ∧ (rivals 99).canLeave theirs = true ∧
    (rivals 99).mayInject ours = false ∧ (rivals 100).mayInject ours = true ∧
    (rivals 99).atHead none ours = true ∧ (none, ours) ∈ (rivals 99).fabric.transit := by
  decide +kernel

theorem test_route :
    (after (.packetRoute (some 0) (other 0 0 false) [] 0 clean) (inTransit (other 0 0 false))).out
      = [.fabric 0 { other 0 0 false with hops := 1 }] ∧
    (after (.escape (some 0) (other 0 0 false)) (inTransit (other 0 0 false))).out
      = [.fabric 0 { other 0 0 false with hops := 1 }] ∧
    (after (.escape (some 0) (other 0 0 false)) (starved (other 0 0 false))).out
      = [.fabric 0 { other 0 0 false with hops := 1, channel := 0, esc := true }] ∧
    (after (.packetRoute (some 0) (other 0 0 false) [] 63 clean) (starved (other 0 0 false))).out = [] ∧
    (after (.packetRoute (some 0) (other 0 0 false) [] 64 clean) (starved (other 0 0 false))).out
      = [.fabric 0 { other 0 0 false with hops := 1, channel := 0, esc := true }] ∧
    (after (.packetRoute (some 0) (other 0 63 false) [] 0 clean) (inTransit (other 0 63 false))).fabric.hopDiscards = 1 := by
  decide +kernel

/-! ### Collectives and scheduled packets -/

/-- A COLLECTIVE of an operation, bucket 3, with trigger tally 1 where asked. -/
def coll (op count : Nat) (trig : Bool) : Entry := block 6 22 [(5, BitVec.ofNat 32 op), (6, 2), (7,
  BitVec.ofNat 32 count),
  (8, 0x80000001), (12, 0x80000001), (16, if trig then 0x80000001 else 0), (17, 1), (18, 3)]

/-- Its descriptors. -/
def collDescs : Sparse Desc := [(1, cell 0 1 0x1000 [4] [4])]

/-- base with a COLLECTIVE at the hub. -/
def atHub (r : CollRun) (s : State) : State := { s with coll := { s.coll with runs := [r] } }

/-- A run of a COLLECTIVE. -/
def run (op : Nat) (trig : Bool) : CollRun := base.newRun 0 0 (chk (coll op 4 trig) collDescs) false

/-- base with an entry of bucket 3 in the ledger. -/
def inLedger (e : Entry) : State :=
  { atIssue e collDescs with coll := { base.coll with ledger := [⟨0, 3, 1, 1, [0, 0, 0], [0, 0, 0]⟩] } }

theorem meets_CollectivesAreHandedOver :
    (∀ op ∈ List.range 12, (atIssue (coll op 4 false) collDescs).ready 0 = some (0, chk (coll op 4 false) collDescs) ∧
      (chk (coll op 4 false) collDescs).noop = false ∧
      (atIssue (coll op 4 false) collDescs).holdOf 0 (chk (coll op 4 false) collDescs) = .go ∧
      (atIssue (coll op 4 false) collDescs).overRise (coll op 4 false).kind = false ∧ (coll op 4 false).kind = 6 ∧
      (coll op 4 false).collOp = op ∧ (coll op 4 false).bucket = 3) ∧
    (coll 1 0 false).count = 0 ∧ (coll 1 4 false).count ≠ 0 ∧
    ((inLedger (coll 1 4 false)).ledgerOf 0 3).isSome = true ∧
      (atIssue (coll 1 4 false) collDescs).ledgerOf 0 3 = none ∧
    poolOk 4096 base.ledgerHeld (fun q => (base.part q).guar.live.ledger.toNat) 0 1 = true := by
  decide +kernel

theorem meets_ReadinessIsJudgedOnce :
    (∀ t, (atHub { run 0 t with scan := 1 } base).coll.runs[0]? = some { run 0 t with scan := 1 } ∧
      ((atHub { run 0 t with scan := 1 } base).coll.runs.findIdx? fun x => x.core == 0 && x.resv == (run 0 t).resv && x.scan == 1
        && !x.begun) = some 0 ∧ ({ run 0 t with scan := 1 }).chk.entry.trigEnable = t) ∧
    waitMet ((withCore fun k => { k with tallies := [(1, 1)] }).tallyOf 0 1) 1 = true ∧
      waitMet (base.tallyOf 0 1) 1 = false ∧
    (let r := { run 0 false with due := some 0 }
     let f := fun x : CollRun => x.core == 0 && x.resv == r.resv && x.due.isSome && !x.begun && x.judged.isNone
     (atHub r base).coll.runs.findIdx? f = some 0 ∧
      r.due = some 0 ∧ r.chk.entry.count ≠ 0 ∧ r.chk.entry.deadline = 2 ∧ (base.part 0).sched.pstitch < 2 ∧
      2 ≤ (run5).pstitch ∧ (base.accessErrors r.readExtents r.chk.writeExtents clean).2 = none ∧
      (base.readErrors r.readExtents clean).2 = none ∧ r.wrong = none ∧ r.rx = [] ∧
      (atHub r base).runReady r = true ∧ (atHub r base).runReady { r with scan := 1 } = false ∧
      (atHub r base).sourceHeld r = false ∧ (owned (addrLocal (cellarBase + 0x1000) / 64) (atHub r base)).sourceHeld r = true) := by
  decide +kernel

/-- A pattern with one reservation, numbered 6, from input to output. -/
def withResv (input output kind : Nat) : State :=
  placed.updPart 0 fun q => { q with patState := .running, sched := run5, pattern := some { pat0 with
    resvs := [⟨6, kind, 0, 0, 0, 0, 0, 1, input, output, 0, 1, 0, 1, 512⟩] } }

/-- A scheduled packet of reservation 6 from module 1. -/
def sched (kind : BitVec 4) (channel : BitVec 2) (hops : BitVec 6) : SPkt :=
  SPkt.sealed { channel := channel, last := false, hops := hops, kind := kind, resv := 6, offset := 0, dest := 0,
                src := 1, payload := four, check := 0 }

/-- A stream that comes on link 0. -/
def stream0 : RxStream := { dir := 1, phase := 0, turns := [], pieces := [], used := 0, ended := false }

/-- A maintenance packet of module 1. -/
def maintOf (payload : List Byte) : Pkt := { buildPacket 3 0xC 0 0 0 1 0 0 1 0 0 true payload with channel := 0 }

theorem meets_ScheduledAndMaintenancePackets :
    ((sched 0xE 0 0).kind = 0xE ∧ (sched 0xD 0 0).kind = 0xD ∧ (sched 0xE 0 0).payload.length ≤ 512 ∧
      2 ≤ (sched 0xE 2 0).channel.toNat ∧ (sched 0xE 0 0).channel.toNat < 2 ∧ base.schedEntry 6 1 = none ∧
      (sched 0xE 0 63).hops = 63) ∧
    ((sched 3 0 0).kind ≠ 0xD ∧ (sched 3 0 0).kind ≠ 0xE) ∧ ((withResv 0 2 0).link 2).state = 5 ∧
    (((withResv 0 2 0).updLink 2 fun l => { l with state := 8 }).link 2).state ≠ 5 ∧
    ((withResv 6 2 1).schedEntry 6 1).map (fun x => (x.2.output, x.2.input)) = some (2, 6) ∧
    (withResv 0 2 0).joinedParts 0 = [0] ∧
    ((withResv 0 2 0).updLink 0 fun l => { l with neighbourId := 1023 }).joinedParts 0 = [] ∧
    ((withResv 0 2 0).schedEntry 6 1).map (·.1) = some 0 ∧
    ((withResv 0 6 0).schedEntry 6 1).map (fun x => (x.1, x.2.output)) = some (0, 6) ∧
    ({ sched 0xE 0 0 with check := 0 }).check ≠ ({ sched 0xE 0 0 with check := 0 }).crc ∧
      (sched 0xE 0 0).check = (sched 0xE 0 0).crc ∧
    (withResv 0 6 0).accessStatus 0 0x40000 4 = stDONE ∧ (withResv 0 6 0).accessStatus 0 0x100000 4 ≠ stDONE ∧
    meetAny [(0x40000, 4)] ((withResv 0 6 0).gatherHolds ++ (withResv 0 6 0).atticHolds 0) = false ∧
    meetAny [(0x40000, 4)] ((gatherOver 0x40000 1 (withResv 0 6 0)).gatherHolds ++ []) = true ∧
    ((withResv 0 6 0).part 0).active = true ∧
    (let s := atHub { run 0 false with resv := 6, rx := [stream0] } (withResv 0 6 1)
     s.streamFor 0 0 6 = some (0, 0) ∧ (run 0 false).begun = false ∧ (sched 0xD 0 0).last = false) ∧
    ((withLink fun l => { l with state := 2 }).link 0).state.toNat < 3 ∧
      ((withLink fun l => { l with state := 3 }).link 0).state = 3 ∧
    (let p := maintOf (1 :: List.replicate 63 0)
     p.cls = 3 ∧ p.kind = 0xC ∧ p.channel.toNat < 2 ∧ p.payload.length = 64 ∧ leAt p.payload 0 1 = 1) ∧
    (rep 9 0 0 0 1 []).cls ≠ 3 ∧ 2 ≤ ({ maintOf [] with channel := 2 } : Pkt).channel.toNat := by
  decide +kernel

/-- The check of a maintenance packet is the sum of its header and payload. -/
theorem meets_maintenance_check (l : List Byte) : (maintOf l).check = (maintOf l).crc := rfl

theorem test_scheduled :
    memBytes (after (.schedMove 0 (sched 0xE 0 0) 0x40000) (withResv 0 6 0)).mem 0x40000 4 = four ∧
    (after (.schedMove 0 (sched 0xE 0 0) 0x40000) (withResv 0 2 0)).out
      = [.sched 2 { sched 0xE 0 0 with hops := 1, channel := 1 }] ∧
    (after (.collective 0 (sched 0xD 0 0))
      (atHub { run 0 false with resv := 6, rx := [stream0] } (withResv 0 6 1))).coll.runs.map
      (fun r => r.rx.map (·.pieces)) = [[[(0, four)]]] := by decide +kernel

/-- A VECTOR and a ROW command that have run, and a move with its answers. -/
def finished (done : Bool) : State :=
  withCore fun k => { k with
    vector := some ⟨chk ld vDescs, 0, stDONE, none⟩, row := some ⟨chk (row 0) rowDescs, 0, stDONE, none⟩,
    mover := some { lastWrite with phase := if done then .done else .writing } }

/-- A collective of no elements, at its end. -/
def emptyRun : CollRun :=
  { run 0 false with chk := chk (coll 0 0 false) collDescs, started := true, due := some 0, begun := true }

theorem meets_CommandsComplete :
    (base.partOf 0 = some 0 ∧ ((inArray 1 []).core 0).tensor.map (fun r => (r.bad, r.tiles - r.next,
      r.undrained)) = some (none, 0, [])
      ∧ ((inArray 1 [0]).core 0).tensor.map (·.undrained) = some [0]
      ∧ (((inArray 1 []).updCore 0 fun k => { k with tensor := k.tensor.map fun r => { r with bad := some 0 } }).core 0).tensor.map
          (·.bad.isSome) = some true ∧ ((inArray 1 []).part 0).active = true
      ∧ (((inArray 1 []).updCore 0 fun k => { k with tensor := k.tensor.map fun r => { r with stale := true } }).core 0).tensor.map
          (fun r => (r.bad, r.stale)) = some (none, true)) ∧
    (let r := { run 0 false with resv := 0, stale := true, due := some 0, begun := true, todo := 0 }
     r.over = true ∧ r.status = stSTALE_SHARD) ∧
    (((finished true).core 0).vector.isSome = true ∧ ((finished true).core 0).row.isSome = true ∧
      ((finished false).core 0).mover.map (·.phase) = some .writing ∧
      ((finished true).core 0).mover.map (fun m => (m.phase, m.chk.entry.moveOp, m.gatherKey.isNone,
        m.chk.entry.remoteSignal))
        = some (.done, 0, true, false)) ∧
    ((run 0 false).over = false ∧
      ((atHub emptyRun base).coll.runs.findIdx?
        fun x => x.core == 0 && x.resv == (run 0 false).resv && x.over) = some 0) := by
  decide +kernel

theorem test_hub_complete :
    (after (.commandComplete 0 (.hubColl 0))
      (atHub { emptyRun with resv := 0 } base)).coll.done = 1 := by decide +kernel

/-! ### The Yepecy link -/

/-- A packet of the host. -/
def hp (kind len : Nat) (addr : Nat) (payload : List Byte) : HPkt := hostPacket kind len 5 0 addr payload

/-- base with Yepecy port 0 rising, after some HELLOs. -/
def rising (n : Nat) : State := trained 2 n

/-- base where the domains of the HBM stacks have lost lock. -/
def unstacked : State := { base with locked := 0xFFF000FFFF }

theorem meets_HostPortServes :
    (base.greets 0 = false ∧ (rising 0).greets 0 = true ∧ (1 : Word) ≠ (helloPacket 7 0).check ∧
      (helloPacket (7 : Word).toNat 0).check = (helloPacket 7 0).check ∧ (rising 0).boundTo 0 0 = true) ∧ ((rising 1).hport 0).hellos < 2 ∧
    ((rising 2).hport 0).hellos = 2 ∧
    fld (BitVec.ofNat 32 base.hw.stepping.hostVersion) 16 16 = base.hw.stepping.hostVersion / 2 ^ 16 ∧
    fld (0xFFFF0000 : Word) 16 16 ≠ base.hw.stepping.hostVersion / 2 ^ 16 ∧ (base.hport 0).state = 3 ∧
    ((hp 0 16 0x40000 []).isKind 0 = true ∧ (hp 0 16 0x40000 []).kind = 0 ∧
      (hp 0 16 0x40000 []).check = (hp 0 16 0x40000 []).crc ∧
      ({ hp 0 16 0x40000 [] with check := 0 }).check ≠ ({ hp 0 16 0x40000 [] with check := 0 }).crc ∧
      base.hostReach 0 (addrLocal 0x40000) 16 = .memory 0x40000 ∧ (base.readErrors [(0x40000, 16)] clean).2 = none ∧
      base.hostReach 0 (addrLocal (controlBase + 0x6000000)) 4 = .register 0x6000000 ∧
      base.reachesBlock 0 (regBlockOf 0x6000000).1 = true ∧ base.hostReach 0 (addrLocal 0x100000) 16 = .refused ∧
      unstacked.hostReach 0 (addrLocal 0x40000) 16 = .closed) ∧
    ((hp 3 4 0x40000 four).isKind 3 = true ∧ (hp 3 4 0x40000 four).kind = 3 ∧
      (hp 3 4 0x40000 four).check = (hp 3 4 0x40000 four).crc ∧
      base.queuesAt 0 0x40000 = [] ∧ (base.accessErrors [] [(0x40000, 4)] clean).2 = none ∧
      (base.accessErrors [] [(0x40000, 4)] { clean with parityBad := [0x40000] }).2 ≠ none) ∧
    base.reachesBlock 0 (regBlockOf 0x6001000).1 = false := by
  decide +kernel

theorem noneWaits_base : base.NoneWaits := by
  refine ⟨fun p => ?_, by decide⟩
  by_cases h : p = 0
  · subst h; decide
  · have : base.part p = Part.reset := by
      simp [State.part, Sparse.get, Sparse.find, base, h, eq_comm]
    rw [this]; decide

theorem test_host_port :
    ((after (.hello 0 (BitVec.ofNat 32 base.hw.stepping.hostVersion)) (rising 2)).hport 0).state = 3 ∧
    memBytes (after (.wr 0 (hp 3 4 0x40000 four)) base).mem 0x40000 4 = four ∧
    (after (.rd 0 (hp 0 4 0x100000 []) clean) base).host.refusals = 1 := by decide +kernel

/-- base with window 0 cacheable by the host. -/
def cached (f : HostPort → HostPort) : State :=
  (withPart fun q => { q with aper := ⟨q.aper.sh, { q.aper.live with cacheable := 1 }⟩ }).updHport 0 f

/-- A request of core 0 to the host. -/
def hostReq (isRead : Bool) : HostReq := { tag := 5, isRead := isRead, addr := 0, len := 8, core := some 0 }

/-- base with a host request outstanding, of core 0's mover. -/
def asking (isRead : Bool) : State :=
  (cached fun h => { h with requests := [hostReq isRead] }).updCore 0 fun k =>
    { k with mover := some { lastWrite with hostLive := 2 } }

theorem meets_HostLinesAndRequests :
    (∀ k ∈ [1, 2], (hp k 64 0x40000 []).isKind k = true ∧ (hp k 64 0x40000 []).check = (hp k 64 0x40000 []).crc ∧
      addrLocal 0x40000 % 64 = 0 ∧ (cached id).cacheable 0 0x40000 = true ∧
        ((cached id).hport 0).canGrant (0x40000 / 64) = true ∧
      ((cached id).readErrors [(0x40000, 64)] clean).2 = none ∧ (cached id).memOpen 0x40000 = true) ∧
    base.cacheable 0 0x40000 = false ∧ ({ cached id with locked := unstacked.locked } : State).memOpen 0x40000 = false ∧
    ({ cached id with locked := unstacked.locked } : State).cacheable 0 0x40000 = true ∧ addrLocal 0x40020 % 64 ≠ 0 ∧
    ((hp 4 0 0x40000 []).isKind 4 = true ∧
      (((cached fun h => { h with directory := [(0x1000,
        true)] }).hport 0).directory.any fun x => x.1 == 0x40000 / 64) = true ∧
      ((base.hport 0).directory.any fun x => x.1 == 0x40000 / 64) = false ∧ (base.hport 0).waiting = [] ∧
        (base.hport 0).overlay = []) ∧
    ((hp 5 0 0 []).isKind 5 = true ∧ (hp 5 0 0 []).check = (hp 5 0 0 []).crc) ∧ (base.hport 0).freshTag = some 0 ∧
    ((hp 6 0 0 []).isKind 6 = true ∧ ((asking false).hport 0).requestOf (hp 6 0 0 []).tag false = some (hostReq false) ∧
      ((asking false).core 0).mover.map (fun m => (m.hostTodo, m.hostLive, m.status)) = some ([], 2, stDONE)) ∧
    ((hp 7 4 0 four).isKind 7 = true ∧
      ((asking true).hport 0).requestOf (hp 7 4 0 four).tag true = some (hostReq true) ∧
      four.length < (hostReq true).len) := by
  decide +kernel

theorem test_host_lines :
    ((after (.rdOwn 0 (hp 2 64 0x40000 []) clean) (cached id)).hport 0).directory = [(0x1000, true)] ∧
    ((after (.wb 0 (hp 4 0 0x40000 [])) (cached fun h => { h with directory := [(0x1000, true)] })).hport 0).directory
      = [] ∧
    ((after (.hAck 0 (hp 6 0 0 [])) (asking false)).core 0).mover.map (·.hostLive) = some 1 ∧
    ((after (.hostTimeout 0 5) (asking false)).hport 0).state = 0 := by decide +kernel

/-- base with doorbell 3 bound to tally 1 of core 0, and a vector that waits for the end of its period. -/
def bound (v : IVec) : State := withHost fun h => { h with dbBind := [(3, 0x80001000)], vecs := [(0, v)] }

/-- A vector that takes cause 0 of partition 0, its period over at 10. -/
def vec0 (fresh : Word) : IVec :=
  { IVec.reset with causes := 0x10001, coalesce := 10, pending := 1, sentAt := some 0, fresh := fresh }

/-- base with host queue 0 of 4 KiB at 0x40000. -/
def hq (f : HQueue → HQueue) : State := withHost fun h => { h with
  queues := [(0, f { HQueue.reset with base := ⟨0x40000, 0⟩, size := ⟨0x6000C, 0⟩, bind := ⟨0, 0⟩ })] }

theorem meets_DoorbellsInterruptsAndQueues :
    (Sparse.get 0 ((bound (vec0 1)).hport 0).dbBind 3 = 0x80001000 ∧ bit (0x80001000 : Word) 31 = true ∧
      (bound (vec0 1)).bindOk 0 0x80001000 = true ∧ (bound (vec0 1)).bindOk 0 0x80000001 = false ∧
        fld (2 : Word) 0 8 ≠ 0) ∧
    base.boundTo 0 0 = true ∧
    ((Sparse.get IVec.reset ((bound (vec0 1)).hport 0).vecs 0).sentAt = some 0 ∧
      (vec0 0).fresh &&& (vec0 0).pending = 0 ∧
      (vec0 1).fresh &&& (vec0 1).pending ≠ 0 ∧ ((bound (vec0 1)).hport 0).freshTag = some 0) ∧
    (base.queueReached 0 0 = true ∧ (hq id).queueStatus 0 ((hq id).hqueue 0 0) = stDONE ∧
      (hq fun q => { q with size := ⟨4, 0⟩ }).queueStatus 0 ((hq fun q => { q with size := ⟨4,
        0⟩ }).hqueue 0 0) ≠ stDONE ∧
      ((hq fun q => { q with state := 2 }).hqueue 0 0).state ≠ 0 ∧ (base.hqueue 0 0).state = 0 ∧
      (hq fun q => { q with state := 1, bind := ⟨0, 0⟩ }).queueReached 1 0 = true ∧
      ((withHost id).updHport 1 fun h => { h with queues := [(0,
        { HQueue.reset with state := 1 })] }).queueReached 1 0 = false) ∧
    ((hq fun q => { q with state := 1, counts := [(0, 1)] }).hqueue 0 0).counts ≠ [] ∧
    base.power.ticks < 0 + base.host.hqIdle.toNat := by
  decide +kernel

theorem test_doorbell :
    (after (.doorbell 0 3 2) (bound (vec0 1))).tallyOf 0 1 = 2 ∧
    (Sparse.get IVec.reset ((after (.interrupt 0 0) (bound { vec0 1 with pending := 0 })).hport 0).vecs 0).pending = 1 ∧
    ((after (.hqCommit 0 0) (hq id)).hqueue 0 0).state = 1 := by decide +kernel

/-! ### Management -/

/-- A request with no data. -/
def ask (index : Half) (sub : Byte) : AReq :=
  { magic := 0x4153, version := 1, reqId := 77, index := index, sub := sub, flags := 0, status := 0, reason := 0,
    typ := 0,
    dataBytes := 0, reserved := 0, offset := 0, total := 0, data := [] }

/-- A write of power_limit. -/
def setLimit (w : Word) : AReq := { ask 0x1300 6 with dataBytes := 4, total := 4, data := leBytes 4 w.toNat }

/-- An address of the module. -/
def mgr : List Byte := List.replicate 16 1

/-- A source. -/
def asker : List Byte := List.replicate 16 3

/-- A good frame of a source to mgr. -/
def frm (src : List Byte) : Frame :=
  { ether := 1, tagged := false, length := 64, fcs := 7, crc := 7, source := src, dest := mgr, extended := false }

/-- A good datagram of asker. -/
def dg : Dgram := { frame := frm asker, sport := 9, dport := base.mgmt.net.live.port, checksum := 5, computed := 5 }

/-- base with mgr in use, the permitted sources as listed. -/
def addressed (managers : List (List Byte)) : State := { base with mgmt := { base.mgmt with
  addrState := 3, net := ⟨base.mgmt.net.sh, { base.mgmt.net.live with unicast := mgr, managers := managers }⟩ } }

/-- No source listed. -/
def anyone : List (List Byte) := List.replicate 4 (List.replicate 16 0)

/-- One permitted source, another than asker. -/
def shut : State := addressed (List.replicate 16 2 :: List.replicate 3 (List.replicate 16 0))

theorem meets_Hears : (addressed anyone).Hears (frm asker) ∧ shut.Hears (frm asker) := by
  unfold State.Hears; decide +kernel

theorem meets_ManagementRequests :
    (booted .off).served = false ∧ base.reachesMe mgr = false ∧
    (addressed anyone).discardsDgram dg = false ∧ (addressed anyone).discardsDgram { dg with checksum := 6 } = true ∧
    (addressed anyone).discardsDgram { dg with checksum := 0, computed := 0 } = true ∧
    (addressed anyone).discardsDgram { dg with dport := dg.dport + 1 } = true ∧
    ((addressed anyone).asrelOut dg four).isSome = true ∧
    droppedReq { ask 0x1300 6 with magic := 0 } = true ∧ droppedReq (ask 0x1300 6) = false ∧
    (∀ op ∈ [1, 2, 3, 4], malformedReq { ask 0x1300 6 with reserved := 1 } op = true ∧
      (addressed anyone).permitted (.net dg) op 0x1300 = true ∧ shut.permitted (.net dg) op 0x1300 = false) ∧
    (∀ op ∈ [1, 3, 4], malformedReq (ask 0x1300 6) op = false) ∧ malformedReq (setLimit 1000) 2 = false ∧
    (addressed anyone).mgmt.kept = [] ∧ (addressed anyone).inRecovery = false ∧
    (addressed anyone).mgmt.net.live.used = [] ∧ (rowOf 0x1300 6).isSome = true ∧
    ((rowOf 0x1300 6).map fun e => (e.access != .wo, isBlock (e.typeAt 0x1300 6))) = some (true, false) ∧
    ((rowOf 0x1000 1).map fun e => (e.access == .ro || e.access == .const)) = some true ∧
    (setLimit 1000).data = leBytes 4 (1000 : Word).toNat ∧
    (let s : State := { base with mgmt := { base.mgmt with kept := [(asker, [⟨77, 2, 0x1300, 6, []⟩])] } }
     s.mgmt.kept = [((frm asker).source, [⟨77, 2, 0x1300, 6, []⟩])] ∧ (setLimit 1000).reqId = 77) := by
  decide +kernel

theorem test_power_limit :
    (after (.asrelWrite (.net dg) (setLimit 1000)) (addressed anyone)).power.limit = 1000 ∧
    (after (.asrelWrite (.net dg) (setLimit 999)) (addressed anyone)).power.limit = 2600 ∧
    (after (.asrelWrite (.net { dg with checksum := 6 }) (setLimit 1000)) (addressed anyone)).power.limit = 2600 := by
  decide +kernel

/-- R540: the answer comes from the address that the request went to, and goes to its source and port. -/
theorem test_answer_address :
    (after (.describe (.net dg) (ask 0x1300 6)) (addressed anyone)).out.map (fun o => match o with
      | .asrel h _ => (h.source == mgr, h.dest == asker, h.sport == dg.dport, h.dport == dg.sport)
      | _ => (false, false, false, false)) = [(true, true, true, true)] := by
  decide +kernel

/-- base with a mailbox request of n bytes: a READ of index 0x1300, subindex 6. -/
def mailed (m : MBox → MBox) : State := withHost fun h => { h with mbox := m { MBox.reset with
  request := [(0, 0x01014153), (1, 77), (2, 0x00061300)] } }

/-- base with an address, its duplicate detection under way. -/
def detecting (d : Bool) : State := { base with mgmt := { base.mgmt with
  detecting := d, net := ⟨{ base.mgmt.net.sh with unicast := mgr }, base.mgmt.net.live⟩ } }

theorem meets_MailboxAndNode :
    ((base.hport 0).state = 3 ∧ base.served = true ∧ 28 ≤ fld (28 : Word) 0 11 ∧ fld (1052 : Word) 0 11 ≤ 1052 ∧
      ((mailed id).hport 0).mbox.busy = false ∧ ((mailed id).hport 0).mbox.ready = false ∧
      (parseRequest (((mailed id).hport 0).mbox.frame 28)).1 = 1 ∧
      ((mailed fun m => { m with ready := true }).hport 0).mbox.ready = true ∧ fld (27 : Word) 0 11 < 28 ∧
        1052 < fld (1053 : Word) 0 11) ∧
    (netCommitStatus base.mgmt.net.sh (.mailbox 0) = stDONE ∧
      netCommitStatus { base.mgmt.net.sh with plcaNode := 9 } (.mailbox 0) ≠ stDONE ∧
      base.mgmt.net.sh.unicast = base.mgmt.net.live.unicast ∧
        (detecting false).mgmt.net.sh.unicast ≠ (detecting false).mgmt.net.live.unicast) ∧
    (detecting true).mgmt.detecting = true ∧ (detecting false).mgmt.detecting = false ∧ (booted .off).served = false ∧
    (addressed anyone).mgmt.detecting = false ∧ (addressed anyone).addressInUse mgr = true ∧
    base.reachesMe (frm asker).dest = false ∧ (frm asker).tagged = false := by
  decide +kernel

/-- A module that detects duplicates of mgr hears a frame to all nodes. -/
theorem meets_MailboxAndNode_detecting : let f := { frm (List.replicate 16 0) with dest := [0xFF, 2, 0, 0, 0, 0, 0,
  0, 0, 0, 0, 0, 0, 0, 0, 1] }
    ({ detecting true with mgmt := { (detecting true).mgmt with
      net := ⟨(detecting true).mgmt.net.sh,
        { (detecting true).mgmt.net.live with unicast := mgr }⟩ } } : State).Hears f ∧
    ∀ b ∈ f.source, b = 0 := by
  unfold State.Hears; decide +kernel

theorem test_mailbox :
    leAt ((after (.mbSubmit 0 28) (mailed id)).hport 0).mbox.response 4 4 = 77 ∧
    ((after (.mbSubmit 0 27) (mailed id)).hport 0).mbox.refused = true ∧
    (after (.netCommit (.mailbox 0)) (detecting false)).out = [.solicit (.node 1) mgr] ∧
    (after (.icmpEchoRequest (frm asker) 7 four) (addressed anyone)).out = [.echoIcmp (.node 1) asker 7 four] ∧
    (after (.neighborSolicitation (frm asker) mgr) (addressed anyone)).out = [.advertise (.node 1) mgr] ∧
    bit (after .dadTimeout (detecting true)).mgmt.addrState 1 = true := by decide +kernel

/-! ### Firmware -/

/-- A whole image of one block in slot A, its digest zero, its header's ranges of versions 0 to 5. -/
def slotA : Slot := { Slot.reset with state := 4, total := 65536, data := [(28, 3), (29, 0)] }

/-- base with slot A running and another image in slot B, or a difference in the staging region. -/
def slots (b c : Slot) : State := { base with fw := { base.fw with slots := [(0, slotA), (1, b), (2, c)] } }

/-- A checked image in slot B. -/
def slotB : Slot := { Slot.reset with state := 2, total := 65536, data := [(24, 0), (25, 0), (26, 5), (27, 0)] }

/-- A checked difference: one target block, copied from block 0, base digest as listed. -/
def diff (digest : Byte) : Slot :=
  { Slot.reset with state := 2, total := 65536, data := [(30, 1), (31, 0)]
      ++ ((List.range 64).map fun i => (32 + i, digest)) ++ [(4096, 0), (4097, 0)] }

theorem factory_image_passes (s : State) (x : Slot) (hx : x.factory = true) (hk : s.hw.keyRevoked = 0)
    (hc : s.hw.securityCounter = 0) : s.checkImage x 0 = stDONE := by
  simp [State.checkImage, Hw.accepts, hx, hk, hc]

theorem meets_ImagesAndActivation :
    ((slots Slot.reset Slot.reset).runs 0 = true ∧ (slots Slot.reset Slot.reset).runs 1 = false ∧
      base.mayReconstruct = true ∧
      imageBytesOk 65536 = true ∧ imageBytesOk 65535 = false ∧ ((slots Slot.reset Slot.reset).slot 1).state ≤ 1 ∧
      (∀ b ∈ blocksAt 0 four.length, (((slots Slot.reset Slot.reset).slot 1).place 0 four).arrived b = false)) ∧
    ((slots Slot.reset (diff 1)).slot 2).state = 2 ∧ ((slots Slot.reset (diff 1)).slot 1).state ≠ 1 ∧
    ((slots Slot.reset (diff 1)).slot 2).bytes 32 64 ≠ ((slots Slot.reset (diff 1)).slot 0).digest ∧
    ((slots Slot.reset (diff 0)).slot 2).bytes 32 64 = ((slots Slot.reset (diff 0)).slot 0).digest ∧
    operations (diff 0) slotA = some [(false, 0)] ∧
    (booted .recovery).inRecovery = true ∧ (slots slotB Slot.reset).inRecovery = false ∧
    (((slots slotB Slot.reset).slot 1).le 24 2 ≤ (slots slotB Slot.reset).handoverOut ∧
      (slots slotB Slot.reset).handoverOut ≤ ((slots slotB Slot.reset).slot 1).le 26 2 ∧
        ((slots slotB Slot.reset).slot 1).filling = 0) ∧
    base.fw.handoverTo = none ∧ base.quiescent = true ∧ base.hw.keyRevoked = 0 ∧ base.hw.securityCounter = 0 := by
  decide +kernel

/-- A handover to a factory image in slot B. -/
def handing : State :=
  { slots { Slot.reset with factory := true, state := 2 } Slot.reset with
    fw := { (slots { Slot.reset with factory := true, state := 2 } Slot.reset).fw with handoverTo := some 1 } }

theorem meets_handover : (handing.slot 1).state = 2 ∧ handing.quiescent = true ∧ handing.fw.handoverTo = some 1 ∧
    handing.checkImage (handing.slot 1) 0 = stDONE :=
  ⟨by decide +kernel, by decide +kernel, rfl, factory_image_passes _ _ (by decide +kernel) rfl rfl⟩

theorem test_images :
    ((after (.imageStoreWrite 1 0 65536 four) (slots Slot.reset Slot.reset)).slot 1).bytes 0 5 = [1, 2, 3, 4, 0xFF] ∧
    (after .activateLive (slots slotB Slot.reset)).fw.handoverTo = some 1 ∧
    ((after .activateAtReset (slots slotB Slot.reset)).slot 1).state = 3 ∧
    ((after .reconstruct (slots Slot.reset (diff 1))).slot 2).state = 5 := by decide +kernel

/-- An OFFER of one block with a digest of 7s. -/
def offer1 : List Byte := [0x10, 0, 1, 0] ++ List.replicate 12 0 ++ List.replicate 64 7

/-- base with distribution from port 0 to port 1. -/
def spread (s : State) : State := { s with fw := { s.fw with distEnable := 1, distUp := 0, distDown := 2 } }

/-- The slot that is not running, receiving that image. -/
def filling : State :=
  let s := spread (slots { Slot.reset with state := 1, filling := 2, total := 65536 } Slot.reset)
  { s with fw := { s.fw with offer := offer1 } }

/-- A NEED of port 1 for block 0 of the image in slot B. -/
def need0 : List Byte := [0x11, 0, 0, 0] ++ leBytes 32 1 ++ List.replicate 64 0

theorem meets_DistributionFrames :
    (base.link 0).state = 5 ∧ offer1.length = 80 ∧ base.fw.distEnable = 0 ∧
    ((spread (slots Slot.reset Slot.reset)).fw.distEnable = 1 ∧
      (spread (slots Slot.reset Slot.reset)).distSlot.filling = 0 ∧
      offerCount offer1 = 1 ∧ (spread (slots Slot.reset Slot.reset)).distSlot.state ≠ 2) ∧
    (slots Slot.reset Slot.reset).offerFrame = none ∧ (spread (slots slotB Slot.reset)).offerFrame.isSome = true ∧
    (spread (slots slotB Slot.reset)).downPorts = [1] ∧
    (need0.length = 100 ∧
      (spread (slots slotB Slot.reset)).offerFrame.map (fun o => offerDigest o == takeAt need0 36 64) = some true ∧
      (spread (slots slotB Slot.reset)).receiving = false ∧
        Sparse.find (spread (slots slotB Slot.reset)).fw.sent 1 = none) ∧
    (filling.receiving = true ∧ filling.fw.distUp.toNat = 0 ∧
      (let f := [0x12, 0, 0, 0, 0, 0, 0, 0] ++ List.replicate 8 7 ++ List.replicate 128 1
       f.length = 144 ∧ takeAt f 8 8 = (offerDigest filling.fw.offer).take 8 ∧
         leAt f 2 2 < offerCount filling.fw.offer ∧ leAt f 4 2 < 512 ∧
        filling.distSlot.factory = false ∧ leAt f 2 2 ∉ filling.distSlot.fixed ∧
        (filling.distSlot.place 0 (takeAt f 16 128)).arrived 0 = false) ∧
      (let f := [0x13, 1, 0, 0] ++ List.replicate 64 7
       f.length = 68 ∧ leAt f 1 1 = 1 ∧ takeAt f 4 64 = offerDigest filling.fw.offer)) := by
  decide +kernel

theorem test_offer :
    (after (.offer 0 offer1) (spread (slots Slot.reset Slot.reset))).distSlot.filling = 2 ∧
    (after .upstreamSilence filling).distSlot.state = 5 ∧
    Sparse.find (after (.need 1 (need0.set 4 0)) (spread (slots slotB Slot.reset))).fw.wanted 1 = some [] := by
  decide +kernel

theorem meets_AttestationReports :
    ((withPart fun q => { q with attestState := 1 }).part 0).attestState = 1 ∧ (base.part 0).attestState ≠ 1 ∧
    ({ base with fw := { base.fw with attestQueue := [0] } } : State).fw.attestQueue.head? = some (0 : Fin 16).val ∧
    base.fw.attestQueue.head? ≠ some (0 : Fin 16).val := by decide +kernel

/-! ### Rows that leave a part of the state as it was -/

theorem meets_MemoryAndCoresKept :
    Instr.touchesMem .bypass = false ∧ Instr.touchesMemStat .bypass = false ∧ Instr.touchesCores .bypass = false ∧
    Instr.touchesCtxs .bypass = false ∧ Instr.touchesTrain .bypass = false ∧ Instr.touchesColl .bypass = false ∧
    Instr.touchesParts .bypass = false ∧ (exec .bypass base = .next { base with jtag := .bypass }) :=
  ⟨rfl, rfl, rfl, rfl, rfl, rfl, rfl, rfl⟩

theorem meets_LinksAndServiceKept :
    (∀ c : Instr, c = .testLogicReset → c.touchesPorts = false ∧ c.touchesTb = false ∧ c.touchesLocked = false ∧
      c.touchesPower = false ∧ c.touchesFw = false ∧ c.touchesHw = false ∧ c.touchesMgmt = false ∧
      c.touchesArith = false ∧ c.touchesTenancy = false ∧ c.touchesHost = false ∧ c.touchesFabric = false) ∧
    Instr.touchesJtag (.atticHoldEnd 0 0) = false ∧ malformed (exec .testLogicReset base) = false :=
  ⟨fun _ h => by subst h; decide, rfl, by decide +kernel⟩

/-! ### Witnesses of further clauses -/

/-- Heads of five engines and a SYNC, each with its descriptors. -/
def heads : List (Entry × Sparse Desc) :=
  [(matmul, mmDescs), (ld, vDescs), (move 0 0 0 4 0, mvDescs), (row 0, rowDescs), (coll 1 4 false, collDescs),
    (sync 3 255 9 0 0 0, [])]

/-- An entry that waits for tally 0 to reach 5. -/
def waits (e : Entry) : Entry := { e with words := (e.words.set 1 0x80000000).set 2 5 }

/-- An entry at issue while 48 other arrays of the module run. -/
def limitedAt (e : Entry) (ds : Sparse Desc) : State :=
  (List.range 48).foldl (fun s i => s.updCore (i + 1) fun k =>
    { k with tensor := ((inArray 0 []).core 0).tensor }) (atIssue e ds)

/-- Each thing that may stand before an issue: the wait, the resource, the bank, the hold, the limiter. -/
theorem meets_WaitsHoldUntilTheirTally_before :
    (∀ x ∈ heads, (waits x.1).waitEnable = true ∧
      2 ^ 31 ≤ ((atIssue (waits x.1) x.2).tallyOf 0 (waits x.1).waitTally - (waits x.1).waitTarget).toNat ∧
      ((headRows 0 clean).filter fun c => c.2 x.1).length = 1) ∧
    ((inArray 0 []).resourceFree 0 matmul = false ∧ base.resourceFree 0 matmul = true) ∧
    (chk (move 0 0 0 0 0) mvDescs).noop = true ∧
    (let s := owned (addrLocal (cellarBase + 0x1000) / 64) (atIssue matmul mmDescs)
     s.ready 0 = some (0, chk matmul mmDescs) ∧ s.holdOf 0 (chk matmul mmDescs) = .stall) ∧
    (let s := gatherOver (cellarBase + 0x3000) 1 (atIssue matmul mmDescs)
     s.ready 0 = some (0, chk matmul mmDescs) ∧ s.holdOf 0 (chk matmul mmDescs) = .stale true) ∧
    (let s := limitedAt matmul mmDescs
     s.ready 0 = some (0, chk matmul mmDescs) ∧ s.holdOf 0 (chk matmul mmDescs) = .go ∧ s.overRise 1 = true) := by
  decide +kernel

/-- R414, R611: a write over a gather's hold is refused; a MATMUL too many is stalled, and counted once. -/
theorem test_before_issue :
    ((after (.matmul 0) (gatherOver (cellarBase + 0x3000) 1 (atIssue matmul mmDescs))).core 0).queue = [] ∧
    (after (.matmul 0) (after (.matmul 0) (limitedAt matmul mmDescs))).power.limiterStalls = 1 ∧
    ((after (.matmul 0) (limitedAt matmul mmDescs)).core 0).queue = [matmul] := by decide +kernel

/-- R154, R163: TALLY_SET with a signal; PUBLISH unversioned, uncommitted, and with the attic of its handle held. -/
theorem meets_TallySetAndPublish_forms :
    ({ sync 3 255 9 0 0 0 with words := [0x51000000, 0, 0, 0x8080FF03, 0, 3, 3, 9] }).sigEnable = true ∧
    (∀ ds ∈ [[(1023, desc16)], []], (atIssue (sync 4 1023 0 0 0 0) ds).ready 0 = some (0, chk (sync 4 1023 0 0 0 0) ds) ∧
      (atIssue (sync 4 1023 0 0 0 0) ds).holdOf 0 (chk (sync 4 1023 0 0 0 0) ds) = .go ∧
      (chk (sync 4 1023 0 0 0 0) ds).noop = false ∧ (atIssue (sync 4 1023 0 0 0 0) ds).overRise 5 = false) ∧
    (let s := (atIssue (sync 4 1023 0 0 0 0) [(1023, versioned)]).updPart 0 fun q => { q with
        patState := .running, attic := [{ handle := 1023, step := 0, base := 0, release := 9, exts := [] }] }
     s.ready 0 = some (0, chk (sync 4 1023 0 0 0 0) [(1023, versioned)]) ∧
      s.holdOf 0 (chk (sync 4 1023 0 0 0 0) [(1023, versioned)]) = .go ∧ (s.part 0).patState = .running ∧
      ∃ a ∈ (s.part 0).attic, a.handle = 1023) := by
  decide +kernel

/-- R154: no signal of a PUBLISH that fails; TALLY_SET and its signal on one tally. -/
theorem test_publish_fails :
    (let e : Entry := { sync 4 1023 0 0 0 0 with words := [0x51000000, 0, 0, 0x80400103, 0, 4, 1023, 0] }
     (after (.publish 0) (atIssue e [(1023, desc16)])).tallyOf 1 3 = 0 ∧
      (after (.publish 0) (atIssue e [(1023, versioned)])).tallyOf 1 3 = 1) ∧
    (let e : Entry := { sync 3 3 9 0 0 0 with words := [0x51000000, 0, 0, 0x80000103, 0, 3, 3, 9] }
     (after (.tallySet 0) (atIssue e [])).tallyOf 0 3 = 10) := by decide +kernel

/-- R102, R196: a tile and a drain whose read fails. -/
theorem meets_MatmulRuns_bad :
    (∃ iv ∈ matmul.tileVectors 0, loaded.badRead { clean with cellarBad := [cellarBase + 0x1000] }
      (iterRanges (chk matmul mmDescs) (cell 1 2 0x1000 [1, 1] [2, 2]) (cell 1 2 0x2000 [1, 1] [2, 2]) iv) = true) ∧
    loaded.partOf 0 = some 0 ∧ (loaded.part 0).active = true ∧ ((loaded.core 0).tensor.map (·.undrained)) = some [] ∧
    ({ inArray 1 [0] with memStat := { base.memStat with poison := [(0x3000 : Nat) / 256] } } : State).badRead clean
      (drainRanges (chk { matmul with words := matmul.words.set 20 0x16C } mmDescs) (cell 0 2 0x3000 [1, 1] [4, 4]) 0)
      = true := by
  decide +kernel

/-- R196, R199: the bank of a tile that failed stays busy, and the command then stops its partition. -/
theorem test_matmul_fails :
    let s := after (.tileStart 0 { clean with cellarBad := [cellarBase + 0x1000] }) loaded
    (s.core 0).tensor.map (fun r => (r.bad.isSome, r.kept, r.undrained)) = some (true, [0], []) ∧
    ((after (.commandComplete 0 .tensor) s).part 0).active = false := by decide +kernel

/-- A record that joins two contexts, and a line of the record that a host holds. -/
theorem meets_LarderIsAStack_held :
    ({ oneRecord 9 with joinedTo := true }).joinedTo = true ∧
    (let s := moving (move 1 9 0 0 0) (oneRecord 9)
     let u := s.pushInto 0 0 0 9 256
     u.isSome = true ∧
      (gatherOver ((s.part 0).regionBase 0 + 256) 1 s).heldAgainst 0
        (gatherOver ((s.part 0).regionBase 0 + 256) 1 s).gatherHolds [((s.part 0).regionBase 0 + 256, 16)] = some true ∧
      s.heldAgainst 0 s.gatherHolds [((s.part 0).regionBase 0 + 256, 16)] = none ∧
      (u.map fun u => u.recordAddr 0 0 1) = some ((s.part 0).regionBase 0 + 256) ∧
      ((cell 0 1 0x1000 [4] [4]).packedData (s.moveReader [])).length = 16 ∧
      (s.accessErrors ((cell 0 1 0x1000 [4] [4]).packedRuns.map fun r => (addrLocal r.1, r.2))
        [((s.part 0).regionBase 0 + 256, 16)] clean).2 = none) ∧
    (let s := moving (move 2 9 0 0 0) (oneRecord 9)
     let mv := packedMoves (cell 0 1 0x2000 [4] [4]) ((s.part 0).regionBase 0)
     (mv.any fun x => s.lineHeld x.2.1 x.2.2 false) = false ∧
      (mv.any fun x => (owned ((s.part 0).regionBase 0 / 64) s).lineHeld x.2.1 x.2.2 false) = true ∧
      ¬ 256 < (cell 0 1 0x2000 [4] [4]).packedBytes) := by
  decide +kernel

/-- R118, R414: a read gives the record's bytes; a push whose place a gather holds leaves no record. -/
theorem test_larder :
    (let s := moving (move 2 9 0 0 0) (oneRecord 9)
     memRead (after (.larderRead 0 clean) { s with mem := memPut [] ((s.part 0).regionBase 0) [5, 6, 7] }).mem
      (cellarBase + 0x2002) = 7) ∧
    (let s := moving (move 1 9 0 0 0) (oneRecord 9)
     ((after (.larderPush 0 clean) (gatherOver ((s.part 0).regionBase 0 + 256) 1 s)).ctx 0).records.length = 1) := by
  decide +kernel

/-- A MATMUL whose read failed with a drain under way, and a scheduled MOVE to another module. -/
theorem meets_CommandsComplete_bad :
    ((((inArray 1 [0]).updCore 0 fun k => { k with tensor := k.tensor.map fun r => { r with bad := some 0 } }).core 0).tensor.map
      fun r => (r.bad.isSome, r.undrained)) = some (true, [0]) ∧
    (let m : MoverRun := { lastWrite with phase := .done, chk := chk (move 0 0 0 4 6) mvDescs, dst := some away }
     m.phase = .done ∧ m.chk.entry.moveOp = 0 ∧ m.gatherKey = none ∧ m.status = stDONE ∧ m.chk.entry.moveResv ≠ 0 ∧
      m.dst.any (·.loc == 8) = true ∧ m.chk.entry.remoteSignal = false) ∧
    (let r : CollRun := { emptyRun with resv := 0, chk := chk (coll 1 4 false) collDescs, miss := true, todo := 0 }
     r.over = true ∧ r.status = stLEDGER_MISS ∧ r.chk.entry.kind = 6 ∧ (base.part r.part).active = true) := by
  decide +kernel

/-- R145, R338: the landing's refusal reaches the command; LEDGER_MISS stops the partition. -/
theorem test_complete_refused :
    (let m : MoverRun := { lastWrite with phase := .done, chk := chk (move 0 0 0 4 6) mvDescs, dst := some away }
     ((after (.commandComplete 0 .mover stPRIVILEGE) (withCore fun k => { k with mover := some m })).core 0).qstate
       = .stopped) ∧
    (let r : CollRun := { emptyRun with resv := 0, chk := chk (coll 1 4 false) collDescs, miss := true, todo := 0 }
     let t := after (.commandComplete 0 (.hubColl 0)) (atHub r base)
     (t.part 0).active = false ∧ (t.part 0).stopCause = stLEDGER_MISS ∧ t.coll.done = 1) := by decide +kernel

/-- R505: a line of the stream, owned by the host. -/
theorem meets_StreamFetcher_held :
    let s := fetching (fetcher 0 .go none) streamed
    s.lineHeld 0x20000 (4 * s.fetchWords (fetcher 0 .go none)) false = false ∧
    (owned (0x20000 / 64) s).lineHeld 0x20000 (4 * s.fetchWords (fetcher 0 .go none)) false = true ∧
    ((after (.streamEnqueue 0) (owned (0x20000 / 64) s)).core 0).queue = [] := by decide +kernel

/-- An armed entry at a count at which the slice ran, at one at which it did not, and one of another slice. -/
theorem meets_SlicesStartAndHoldTogether_marks :
    (sliced run5).pstitchAt 0 1 = some 6 ∧ (sliced run5).pstitchAt 0 (2 ^ 40) = none ∧
    (8 : Word) ≠ ((sliced run5).part 0).place.live.tag ∧ (9 : Word) = ((sliced run5).part 0).place.live.tag ∧
    (∀ r ∈ pat0.resvs, (armed.core (armed.resvCore 0 r)).mover = none) := by
  decide +kernel

/-- R381, R478: an armed entry sent before the start has nothing to compare, and is kept; one sent after it stops. -/
theorem test_armed_mark :
    (let t := after (.stitchMarker 1 (marker (BitVec.ofNat 64 (2 ^ 40)) [⟨9, 1, 0⟩] []) 0)
      ((sliced run5).updLink 1 fun l => { l with neighbourId := 1 })
     (t.part 0).active = true ∧ (t.link 1).farSlices = [9]) ∧
    ((after (.stitchMarker 1 (marker 1 [⟨9, 1, 0⟩] []) 0)
      ((sliced run5).updLink 1 fun l => { l with neighbourId := 1 })).part 0).active = false := by decide +kernel

/-- R507: an aperture commit that clears a cacheable bit while the host holds a line of the window. -/
theorem meets_GroupCommits_aper :
    let s := stopped.updPart 0 fun q => { q with aper := ⟨q.aper.sh, { q.aper.live with cacheable := 1 }⟩ }
    (s.part 0).active = false ∧ s.apertureStatus 0 = stDONE ∧ (s.part 0).waitingAper = none ∧
    (∀ r ∈ (s.part 0).uncached (s.part 0).aper.sh, s.lineHeld r.1 r.2 true = false) ∧
    (∃ r ∈ (s.part 0).uncached (s.part 0).aper.sh, (owned 5 s).lineHeld r.1 r.2 true = true) ∧
    ((after (.apertureCommit 0) (owned 5 s)).part 0).waitingAper = some (s.part 0).aper.sh ∧
    ((after (.apertureCommit 0) s).part 0).aper.live.cacheable = 0 ∧
    ((s.updPart 0 fun q => { q with waitingAper := some q.aper.sh }).part 0).waitingAper.isSome = true := by
  decide +kernel

/-- R505: a pattern image of which the host owns a line. -/
theorem meets_PatternLoad_held :
    let s := withPart fun q => { q with patState := .checking, loadFrom := some (0x10000, 64) }
    (s.part 0).patState = .checking ∧ (s.part 0).loadResult = none ∧ (s.part 0).loadFrom = some (0x10000, 64) ∧
    s.lineHeld (addrLocal 0x10000) 64 false = false ∧
    (owned (0x10000 / 64) s).lineHeld (addrLocal 0x10000) 64 false = true ∧
    (∀ h < 2, (base.hport h).directory = []) ∧
    ((after (.patternLoadDone 0) s).part 0).patState = .empty := by decide +kernel

/-- R29, R110, R484: a packet that its partition serves, at a core of a closed die, and with bad parity. -/
theorem meets_WritesAreStoredAndAcknowledged_waits :
    placed.serves (req 0 4 0x40000 1 four) = true ∧ placedStopped.serves (req 0 4 0x40000 1 four) = false ∧
    inArrayStall.writeStalls inBank = true ∧
    (let s := { placed with locked := unstacked.locked }
     (s.writeStalls (req 0 4 0x40000 1 four)) = true ∧ s.extOpen 0x40000 4 = false ∧
      s.serves (req 0 4 0x40000 1 four) = true) ∧
    (placed.accessErrors [] [(0x40000, 4)] clean).2 = none ∧
    (placed.accessErrors [] [(0x40000, 4)] { clean with parityBad := [0x40000] }).2 ≠ none := by
  decide +kernel

/-- R110, R481: a write and a READ that fail stop their partition; each is answered. -/
theorem test_bad_packets :
    (let t := after (.write 0 (req 0 4 0x40000 1 four) { clean with parityBad := [0x40000] }) placed
     (t.part 0).active = false ∧ memRead t.mem 0x40000 = 0 ∧ t.fabric.transit.map (fun x => x.2.status) = [stECC]) ∧
    (let t := after (.read 0 (req 1 300 0x40000 1 (leBytes 8 0)) { clean with hbmBad := [0x40000] }) placed
     (t.part 0).active = false ∧ t.fabric.transit.map (fun x => (x.2.kind, x.2.status)) = [(0xB, stECC)]) := by
  decide +kernel

/-- R29, R505: a TALLY of a closed die, and a READ of a closed stack and of a line that a host owns. -/
theorem meets_TallyAndReadArePerformed_waits :
    placed.serves (req 2 8 0 1 inc3) = true ∧ placed.coreOpen (leAt inc3 0 4 % 512) = true ∧
    ({ placed with locked := unlocked.locked } : State).coreOpen (leAt inc3 0 4 % 512) = false ∧
    placed.extOpen 0x40000 300 = true ∧ ({ placed with locked := unstacked.locked } : State).extOpen 0x40000 300 = false ∧
    (owned (0x40000 / 64) placed).lineHeld 0x40000 300 false = true := by
  decide +kernel

/-- R283, R299: under route_hold, with packets still to leave, and of a core that waits for the skein. -/
theorem meets_SkeinsAndTheirTimers_held :
    ({ placed with fabric := { placed.fabric with hold := true } } : State).fabric.hold = true ∧
    ({ live none false with left := 1 } : LiveX).left ≠ 0 ∧ (live none false).left = 0 ∧
    (live none false).sentAt + placed.fabric.timeout.toNat ≤ 2000 := by
  decide +kernel

/-- R283, R295: the number rests; a transfer whose packets have not all left does not time out. -/
theorem test_timeouts :
    (after (.openTimeout 2) (skeined (skein2 false false []) 2000)).fabric.retired.map (·.1) = [2] ∧
    ((after (.transferTimeout 2 7) (skeined (skein2 true false [live none false]) 2000)).part 0).active = false ∧
    ((after (.transferTimeout 2 7) (skeined (skein2 true false [{ live none false with left := 1 }]) 2000)).part 0).active
      = true := by
  decide +kernel

/-- R110: READ_DATA whose write meets parity a fourth time. -/
theorem meets_RepliesEndTransfers_bad :
    let s := withCtx (skeined (skein2 true false [live none true]) 0) (ctx2 true)
    (s.accessErrors [] [(0x50000, 4)] { clean with parityBad := [0x50000] }).2 = some 0x50000 ∧
    0 < (half 1).tpackets.toNat ∧ (s.part 0).active = true ∧
    ((after (.readData 0 (half 1) { clean with parityBad := [0x50000] }) s).part 0).active = false := by
  decide +kernel

/-- R176, R338, R441: no entry, none left in the pool, and none needed. -/
theorem meets_CollectivesAreHandedOver_miss :
    (coll 1 4 false).collOp % 2 = 1 ∧ (atIssue (coll 1 4 false) collDescs).ledgerOf 0 3 = none ∧
    (coll 0 4 false).collOp % 2 = 0 ∧
    poolOk 4096 ({ base with coll := { base.coll with ledger := List.replicate 4096 ⟨1, 3, 1, 1, [0, 0, 0], [0, 0, 0]⟩ } } : State).ledgerHeld
      (fun q => (base.part q).guar.live.ledger.toNat) 0 1 = false := by
  decide +kernel

/-- R338: without its entry a continue operation runs on, not scanned. -/
theorem test_miss :
    (after (.rsSumCont 0) (atIssue (coll 1 4 false) collDescs)).coll.runs.map (fun r => (r.miss, r.scan)) = [(true, 0)] ∧
    (after (.rsSumCont 0) (inLedger (coll 1 4 false))).coll.runs.map (·.miss) = [false] := by decide +kernel

/-- R110: a scheduled packet whose write meets parity a fourth time. -/
theorem meets_ScheduledAndMaintenancePackets_bad :
    ((withResv 0 6 0).accessErrors [] [(0x40000, 4)] { clean with parityBad := [0x40000] }).2 ≠ none ∧
    ((withResv 0 6 0).accessErrors [] [(0x40000, 4)] clean).2 = none ∧
    ((withResv 0 6 0).accessErrors [] (run 0 false).chk.writeExtents clean).2 = none ∧
    ((after (.schedMove 0 (sched 0xE 0 0) 0x40000 { clean with parityBad := [0x40000] }) (withResv 0 6 0)).part 0).active
      = false := by
  decide +kernel

/-- A WB of a whole line. -/
def wb64 : HPkt := hp 4 64 0x40000 (List.replicate 64 9)

/-- R29, R504, R507: a WB of 64 bytes, to an open and to a closed stack, with nothing that waits and nothing owed. -/
theorem meets_HostLinesAndRequests_wb :
    wb64.isKind 4 = true ∧ wb64.payload.length = 64 ∧ wb64.addr.toNat = 0x40000 ∧
    base.memOpen (addrLocal 0x40000) = true ∧ unstacked.memOpen (addrLocal 0x40000) = false ∧
    (base.accessErrors [] [(0x40000, 64)] clean).2 = none ∧ ((base.hport 0).recalled.any fun x => x.1 == 0x1000) = false ∧
    (cached id).uncaching 0x40000 = false ∧ ((asking false).hport 0).owed = [] ∧
    (∀ x ∈ ((asking false).hport 0).vecs, x.2.owed = false) ∧
    (((owned 0x1000 base).hport 0).directory.any fun x => x.1 == 0x1000) = true ∧
    ((owned 0x1000 base).hport 0).freshTag = some 0 := by
  decide +kernel

/-- Its check is the sum of its header and payload. -/
theorem meets_wb_check (l : List Byte) : (hp 4 64 0x40000 l).check = (hp 4 64 0x40000 l).crc := rfl

/-- A port without a free tag, with a vector whose period is over. -/
def noTags : HostPort := { HostPort.reset with
  state := 3, vecs := [(0, vec0 1)], requests := (List.range 4096).map fun n => { hostReq false with tag := n } }

theorem withHost_hport (h : HostPort) : (withHost fun _ => h).hport 0 = h := by
  simp [withHost]

/-- R514: a vector that would be sent, on a port with no tag free for it. -/
theorem meets_DoorbellsInterruptsAndQueues_tag :
    (withHost fun _ => noTags).hport 0 = noTags ∧ noTags.freshTag = none ∧
    Sparse.get IVec.reset noTags.vecs 0 = vec0 1 ∧ noTags.state = 3 := by
  refine ⟨withHost_hport noTags, List.find?_eq_none.2 fun t _ => ?_, by simp [noTags, Sparse.get, Sparse.find], rfl⟩
  have h : (noTags.requests.any fun r => r.tag == t.toNat) = true := by
    rw [noTags, List.any_map, List.any_eq_true]
    exact ⟨t.toNat, List.mem_range.2 t.isLt, by simp⟩
  simp [h]

/-- A request that waits. -/
def waiting1 : WaitReq := { path := .net dg, opcode := 1, req := ask 0x1300 6 }

/-- A module whose controller is paused. -/
def paused : State := { addressed anyone with fw := { base.fw with paused := true } }

/-- R543, R591: sixteen requests wait; the controller is paused; the forms of a frame. -/
theorem meets_ManagementRequests_waits :
    (addressed anyone).netWaiting < 16 ∧ (addressed anyone).fw.paused = false ∧ paused.fw.paused = true ∧
    paused.netWaiting < 16 ∧ paused.Hears (frm asker) ∧ paused.discardsDgram dg = false ∧
    16 ≤ ({ paused with mgmt := { paused.mgmt with queue := List.replicate 16 waiting1 } } : State).netWaiting ∧
    ({ ReqForm.whole with short := true } : ReqForm).short = true ∧ ReqForm.whole.short = false ∧
    ReqForm.whole.opcodeOr 3 = 3 ∧ ({ ReqForm.whole with opcode := some 9 } : ReqForm).opcodeOr 3 = 9 ∧
    malformedReq (ask 0x1300 6) 9 = true := by
  unfold State.Hears; decide +kernel

/-- R543: another opcode is answered, the seventeenth request dropped. -/
theorem test_requests :
    (after (.asrelRead (.net dg) (ask 0x1300 6) { ReqForm.whole with opcode := some 9 }) (addressed anyone)).out.length = 1 ∧
    (after (.asrelRead (.net dg) (ask 0x1300 6)) paused).mgmt.queue.length = 1 ∧
    (after (.asrelRead (.net dg) (ask 0x1300 6))
      { paused with mgmt := { paused.mgmt with queue := List.replicate 16 waiting1 } }).mgmt.dropped = 1 := by
  decide +kernel

/-- R591: a mailbox request while the controller is paused. -/
theorem meets_MailboxAndNode_paused :
    let s := { mailed id with fw := { base.fw with paused := true } }
    s.fw.paused = true ∧ (s.hport 0).state = 3 ∧ s.served = true ∧ (mailed id).fw.paused = false ∧
    ((after (.mbSubmit 0 28) s).hport 0).mbox.busy = true ∧ (after (.mbSubmit 0 28) s).mgmt.queue.length = 1 := by
  decide +kernel

/-- R590 to R592: HANDOVER pauses, and goes on once nothing waits; with a window commit waiting it does not begin. -/
theorem meets_ImagesAndActivation_paused :
    ({ handing with fw := { handing.fw with paused := true } } : State).fw.paused = true ∧ handing.mgmt.queue = [] ∧
    (handing.updPart 0 fun q => { q with waitingWindows := some wins }).quiescent = false ∧
    (after (.handover true true) handing).fw.paused = true ∧
    operations (diff 0) { slotA with total := 0 } = none ∧ slotA.state ≠ 2 := by
  decide +kernel

/-- R592: a fault raised in the pause is recorded after it. -/
theorem test_pause :
    let t := after (.parityError (.core 0)) (after (.handover true true) handing)
    t.links.faultTaken = 0 ∧ t.links.held.length = 1 ∧
    (after (.handover false) t).links.faultTaken = 1 := by
  decide +kernel

/-- R267, R299: a port with room for a NEED, and one without. -/
theorem meets_DistributionFrames_room :
    base.maintRoom 0 (maintPacket (base.neighbourOf 0) base.myId need0).flits = true ∧
    heldBase.maintRoom 0 (maintPacket (base.neighbourOf 0) base.myId need0).flits = false ∧
    Sparse.find (spread (slots slotB Slot.reset)).fw.wanted 1 ≠ some [] := by
  decide +kernel

/-- R299: under route_hold the NEED of an OFFER waits. -/
theorem test_offer_held :
    (after (.offer 0 offer1) { spread (slots Slot.reset Slot.reset) with fabric := heldBase.fabric }).out = [] ∧
    (after (.offer 0 offer1)
      { spread (slots Slot.reset Slot.reset) with fabric := heldBase.fabric }).fabric.maintWaiting.length = 1 := by
  decide +kernel

/-! ### Commands that no agent can send (R269 to R273, R479, R499, R541, R566, R584, R594) -/

/-- A packet of a class and kind with n bytes. -/
def pk (cls kind n : Nat) : Pkt := buildPacket cls kind 0 0 0 0 0 0 1 0 0 true (List.replicate n 0)

/-- The rows of the full packet kinds. -/
def fullRows : List (Nat × Nat × (Pkt → Instr)) :=
  [(1, 0, .write 0), (1, 1, fun p => .read 0 p clean), (1, 2, .tally 0), (1, 3, .fabOpen 0), (1, 4, .fabClose 0), (2,
    8, .readData 0),
   (2, 9, .ack 0), (2, 0xA, .grant 0), (2, 0xB, .nack 0)]

theorem wf_packets : ∀ x ∈ fullRows,
    (x.2.2 { pk x.1 x.2.1 0 with payload := List.replicate 256 0 }).wf = true ∧
    (x.2.2 { pk x.1 x.2.1 0 with payload := List.replicate 257 0 }).wf = false ∧
    (x.2.2 { pk x.1 x.2.1 0 with kind := 7 }).wf = false ∧ (x.2.2 { pk x.1 x.2.1 0 with cls := 0 }).wf = false := by
  decide +kernel

theorem wf_routed : ∀ c : Pkt → Instr, c = (fun p => .packetRoute none p [] 0 clean) ∨ c = .escape none ∨ c = .maint 0 →
    (c { pk 1 0 0 with payload := List.replicate 256 0 }).wf = true ∧
    (c { pk 1 0 0 with payload := List.replicate 257 0 }).wf = false := by
  rintro c (rfl | rfl | rfl) <;> decide +kernel

theorem wf_scheduled :
    Instr.wf (.schedMove 0 { sched 0xE 0 0 with payload := List.replicate 512 0 } 0) = true ∧
    Instr.wf (.schedMove 0 { sched 0xE 0 0 with payload := List.replicate 513 0 } 0) = false ∧
    Instr.wf (.schedMove 0 (sched 0xD 0 0) 0) = false ∧
    Instr.wf (.collective 0 { sched 0xD 0 0 with payload := List.replicate 512 0 }) = true ∧
    Instr.wf (.collective 0 { sched 0xD 0 0 with payload := List.replicate 513 0 }) = false ∧
    Instr.wf (.collective 0 (sched 0xE 0 0)) = false := by decide +kernel

theorem wf_marker :
    Instr.wf (.stitchMarker 0 ⟨0, List.replicate 16 ⟨0, 0, 0⟩, List.replicate 32 ⟨0, 0, 0⟩, 0⟩ 0) = true ∧
    Instr.wf (.stitchMarker 0 ⟨0, List.replicate 17 ⟨0, 0, 0⟩, [], 0⟩ 0) = false ∧
    Instr.wf (.stitchMarker 0 ⟨0, [], List.replicate 33 ⟨0, 0, 0⟩, 0⟩ 0) = false := by decide +kernel

/-- The rows of the Yepecy packets and their kinds. -/
def hostRows : List (Nat × (HPkt → Instr)) :=
  [(0, fun p => .rd 0 p clean), (1, fun p => .rdShared 0 p clean), (2, fun p => .rdOwn 0 p clean), (3, .wr 0), (4,
    .wb 0),
   (5, .ylFence 0), (6, .hAck 0), (7, .hResp 0)]

theorem wf_host_packets : ∀ x ∈ hostRows,
    (x.2 (hp x.1 0 0 [])).wf = true ∧ (x.2 (hp 8 0 0 [])).wf = false ∧ (x.2 (hp x.1 512 0 [])).wf = false ∧
    (x.2 { hp x.1 257 0 [] with payload := List.replicate 257 0 }).wf = false ∧ (x.2 (hp x.1 0 0 [1])).wf = false := by
  decide +kernel

theorem wf_frames :
    (∀ x ∈ [(64, Instr.identity 0), (80, Instr.offer 0), (100, Instr.need 0), (144, Instr.part 0), (68, Instr.abort 0),
      (32, Instr.attestNonce 0)], (x.2 (List.replicate x.1 0)).wf = true ∧
        (x.2 (List.replicate (x.1 + 1) 0)).wf = false ∧
        (x.2 (List.replicate (x.1 - 1) 0)).wf = false) := by decide +kernel

theorem wf_addresses :
    (∀ c ∈ [Instr.asrelRead (.net { dg with frame := frm [1] }) (ask 0 0),
      .asrelWrite (.net { dg with frame := { frm asker with dest := [1] } }) (ask 0 0),
      .describe (.net { dg with frame := frm [1] }) (ask 0 0),
        .asrelAbort (.net { dg with frame := frm [1] }) (ask 0 0),
      .netCommit (.net { dg with frame := frm [1] }), .neighborSolicitation (frm [1]) mgr,
      .neighborSolicitation (frm asker) [1], .neighborAdvertisement ⟨frm [1], mgr⟩,
      .neighborAdvertisement ⟨frm asker, [1]⟩, .icmpEchoRequest (frm [1]) 0 [],
      .icmpEchoRequest { frm asker with dest := [1] } 0 []], c.wf = false) ∧
    (∀ c ∈ [Instr.asrelRead (.net dg) (ask 0 0), .asrelWrite (.mailbox 0) (ask 0 0), .netCommit (.net dg),
      .neighborSolicitation (frm asker) mgr, .neighborAdvertisement ⟨frm asker, mgr⟩,
      .icmpEchoRequest (frm asker) 0 []], c.wf = true) := by decide +kernel

/-- A packet that its row cannot carry is the model's own fault, and nothing else is. -/
theorem wf_fault : malformed (exec (.write 0 (pk 2 0 0)) base) = true ∧
  malformed (exec (.write 0 (pk 1 0 0)) base) = false := by
  decide +kernel

/-- The table gives no row any bits. -/
theorem wf_no_word (n w : Nat) : decodeTableWord n w = none := rfl

end Sys2Proof.Tests
end

section
/-! SUPPORT. The descriptor registers of a core (R143, R144, R170): what each access does while the block is busy and
while it is not, and the end of a copy. -/

namespace Sys2Proof.Machine

/-! ### A host's write of a register -/

/-- A register of the block of core c lies 0x10000 * c into the region (R93). -/
theorem regBlockOf_core (core : Fin 512) {o : Nat} (ho : o < 0x10000) :
    regBlockOf (core * 0x10000 + o) = (.core core, o) := by
  have hc := core.isLt
  rw [regBlockOf, if_pos (by omega)]
  congr 2 <;> omega

/-- An aligned write of a register of a core's block, by a port that may reach it, is the core's own write. -/
theorem exec_registerWrite_core {port : Fin 2} {core : Fin 512} {s : State} {p o : Nat} (hr : s.Reaches port core p)
    (ho : o < 0x10000) (ha : o % 4 = 0) (v : Word) :
    exec (.registerWrite port (BitVec.ofNat 27 (core * 0x10000 + o)) v) s = .next (s.coreWrite core o v) := by
  obtain ⟨⟨hpart, hbound⟩, hopen⟩ := hr
  have hc := core.isLt
  have hoff : (BitVec.ofNat 27 (core * 0x10000 + o)).toNat = core * 0x10000 + o :=
    BitVec.toNat_ofNat .. ▸ Nat.mod_eq_of_lt (by omega)
  have hreach : s.reachesBlock port (.core core) = true := by simp [State.reachesBlock, hpart, hbound]
  show execRegisterWrite port _ v s = _
  rw [execRegisterWrite, hoff, if_neg (by omega), State.regWrite, regBlockOf_core core ho]
  simp [hreach, hopen]

/-- Word i of DESC_STAGE stands at 0x400 + 4 * i of the block (R170). -/
theorem coreWrite_descStage (s : State) (c : Nat) {i : Nat} (hi : i < 32) (v : Word) :
    s.coreWrite c (0x400 + 4 * i) v = s.writeDescStage c i v := by
  have hword : (0x400 + 4 * i - 0x400) / 4 = i := by omega
  unfold State.coreWrite
  rw [if_neg (by omega), if_neg (by omega), if_neg (by omega), if_neg (by omega), if_neg (by omega), if_neg (by omega),
    if_neg (by omega), if_neg (by omega), if_pos (by omega), hword]

/-! ### While the block is busy (R144) -/

/-- What an access to a busy descriptor block does: busy_refused is set, and nothing else. -/
def State.refuseBusy (s : State) (c : Nat) : State := s.updCore c fun k => { k with busyRefused := true }

theorem descCommit_busy {s : State} {c : Nat} (hb : (s.core c).busy = true) (h : Nat) :
    s.descCommit c h = s.refuseBusy c := by
  simp [State.descCommit, State.refuseBusy, hb]

theorem descRead_busy {s : State} {c : Nat} (hb : (s.core c).busy = true) (h : Nat) :
    s.descRead c h = s.refuseBusy c := by
  simp [State.descRead, State.refuseBusy, hb]

theorem writeDescStage_busy {s : State} {c : Nat} (hb : (s.core c).busy = true) (i : Nat) (v : Word) :
    s.writeDescStage c i v = s.refuseBusy c := by
  simp [State.writeDescStage, State.refuseBusy, State.updCore, hb]

/-! ### A commit and the end of its copy (R143) -/

/-- The core after an accepted commit of descriptor d with status st: the copy is under way where st is DONE. -/
def Core.committed (k : Core) (h : Nat) (d : Desc) (st : Half) : Core :=
  { k with busyRefused := false, descStatus := st, busy := st == stDONE,
           descBusy := if st = stDONE then some (h, d) else none }

theorem descCommit_idle {s : State} {c p : Nat} (hp : s.partOf c = some p) (hb : (s.core c).busy = false) (h : Nat) :
    s.descCommit c h = s.updCore c fun k =>
      let d := Desc.ofWords p fun i => Sparse.get 0 (s.core c).descStage i
      k.committed h d (s.descStatus p d) := by
  simp only [State.descCommit, hb, hp]
  rfl

/-- The end of a copy into the partition that its core still belongs to. -/
theorem exec_descCopyDone {core : Fin 512} {s : State} {h : Nat} {d : Desc}
    (hd : (s.core core).descBusy = some (h, d)) (hp : s.partOf core = some d.part) :
    exec (.descCopyDone core) s = .next
      ((s.updCore core fun k => { k with busy := false, descBusy := none }).updPart d.part fun q =>
        { q with descs := Sparse.put q.descs h d }) := by
  show execDescCopyDone core s = _
  simp only [execDescCopyDone, hd]
  exact congrArg _ (if_pos hp)

/-- A commit that passed its checks ends with the descriptor in the table of its partition, under its handle alone, and
with the block free. -/
theorem exec_descCopyDone_committed {core : Fin 512} {s : State} {h : Nat} {d : Desc} {st : Half} (hst : st = stDONE)
    (hp : s.partOf core = some d.part) :
    ∃ u, exec (.descCopyDone core) (s.updCore core fun k => k.committed h d st) = .next u ∧
      (u.core core).busy = false ∧
      (∀ g, Sparse.find (u.part d.part).descs g
        = if h = g then some d else Sparse.find (s.part d.part).descs g) ∧
      u.mem = s.mem := by
  refine ⟨_, exec_descCopyDone (h := h) (d := d) ?_ hp, ?_, fun g => ?_, rfl⟩
  · simp [Core.committed, hst]
  · simp
  · simp

/-! ### DESC_READ (R170) -/

/-- Listing words one by one in rising places reads back the word at each place. -/
theorem get_foldl_set_zipIdx (l : List Word) (n : Nat) (m : Sparse Word) (i : Nat) :
    Sparse.get 0 ((l.zipIdx n).foldl (fun m wi => Sparse.set 0 m wi.2 wi.1) m) i
      = if n ≤ i ∧ i < n + l.length then l.getD (i - n) 0 else Sparse.get 0 m i := by
  induction l generalizing n m with
  | nil => simp
  | cons w l ih =>
    rw [List.zipIdx_cons, List.foldl_cons, ih, Sparse.get_set]
    rcases Nat.lt_trichotomy i n with hlt | rfl | hgt
    · rw [if_neg (by omega), if_neg (by omega), if_neg (by omega)]
    · simp
    · have hsucc : i - n = i - (n + 1) + 1 := by omega
      simp only [hsucc, List.getD_cons_succ, List.length_cons]
      rw [if_neg (by omega : ¬ n = i)]
      exact if_congr (by omega) rfl rfl

theorem length_words (d : Desc) : d.words.length = 32 := by
  simp [Desc.words, List.length_flatMap]

/-- The stage as DESC_READ leaves it: the descriptor's words. -/
def Desc.staged (d : Desc) : Sparse Word := d.words.zipIdx.foldl (fun m wi => Sparse.set 0 m wi.2 wi.1) []

theorem get_staged (d : Desc) {i : Nat} (hi : i < 32) : Sparse.get 0 d.staged i = d.words.getD i 0 := by
  rw [Desc.staged, get_foldl_set_zipIdx, if_pos (by rw [length_words]; omega), Nat.sub_zero]

theorem descRead_found {s : State} {c p h : Nat} {d : Desc} (hp : s.partOf c = some p)
    (hb : (s.core c).busy = false) (hd : Sparse.find (s.part p).descs h = some d) :
    s.descRead c h = s.updCore c fun k =>
      { k with busyRefused := false, descStatus := stDONE, descStage := d.staged } := by
  simp only [State.descRead, hb, hp, Option.bind_some, hd]
  rfl

theorem descRead_missing {s : State} {c p h : Nat} (hp : s.partOf c = some p) (hb : (s.core c).busy = false)
    (hd : Sparse.find (s.part p).descs h = none) :
    s.descRead c h = s.updCore c fun k => { k with busyRefused := false, descStatus := stHANDLE_INVALID } := by
  simp only [State.descRead, hb, hp, Option.bind_some, hd]
  rfl

/-! ### The commands -/

theorem exec_descCommit {port : Fin 2} {core : Fin 512} {s : State} {p : Nat} (hr : s.Reaches port core p)
    (h : BitVec 10) : exec (.descCommit port core h) s = .next (s.descCommit core h.toNat) :=
  congrArg Host.Outcome.next (viaCore_reach hr _)

theorem exec_descRead {port : Fin 2} {core : Fin 512} {s : State} {p : Nat} (hr : s.Reaches port core p)
    (h : BitVec 10) : exec (.descRead port core h) s = .next (s.descRead core h.toNat) :=
  congrArg Host.Outcome.next (viaCore_reach hr _)

theorem exec_registerWrite_descStage {port : Fin 2} {core : Fin 512} {s : State} {p : Nat}
    (hr : s.Reaches port core p) (i : Fin 32) (v : Word) :
    exec (.registerWrite port (BitVec.ofNat 27 (core * 0x10000 + 0x400 + 4 * i)) v) s
      = .next (s.writeDescStage core i v) := by
  have hi := i.isLt
  rw [Nat.add_assoc, exec_registerWrite_core hr (by omega) (by omega), coreWrite_descStage s core hi]

/-- Settles O17: with the block busy each access is refuseBusy; with it free, a commit and its copy, and a read of a
handle that the table has or has not. -/
theorem descriptorRegisters : Obligations.DescriptorRegisters := by
  intro port core h s p hr
  have hpart : s.partOf core = some p := hr.1.1
  refine ⟨fun hb => ⟨?_, ?_, fun i v => ?_⟩, fun hb d hd => ?_, fun hb d hd => ?_, fun hb hd => ?_⟩
  · rw [exec_descCommit hr, descCommit_busy hb, State.refuseBusy]
  · rw [exec_descRead hr, descRead_busy hb, State.refuseBusy]
  · rw [exec_registerWrite_descStage hr, writeDescStage_busy hb, State.refuseBusy]
  · have hdp : d.part = p := by rw [hd]; rfl
    rw [exec_descCommit hr, descCommit_idle hpart hb, ← hd]
    refine ⟨_, rfl, ?_, ?_, ?_, rfl, fun c hc => ?_, fun hst => ?_⟩
    · simp [Core.committed]
    · simp [Core.committed, beq_eq_decide]
    · simp [Core.committed]
    · simp [Ne.symm hc]
    · obtain ⟨u, hu, hbusy, hfind, hmem⟩ := exec_descCopyDone_committed (h := h.toNat) hst (hdp ▸ hpart)
      rw [hdp] at hfind
      exact ⟨u, hu, hbusy, by simp [hfind], fun g hg => by rw [hfind, if_neg (Ne.symm hg)], hmem⟩
  · rw [exec_descRead hr, descRead_found hpart hb hd]
    refine ⟨_, rfl, ?_, fun i hi => ?_, ?_, rfl⟩
    · simp
    · rw [State.core_updCore, if_pos rfl]
      exact get_staged d hi
    · simp
  · rw [exec_descRead hr, descRead_missing hpart hb hd]
    refine ⟨_, rfl, ?_, ?_, ?_, rfl⟩ <;> simp

end Sys2Proof.Machine
end

section
/-! SUPPORT. ISSUE_CHECKS (R137): the three ends of the checks, and what a command that fails one leaves unchanged. -/

namespace Sys2Proof.Machine

/-! ### A completion without its signal -/

/-- The stop record of a queue that a completion stops (R136, R170). -/
theorem complete_stopInfo {st : Half} (hs : stopsQueue st = true) (s : State) (p c : Nat) (e : Entry) (flags : Half)
    (signal : Bool) :
    ((s.complete p c e st flags signal).core c).stopInfo = BitVec.ofNat 32 (st.toNat <<< 16 ||| e.tag) := by
  unfold State.complete
  rw [if_pos hs, stopQueue_core, if_pos rfl]

/-- An unsignalled completion leaves every tally. -/
theorem complete_unsignalled_tallyOf (s : State) (p c : Nat) (e : Entry) (st flags : Half) (d n : Nat) :
    (s.complete p c e st flags false).tallyOf d n = s.tallyOf d n := by
  simp [complete_tallyOf]

theorem collDone_coll (s : State) (kind : Nat) :
    (s.collDone kind).coll = { s.coll with done := s.coll.done + if kind = 6 then 1 else 0 } := by
  unfold State.collDone
  split
  · rfl
  · simp

/-- Of the collectives an unsignalled completion touches the count alone (R312, R353). -/
theorem complete_unsignalled_coll (s : State) (p c : Nat) (e : Entry) (st flags : Half) :
    (s.complete p c e st flags false).coll
      = { s.coll with done := s.coll.done + if e.kind = 6 then 1 else 0 } := by
  have hrest : Same 0x20804C (s.collDone e.kind) (s.complete p c e st flags false) := by
    have hrecord := kept_ite (m := 0x20804C) (st ≠ stDONE ∨ e.record) _ _
      (State.writeRecord_keeps rfl _ c e.kind e.tag st flags (Same.refl (s.collDone e.kind))) (Same.refl _)
    exact kept_ite _ _ _ (State.stopQueue_keeps rfl _ c e.tag st hrecord) hrecord
  rw [hrest.coll.resolve_left (by decide), collDone_coll]

/-! ### The head of a queue taken off -/

theorem popHead_tallyOf (s : State) (c d n : Nat) : (s.popHead c).tallyOf d n = s.tallyOf d n := by
  unfold State.tallyOf State.popHead
  rw [State.core_updCore]
  split
  · next h => rw [h]
  · rfl

theorem popHead_core_self (s : State) (c : Nat) : (s.popHead c).core c = { s.core c with
    queue := (s.core c).queue.drop 1, head := none, fnChecked := false, limited := false, worked := true } := by
  rw [State.popHead, State.core_updCore, if_pos rfl]

theorem popHead_core_other (s : State) {c d : Nat} (h : d ≠ c) : (s.popHead c).core d = s.core d := by
  rw [State.popHead, State.core_updCore, if_neg (Ne.symm h)]

/-! ### The ends of the checks -/

/-- The entry at the front of a queue that issues, with the descriptors it reads. -/
def State.front (s : State) (p : Nat) (e : Entry) : Checked := { entry := e, descs := s.readDescs p e }

/-- What the checks of the front entry of a queue that issues come to. -/
theorem exec_issueChecks_front {core : Fin 512} {s : State} {p : Nat} {e : Entry} {rest : List Entry}
    (hp : s.partOf core = some p) (ha : (s.part p).active = true) (hq : (s.core core).qstate = .running)
    (hf : (s.core core).queue = e :: rest) (hh : (s.core core).head = none) :
    exec (.issueChecks core) s = .next (match s.checkWaits p (s.front p e) with
      | some d => if (s.skeinTo p d).isSome then s else s.openSkein p d
      | none =>
        if s.issueStatus p core (s.front p e) = stDONE then s.updCore core fun k => { k with head := some (s.front p e) }
        else (s.popHead core).complete p core e (s.issueStatus p core (s.front p e)) 0 false) := by
  show execIssueChecks core s = _
  simp only [execIssueChecks, hp, hf, hh, ha, hq]
  rfl

/-- Settles O19: the three ends of the checks; a command that fails one is taken off its queue and completes without its
signal. -/
theorem aFailedCheckHasNoSideEffect : Obligations.AFailedCheckHasNoSideEffect := by
  intro core s p e rest hp ha hq hf hh k
  have hexec := exec_issueChecks_front hp ha hq hf hh
  have hk : s.front p e = k := rfl
  rw [hk] at hexec
  refine ⟨fun d hw => ?_, fun hw hst => ?_, fun hw hst => ?_⟩
  · rw [hexec, hw]
  · rw [hexec, hw]
    exact congrArg _ (if_pos hst)
  · rw [hw] at hexec
    have hrest : Same 0x20884C (s.popHead core)
        ((s.popHead core).complete p core e (s.issueStatus p core k) 0 false) :=
      complete_unsignalled rfl _ p core e _ 0 (Same.refl _)
    refine ⟨_, hexec.trans (congrArg _ (if_neg hst)), rfl, ?_, ?_, fun c n => ?_, hrest.parts_eq rfl,
      hrest.fabric.resolve_left (by decide), complete_unsignalled_coll .., fun hstop => ⟨?_, ?_⟩, fun c hc => ?_⟩
    · rw [complete_keeps_core Core.queue _ _ _ _ _ _ _ _ (by intros; rfl), popHead_core_self, hf]
      rfl
    · rw [complete_keeps_core Core.head _ _ _ _ _ _ _ _ (by intros; rfl), popHead_core_self]
    · rw [complete_unsignalled_tallyOf, popHead_tallyOf]
    · rw [complete_qstate, if_pos ⟨rfl, hstop, by rw [popHead_core_self]; simp [hq]⟩]
    · exact complete_stopInfo hstop ..
    · obtain ⟨_, _, _, _, _, _, hcore⟩ :=
        complete_core (s.popHead core) p core e (s.issueStatus p core k) 0 false c
      rw [hcore, popHead_core_other s hc]
      exact ⟨rfl, rfl, rfl, rfl⟩

end Sys2Proof.Machine
end

section
/-! SUPPORT. ROUTE_COMMIT (R281, R300, R308, R455, R456) and the small clears (R303, R336, R423): what each step of a
commit of the route group leaves unchanged, and the commands. -/

namespace Sys2Proof.Machine

/-! ### Waiting transfers that a new route cannot send (R281) -/

/-- A mover that has failed changes its own core alone when it goes on: it reads and writes no more. -/
theorem moverAdvance_failed {s : State} {c : Nat} {m : MoverRun} (hm : (s.core c).mover = some m)
    (hst : m.status ≠ stDONE) (ecc : Ecc) :
    s.moverAdvance c ecc = { s with cores := (s.moverAdvance c ecc).cores } := by
  unfold State.moverAdvance
  rw [hm]
  cases s.partOf c with
  | none => rfl
  | some p =>
    dsimp only
    rw [if_pos hst]
    split
    · rfl
    · cases m.phase <;> rfl

theorem setMover_mover (s : State) (c : Nat) (m : MoverRun) : ((s.setMover c m).core c).mover = some m := by
  simp [State.setMover]

/-- Transfers that fail take what their core has waiting with them, and change nothing but that and the cores. -/
theorem failMover_frame (s : State) (c n : Nat) {st : Half} (hst : st ≠ stDONE) :
    ∃ cs w, s.failMover c n st = { s with cores := cs, fabric := { s.fabric with waiting := w } } := by
  unfold State.failMover
  dsimp only
  split
  · exact ⟨_, _, rfl⟩
  · next m _ =>
    have hfailed : (if m.status = stDONE then st else m.status) ≠ stDONE := by split <;> assumption
    exact ⟨_, _, moverAdvance_failed (setMover_mover ..) hfailed .clean⟩

/-- Transfers dropped from what waits change nothing but that and the cores. -/
theorem dropWaiting_frame (s : State) (hit : WaitX → Bool) {st : Half} (hst : st ≠ stDONE) :
    ∃ cs w, s.dropWaiting hit st = { s with cores := cs, fabric := { s.fabric with waiting := w } } := by
  have hfold : ∀ l : List Nat, ∃ cs w, l.foldl (fun s c => s.failMover c 0 st) s
      = { s with cores := cs, fabric := { s.fabric with waiting := w } } := fun l =>
    foldl_keeps (P := fun t : State => ∃ cs w, t = { s with cores := cs, fabric := { s.fabric with waiting := w } })
      _ (by
        rintro _ c ⟨cs, w, rfl⟩
        obtain ⟨cs', w', h⟩ := failMover_frame _ c 0 hst
        exact ⟨cs', w', h⟩) l s ⟨_, _, rfl⟩
  obtain ⟨cs, w, h⟩ := hfold (((s.fabric.waiting.filter hit).filterMap (·.core)).foldl insertNat [])
  unfold State.dropWaiting
  dsimp only
  rw [h]
  exact ⟨_, _, rfl⟩

theorem dropWaiting_none {s : State} (h : s.fabric.waiting = []) (hit : WaitX → Bool) (st : Half) :
    s.dropWaiting hit st = s := by
  have hfab : { s.fabric with waiting := [] } = s.fabric := by rw [← h]
  simp only [State.dropWaiting, State.updFabric, h, List.filter_nil, List.filterMap_nil, List.foldl_nil, hfab]

/-! ### Partitions judged anew (R446, R456) -/

/-- A part of a partition that an update does not reach. -/
theorem updPart_keeps_part {γ : Type} (g : Part → γ) (s : State) (p : Nat) {f : Part → Part}
    (hf : g (f (s.part p)) = g (s.part p)) (q : Nat) : g ((s.updPart p f).part q) = g (s.part q) := by
  rw [State.part_updPart]
  split
  · next h => rw [← h, hf]
  · rfl

theorem refreshModes_keeps_part {γ : Type} (g : Part → γ) (hg : ∀ q v, g { q with axisModes := v } = g q)
    (s : State) (p q : Nat) : g ((s.refreshModes p).part q) = g (s.part q) :=
  updPart_keeps_part g s p (hg ..) q

theorem refreshInject_keeps_part {γ : Type} (g : Part → γ) (hg : ∀ q v, g { q with injectNow := v } = g q)
    (s : State) (q : Nat) : g (s.refreshInject.part q) = g (s.part q) := by
  have hfold : ∀ (f : Nat → BitVec 32) (l : List Nat),
      g ((l.foldl (fun s p => s.updPart p fun q => { q with injectNow := f p }) s).part q) = g (s.part q) := fun f l =>
    foldl_same (fun s : State => g (s.part q)) _ (fun s p => updPart_keeps_part g s p (hg ..) q) l s
  unfold State.refreshInject
  dsimp only
  split
  · exact hfold ..
  · rw [(State.recordReduced_keeps (fp := 0x80000) rfl _ _ _ _ (Same.refl _)).part_eq rfl]
    exact hfold ..

theorem afterCapacity_keeps_part {γ : Type} (g : Part → γ) (hg : ∀ q v, g { q with injectNow := v } = g q)
    (s t : State) (q : Nat) : g ((s.afterCapacity t).part q) = g (t.part q) := by
  unfold State.afterCapacity
  split
  · rfl
  · exact refreshInject_keeps_part g hg t q

/-! ### The ports that a commit starts and stops -/

/-- Port k goes from what the port mask was to what g says: started or taken out where the two differ. -/
def State.switchPort (g : RouteGroup) (was : Nat) (s : State) (k : Nat) : State :=
  let on := g.portEnable.toNat.testBit k
  if on = was.testBit k then s else s.updLink k fun l => { l with state := if on then 1 else 0 }

/-- The shadow of the route group in force, the ports switched to it. -/
def State.routeInForce (s : State) : State :=
  let g := s.fabric.route.sh
  (List.range 6).foldl (State.switchPort g s.fabric.route.live.portEnable.toNat)
    (s.updFabric fun f => { f with route := ⟨g, g⟩, commitStatus := stDONE })

/-- The shadow in force, with what follows from it for the partitions formed anew. -/
def State.routeJudged (s : State) : State :=
  s.afterCapacity ((List.range 16).foldl State.refreshModes s.routeInForce)

theorem applyRoute_eq (s : State) :
    s.applyRoute = s.routeJudged.dropWaiting (fun w => !s.routeJudged.routableTo w.xfer.dest) stCONFIG := rfl

theorem switchPort_state (g : RouteGroup) (was : Nat) (s : State) (j k : Nat) :
    ((s.switchPort g was j).link k).state = if j = k ∧ g.portEnable.toNat.testBit k ≠ was.testBit k then
      (if g.portEnable.toNat.testBit k then 1 else 0) else (s.link k).state := by
  unfold State.switchPort
  by_cases hj : j = k
  · subst hj
    by_cases hon : g.portEnable.toNat.testBit j = was.testBit j <;> simp [hon]
  · dsimp only
    split <;> simp [hj]

/-- A port switched along a list that names it ends where one switch puts it; another one stays. -/
theorem foldl_switchPort_state (g : RouteGroup) (was : Nat) (l : List Nat) (s : State) (k : Nat) :
    ((l.foldl (State.switchPort g was) s).link k).state
      = if k ∈ l ∧ g.portEnable.toNat.testBit k ≠ was.testBit k then
          (if g.portEnable.toNat.testBit k then 1 else 0) else (s.link k).state := by
  induction l generalizing s with
  | nil => simp
  | cons j l ih =>
    rw [List.foldl_cons, ih, switchPort_state]
    by_cases hon : g.portEnable.toNat.testBit k = was.testBit k
    · simp [hon]
    · rcases eq_or_ne k j with rfl | hj
      · simp [hon]
      · simp [hon, hj, hj.symm]

theorem switchPort_same (g : RouteGroup) (was : Nat) (s : State) (k : Nat) : Same 0x406000 s (s.switchPort g was k) :=
  kept_ite _ _ _ (Same.refl s) (State.updLink_keeps rfl s k _ (Same.refl s))

/-- Of the state with the new route in force the ports differ, and the route group with its status. -/
theorem routeInForce_same (s : State) :
    Same 0x406000 (s.updFabric fun f => { f with route := ⟨f.route.sh, f.route.sh⟩, commitStatus := stDONE })
      s.routeInForce :=
  kept_foldl _ _ _ (fun t k h => h.trans (switchPort_same _ _ t k)) (Same.refl _)

/-- What follows for the partitions touches them and the record of reductions alone. -/
theorem routeJudged_same (s : State) : Same 0x80080 s.routeInForce s.routeJudged := by
  have hmodes : Same 0x80080 s.routeInForce ((List.range 16).foldl State.refreshModes s.routeInForce) :=
    kept_foldl _ _ _ (fun t p h => State.refreshModes_keeps rfl t p h) (Same.refl _)
  exact kept_ite _ _ _ hmodes (State.refreshInject_keeps rfl _ hmodes)

theorem routeJudged_fabric (s : State) :
    s.routeJudged.fabric
      = { s.fabric with route := ⟨s.fabric.route.sh, s.fabric.route.sh⟩, commitStatus := stDONE } :=
  ((routeJudged_same s).fabric.resolve_left (by decide)).trans ((routeInForce_same s).fabric.resolve_left (by decide))

theorem routeJudged_state (s : State) {k : Nat} (hk : k < 6) :
    (s.routeJudged.link k).state = if s.fabric.route.sh.portEnable.toNat.testBit k
        = s.fabric.route.live.portEnable.toNat.testBit k then (s.link k).state
      else if s.fabric.route.sh.portEnable.toNat.testBit k then 1 else 0 := by
  rw [(routeJudged_same s).link_eq rfl, State.routeInForce, foldl_switchPort_state]
  simp only [List.mem_range, hk, true_and, ne_eq, ite_not]
  rfl

/-- A part of a partition that is neither its axis modes nor its share of the injection stays through a commit. -/
theorem routeJudged_keeps_part {γ : Type} (g : Part → γ) (hm : ∀ q v, g { q with axisModes := v } = g q)
    (hi : ∀ q v, g { q with injectNow := v } = g q) (s : State) (p : Nat) :
    g (s.routeJudged.part p) = g (s.part p) := by
  rw [State.routeJudged, afterCapacity_keeps_part g hi,
    foldl_same (fun s : State => g (s.part p)) _ (fun s q => refreshModes_keeps_part g hm s q p),
    (routeInForce_same s).part_eq rfl]
  rfl

/-! ### The commands -/

theorem exec_routeCommit_early {s : State} (hr : s.isReady = false) : exec .routeCommit s = .next s := by
  show execRouteCommit s = _
  simp [execRouteCommit, State.commitRoute, State.afterReady, hr]

theorem exec_routeCommit_refused {s : State} (hr : s.isReady = true)
    (hno : s.routeDrained = false ∨ s.fabric.route.sh.ok = false) :
    exec .routeCommit s = .next { s with fabric := { s.fabric with commitStatus := stCONFIG } } := by
  have hcond : (s.routeDrained && s.fabric.route.sh.ok) = false := by rcases hno with h | h <;> simp [h]
  show execRouteCommit s = _
  simp [execRouteCommit, State.commitRoute, State.afterReady, State.updFabric, hr, hcond]

theorem exec_routeCommit_applied {s : State} (hr : s.isReady = true) (hd : s.routeDrained = true)
    (hok : s.fabric.route.sh.ok = true) : exec .routeCommit s = .next s.applyRoute := by
  show execRouteCommit s = _
  simp [execRouteCommit, State.commitRoute, State.afterReady, hr, hd, hok]

theorem exec_ledgerClear (p : Fin 16) (s : State) :
    exec (.ledgerClear p) s = .next (if (s.part p).active then s
      else { s with coll := { s.coll with ledger := s.coll.ledger.filter (·.part != p.val) } }) := rfl

theorem exec_statsClear (p : Fin 16) (s : State) :
    exec (.statsClear p) s
      = .next (if (s.part p).active then s else s.updPart p fun q => { q with stats := [] }) := rfl

theorem exec_peakClear (k : Fin 6) (s : State) :
    exec (.peakClear k) s = .next (s.updCtr k fun c => { c with depthPeak := c.depthNow }) := rfl

theorem get_ports_updCtr (s : State) (k j : Nat) (f : PortCtr → PortCtr) :
    Sparse.get PortCtr.reset (s.updCtr k f).fabric.ports j
      = if k = j then f (Sparse.get PortCtr.reset s.fabric.ports k) else Sparse.get PortCtr.reset s.fabric.ports j := by
  simp [State.updCtr]

/-- Settles O41: the commit of the route group before ready, refused and applied; the clears of a partition that runs
and of one that does not; the peaks of one port; the hold. -/
theorem routeCommitAndClears : Obligations.RouteCommitAndClears := by
  intro p k s
  refine ⟨exec_routeCommit_early, exec_routeCommit_refused, fun hr hd hok => ?_, fun ha => ?_, fun ha => ?_, ?_, rfl⟩
  · obtain ⟨cs, w, hdrop⟩ := dropWaiting_frame s.routeJudged (fun w => !s.routeJudged.routableTo w.xfer.dest)
      (show stCONFIG ≠ stDONE by decide)
    have hinForce := routeInForce_same s
    have hjudged := routeJudged_same s
    refine ⟨_, (exec_routeCommit_applied hr hd hok).trans (congrArg _ ((applyRoute_eq s).trans hdrop)),
      ?_, ?_, ?_, routeJudged_state s k.isLt, routeJudged_keeps_part Part.state (fun _ _ => rfl) (fun _ _ => rfl) s p,
      routeJudged_keeps_part Part.pattern (fun _ _ => rfl) (fun _ _ => rfl) s p, ?_, fun hw => ⟨?_, ?_, ?_, ?_⟩⟩
    · simp [routeJudged_fabric]
    · simp [routeJudged_fabric]
    · simp [routeJudged_fabric]
    · exact (hjudged.coll.resolve_left (by decide)).trans (hinForce.coll.resolve_left (by decide))
    · exact (hjudged.mem_eq rfl).trans (hinForce.mem_eq rfl)
    · have hnone := dropWaiting_none (s := s.routeJudged) (by rw [routeJudged_fabric]; exact hw)
      rw [← hdrop, hnone]
      exact (hjudged.cores_eq rfl).trans (hinForce.cores_eq rfl)
    · exact (hjudged.out.resolve_left (by decide)).trans (hinForce.out.resolve_left (by decide))
    · exact routeJudged_keeps_part Part.sched (fun _ _ => rfl) (fun _ _ => rfl) s p
  · rw [exec_ledgerClear, exec_statsClear, if_pos ha, if_pos ha]
    exact ⟨rfl, rfl⟩
  · rw [exec_ledgerClear, exec_statsClear, if_neg (by simp [ha]), if_neg (by simp [ha])]
    exact ⟨rfl, _, rfl, rfl, fun g => by simp⟩
  · refine ⟨_, exec_peakClear k s, ?_, ?_, fun j hj => ?_, rfl, rfl⟩
    · rw [get_ports_updCtr, if_pos rfl]
    · rw [get_ports_updCtr, if_pos rfl]
    · rw [get_ports_updCtr, if_neg (Ne.symm hj)]

end Sys2Proof.Machine
end

section
/-! SUPPORT. STITCH_MARKER, TIMEBASE_LOCK and HOLDOVER (R360, R361, R365, R480, R481): what a marker's slices and holds
leave of the timebase and of the partitions, and what the parent's marker does after them. -/

namespace Sys2Proof.Machine

/-! ### A port lost and a fault, part by part -/

theorem fault_faultTaken (s : State) (st : Half) (cls kind unit : Nat) (parts : List Nat) (d0 d1 : Nat) :
    (s.fault st cls kind unit parts d0 d1).links.faultTaken = s.faultsAfter 1 := by
  obtain ⟨r, h, hlinks⟩ := fault_links s st cls kind unit parts d0 d1
  rw [hlinks]

theorem dropQueued_links (s : State) (k : Nat) : (s.dropQueued k).links = s.links :=
  (State.dropQueued_keeps (fp := 0x400) rfl s k (Same.refl s)).links_eq rfl

theorem dropQueued_part (s : State) (k q : Nat) : (s.dropQueued k).part q = s.part q :=
  (State.dropQueued_keeps (fp := 0x400) rfl s k (Same.refl s)).part_eq rfl q

theorem setPort_faultTaken (s : State) (k : Nat) (st : Byte) :
    (s.setPort k st).links.faultTaken = s.links.faultTaken := by
  rw [State.setPort, afterCapacity_links]
  rfl

theorem losePort_faultTaken (s : State) (k d0 : Nat) : (s.losePort k d0).links.faultTaken = s.faultsAfter 1 := by
  have hfault : (s.portFault k d0).links.faultTaken = s.faultsAfter 1 := fault_faultTaken ..
  unfold State.losePort
  dsimp only
  split
  · exact hfault
  · rw [dropQueued_links, setPort_faultTaken, hfault]

theorem losePort_active (s : State) (k d0 q : Nat) :
    ((s.losePort k d0).part q).active = if q ∈ s.portParts k then false else (s.part q).active := by
  have hfault : ((s.portFault k d0).part q).active = if q ∈ s.portParts k then false else (s.part q).active :=
    fault_active ..
  unfold State.losePort
  dsimp only
  split
  · exact hfault
  · rw [dropQueued_part, setPort_active, hfault]

theorem losePort_tb (s : State) (k d0 : Nat) : (s.losePort k d0).tb = s.tb :=
  (State.losePort_keeps (fp := 0x2CEDCC) rfl s k d0 (Same.refl s)).tb.resolve_left (by decide)

/-! ### Partitions that end out of step -/

/-- A partition r that was q and that a fault of the schedule or of the timebase has ended: it does not run, its armed
pattern is disarmed, and if it ran it bears the fault's cause and no pattern. -/
structure Part.EndedOutOfStep (q r : Part) : Prop where
  inactive : r.active = false
  disarmed : q.patState = .armed → r.patterned = false
  unpatterned : q.active = true → r.patterned = false
  cause : q.active = true → r.stopCause = stOUT_OF_STEP

/-- A partition r that was q: it runs and has its pattern as before, or it has ended out of step. -/
def Part.GoesOnOrEnded (q r : Part) : Prop :=
  (r.active = q.active ∧ r.patState = q.patState) ∨ q.EndedOutOfStep r

/-- A partition after a fault of the schedule or of the timebase that names it. -/
def Part.putOutOfStep (q : Part) : Part := if q.active then q.stop stOUT_OF_STEP false else q.disarm

theorem Part.stop_unpatterned (q : Part) : (q.stop stOUT_OF_STEP false).patterned = false := by
  cases h : q.patState <;> simp [Part.stop, Part.patterned, h, stOUT_OF_STEP, stDONE]

theorem Part.disarm_unpatterned {q : Part} (h : q.patState = .armed ∨ q.patterned = false) :
    q.disarm.patterned = false := by
  by_cases ha : q.patState = .armed
  · simp [Part.disarm, Part.patterned, ha]
  · simpa [Part.disarm, ha] using h

theorem Part.disarm_stopCause (q : Part) : q.disarm.stopCause = q.stopCause := by
  unfold Part.disarm
  split <;> rfl

/-- A fault that names a partition ends it, whether it still went on or had ended already. -/
theorem Part.GoesOnOrEnded.putOutOfStep {q r : Part} (h : q.GoesOnOrEnded r) : q.EndedOutOfStep r.putOutOfStep := by
  unfold Part.putOutOfStep
  cases hr : r.active with
  | true => exact ⟨rfl, fun _ => r.stop_unpatterned, fun _ => r.stop_unpatterned, fun _ => rfl⟩
  | false =>
    rw [if_neg Bool.false_ne_true]
    rcases h with ⟨hact, hpat⟩ | hend
    · have hq : q.active ≠ true := by rw [← hact, hr]; exact Bool.false_ne_true
      exact ⟨by rw [Part.disarm_active, hr], fun ha => Part.disarm_unpatterned (.inl (hpat.trans ha)),
        fun ha => absurd ha hq, fun ha => absurd ha hq⟩
    · exact ⟨by rw [Part.disarm_active, hr], fun ha => Part.disarm_unpatterned (.inr (hend.disarmed ha)),
        fun ha => Part.disarm_unpatterned (.inr (hend.unpatterned ha)),
        fun ha => by rw [Part.disarm_stopCause, hend.cause ha]⟩

/-- Without a pattern, a partition that had one has not gone on. -/
theorem Part.GoesOnOrEnded.ended {q r : Part} (h : q.GoesOnOrEnded r) (hq : q.patterned = true)
    (hr : r.patterned = false) : q.EndedOutOfStep r := by
  refine h.resolve_left fun ⟨_, hpat⟩ => ?_
  have : r.patterned = q.patterned := by rw [Part.patterned, Part.patterned, hpat]
  rw [hq, hr] at this
  exact Bool.false_ne_true this

/-- The timeline of a partition says nothing of whether it goes on. -/
theorem Part.goesOnOrEnded_sched (q r : Part) (d : Sched) :
    q.GoesOnOrEnded { r with sched := d } ↔ q.GoesOnOrEnded r :=
  ⟨Or.imp_right fun h => ⟨h.inactive, h.disarmed, h.unpatterned, h.cause⟩,
    Or.imp_right fun h => ⟨h.inactive, h.disarmed, h.unpatterned, h.cause⟩⟩

/-- A schedule fault leaves every partition going on or ended. -/
theorem outOfStep_goesOnOrEnded {q : Part} {s : State} {p : Nat} (h : q.GoesOnOrEnded (s.part p)) (x : Nat) :
    q.GoesOnOrEnded ((s.outOfStep x).part p) := by
  rw [State.outOfStep, fault_part]
  split
  · exact .inr h.putOutOfStep
  · exact h

/-! ### The slices and the holds of a marker (R381, R387, R389) -/

/-- The state after a marker's slices are compared and its holds taken over, before the parent's marker steers the
timebase. -/
def State.takeMarker (s : State) (k : Nat) (m : Marker) : State :=
  let ps := s.joinedParts k
  m.holds.foldl (fun t h => ps.foldl (fun t p => t.receiveHold k h p) t)
    (ps.foldl (fun t p => t.compareMark m p) (s.keepMark k m))

/-- What holds once the slices are kept, and stays through every comparison and every hold, holds at the end. -/
theorem takeMarker_induction {P : State → Prop} {s : State} {k : Nat} {m : Marker} (hkeep : P (s.keepMark k m))
    (hcompare : ∀ t p, P t → P (t.compareMark m p)) (hreceive : ∀ t h p, P t → P (t.receiveHold k h p)) :
    P (s.takeMarker k m) :=
  foldl_keeps _ (fun t h ht => foldl_keeps _ (fun t p => hreceive t h p) _ t ht) _ _
    (foldl_keeps _ hcompare _ _ hkeep)

theorem compareMark_cases (s : State) (m : Marker) (p : Nat) :
    s.compareMark m p = s ∨ s.compareMark m p = s.outOfStep p := by
  unfold State.compareMark
  dsimp only
  split
  · exact .inl rfl
  · split <;> split
    · exact .inr rfl
    · exact .inl rfl
    · exact .inr rfl
    · exact .inl rfl

theorem receiveHold_cases (s : State) (k : Nat) (h : HoldMark) (p : Nat) :
    s.receiveHold k h p = s ∨
    s.receiveHold k h p = { s with tb := { s.tb with holdsLate := s.tb.holdsLate + 1 } }.outOfStep p ∨
    ∃ x os, s.receiveHold k h p = (s.updPart p fun q => { q with sched := q.sched.addHold x }).sendAll os := by
  unfold State.receiveHold
  dsimp only
  split
  · exact .inl rfl
  · split
    · exact .inr (.inl rfl)
    · exact .inr (.inr ⟨_, _, rfl⟩)

theorem compareMark_idle {s : State} {p : Nat} (h : (s.part p).patState ≠ .running ∨ (s.part p).active = false)
    (m : Marker) : s.compareMark m p = s := by
  unfold State.compareMark
  exact if_pos (h.imp_right (by simp [·]))

/-- A marker without holds, where no joined partition runs its pattern, is kept and does nothing more. -/
theorem takeMarker_idle {s : State} {k : Nat} {m : Marker} (hm : m.holds = [])
    (hidle : ∀ p ∈ s.joinedParts k, (s.part p).patState ≠ .running ∨ (s.part p).active = false) :
    s.takeMarker k m = s.keepMark k m := by
  have hfold : ∀ ps : List Nat, (∀ p ∈ ps, (s.part p).patState ≠ .running ∨ (s.part p).active = false) →
      ps.foldl (fun t p => t.compareMark m p) (s.keepMark k m) = s.keepMark k m := by
    intro ps
    induction ps with
    | nil => exact fun _ => rfl
    | cons p ps ih =>
      intro h
      obtain ⟨hp, hps⟩ := List.forall_mem_cons.mp h
      rw [List.foldl_cons, compareMark_idle (s := s.keepMark k m) hp, ih hps]
  rw [State.takeMarker, hm]
  exact hfold _ hidle

theorem outOfStep_tb (s : State) (p : Nat) : (s.outOfStep p).tb = s.tb :=
  (State.outOfStep_keeps (fp := 0x24CDCC) rfl s p (Same.refl s)).tb.resolve_left (by decide)

/-- Slices and holds touch the count of late holds alone of the timebase. -/
theorem takeMarker_tb (s : State) (k : Nat) (m : Marker) :
    ∃ n, (s.takeMarker k m).tb = { s.tb with holdsLate := n } := by
  refine takeMarker_induction (P := fun t => ∃ n, t.tb = { s.tb with holdsLate := n }) ⟨_, rfl⟩ ?_ ?_
  · rintro t p ⟨n, ht⟩
    rcases compareMark_cases t m p with h | h
    · exact ⟨n, by rw [h, ht]⟩
    · exact ⟨n, by rw [h, outOfStep_tb, ht]⟩
  · rintro t x p ⟨n, ht⟩
    rcases receiveHold_cases t k x p with h | h | ⟨y, os, h⟩
    · exact ⟨n, by rw [h, ht]⟩
    · exact ⟨n + 1, by rw [h, outOfStep_tb, ht]⟩
    · exact ⟨n, by rw [h, ← ht]; rfl⟩

/-- Slices and holds leave every partition running as it did or ended out of step. -/
theorem takeMarker_goesOnOrEnded (s : State) (k : Nat) (m : Marker) (p : Nat) :
    (s.part p).GoesOnOrEnded ((s.takeMarker k m).part p) := by
  refine takeMarker_induction (P := fun t => (s.part p).GoesOnOrEnded (t.part p)) (.inl ⟨rfl, rfl⟩) ?_ ?_
  · intro t q ht
    rcases compareMark_cases t m q with h | h
    · rwa [h]
    · rw [h]
      exact outOfStep_goesOnOrEnded ht q
  · intro t x q ht
    rcases receiveHold_cases t k x q with h | h | ⟨y, os, h⟩
    · rwa [h]
    · rw [h]
      refine outOfStep_goesOnOrEnded ?_ q
      exact ht
    · rw [h]
      exact (updPart_keeps_part (s.part p).GoesOnOrEnded t q (f := fun r => { r with sched := r.sched.addHold y })
        (propext (Part.goesOnOrEnded_sched ..)) p).mpr ht

/-! ### The parent's marker (R360, R361, R365) -/

theorem timebaseFault_tb (s : State) :
    s.timebaseFault.tb = { s.tb with faults := s.tb.faults + 1, state := .acquiring, good := 0 } :=
  (State.fault_keeps (fp := 0x24CDCC) rfl _ _ _ _ _ _ _ _ (Same.refl _)).tb.resolve_left (by decide)

theorem timebaseFault_faultTaken (s : State) : s.timebaseFault.links.faultTaken = s.faultsAfter 1 :=
  fault_faultTaken ..

/-- A timebase fault ends every partition that has its pattern armed or running. -/
theorem timebaseFault_ended {q : Part} {s : State} {p : Nat} (hp : p < 16) (hq : q.patterned = true)
    (h : q.GoesOnOrEnded (s.part p)) : q.EndedOutOfStep (s.timebaseFault.part p) := by
  rw [State.timebaseFault, fault_part]
  split
  · exact h.putOutOfStep
  · next hno =>
    have hunpat : (s.part p).patterned = false := by
      simpa [hp, State.part] using hno
    exact h.ended hq hunpat

/-- The offset of the parent's marker, noted. -/
def State.hearParent (s : State) (off : Int) : State :=
  { s with tb := { s.tb with missed := 0, offsetPs := cyclesPs off } }

theorem anyPatterned_setTb (s : State) (tb : Timebase) : State.anyPatterned { s with tb := tb } = s.anyPatterned := rfl

theorem followParent_free {s : State} (hst : s.tb.state = .free) (hp : s.anyPatterned = false) (m : Marker)
    (off : Int) :
    (s.followParent m off).tb = { s.tb with
      missed := 0, offsetPs := cyclesPs off, state := .acquiring, count := m.count,
      good := if decide (off.natAbs ≤ 2) then 1 else 0 } := by
  simp [State.followParent, hst, hp, anyPatterned_setTb]

theorem followParent_acquiring {s : State} (hst : s.tb.state = .acquiring) (hp : s.anyPatterned = false) (m : Marker)
    (off : Int) :
    (s.followParent m off).tb = { s.tb with
      missed := 0, offsetPs := cyclesPs off, count := m.count,
      good := if 2 < off.natAbs then 0 else if s.tb.missed = 0 then s.tb.good else s.tb.good + 1 } := by
  simp [State.followParent, hst, hp, anyPatterned_setTb]

/-- A marker of the parent within 28 link cycles leaves a locked follower locked and ends its holdover. -/
theorem followParent_near {s : State} (hst : s.tb.state = .locked ∨ s.tb.state = .holdover) {off : Int}
    (hoff : off.natAbs ≤ 28) (m : Marker) :
    (s.followParent m off).tb = { s.tb with missed := 0, offsetPs := cyclesPs off, state := .locked } := by
  rcases hst with hst | hst <;> simp [State.followParent, hst, Nat.not_lt.mpr hoff]

/-- One further away is a timebase fault, in lock or in holdover. -/
theorem followParent_far {s : State} (hst : s.tb.state = .locked ∨ s.tb.state = .holdover) {off : Int}
    (hoff : 28 < off.natAbs) (m : Marker) : s.followParent m off = (s.hearParent off).timebaseFault := by
  rcases hst with hst | hst <;> simp [State.followParent, hst, hoff] <;> rfl

/-! ### The commands -/

theorem exec_timebaseLock (s : State) : exec .timebaseLock s = .next (if s.tb.state = .acquiring ∧ 64 ≤ s.tb.good then
    { s with tb := { s.tb with state := .locked } } else s) := rfl

theorem exec_holdover (s : State) : exec .holdover s = .next (if s.tb.state = .locked ∧ 16 ≤ s.tb.missed then
    { s with tb := { s.tb with state := .holdover } } else s) := rfl

/-- What a port does with a marker that its format can carry. -/
theorem exec_stitchMarker {m : Marker} (hs : m.slices.length ≤ 16) (hh : m.holds.length ≤ 32) (k : Fin 6) (off : Int)
    (s : State) : exec (.stitchMarker k m off) s = .next (
      if (s.link k).state ≠ 5 then s
      else if m.crc ≠ m.sum then s.losePort k 0
      else if (s.takeMarker k m).tb.role = 0 ∧ (s.takeMarker k m).tb.parent.toNat = k.val then
        (s.takeMarker k m).followParent m off
      else s.takeMarker k m) := by
  show execStitchMarker k m off s = _
  simp only [execStitchMarker, guarded, hs, hh, decide_true, Bool.and_self, if_true]
  rfl

/-- A sound marker of the parent steers the timebase once its slices and holds are taken. -/
theorem exec_stitchMarker_parent {s : State} {k : Fin 6} {m : Marker} (hs : m.slices.length ≤ 16)
    (hh : m.holds.length ≤ 32) (hlink : (s.link k).state = 5) (hsum : m.crc = m.sum) (hrole : s.tb.role = 0)
    (hparent : s.tb.parent.toNat = k.val) (off : Int) :
    exec (.stitchMarker k m off) s = .next ((s.takeMarker k m).followParent m off) := by
  obtain ⟨n, htb⟩ := takeMarker_tb s k m
  rw [exec_stitchMarker hs hh, if_neg (not_not.mpr hlink), if_neg (not_not.mpr hsum), htb]
  exact congrArg _ (if_pos ⟨hrole, hparent⟩)

/-- A partition that a port's link joins is one of the sixteen. -/
theorem joinedParts_lt {s : State} {k p : Nat} (h : p ∈ s.joinedParts k) : p < 16 :=
  List.mem_range.mp (List.mem_filter.mp h).1

theorem anyPatterned_false {s : State} (h : s.anyPatterned = false) {p : Nat} (hp : p < 16) :
    (s.part p).patState ≠ .running := by
  intro hrun
  have := List.any_eq_false.mp h p (List.mem_range.mpr hp)
  simp [Part.patterned, hrun] at this

/-- Settles O34: TIMEBASE_LOCK and HOLDOVER by their two conditions; a marker at a port out of service, one that fails
its check, and the parent's marker in each state of the timebase, near and far. -/
theorem timebaseFollowsItsParent : Obligations.TimebaseFollowsItsParent := by
  intro s
  refine ⟨fun hst hgood => (exec_timebaseLock s).trans (congrArg _ (if_pos ⟨hst, hgood⟩)),
    fun h => (exec_timebaseLock s).trans (congrArg _ (if_neg fun ⟨hst, hgood⟩ => h.elim (· hst) hgood.not_gt)),
    fun hst hmiss => (exec_holdover s).trans (congrArg _ (if_pos ⟨hst, hmiss⟩)),
    fun h => (exec_holdover s).trans (congrArg _ (if_neg fun ⟨hst, hmiss⟩ => h.elim (· hst) hmiss.not_gt)),
    fun k m off hs hh => ⟨fun hlink => ?_, fun hlink hsum => ?_, fun hlink hsum _ hholds hpat hrole hparent => ?_,
      fun hlink hsum hrole hparent hst hoff => ?_⟩⟩
  · rw [exec_stitchMarker hs hh, if_pos hlink]
  · refine ⟨s.losePort k 0, ?_, fun p hp => ?_, losePort_faultTaken .., ?_, losePort_tb ..⟩
    · rw [exec_stitchMarker hs hh, if_neg (not_not.mpr hlink), if_pos hsum]
    · rw [losePort_active, if_pos hp]
    · rw [losePort_link, if_pos ⟨rfl, by rw [hlink]; decide⟩]
  · have hexec := exec_stitchMarker_parent hs hh hlink hsum hrole hparent off
    rw [takeMarker_idle hholds fun p hp => .inl (anyPatterned_false hpat (joinedParts_lt hp))] at hexec
    have hpat' : (s.keepMark k m).anyPatterned = false := hpat
    refine ⟨fun hst => ⟨_, hexec, ?_⟩, fun hst => ⟨_, hexec, ?_⟩, fun hst hoff => ⟨_, hexec, ?_⟩⟩
    · rw [followParent_free (s := s.keepMark k m) hst hpat']
      exact ⟨rfl, rfl, rfl⟩
    · rw [followParent_acquiring (s := s.keepMark k m) hst hpat']
      exact ⟨hst, rfl, rfl⟩
    · rw [followParent_near (s := s.keepMark k m) hst hoff]
      exact ⟨rfl, rfl, rfl⟩
  · obtain ⟨n, htb⟩ := takeMarker_tb s k m
    have hexec := exec_stitchMarker_parent hs hh hlink hsum hrole hparent off
    rw [followParent_far (by rw [htb]; exact hst) hoff] at hexec
    refine ⟨_, hexec, ?_, ?_, fun hholds hidle => ?_, fun p hp hpat => ?_⟩
    · rw [timebaseFault_tb]
    · rw [timebaseFault_tb, State.hearParent, htb]
    · rw [timebaseFault_faultTaken, takeMarker_idle hholds hidle]
      rfl
    · have hend := timebaseFault_ended (s := (s.takeMarker k m).hearParent off) hp hpat
        (takeMarker_goesOnOrEnded s k m p)
      exact ⟨hend.inactive, hend.disarmed, fun ha => ⟨hend.unpatterned ha, hend.cause ha⟩⟩

end Sys2Proof.Machine
end

section
/-! SUPPORT. The block as a whole: what a step runs, which commands complete, the state after reset, and what every
command keeps, read off its footprint (Laws/FrameExec.lean). -/

namespace Sys2Proof

/-! ### The lists of Safety.lean are the bits of the footprints -/

theorem Instr.footprint_mem (c : Instr) : c.footprint.testBit 2 = c.touchesMem := by
  cases c <;> (dsimp only [Instr.footprint]; rfl)

theorem Instr.footprint_memStat (c : Instr) : c.footprint.testBit 3 = c.touchesMemStat := by
  cases c <;> (dsimp only [Instr.footprint]; rfl)

theorem Instr.footprint_power (c : Instr) : c.footprint.testBit 4 = c.touchesPower := by
  cases c <;> (dsimp only [Instr.footprint]; rfl)

theorem Instr.footprint_locked (c : Instr) : c.footprint.testBit 5 = c.touchesLocked := by
  cases c <;> (dsimp only [Instr.footprint]; rfl)

theorem Instr.footprint_cores (c : Instr) : c.footprint.testBit 6 = c.touchesCores := by
  cases c <;> (dsimp only [Instr.footprint]; rfl)

theorem Instr.footprint_parts (c : Instr) : c.footprint.testBit 7 = c.touchesParts := by
  cases c <;> (dsimp only [Instr.footprint]; rfl)

theorem Instr.footprint_ctxs (c : Instr) : c.footprint.testBit 8 = c.touchesCtxs := by
  cases c <;> (dsimp only [Instr.footprint]; rfl)

theorem Instr.footprint_arith (c : Instr) : c.footprint.testBit 9 = c.touchesArith := by
  cases c <;> (dsimp only [Instr.footprint]; rfl)

theorem Instr.footprint_fabric (c : Instr) : c.footprint.testBit 10 = c.touchesFabric := by
  cases c <;> (dsimp only [Instr.footprint]; rfl)

theorem Instr.footprint_coll (c : Instr) : c.footprint.testBit 11 = c.touchesColl := by
  cases c <;> (dsimp only [Instr.footprint]; rfl)

theorem Instr.footprint_tb (c : Instr) : c.footprint.testBit 12 = c.touchesTb := by
  cases c <;> (dsimp only [Instr.footprint]; rfl)

theorem Instr.footprint_ports (c : Instr) : c.footprint.testBit 13 = c.touchesPorts := by
  cases c <;> (dsimp only [Instr.footprint]; rfl)

theorem Instr.footprint_host (c : Instr) : c.footprint.testBit 15 = c.touchesHost := by
  cases c <;> (dsimp only [Instr.footprint]; rfl)

theorem Instr.footprint_mgmt (c : Instr) : c.footprint.testBit 16 = c.touchesMgmt := by
  cases c <;> (dsimp only [Instr.footprint]; rfl)

theorem Instr.footprint_fw (c : Instr) : c.footprint.testBit 17 = c.touchesFw := by
  cases c <;> (dsimp only [Instr.footprint]; rfl)

theorem Instr.footprint_train (c : Instr) : c.footprint.testBit 18 = c.touchesTrain := by
  cases c <;> (dsimp only [Instr.footprint]; rfl)

theorem Instr.footprint_tenancy (c : Instr) : c.footprint.testBit 19 = c.touchesTenancy := by
  cases c <;> (dsimp only [Instr.footprint]; rfl)

theorem Instr.footprint_jtag (c : Instr) : c.footprint.testBit 20 = c.touchesJtag := by
  cases c <;> (dsimp only [Instr.footprint]; rfl)

/-- Fuses and die maps together are the hardware of touchesHw. -/
theorem Instr.footprint_hw (c : Instr) : (c.footprint.testBit 0 || c.footprint.testBit 1) = c.touchesHw := by
  cases c <;> (dsimp only [Instr.footprint]; rfl)

/-- MODULE_READY and HANDOVER alone may alter the fuses. -/
theorem Instr.footprint_fuses {c : Instr} (h : c.footprint.testBit 0 = true) :
    c = .moduleReady ∨ ∃ ok begins, c = .handover ok begins := by
  cases c
  case moduleReady => exact .inl rfl
  case handover ok begins => exact .inr ⟨ok, begins, rfl⟩
  all_goals (dsimp only [Instr.footprint] at h; exact absurd h (by decide))

/-- ECHO_REPLY and MAINT alone may put a port into service. -/
theorem Instr.footprint_serve {c : Instr} (h : c.footprint.testBit 22 = true) :
    (∃ k r d, c = .echoReply k r d) ∨ ∃ k p, c = .maint k p := by
  cases c
  case echoReply k r d => exact .inl ⟨k, r, d, rfl⟩
  case maint k p => exact .inr ⟨k, p, rfl⟩
  all_goals (dsimp only [Instr.footprint] at h; exact absurd h (by decide))

namespace Machine

/-! ### Steps, completion and reset -/

/-- Settles O9: a step is exec of the front command, or idles. -/
theorem stepRunsTheFrontCommand : Obligations.StepRunsTheFrontCommand := by
  intro s
  refine ⟨fun c rest h => ?_, fun h => ?_⟩ <;> rw [step, h]

/-- A command answers a next state, or is guarded by a check of its wire format that well-formedness implies. -/
theorem exec_next_or_guarded (c : Instr) (s : State) :
    (∃ t, exec c s = .next t) ∨ ∃ ok t, exec c s = guarded ok t ∧ (c.wf = true → ok = true) := by
  cases c
  case write | read | tally | fabOpen | fabClose | readData | ack | grant | nack | packetRoute | escape | schedMove |
      collective | stitchMarker | identity | rdShared | rdOwn | wb | ylFence | hAck | hResp | offer | need | part |
      abort | rd | wr | maint => exact .inr ⟨_, _, rfl, fun h => h⟩
  all_goals exact .inl ⟨_, rfl⟩

/-- Settles O10: a command without a next state has failed the guard of its wire format. -/
theorem everyCommandCompletes : Obligations.EveryCommandCompletes := by
  intro c s
  refine ⟨fun hwf => ?_, fun t h => (exec_same c s t h).pending, fun hstuck => ?_⟩ <;>
    obtain ⟨t, hnext⟩ | ⟨ok, t, hguard, hok⟩ := exec_next_or_guarded c s
  · exact ⟨t, hnext⟩
  · exact ⟨t, by rw [hguard, hok hwf]; rfl⟩
  · exact absurd ⟨t, hnext⟩ hstuck
  · cases ok with
    | true => exact absurd ⟨t, hguard⟩ hstuck
    | false => exact ⟨hguard, Bool.eq_false_iff.mpr fun hwf => Bool.noConfusion (hok hwf)⟩

/-- Settles O11: every table of the state after reset is empty, and each reading of it gives the default. -/
theorem resetState : Obligations.ResetState := by
  have hmem : memWf State.reset.mem = true := rfl
  exact ⟨⟨rfl, fun c => ⟨rfl, rfl, fun t => rfl⟩, fun p _ => ⟨rfl, rfl, rfl⟩, fun k _ => ⟨rfl, rfl⟩, rfl, rfl, rfl, rfl,
    rfl, rfl, rfl, rfl⟩, hmem⟩

/-! ### Memory and the frames -/

/-- Settles O12: every command keeps the canonical form, as every footprint does. -/
theorem stepKeepsMemoryCanonical : Obligations.StepKeepsMemoryCanonical := by
  intro s t hs h
  rcases step_same s t h with rfl | ⟨c, rest, _, _, hsame⟩
  · exact hs
  · exact hsame.wf hs

/-- A part whose bit a command's list leaves clear is as it was. -/
theorem kept_of_untouched {c : Instr} {i : Nat} {b : Bool} {P : Prop} (hbit : c.footprint.testBit i = b)
    (h : c.footprint.testBit i = true ∨ P) (hb : b = false) : P :=
  h.resolve_left (by rw [hbit, hb]; exact Bool.false_ne_true)

/-- Settles O59: each list of Safety.lean is one bit of the footprint. -/
theorem memoryAndCoresKept : Obligations.MemoryAndCoresKept := by
  intro c s t h
  have hsame := exec_same c s t h
  refine ⟨fun hc => ?_, kept_of_untouched c.footprint_memStat hsame.memStat,
    kept_of_untouched c.footprint_cores hsame.cores, kept_of_untouched c.footprint_ctxs hsame.ctxs,
    kept_of_untouched c.footprint_train hsame.train, kept_of_untouched c.footprint_coll hsame.coll,
    kept_of_untouched c.footprint_parts hsame.parts⟩
  have hmem : t.mem = s.mem := kept_of_untouched c.footprint_mem hsame.mem hc
  exact ⟨hmem, fun a => by rw [hmem]⟩

/-- What no command of touchesHw is keeps the whole of the hardware. -/
theorem Same.hw_eq {m : Nat} {s t : State} (h : Same m s t) (hb : (m.testBit 0 || m.testBit 1) = false) :
    t.hw = s.hw := by
  obtain ⟨hfuses, hmap⟩ := Bool.or_eq_false_iff.mp hb
  have hcounter := h.counter.resolve_left (by simp [hfuses])
  have hrevoked := h.revoked.resolve_left (by simp [hfuses])
  have hdies := h.dieMap.resolve_left (by simp [hmap])
  have hgrade := h.grade
  have hstepping := h.stepping
  cases ht : t.hw
  cases hs : s.hw
  simp_all

/-- Settles O60: as O59, for the links and the service registers. -/
theorem linksAndServiceKept : Obligations.LinksAndServiceKept := by
  intro c s t h
  have hsame := exec_same c s t h
  exact ⟨kept_of_untouched c.footprint_ports hsame.ports, kept_of_untouched c.footprint_host hsame.host,
    kept_of_untouched c.footprint_fabric hsame.fabric, kept_of_untouched c.footprint_tb hsame.tb,
    kept_of_untouched c.footprint_locked hsame.locked, kept_of_untouched c.footprint_jtag hsame.jtag,
    kept_of_untouched c.footprint_power hsame.power, kept_of_untouched c.footprint_fw hsame.fw,
    fun hc => hsame.hw_eq (c.footprint_hw.trans hc), kept_of_untouched c.footprint_mgmt hsame.mgmt,
    kept_of_untouched c.footprint_arith hsame.arith, kept_of_untouched c.footprint_tenancy hsame.tenancy⟩

/-! ### Ports enter service by an echo alone -/

theorem link_setTb (s : State) (tb : Timebase) (k : Nat) : State.link { s with tb := tb } k = s.link k := rfl

/-- Of the ports an exchange puts into service its own alone, and that from stage 4. -/
theorem onEcho_serves {s : State} {k trip j : Nat} (h5 : ((s.onEcho k trip).link j).state = 5) :
    (s.link j).state = 5 ∨ (j = k ∧ (s.link j).state = 4) := by
  by_cases hj : j = k ∧ (s.link j).state = 4
  · exact .inr hj
  refine .inl ?_
  unfold State.onEcho at h5
  split at h5
  · exact h5
  · next hst =>
    have hjk : ¬ k = j := fun e => hj ⟨e.symm, e ▸ not_not.mp hst⟩
    dsimp only at h5
    split at h5
    · rw [(State.sendEcho_keeps (fp := 0x200400) rfl _ k false 0 0 (Same.refl _)).link_eq rfl, State.link_updLink,
        if_neg hjk] at h5
      exact h5
    · rw [setPort_link, if_neg hjk, (State.setUsed_keeps (fp := 0x400) rfl _ k _ (Same.refl _)).link_eq rfl,
        link_setTb, State.link_updLink, if_neg hjk] at h5
      exact h5

theorem maintReply_serves {s : State} {k j : Nat} {f : List Byte} (h5 : ((s.maintReply k f).link j).state = 5) :
    (s.link j).state = 5 ∨ (j = k ∧ (s.link j).state = 4) := by
  unfold State.maintReply at h5
  dsimp only at h5
  split at h5
  · exact onEcho_serves (s := s.freeWord.1) h5
  · exact .inl h5

/-- Every frame but an echo reply leaves the ports out of service that are. -/
theorem onMaintFrame_serves {s : State} {k j : Nat} {f : List Byte} (h5 : ((s.onMaintFrame k f).link j).state = 5) :
    (s.link j).state = 5 ∨ (leAt f 0 1 = 3 ∧ j = k ∧ (s.link j).state = 4) := by
  have hserve : ∀ {t : State}, Same 0x2EEDCC s t → (t.link j).state = 5 → (s.link j).state = 5 :=
    fun h => h.serve.resolve_left (by decide) j
  unfold State.onMaintFrame at h5
  split at h5
  · exact .inl (hserve (State.onIdentity_keeps rfl s k f (Same.refl s)) h5)
  · exact .inl (hserve (State.maintEcho_keeps rfl s k (Same.refl s)) h5)
  · next htype => exact (maintReply_serves h5).imp_right fun h => ⟨htype, h⟩
  · exact .inl (hserve (State.maintDist_keeps rfl s k _ (Same.refl s) fun t => State.onOffer_keeps rfl t k f) h5)
  · exact .inl (hserve (State.maintDist_keeps rfl s k _ (Same.refl s) fun t => State.onNeed_keeps rfl t k f) h5)
  · exact .inl (hserve (State.maintDist_keeps rfl s k _ (Same.refl s) fun t => State.onPart_keeps rfl t k f) h5)
  · exact .inl (hserve (State.maintDist_keeps rfl s k _ (Same.refl s) fun t => State.onAbort_keeps rfl t k f) h5)
  · exact .inl (hserve (State.discardPkt_keeps rfl s (Same.refl s)) h5)

/-- What a maintenance packet does before its frame acts leaves every port. -/
theorem onMaint_serves {s : State} {k j : Nat} {p : Pkt} (h5 : ((s.onMaint k p).link j).state = 5) :
    (s.link j).state = 5 ∨ (leAt p.payload 0 1 = 3 ∧ j = k ∧ (s.link j).state = 4) := by
  unfold State.onMaint at h5
  dsimp only at h5
  have hcount : Same 0x400 s (s.countRx k p.flits 3 (min p.channel.toNat 1)) :=
    State.countRx_keeps rfl s k _ _ _ (Same.refl s)
  split at h5
  · exact .inl h5
  · split at h5
    · rw [(State.discardPkt_keeps (fp := 0x400) rfl _ hcount).link_eq rfl] at h5
      exact .inl h5
    · have hsample := State.sample_keeps (fp := 0x400) rfl _ 6 3 (some p.part.toNat) p.bytes
        (State.updFabric_keeps rfl _ (fun f => { f with delivered := f.delivered + 1 }) hcount)
      have h := onMaintFrame_serves h5
      rwa [hsample.link_eq rfl] at h

/-- Settles O14: the two commands whose footprint may put a port into service do it by an echo reply, from stage 4. -/
theorem portsEnterServiceByEchoAlone : Obligations.PortsEnterServiceByEchoAlone := by
  intro c s t k h h5 hs
  rcases (exec_same c s t h).serve with hc | hkept
  · rcases Instr.footprint_serve hc with ⟨q, r, d, rfl⟩ | ⟨q, p, rfl⟩
    · obtain rfl := Host.Outcome.next.inj h
      have hcount := (State.countFrame_keeps (fp := 0x400) rfl s q (echoPayload true 0 (BitVec.ofNat 64 d))
        (Same.refl s)).link_eq rfl k
      have h4 := onEcho_serves h5
      rw [hcount] at h4
      obtain ⟨hq, h4⟩ := h4.resolve_left hs
      exact ⟨h4, q, hq.symm, .inl ⟨r, d, rfl⟩⟩
    · obtain rfl := guarded_next h
      obtain ⟨htype, hq, h4⟩ := (onMaint_serves h5).resolve_left hs
      exact ⟨h4, q, hq.symm, .inr ⟨p, rfl, htype⟩⟩
  · exact absurd (hkept k h5) hs

/-! ### Fuses only advance -/

/-- The fuses after the image of slot i is confirmed (R573). -/
def Hw.confirmed (h : Hw) (x : Slot) : Hw := if x.factory then h else { h with
  securityCounter := BitVec.ofNat 32 (max h.securityCounter.toNat x.security),
  keyRevoked := h.keyRevoked ||| BitVec.ofNat 8 (x.le 21 1 % 16) }

theorem confirm_hw (s : State) (i : Nat) : (s.confirm i).hw = s.hw.confirmed (s.slot i) := by
  unfold State.confirm Hw.confirmed
  dsimp only
  split <;> rfl

theorem confirm_slot (s : State) (i : Nat) : ((s.confirm i).slot i).state = 4 := by
  simp [State.confirm, State.slot, State.updSlot]

/-- The boot record is no slot. -/
theorem keepBoot_slot (s : State) (i : Nat) : s.keepBoot.slot i = s.slot i := by
  unfold State.keepBoot State.writeBoot State.slot
  split
  · rfl
  · dsimp only
    split <;> rfl

theorem keepBoot_hw (s : State) : s.keepBoot.hw = s.hw :=
  (State.keepBoot_keeps (fp := 0x20000) rfl s (Same.refl s)).hw_eq rfl

theorem writeHeld_hw (s : State) : s.writeHeld.hw = s.hw :=
  (State.writeHeld_keeps (fp := 0x22C000) rfl s (Same.refl s)).hw_eq rfl

/-- Writing the held fault records ends the pause and touches no slot. -/
theorem writeHeld_slot (s : State) (i : Nat) : s.writeHeld.slot i = s.slot i := by
  unfold State.writeHeld State.slot
  have hfw := (kept_foldl (m := 0x20C000) State.writeFault s.links.held
    { s with fw := { s.fw with paused := false }, links := { s.links with held := [] } }
    (fun t f => State.writeFault_keeps rfl t f) (Same.refl _)).fw.resolve_left (by decide)
  rw [hfw]

theorem handover_hw_false (s : State) : (s.handover false).hw = s.hw := by
  unfold State.handover
  split
  · rfl
  · split
    · rfl
    · rw [writeHeld_hw, keepBoot_hw]
      rfl

/-- A handover leaves the fuses, or confirms the image of one slot. -/
theorem handover_fuses (s : State) (ok : Bool) : (s.handover ok).hw = s.hw ∨
    ∃ i, ((s.handover ok).slot i).state = 4 ∧ (s.handover ok).hw = s.hw.confirmed (s.slot i) := by
  unfold State.handover
  split
  · exact .inl rfl
  · next i _ =>
    split
    · exact .inl rfl
    · dsimp only
      split
      · refine .inr ⟨i, ?_, ?_⟩
        · rw [writeHeld_slot, keepBoot_slot]
          exact confirm_slot _ i
        · rw [writeHeld_hw, keepBoot_hw]
          exact confirm_hw _ i
      · refine .inl ?_
        rw [writeHeld_hw, keepBoot_hw]
        rfl

theorem moduleReady_fuses {s t : State} (h : exec .moduleReady s = .next t) : t.hw = s.hw ∨
    ∃ i, (t.slot i).state = 4 ∧ t.hw = s.hw.confirmed (s.slot i) := by
  obtain rfl := Host.Outcome.next.inj h
  dsimp only
  split
  · exact .inl rfl
  · split
    · refine .inr ⟨s.fw.running, ?_, ?_⟩
      · rw [keepBoot_slot]
        exact confirm_slot ..
      · rw [keepBoot_hw]
        exact confirm_hw ..
    · exact .inl rfl

theorem handover_mgmt (s : State) (ok : Bool) : (s.handover ok).mgmt = s.mgmt :=
  (State.handover_keeps (fp := 0x22C001) rfl s ok (Same.refl s)).mgmt.resolve_left (by decide)

/-- Requests served leave the fuses, and with none waiting every slot. -/
theorem serveQueue_hw (s : State) : s.serveQueue.hw = s.hw :=
  (State.serveQueue_keeps (fp := 0x2FFFDC) rfl s (Same.refl s)).hw_eq rfl

theorem serveQueue_slot {s : State} (h : s.mgmt.queue = []) (i : Nat) : s.serveQueue.slot i = s.slot i := by
  unfold State.serveQueue
  rw [h]
  rfl

theorem execHandover_fuses {s t : State} {ok begins : Bool} (h : exec (.handover ok begins) s = .next t) :
    t.hw = s.hw ∨ (ok = true ∧ begins = false ∧
      ∃ i, (s.mgmt.queue = [] → (t.slot i).state = 4) ∧ t.hw = s.hw.confirmed (s.slot i)) := by
  obtain rfl := Host.Outcome.next.inj h
  cases begins with
  | true => exact .inl ((State.beginHandover_keeps (fp := 0x20000) rfl s (Same.refl s)).hw_eq rfl)
  | false =>
    rw [if_neg Bool.false_ne_true]
    cases ok with
    | false =>
      refine .inl ?_
      split
      · rw [serveQueue_hw, handover_hw_false]
      · exact handover_hw_false s
    | true =>
      refine (handover_fuses s true).imp (fun hkept => ?_) fun ⟨i, hslot, hhw⟩ => ⟨rfl, rfl, i, fun hq => ?_, ?_⟩ <;>
        split
      · rw [serveQueue_hw, hkept]
      · exact hkept
      · rw [serveQueue_slot (by rw [handover_mgmt, hq]), hslot]
      · exact hslot
      · rw [serveQueue_hw, hhw]
      · exact hhw

/-- Where the fuses change, MODULE_READY or a HANDOVER has confirmed the image of a slot. -/
theorem exec_fuses {c : Instr} {s t : State} (h : exec c s = .next t) :
    (t.hw.securityCounter = s.hw.securityCounter ∧ t.hw.keyRevoked = s.hw.keyRevoked) ∨
    ((c = .moduleReady ∨ c = .handover true) ∧
      ∃ i, (s.mgmt.queue = [] → (t.slot i).state = 4) ∧ t.hw = s.hw.confirmed (s.slot i)) := by
  have hsame := exec_same c s t h
  by_cases hc : c.footprint.testBit 0 = true
  · rcases Instr.footprint_fuses hc with rfl | ⟨ok, begins, rfl⟩
    · rcases moduleReady_fuses h with hkept | ⟨i, hslot, hhw⟩
      · exact .inl (by rw [hkept]; exact ⟨rfl, rfl⟩)
      · exact .inr ⟨.inl rfl, i, fun _ => hslot, hhw⟩
    · rcases execHandover_fuses h with hkept | ⟨rfl, rfl, i, hslot, hhw⟩
      · exact .inl (by rw [hkept]; exact ⟨rfl, rfl⟩)
      · exact .inr ⟨.inr rfl, i, hslot, hhw⟩
  · exact .inl ⟨hsame.counter.resolve_left hc, hsame.revoked.resolve_left hc⟩

theorem ofLe_lt (bs : List Byte) : ofLe bs < 2 ^ (8 * bs.length) := by
  induction bs with
  | nil => simp [ofLe]
  | cons b bs ih =>
    have hb := b.isLt
    have hpow : 2 ^ (8 * (b :: bs).length) = 2 ^ (8 * bs.length) * 2 ^ 8 := by
      rw [List.length_cons, ← Nat.pow_add, mul_add_one]
    rw [hpow, ofLe, Nat.shiftLeft_eq]
    omega

/-- The version of an image has 32 bits. -/
theorem Slot.security_lt (x : Slot) : x.security < 2 ^ 32 := by
  simpa [Slot.security, Slot.le, Slot.bytes] using ofLe_lt ((List.range 4).map fun i => x.byte (16 + i))

theorem Hw.confirmed_counter (h : Hw) (x : Slot) :
    h.securityCounter.toNat ≤ (h.confirmed x).securityCounter.toNat := by
  unfold Hw.confirmed
  split
  · exact le_refl _
  · have hx := x.security_lt
    have hc := h.securityCounter.isLt
    rw [BitVec.toNat_ofNat, Nat.mod_eq_of_lt (max_lt hc hx)]
    exact le_max_left ..

theorem Hw.confirmed_revoked {h : Hw} {i : Nat} (hi : h.keyRevoked.toNat.testBit i = true) (x : Slot) :
    (h.confirmed x).keyRevoked.toNat.testBit i = true := by
  unfold Hw.confirmed
  split
  · exact hi
  · rw [BitVec.toNat_or, Nat.testBit_or, hi, Bool.true_or]

/-- Settles O13: the fuses stay, or are those that the confirmation of one image leaves. -/
theorem fusesOnlyAdvance : Obligations.FusesOnlyAdvance := by
  intro s t h
  rcases step_same s t h with rfl | ⟨c, rest, hpending, hexec, hsame⟩
  · exact ⟨le_refl _, fun _ hi => hi, rfl, rfl, .inl ⟨rfl, rfl⟩⟩
  · rcases exec_fuses hexec with ⟨hcounter, hrevoked⟩ | ⟨hc, i, hslot, hhw⟩
    · exact ⟨le_of_eq (by rw [hcounter]), fun _ hi => by rw [hrevoked]; exact hi, hsame.grade, hsame.stepping,
        .inl ⟨hcounter, hrevoked⟩⟩
    · refine ⟨hhw ▸ Hw.confirmed_counter .., fun _ hi => hhw ▸ Hw.confirmed_revoked hi _, hsame.grade,
        hsame.stepping, ?_⟩
      cases hf : (s.slot i).factory with
      | true =>
        have hkept : t.hw = s.hw := hhw.trans (if_pos hf)
        exact .inl (by rw [hkept]; exact ⟨rfl, rfl⟩)
      | false =>
        have hset := hhw.trans (if_neg (ne_true_of_eq_false hf))
        exact .inr ⟨c, rest, i, hpending, hc, hslot, hf, by rw [hset]; rfl, by rw [hset]; rfl⟩

end Machine

end Sys2Proof
end

section
/-! SUPPORT. Reset, start-up and input power (R603, R608, R619): what a reset, the boot ROM and a cut of the input
leave. -/

namespace Sys2Proof.Machine

/-! ### The boot ROM (R578) -/

/-- What the boot ROM leaves of power and recovery: start-up goes on with a slot loaded, or ends in recovery, as the
strap asks. -/
structure Booted (s t : State) : Prop where
  power : t.power = { s.power with boot := t.power.boot }
  ended : t.power.boot = .booting ∨ t.power.boot = .recovery
  strap : s.power.strapRecovery = true → t.power.boot = .recovery ∧ t.fw.recovery = 1

theorem considerSlot_power (s : State) (i : Nat) : (s.considerSlot i).1.power = s.power :=
  (State.considerSlot_keeps (fp := 0x20000) rfl s i (Same.refl s)).power_eq rfl

/-- Recovery that no strap asks for. -/
theorem booted_recovery {s t : State} (hp : t.power = s.power) (hs : s.power.strapRecovery = false) (n : Nat) :
    Booted s (t.enterRecovery n) where
  power := by simp [State.enterRecovery, hp]
  ended := .inr rfl
  strap h := by simp [hs] at h

theorem booted_load {s t : State} (hp : t.power = s.power) (hs : s.power.strapRecovery = false) (i : Nat) :
    Booted s (t.loadSlot i).writeBoot where
  power := by simp [State.loadSlot, State.writeBoot, hp]
  ended := .inl rfl
  strap h := by simp [hs] at h

theorem chooseSlot_booted (s : State) : Booted s s.chooseSlot := by
  unfold State.chooseSlot
  cases hs : s.power.strapRecovery with
  | true => exact ⟨rfl, .inr rfl, fun _ => ⟨rfl, rfl⟩⟩
  | false =>
    dsimp only
    rw [if_neg Bool.false_ne_true]
    have ha := considerSlot_power s s.fw.active
    have hb := (considerSlot_power _ (1 - (s.considerSlot s.fw.active).1.fw.active)).trans ha
    split
    · exact booted_load ha hs _
    · split
      · exact booted_load hb hs _
      · exact booted_recovery hb hs 2

/-! ### What a reset leaves (R602, R603) -/

/-- A listed value of a table whose values are mapped key by key is the map of one. -/
theorem find_map_pair {α β : Type} {f : Nat × α → β} {m : Sparse α} {k : Nat} {y : β}
    (h : Sparse.find (m.map fun x => (x.1, f x)) k = some y) : ∃ x, y = f x := by
  induction m with
  | nil => exact absurd h (by simp)
  | cons x m ih =>
    simp only [List.map_cons, Sparse.find] at h
    split at h
    · exact ⟨x, (Option.some.inj h).symm⟩
    · exact ih h

/-- A core after a reset: as new, but for a mark it may have (R487). -/
theorem restart_core (s : State) (c : Nat) :
    s.restart.core c = Core.reset ∨ s.restart.core c = { Core.reset with marked := true } := by
  unfold State.core Sparse.get
  cases h : Sparse.find s.restart.cores c with
  | none => exact .inl rfl
  | some k => exact .inr (find_map_pair h).choose_spec

theorem chooseSlot_same (s : State) : Same 0x20030 s s.chooseSlot := State.chooseSlot_keeps rfl s (Same.refl s)

/-- RESET_N rises on a module that has its input power. -/
theorem exec_reset_fall {lowNs : Nat} (h : 1000 ≤ lowNs) (id : BitVec 13) (seg : BitVec 3) (recN torn : Bool)
    (s : State) : exec (.reset lowNs id seg recN torn) s = .next
      ((if torn && s.power.boot != .off then { s with fw := s.fw.torn } else s).resetNow id seg recN) := by
  show execReset lowNs id seg recN s torn = _
  rw [execReset, if_neg (by omega), if_pos h]

/-- Settles O1: a pulse too short or without power does nothing, one of doubtful length one or the other, and a long one
restarts the module and lets the boot ROM choose. -/
theorem resetRestartsTheModule : Obligations.ResetRestartsTheModule := by
  intro lowNs id seg recN torn s
  refine ⟨fun h => ?_, fun hlo hhi => ?_, fun hlow hon => ?_⟩
  · rcases h with h | ⟨hlow, hoff⟩
    · show execReset lowNs id seg recN s torn = _
      rw [execReset, if_pos h]
    · rw [exec_reset_fall hlow, if_neg (by simp [hoff]), State.resetNow, if_pos hoff]
  · have hexec : exec (.reset lowNs id seg recN torn) s = .next (if Config.freeBool s.freeCtr then
        (if torn && s.power.boot != Boot.off then { s with freeCtr := s.freeCtr + 1, fw := s.fw.torn }
          else { s with freeCtr := s.freeCtr + 1 }).resetNow id seg recN
        else { s with freeCtr := s.freeCtr + 1 }) := by
      show execReset lowNs id seg recN s torn = _
      rw [execReset, if_neg (by omega), if_neg (by omega)]
    rw [hexec, exec_reset_fall (le_refl 1000)]
    cases Config.freeBool s.freeCtr with
    | true => exact .inr rfl
    | false => exact .inl rfl
  · obtain ⟨u, hexec, hhw, hhistory, hloss, hlabel⟩ : ∃ u : State, exec (.reset lowNs id seg recN torn) s
        = .next (u.restart.latch id seg recN).chooseSlot ∧ u.hw = s.hw ∧ u.power.history = s.power.history ∧
          u.power.powerLoss = s.power.powerLoss ∧ u.mgmt.label = s.mgmt.label := by
      rw [exec_reset_fall hlow]
      split
      · exact ⟨{ s with fw := s.fw.torn }, congrArg _ (if_neg hon), rfl, rfl, rfl, rfl⟩
      · exact ⟨s, congrArg _ (if_neg hon), rfl, rfl, rfl, rfl⟩
    have hsame := chooseSlot_same (u.restart.latch id seg recN)
    have hboot := chooseSlot_booted (u.restart.latch id seg recN)
    have hfabric := hsame.fabric.resolve_left (by decide)
    have hmgmt := hsame.mgmt.resolve_left (by decide)
    refine ⟨_, hexec, fun c => ?_, fun p => ?_, ?_, ?_, ?_, ?_, hboot.ended, fun hrec => ?_, ?_, ?_, ?_, ?_⟩
    · rw [hsame.core_eq rfl]
      rcases restart_core u c with h | h
      all_goals
        rw [show (u.restart.latch id seg recN).core c = _ from h]
        exact ⟨rfl, rfl, rfl, rfl, rfl⟩
    · rw [hsame.part_eq rfl]
      rfl
    · rw [hfabric]
      rfl
    · rw [hmgmt]
      rfl
    · rw [hboot.power]
      rfl
    · rw [hboot.power]
      rfl
    · exact hboot.strap (by rw [hrec]; rfl)
    · exact (hsame.hw_eq rfl).trans hhw
    · rw [hboot.power]
      exact hhistory
    · rw [hboot.power]
      exact hloss
    · rw [hmgmt]
      exact hlabel

/-! ### Start-up (R619, R620) -/

/-- Ports that may come up go from state 0 to state 1 in turn; each port's turn sees it as it was. -/
theorem raisePorts_link (l : List Nat) (s : State) (j : Nat) :
    ((l.foldl (fun s k => if s.portEnabled k ∧ (s.link k).state = 0 then s.updLink k fun l =>
      { l with state := 1 } else s)
      s).link j).state = if j ∈ l ∧ s.portEnabled j = true ∧ (s.link j).state = 0 then 1 else (s.link j).state := by
  induction l generalizing s with
  | nil => simp
  | cons k l ih =>
    rw [List.foldl_cons, ih]
    by_cases hup : s.portEnabled k ∧ (s.link k).state = 0
    · rw [if_pos hup, State.link_updLink]
      have hen : ∀ f, (s.updLink k f).portEnabled j = s.portEnabled j := fun f => rfl
      rw [hen]
      by_cases hkj : k = j
      · subst hkj
        simp [hup]
      · simp [hkj, Ne.symm hkj]
    · rw [if_neg hup]
      have hj : j = k → ¬(s.portEnabled j = true ∧ (s.link j).state = 0) := fun e => e ▸ hup
      exact if_congr (by rw [List.mem_cons]; tauto) rfl rfl

theorem raisePorts_same (l : List Nat) (s : State) : Same 0x6000 s
    (l.foldl (fun s k => if s.portEnabled k ∧ (s.link k).state = 0 then s.updLink k fun l =>
      { l with state := 1 } else s)
      s) :=
  kept_foldl _ _ _ (fun t k h => kept_ite _ _ _ (State.updLink_kept rfl t k _ (fun e =>
    absurd (show (1 : Byte) = 5 from e) (by decide)) h) h)
    (Same.refl s)

theorem repairRows_same (l : List Nat) (s : State) : Same 0x8 s (l.foldl State.repairRow s) :=
  kept_foldl _ _ _ (fun t row => State.repairRow_keeps rfl t row) (Same.refl s)

/-- Confirmation and the boot record touch fuses and firmware alone. -/
theorem confirmed_same (s : State) (i : Nat) : Same 0x20001 s (s.confirm i).keepBoot :=
  State.keepBoot_keeps rfl _ (State.confirm_keeps rfl s i (Same.refl s))

theorem keepBoot_trials (s : State) : s.keepBoot.fw.trials = s.fw.trials := by
  unfold State.keepBoot State.writeBoot
  split
  · rfl
  · dsimp only
    split <;> rfl

theorem exec_moduleReady {s : State} (hb : s.power.boot = .hbmTrained) (hs : s.power.settling = false) :
    exec .moduleReady s = .next (if (s.slot s.fw.running).state = 3 then
      (State.confirm { s with mem := memZero s.mem 0 hbmEnd, power := { s.power with boot := .ready } }
        s.fw.running).keepBoot
      else { s with mem := memZero s.mem 0 hbmEnd, power := { s.power with boot := .ready } }) := by
  show execModuleReady s = _
  rw [execModuleReady, if_neg (by simp [hb, hs])]
  rfl

theorem exec_powerLoss {s : State} (h : s.power.boot ≠ .off) (m : Meas) : exec (.powerLoss m) s = .next
    (State.cut { s with power := { s.power with powerLoss := recordBytes m s.power.minuteEvents } }) :=
  congrArg Host.Outcome.next (if_neg h)

theorem exec_overvoltage {s : State} (h : s.power.boot ≠ .off) : exec .overvoltage s = .next
    (State.cut { s with power := { s.power with overvolt := true } }) :=
  congrArg Host.Outcome.next (if_neg h)

/-- Settles O2: the four start-up steps from their states, and the two cuts. -/
theorem startUpAndInputCuts : Obligations.StartUpAndInputCuts := by
  refine ⟨fun s => ⟨fun hoff hv => ?_, fun hb => ?_, fun hb => ?_, fun hb hset => ?_⟩, fun m s hon => ⟨?_, ?_⟩⟩
  · exact ⟨_, congrArg Host.Outcome.next (if_pos ⟨hoff, by rw [hv]; rfl⟩), rfl, rfl⟩
  · have hsame := raisePorts_same (List.range 6)
      { s with power := { s.power with boot := .railsUp, minuteEvents := 0 }, locked := 0xFFFFFFFFFF }
    refine ⟨_, congrArg Host.Outcome.next (if_neg (not_not.mpr hb)), ?_, ?_, ?_, hsame.mem_eq rfl, hsame.cores_eq rfl,
      fun k hk => ?_⟩
    · rw [hsame.power_eq rfl]
    · exact hsame.locked.resolve_left (by decide)
    · rw [hsame.power_eq rfl]
    · refine (raisePorts_link _ _ k).trans (if_congr ?_ rfl rfl)
      exact and_iff_right (List.mem_range.mpr hk)
  · have hsame := repairRows_same s.memStat.repairsPending { s with power := { s.power with boot := .hbmTrained } }
    refine ⟨_, congrArg Host.Outcome.next (if_neg (not_not.mpr hb)), ?_, hsame.mem_eq rfl⟩
    rw [hsame.power_eq rfl]
  · have hconfirmed := confirmed_same
      { s with mem := memZero s.mem 0 hbmEnd, power := { s.power with boot := .ready } } s.fw.running
    refine ⟨_, exec_moduleReady hb hset, ?_, fun a ha => ?_, fun a ha => ?_, fun h3 => ?_⟩
    · split
      · rw [hconfirmed.power_eq rfl]
      · rfl
    · have hmem := memRead_memZero s.mem 0 hbmEnd a
      rw [if_pos (by omega)] at hmem
      split
      · rw [hconfirmed.mem_eq rfl, hmem]
      · exact hmem
    · have hmem := memRead_memZero s.mem 0 hbmEnd a
      rw [if_neg (by omega)] at hmem
      split
      · rw [hconfirmed.mem_eq rfl, hmem]
      · exact hmem
    · rw [if_pos h3, keepBoot_slot, keepBoot_trials]
      exact ⟨confirm_slot .., rfl⟩
  · exact ⟨_, exec_powerLoss hon m, rfl, rfl, rfl, fun p => rfl, rfl⟩
  · refine ⟨_, exec_overvoltage hon, rfl, rfl, rfl, rfl, congrArg Host.Outcome.next (if_neg ?_), _,
      congrArg Host.Outcome.next (if_pos rfl), rfl, rfl⟩
    rintro ⟨-, h⟩
    exact Bool.false_ne_true h

end Sys2Proof.Machine
end

section
/-! SUPPORT. Power, temperature and the test port (R493, R615, R617, R623). -/

namespace Sys2Proof.Machine

/-! ### Faults of class 10 (R615) -/

theorem mem_allParts {p : Nat} : p ∈ allParts ↔ p < 16 := List.mem_range

/-- A fault of every partition ends them all and leaves power as it was. -/
theorem faultAll_active (s : State) (st : Half) (cls kind unit : Nat) {p : Nat} (hp : p < 16) :
    ((s.fault st cls kind unit allParts 0 0).part p).active = false := by
  rw [fault_active, if_pos (mem_allParts.mpr hp)]

theorem fault_power (s : State) (st : Half) (cls kind unit : Nat) (ps : List Nat) (d0 d1 : Nat) :
    (s.fault st cls kind unit ps d0 d1).power = s.power :=
  (State.fault_keeps (fp := 0x24CDCC) rfl s st cls kind unit ps d0 d1 (Same.refl s)).power_eq rfl

theorem exec_powerInputFault {s : State} (h : s.power.boot ≠ .off) : exec .powerInputFault s = .next
    ((State.countEvent { s with power := { s.power with faults := s.power.faults + 1, settling := true } }).fault
      stPOWER_INPUT 10 0 0 allParts 0 0) :=
  congrArg Host.Outcome.next (if_neg h)

theorem exec_powerLimitExceeded {s : State} (h : s.power.boot ≠ .off) {watts : Nat} (hw : s.limitNow.toNat < watts) :
    exec (.powerLimitExceeded watts) s = .next
      ((State.countEvent { s with power := { s.power with faults := s.power.faults + 1 } }).fault
        stPOWER_LIMIT 10 0 0 allParts 0 0) :=
  congrArg Host.Outcome.next (if_neg fun hor => hor.elim h (Nat.not_le.mpr hw))

theorem exec_powerLimitExceeded_within {s : State} {watts : Nat} (hw : watts ≤ s.limitNow.toNat) :
    exec (.powerLimitExceeded watts) s = .next s :=
  congrArg Host.Outcome.next (if_pos (.inr hw))

/-- A trip counted, and marked in the minute. -/
def State.countTrip (s : State) : State :=
  State.countEvent { s with power := { s.power with trips := s.power.trips + 1 } }

theorem exec_thermalTrip_unit {s : State} (h : s.power.boot ≠ .off) {sensor : Sensor} {u : Nat × Nat}
    (hu : sensorUnit sensor = .inl u) : exec (.thermalTrip sensor) s = .next
      (State.fault { s.countTrip with power := { s.countTrip.power with thermalHold := true } }
        stTHERMAL 10 u.1 u.2 allParts 0 0) := by
  show execThermalTrip sensor s = _
  rw [execThermalTrip, if_neg h, hu]
  rfl

theorem exec_thermalTrip_engine {s : State} (h : s.power.boot ≠ .off) {sensor : Sensor} {k : Nat}
    (hk : sensorUnit sensor = .inr k) : exec (.thermalTrip sensor) s = .next (s.countTrip.tripPort k) := by
  show execThermalTrip sensor s = _
  rw [execThermalTrip, if_neg h, hk]
  rfl

/-! ### An optical engine (R605, R617) -/

/-- The port of an engine that trips is hot and out of service. -/
theorem tripPort_link {s : State} {k : Nat} (hk : k < 6) :
    ((s.tripPort k).link k).hot = true ∧ ((s.tripPort k).link k).state ≠ 5 := by
  have hhot : ∀ f : Link → Link, (s.updLink k f).link k = f (s.link k) :=
    fun f => by rw [State.link_updLink, if_pos rfl]
  unfold State.tripPort
  rw [if_pos hk]
  dsimp only
  split
  · rw [losePort_link, hhot]
    split
    · exact ⟨rfl, by simp⟩
    · next h =>
      have h0 : (s.link k).state = 0 := by simpa using h
      exact ⟨rfl, by simp [h0]⟩
  · next h5 =>
    rw [hhot] at h5
    split
    · rw [setPort_link, if_pos rfl, hhot]
      exact ⟨rfl, by simp⟩
    · rw [hhot]
      exact ⟨rfl, fun e => h5 (congrArg BitVec.toNat e)⟩

theorem tripPort_power (s : State) (k : Nat) : (s.tripPort k).power = s.power :=
  (State.tripPort_keeps (fp := 0x2DEDCC) rfl s k (Same.refl s)).power_eq rfl

theorem exec_historyRecord {s : State}
    (h : s.power.boot = .railsUp ∨ s.power.boot = .hbmTrained ∨ s.power.boot = .ready) (m : Meas) :
    exec (.historyRecord m) s = .next { s with power := { s.power with
      historyTaken := s.power.historyTaken + 1,
      history := pushRing 1440 s.power.history (recordBytes m s.power.minuteEvents),
      lifetime := lifetimeWith s.power.lifetime s.power.history.isEmpty m s.power.minuteEvents,
        minuteEvents := 0 } } := by
  show execHistoryRecord m s = _
  exact congrArg Host.Outcome.next (if_pos h)

/-- Settles O3: the three faults of class 10 end every partition; an engine's trip, its end, a warning and a record each
change their own registers. -/
theorem powerAndThermalEvents : Obligations.PowerAndThermalEvents := by
  refine ⟨fun s hon => ⟨?_, ⟨_, rfl, rfl, rfl⟩, fun watts hw => ?_, fun watts hw => exec_powerLimitExceeded_within hw,
    fun sensor u hu => ?_, ⟨_, rfl, rfl, rfl⟩⟩, fun s => ⟨fun hon i k hi hk => ?_, fun k hk => ?_, fun hon sensor => ?_,
    fun m hup => ?_⟩⟩
  · refine ⟨_, exec_powerInputFault hon, fun p hp => faultAll_active _ _ _ _ _ hp, ?_, ?_, ?_⟩ <;>
      (rw [fault_power]; rfl)
  · refine ⟨_, exec_powerLimitExceeded hon hw, fun p hp => faultAll_active _ _ _ _ _ hp, ?_, ?_⟩ <;>
      (rw [fault_power]; rfl)
  · refine ⟨_, exec_thermalTrip_unit hon hu, fun p hp => faultAll_active _ _ _ _ _ hp, ?_, ?_⟩
    · rw [fault_power]
    · rw [fault_power]
      rfl
  · obtain ⟨hhot, hstate⟩ := tripPort_link (s := s.countTrip) hk
    refine ⟨_, exec_thermalTrip_engine hon hi, ?_, ?_, hhot, hstate⟩ <;> (rw [tripPort_power]; rfl)
  · refine ⟨_, congrArg Host.Outcome.next (if_pos hk), ?_, fun j hj => ?_⟩
    · rw [State.link_updLink, if_pos rfl]
    · rw [State.link_updLink, if_neg (Ne.symm hj)]
  · exact ⟨_, congrArg Host.Outcome.next (if_neg hon), rfl, rfl, rfl, rfl, rfl⟩
  · refine ⟨_, exec_historyRecord hup m, ?_, ?_, ?_, ?_, ?_⟩ <;> dsimp only

/-! ### The test port (R493) -/

theorem exec_extest {s : State} (h : s.jtag ≠ .extest) : exec .extest s = .next
    (State.moduleFault { s with jtag := .extest, links := { s.links with testMode := 1 } } stTEST_MODE 0 0) :=
  congrArg Host.Outcome.next (if_neg h)

/-- A code above 2 selects the bypass register. -/
theorem jtagCommand_bypass {code : BitVec 8} (h : 2 < code.toNat) : jtagCommand code = .bypass := by
  have hne : ∀ n : BitVec 8, n.toNat ≤ 2 → code ≠ n := fun n hn e => by subst e; omega
  rw [jtagCommand, if_neg (hne 0 (by decide)), if_neg (hne 1 (by decide)), if_neg (hne 2 (by decide))]

/-- Settles O4: the codes, the three registers that disturb nothing, and EXTEST, a module fault on entry. -/
theorem testPortInstructions : Obligations.TestPortInstructions := by
  refine ⟨⟨rfl, rfl, rfl, fun code => jtagCommand_bypass⟩, fun s => ⟨rfl, rfl, fun pins pre => rfl, rfl,
    fun h => congrArg Host.Outcome.next (if_pos h), fun h => ?_⟩⟩
  obtain ⟨hparts, hports, _, _, _, hlinks⟩ := moduleFault_effect
    { s with jtag := .extest, links := { s.links with testMode := 1 } } stTEST_MODE 0 0
  have hjtag := (State.moduleFault_keeps (fp := 0x2CEDCC) rfl
    { s with jtag := .extest, links := { s.links with testMode := 1 } } stTEST_MODE 0 0
    (Same.refl _)).jtag.resolve_left (by decide)
  refine ⟨_, exec_extest h, hjtag, ?_, ?_, hparts, hports, ?_⟩
  · rw [hlinks]
  · rw [State.cellsDriven, if_pos hjtag, hlinks]
  · rw [hlinks]

end Sys2Proof.Machine
end

section
/-! SUPPORT. Maintenance frames of this module (R267, R299, R473): what decides whether one leaves at once, and what
sending one does. -/

namespace Sys2Proof.Machine

/-! ### What decides whether a frame leaves -/

/-- The two states let the same maintenance frames leave: route, hold, credits and what waits are the same. -/
structure SameRoom (s t : State) : Prop where
  route : t.fabric.route = s.fabric.route
  hold : t.fabric.hold = s.fabric.hold
  waiting : t.fabric.maintWaiting = s.fabric.maintWaiting
  used : t.fabric.creditUsed = s.fabric.creditUsed

theorem SameRoom.refl (s : State) : SameRoom s s := ⟨rfl, rfl, rfl, rfl⟩

theorem SameRoom.trans {s t u : State} (h : SameRoom s t) (g : SameRoom t u) : SameRoom s u :=
  ⟨g.route.trans h.route, g.hold.trans h.hold, g.waiting.trans h.waiting, g.used.trans h.used⟩

/-- A state with the same fabric has the same room. -/
theorem SameRoom.of_fabric {s t : State} (h : t.fabric = s.fabric) : SameRoom s t := by
  constructor <;> rw [h]

theorem SameRoom.maintRoom {s t : State} (h : SameRoom s t) (k n : Nat) : t.maintRoom k n = s.maintRoom k n := by
  unfold State.maintRoom State.credits
  rw [h.hold, h.waiting, h.used]

theorem SameRoom.myId {s t : State} (h : SameRoom s t) : t.myId = s.myId := by
  unfold State.myId
  rw [h.route]

theorem SameRoom.neighbourOf {s t : State} (h : SameRoom s t) (k : Nat) : t.neighbourOf k = s.neighbourOf k := by
  unfold State.neighbourOf
  rw [h.route, h.myId]

theorem maintRoom_of_le {s : State} {k m n : Nat} (hmn : m ≤ n) (h : s.maintRoom k n = true) :
    s.maintRoom k m = true := by
  unfold State.maintRoom at h ⊢
  rw [Bool.and_eq_true, decide_eq_true_eq] at h ⊢
  exact ⟨h.1, hmn.trans h.2⟩

/-! ### Counters and the sampler leave the room -/

/-- The sampler writes its own registers alone. -/
theorem sample_room (s : State) (point cls : Nat) (part : Option Nat) (header : List Byte) :
    SameRoom s (s.sample point cls part header) := by
  unfold State.sample
  dsimp only
  split
  · exact .refl s
  · split <;> exact ⟨rfl, rfl, rfl, rfl⟩

theorem sample_out (s : State) (point cls : Nat) (part : Option Nat) (header : List Byte) :
    (s.sample point cls part header).out = s.out :=
  (State.sample_keeps (fp := 0x400) rfl s point cls part header (Same.refl s)).out.resolve_left (by decide)

/-- A frame counted leaves the room for others, and everything but counters. -/
theorem countFrame_room (s : State) (k : Nat) (f : List Byte) : SameRoom s (s.countFrame k f) := by
  unfold State.countFrame
  dsimp only
  split
  · exact .refl s
  · refine .trans ?_ (sample_room ..)
    exact ⟨rfl, rfl, rfl, rfl⟩

theorem countFrame_same (s : State) (k : Nat) (f : List Byte) : Same 0x400 s (s.countFrame k f) :=
  State.countFrame_keeps rfl s k f (Same.refl s)

/-! ### A frame that leaves, and one that waits -/

/-- A frame that may leave goes out, takes its credits, and changes nothing but the fabric. -/
theorem sendOut_room {s : State} {o : Out} {k : Nat} {p : Pkt} (ho : s.maintOf o = some (k, p))
    (hroom : s.maintRoom k p.flits = true) :
    (s.sendOut o).out = s.out ++ [o] ∧ SameRoom (s.takeCredits k p.lane p.flits) (s.sendOut o) := by
  unfold State.sendOut
  rw [ho]
  dsimp only
  rw [if_pos hroom]
  generalize hp : ({ p with hops := 0 } : Pkt).bytes = bytes
  constructor
  · rw [State.send_out, sample_out]
    exact congrArg (· ++ [o]) (sample_out ..)
  · have hsample := sample_room s 7 3 (some 0) bytes
    refine .trans (t := ((s.sample 7 3 (some 0) bytes).takeCredits k p.lane p.flits).countTx k p.flits) ?_
      (.trans (sample_room ..) ⟨rfl, rfl, rfl, rfl⟩)
    refine ⟨hsample.route, hsample.hold, hsample.waiting, ?_⟩
    show Sparse.put (s.sample 7 3 (some 0) bytes).fabric.creditUsed k _ = _
    rw [hsample.used]
    rfl

/-- One that may not waits. -/
theorem sendOut_waits {s : State} {o : Out} {k : Nat} {p : Pkt} (ho : s.maintOf o = some (k, p))
    (hroom : s.maintRoom k p.flits = false) :
    (s.sendOut o).out = s.out ∧ (s.sendOut o).fabric.maintWaiting = s.fabric.maintWaiting ++ [o] := by
  unfold State.sendOut
  rw [ho]
  dsimp only
  rw [if_neg (by rw [hroom]; exact Bool.false_ne_true)]
  exact ⟨rfl, rfl⟩

theorem sendMaint_same (s : State) (k : Nat) (frame : List Byte) : Same 0x200400 s (s.sendMaint k frame) :=
  State.sendMaint_keeps rfl s k frame (Same.refl s)

theorem sendEcho_same (s : State) (k : Nat) (reply : Bool) (a b : Long) : Same 0x200400 s (s.sendEcho k reply a b) :=
  State.sendEcho_keeps rfl s k reply a b (Same.refl s)

theorem length_leBytes (n v : Nat) : (leBytes n v).length = n := by
  induction n generalizing v with
  | zero => rfl
  | succ n ih => rw [leBytes, List.length_cons, ih]

theorem maintPacket_flits (dest src : Nat) (frame : List Byte) :
    (maintPacket dest src frame).flits = 2 + flitsOf frame.length := rfl

theorem maintPacket_lane (dest src : Nat) (frame : List Byte) : (maintPacket dest src frame).lane = 6 := rfl

/-- A maintenance frame handed to a port. -/
theorem sendMaint_hands (s : State) (k : Nat) (frame : List Byte) : s.Hands (s.sendMaint k frame) k frame := by
  rintro p rfl
  exact ⟨fun hroom => (sendOut_room rfl hroom).1, fun hroom => sendOut_waits rfl hroom⟩

/-- The packet of an echo frame: three flits for a request, four for a reply. -/
theorem length_echoPayload (reply : Bool) (a b : Long) :
    (echoPayload reply a b).length = if reply then 32 else 16 := by
  cases reply with
  | false => rfl
  | true => simp [echoPayload, length_leBytes]

theorem sendEcho_request {s : State} {k : Nat} (a b : Long) (hroom : s.maintRoom k 3 = true) :
    (s.sendEcho k false a b).out = s.out ++ [.echo k false a b] := by
  refine (sendOut_room rfl ?_).1
  rw [maintPacket_flits, length_echoPayload]
  exact hroom

theorem sendEcho_reply {s : State} {k : Nat} (a b : Long) (hroom : s.maintRoom k 4 = true) :
    (s.sendEcho k true a b).out = s.out ++ [.echo k true a b] := by
  refine (sendOut_room rfl ?_).1
  rw [maintPacket_flits, length_echoPayload]
  exact hroom

/-! ### Credits taken (R267) -/

/-- Flits of the shared pool that the lanes but the maintenance one have taken. -/
def sharedElsewhere (used : List Nat) : Nat :=
  ([0, 1, 2, 3, 4, 5, 7].map fun i => used.getD i 0 - reservedFlits i).sum

theorem sum_range_eight (f : Nat → Nat) : ((List.range 8).map f).sum = ([0, 1, 2, 3, 4, 5, 7].map f).sum + f 6 := by
  simp only [List.range, List.range.loop, List.map, List.sum_cons, List.sum_nil]
  omega

theorem freeFlits_maint (port : Nat) (used : List Nat) : freeFlits port used 6 =
    (256 - used.getD 6 0) + (poolFlits port - (sharedElsewhere used + (used.getD 6 0 - 256))) := by
  rw [freeFlits, sum_range_eight]
  rfl

/-- The flits taken at a port after n more of the maintenance lane. -/
def maintTaken (used : List Nat) (n : Nat) : List Nat :=
  (List.range 8).map fun i => if i = 6 then used.getD i 0 + n else used.getD i 0

theorem takeCredits_maint (s : State) (k n : Nat) : Sparse.get [] (s.takeCredits k 6 n).fabric.creditUsed k
    = maintTaken (Sparse.get [] s.fabric.creditUsed k) n := by
  simp [State.takeCredits, State.setUsed, maintTaken]

/-- Flits taken from the maintenance lane leave room for what still fits. -/
theorem takeCredits_room {s : State} {k n m : Nat} (h : s.maintRoom k (n + m) = true) :
    (s.takeCredits k 6 n).maintRoom k m = true := by
  unfold State.maintRoom State.credits at h ⊢
  rw [takeCredits_maint]
  simp only [Bool.and_eq_true, decide_eq_true_eq, freeFlits_maint] at h ⊢
  obtain ⟨hfree, hcredits⟩ := h
  generalize Sparse.get [] s.fabric.creditUsed k = used at hcredits ⊢
  have hlane : (maintTaken used n).getD 6 0 = used.getD 6 0 + n := rfl
  have hothers : sharedElsewhere (maintTaken used n) = sharedElsewhere used := rfl
  rw [hlane, hothers]
  exact ⟨hfree, by omega⟩

end Sys2Proof.Machine
end

section
/-! SUPPORT. Bring-up of the ports (R472 to R478): light, training, identity frames and echoes. -/

namespace Sys2Proof.Machine

/-! ### The frames of bring-up -/

theorem length_identityFrame (s : State) (k : Nat) : (s.identityFrame k).length = 64 := by
  simp [State.identityFrame, length_leBytes]

theorem take_identityFrame (s : State) (k : Nat) :
    (s.identityFrame k).take 2 = [0x01, BitVec.ofNat 8 k] := rfl

/-- The packet of an identity frame takes six flits. -/
theorem identity_flits (s : State) (k dest src : Nat) : (maintPacket dest src (s.identityFrame k)).flits = 6 := by
  rw [maintPacket_flits, length_identityFrame]
  rfl

/-- A port that is set takes no part of the fabric. -/
theorem setPort_same (s : State) (k : Nat) (st : Byte) : Same 0x486080 s (s.setPort k st) :=
  State.setPort_keeps rfl s k st (Same.refl s)

theorem setPort_link_self (s : State) (k : Nat) (st : Byte) :
    (s.setPort k st).link k = { s.link k with state := st } := by
  rw [setPort_link, if_pos rfl]

theorem setPort_link_other (s : State) {k j : Nat} (h : j ≠ k) (st : Byte) : (s.setPort k st).link j = s.link j := by
  rw [setPort_link, if_neg (Ne.symm h)]

theorem updLink_link_self (s : State) (k : Nat) (f : Link → Link) : (s.updLink k f).link k = f (s.link k) := by
  rw [State.link_updLink, if_pos rfl]

theorem updLink_link_other (s : State) {k j : Nat} (h : j ≠ k) (f : Link → Link) :
    (s.updLink k f).link j = s.link j := by
  rw [State.link_updLink, if_neg (Ne.symm h)]

/-- A port set and one of its registers changed leave the room. -/
theorem setPort_room (s : State) (k : Nat) (st : Byte) : SameRoom s (s.setPort k st) :=
  .of_fabric ((setPort_same s k st).fabric.resolve_left (by decide))

theorem updLink_room (s : State) (k : Nat) (f : Link → Link) : SameRoom s (s.updLink k f) := .of_fabric rfl

theorem setPort_out (s : State) (k : Nat) (st : Byte) : (s.setPort k st).out = s.out :=
  (setPort_same s k st).out.resolve_left (by decide)

/-! ### Light and training (R472, R487, R498) -/

theorem exec_portLight (s : State) (k : Fin 6) (far : Bool) : exec (.portLight k far) s = .next
    (if ((s.link k).state.toNat = 1 ∨ (s.link k).state.toNat = 8) ∧ s.retrainOk k ∧ far then s.setPort k 2 else s) :=
  rfl

theorem exec_portLight_host {s : State} {h : Fin 2} (h0 : (s.hport h).state = 0) (hrise : s.hostMayRise h = true)
    (k : Fin 6) (far : Bool) :
    exec (.portLight k far (some h)) s = .next (s.updHport h fun x => { x with state := 1 }) :=
  congrArg Host.Outcome.next (if_pos ⟨h0, hrise⟩)

theorem exec_training_host {s : State} {h : Fin 2} (h1 : (s.hport h).state = 1) (k : Fin 6) (failed : List Nat) :
    exec (.training k failed (some h)) s =
      .next (s.updHport h fun x => { x with state := if failed = [] then 2 else 0, hellos := 0 }) := by
  refine congrArg Host.Outcome.next ((if_pos h1).trans ?_)
  cases failed <;> rfl

/-- The port k after training found its strands, as l says. -/
def State.trained (s : State) (k : Nat) (l : Link) : State :=
  (s.updLink k fun _ => { l with frames := 0, good := 0, echoes := [] }).setPort k 3

theorem exec_training_spared {s : State} {k : Fin 6} {failed : List Nat} {l : Link} (h2 : (s.link k).state = 2)
    (hl : (s.link k).bringSpares k failed = some l) :
    exec (.training k failed) s = .next ((s.trained k l).sendIdentity k) := by
  show execTraining k failed s none = _
  simp only [execTraining, h2, hl]
  rfl

/-- The port k once a strand finds no spare. -/
def State.unspared (s : State) (k : Nat) (failed : List Nat) : State :=
  (s.updLink k fun l => { l with marked := failed.foldl insertNat l.marked }).setPort k 9

theorem exec_training_unspared {s : State} {k : Fin 6} {failed : List Nat} (h2 : (s.link k).state = 2)
    (hl : (s.link k).bringSpares k failed = none) : exec (.training k failed) s = .next
      ((s.unspared k failed).recordFault stSPARES 3 4 k [] ((s.link k).unspared k failed) 0) := by
  show execTraining k failed s none = _
  simp only [execTraining, h2, hl]
  rfl

/-- A fault record leaves the ports, and counts one. -/
theorem recordFault_link (s : State) (st : Half) (cls kind unit : Nat) (ps : List Nat) (d0 d1 j : Nat) :
    (s.recordFault st cls kind unit ps d0 d1).link j = s.link j :=
  (State.recordFault_keeps (fp := 0x20C000) rfl s st cls kind unit ps d0 d1 (Same.refl s)).link_eq rfl j

theorem recordFault_faultTaken (s : State) (st : Half) (cls kind unit : Nat) (ps : List Nat) (d0 d1 : Nat) :
    (s.recordFault st cls kind unit ps d0 d1).links.faultTaken = s.faultsAfter 1 := by
  obtain ⟨_, _, hlinks⟩ := recordFault_links s st cls kind unit ps d0 d1
  rw [hlinks]

/-- The count of faults to come depends on the pause and the count so far alone. -/
theorem faultsAfter_congr {s t : State} (hf : t.fw.paused = s.fw.paused)
    (hl : t.links.faultTaken = s.links.faultTaken) (n : Nat) : t.faultsAfter n = s.faultsAfter n := by
  unfold State.faultsAfter
  rw [hf, hl]

theorem setPort_fw (s : State) (k : Nat) (st : Byte) : (s.setPort k st).fw = s.fw :=
  (setPort_same s k st).fw.resolve_left (by decide)

/-! ### Identity frames sent (R473, R476, R477) -/

theorem exec_identitySend_once {s : State} {k : Fin 6} (hlo : 3 ≤ (s.link k).state.toNat)
    (hhi : (s.link k).state.toNat ≤ 7) (h4 : (s.link k).state = 4 → (s.link k).echoes ≠ []) :
    exec (.identitySend k) s = .next (s.sendIdentity k) := by
  show execIdentitySend k s = _
  refine congrArg Host.Outcome.next ((if_neg ?_).trans (if_pos ⟨hlo, hhi⟩))
  rintro ⟨h, hempty⟩
  exact h4 (BitVec.eq_of_toNat_eq h) hempty

theorem exec_identitySend_stage4 {s : State} {k : Fin 6} (h4 : (s.link k).state = 4) (hempty : (s.link k).echoes = []) :
    exec (.identitySend k) s = .next ((s.sendIdentity k).sendEcho k false 0 0) := by
  show execIdentitySend k s = _
  exact congrArg Host.Outcome.next (if_pos ⟨by rw [h4]; rfl, hempty⟩)

/-- With room for an identity frame and an echo request both leave. -/
theorem sendIdentity_sendEcho_out {s : State} {k : Nat} (hroom : s.maintRoom k 9 = true) :
    ((s.sendIdentity k).sendEcho k false 0 0).out = s.out ++
      [.fabric k (maintPacket (s.neighbourOf k) s.myId (s.identityFrame k)), .echo k false 0 0] := by
  have hflits := identity_flits s k (s.neighbourOf k) s.myId
  have hsix : s.maintRoom k 6 = true := maintRoom_of_le (by omega) hroom
  obtain ⟨hout, hafter⟩ := sendOut_room (s := s)
    (o := .fabric k (maintPacket (s.neighbourOf k) s.myId (s.identityFrame k))) rfl (by rw [hflits]; exact hsix)
  have hthree : (s.sendIdentity k).maintRoom k 3 = true := by
    refine (hafter.maintRoom k 3).trans ?_
    rw [hflits, maintPacket_lane]
    exact takeCredits_room (show s.maintRoom k (6 + 3) = true from hroom)
  have hident : (s.sendIdentity k).out
      = s.out ++ [.fabric k (maintPacket (s.neighbourOf k) s.myId (s.identityFrame k))] := hout
  rw [sendEcho_request 0 0 hthree, hident, List.append_assoc]
  rfl

/-! ### Identity frames received (R474 to R478) -/

/-- A frame is judged by the ports and the route. -/
theorem judgeFrame_congr {s t : State} (hl : t.links = s.links) (hr : SameRoom s t) (k : Nat) (f : List Byte) :
    t.judgeFrame k f = s.judgeFrame k f := by
  unfold State.judgeFrame State.link
  rw [hl, hr.neighbourOf]

/-- The port k with what an identity frame tells of its neighbour, of protocol at most p. -/
def Link.heard (l : Link) (p : Nat) (f : List Byte) : Link := { l with
  neighbourId := BitVec.ofNat 16 (leAt f 12 2 % 2 ^ 13), neighbourPort := BitVec.ofNat 8 (leAt f 1 1),
  neighbourSerial := BitVec.ofNat 64 (leAt f 16 8), frames := l.frames + 1,
  version := if leAt f 6 2 = 3 ∧ (l.frames = 0 ∨ l.version = 0) then
    BitVec.ofNat 32 (3 <<< 16 ||| min (leAt f 4 2) (p % 2 ^ 16)) else l.version }

/-- What a frame at port k tells is noted, before it is judged. -/
def State.noted (s : State) (k : Nat) (f : List Byte) : State :=
  s.updLink k fun l => l.heard s.hw.stepping.protocol f

/-- One good frame more. -/
def State.oneGood (s : State) (k : Nat) : State := s.updLink k fun l => { l with good := l.good + 1 }

/-- The third good frame opens stage 4. -/
def State.opened (s : State) (k : Nat) : State := (s.updLink k fun l => { l with echoes := [] }).setPort k 4

theorem onIdentity_stage3 {s : State} {k : Nat} (h3 : (s.link k).state = 3) (f : List Byte) :
    s.onIdentity k f =
      if s.judgeFrame k f = .pass then
        if ((s.noted k f).oneGood k |>.link k).good < 3 then (s.noted k f).oneGood k
        else (((s.noted k f).oneGood k).opened k).sendEcho k false 0 0
      else (s.noted k f).holdPort k (s.judgeFrame k f) f := by
  unfold State.onIdentity
  rw [h3]
  rfl

/-- A frame of stage 3 that passes: one good frame more, and at the third stage 4 and an echo request. -/
theorem onIdentity_pass {s : State} {k : Nat} {f : List Byte} (h3 : (s.link k).state = 3)
    (hv : s.judgeFrame k f = .pass) :
    ((s.onIdentity k f).link k).good = (s.link k).good + 1 ∧
      ((s.onIdentity k f).link k).state = (if (s.link k).good + 1 < 3 then 3 else 4) ∧
      (2 ≤ (s.link k).good → s.maintRoom k 3 = true → (s.onIdentity k f).out = s.out ++ [.echo k false 0 0]) ∧
      ((s.onIdentity k f).link k).neighbourSerial = BitVec.ofNat 64 (leAt f 16 8) := by
  have hself : (((s.noted k f).oneGood k).link k) =
      { (s.link k).heard s.hw.stepping.protocol f with good := (s.link k).good + 1 } := by
    rw [State.oneGood, updLink_link_self, State.noted, updLink_link_self]
    rfl
  rw [onIdentity_stage3 h3, if_pos hv]
  by_cases hgood : (s.link k).good + 1 < 3
  · rw [if_pos (by rw [hself]; exact hgood), if_pos hgood, hself]
    exact ⟨rfl, h3, fun h => absurd h (by omega), rfl⟩
  · rw [if_neg (by rw [hself]; exact hgood), if_neg hgood]
    have hroom : SameRoom s (((s.noted k f).oneGood k).opened k) :=
      (((updLink_room s k _).trans (updLink_room _ k _)).trans (updLink_room _ k _)).trans (setPort_room _ k 4)
    have hout : (((s.noted k f).oneGood k).opened k).out = s.out := setPort_out ..
    rw [(sendEcho_same _ k false 0 0).link_eq rfl, State.opened, setPort_link_self, updLink_link_self, hself]
    refine ⟨rfl, rfl, fun _ h => ?_, rfl⟩
    exact (sendEcho_request 0 0 ((hroom.maintRoom k 3).trans h)).trans (congrArg (fun l => l ++ _) hout)

theorem exec_identity {f : List Byte} (hf : f.length = 64) (k : Fin 6) (s : State) :
    exec (.identity k f) s = .next ((s.countFrame k f).onIdentity k f) := by
  show guarded (f.length == 64) _ = _
  rw [hf]
  rfl

/-- A port enters the hold that its frame asks for, with one record. -/
theorem holdPort_enters {s : State} {k : Nat} {v : Verdict} (h : (s.link k).state = 3) (f : List Byte) :
    ((s.holdPort k v f).link k).good = 0 ∧ ((s.holdPort k v f).link k).state = (if v = .version then 7 else 6) ∧
      (s.holdPort k v f).links.faultTaken = s.faultsAfter 1 := by
  have hst : ((s.updLink k fun l => { l with good := 0 }).link k).state.toNat ≠ if v = .version then 7 else 6 := by
    rw [updLink_link_self, h]
    split <;> decide
  unfold State.holdPort
  dsimp only
  rw [if_neg hst, recordFault_link, recordFault_faultTaken, setPort_link_self, updLink_link_self]
  refine ⟨rfl, ?_, ?_⟩
  · cases v <;> rfl
  · exact faultsAfter_congr (congrArg Firmware.paused (setPort_fw ..)) (setPort_faultTaken ..) 1

/-! ### Echoes (R477) -/

theorem exec_echoRequest (s : State) (k : Fin 6) (a : Long) : exec (.echoRequest k a) s = .next
    ((s.countFrame k (echoPayload false 0 0)).answerEcho k a) := rfl

theorem exec_echoReply (s : State) (k : Fin 6) (r d : Nat) : exec (.echoReply k r d) s = .next
    ((s.countFrame k (echoPayload true 0 (BitVec.ofNat 64 d))).onEcho k (r - d)) := rfl

/-- A port that answers sends the reply, with the cycle at which it leaves. -/
theorem answerEcho_answers {s : State} {k : Nat} (h : (s.link k).answers = true) (hroom : s.maintRoom k 4 = true)
    (a : Long) : ∃ leaving, (s.answerEcho k a).out = s.out ++ [.echo k true a leaving] ∧
      (s.answerEcho k a).links = s.links ∧ (s.answerEcho k a).parts = s.parts := by
  have heq : s.answerEcho k a = s.freeWord.1.sendEcho k true a (a + BitVec.ofNat 64 s.freeWord.2) := if_pos h
  have hsame := sendEcho_same s.freeWord.1 k true a (a + BitVec.ofNat 64 s.freeWord.2)
  rw [heq]
  exact ⟨_, sendEcho_reply (s := s.freeWord.1) a _ hroom, hsame.links_eq rfl, hsame.parts_eq rfl⟩

/-- One more exchange measured. -/
def State.echoed (s : State) (k trip : Nat) : State := s.updLink k fun l => { l with echoes := l.echoes ++ [trip] }

theorem echoed_link (s : State) (k trip : Nat) :
    (s.echoed k trip).link k = { s.link k with echoes := (s.link k).echoes ++ [trip] } := updLink_link_self ..

theorem onEcho_early {s : State} {k trip : Nat} (h4 : (s.link k).state = 4) (hn : (s.link k).echoes.length < 15) :
    s.onEcho k trip = (s.echoed k trip).sendEcho k false 0 0 := by
  have hlen : ((s.echoed k trip).link k).echoes.length < 16 := by
    rw [echoed_link, List.length_append]
    exact Nat.succ_lt_succ hn
  unfold State.onEcho
  rw [if_neg (not_not.mpr h4)]
  exact if_pos hlen

/-- The sixteenth exchange: the latency is set, the credits are whole, and the port is in service. -/
theorem onEcho_last {s : State} {k trip : Nat} (h4 : (s.link k).state = 4) (hn : (s.link k).echoes.length = 15) :
    s.onEcho k trip = (State.setUsed { s.echoed k trip with tb := { s.tb with
      latency := s.tb.latency.set k (BitVec.ofNat 32 (latencyOf ((s.link k).echoes ++ [trip]))) } } k
        fun _ _ => 0).setPort k 5 := by
  have hlen : ¬ ((s.echoed k trip).link k).echoes.length < 16 := by
    rw [echoed_link, List.length_append, hn]
    exact lt_irrefl 16
  unfold State.onEcho
  rw [if_neg (not_not.mpr h4)]
  refine (if_neg hlen).trans ?_
  show State.setPort (State.setUsed { s.echoed k trip with tb := { (s.echoed k trip).tb with
    latency := (s.echoed k trip).tb.latency.set k (BitVec.ofNat 32 (latencyOf ((s.echoed k trip).link k).echoes)) } } k
      fun _ _ => 0) k 5 = _
  rw [echoed_link]
  rfl

/-- An exchange before the sixteenth asks for the next. -/
theorem onEcho_asks {s : State} {k trip : Nat} (h4 : (s.link k).state = 4) (hn : (s.link k).echoes.length < 15)
    (hroom : s.maintRoom k 3 = true) : ((s.onEcho k trip).link k).echoes = (s.link k).echoes ++ [trip] ∧
      ((s.onEcho k trip).link k).state = 4 ∧ (s.onEcho k trip).out = s.out ++ [.echo k false 0 0] := by
  have hself := ((sendEcho_same (s.echoed k trip) k false 0 0).link_eq rfl k).trans (echoed_link ..)
  rw [onEcho_early h4 hn, hself]
  exact ⟨rfl, h4, sendEcho_request (s := s.echoed k trip) 0 0 hroom⟩

/-- Settles O5: light and training, identity frames both ways, and the echoes, each from the stage it belongs to. -/
theorem portsComeUp : Obligations.PortsComeUp := by
  refine ⟨fun k failed s => ⟨fun hst hok => ⟨?_, ?_⟩, fun far h => fun h0 hrise => exec_portLight_host h0 hrise k far,
    fun h h1 => exec_training_host h1 k failed, fun l h2 hl hroom => ?_, fun h2 hl => ?_, fun hlo hhi h4 => ?_,
    fun h4 hempty hroom => ?_⟩, fun k f s => ⟨fun hf h3 hv => ?_, fun hf h3 hv => ?_, fun a hans hroom => ?_,
    fun r d h4 hn hroom => ?_, fun r d h4 hn hlat => ?_⟩⟩
  · have hsame := setPort_same s k 2
    refine ⟨_, (exec_portLight s k true).trans (congrArg _ (if_pos ⟨hst.imp (congrArg BitVec.toNat)
      (congrArg BitVec.toNat), hok, rfl⟩)), ?_, fun j hj => setPort_link_other s hj 2, hsame.mem_eq rfl,
        hsame.cores_eq rfl⟩
    rw [setPort_link_self]
  · refine (exec_portLight s k false).trans (congrArg _ (if_neg ?_))
    rintro ⟨_, _, h⟩
    exact Bool.false_ne_true h
  · have hlink := fun j => (State.sendIdentity_keeps (fp := 0x200400) rfl _ k (Same.refl (s.trained k l))).link_eq rfl j
    have hself : (s.trained k l).link k = { l with frames := 0, good := 0, echoes := [], state := 3 } := by
      rw [State.trained, setPort_link_self, updLink_link_self]
    have hsame : SameRoom s (s.trained k l) := (updLink_room s k _).trans (setPort_room _ k 3)
    have hout := (sendMaint_hands (s.trained k l) k ((s.trained k l).identityFrame k) _ rfl).1 (by
      rw [identity_flits, hsame.maintRoom]
      exact hroom)
    refine ⟨_, exec_training_spared h2 hl, ?_, ?_, ?_, ?_, fun j hj => ?_, maintPacket ((s.trained k l).neighbourOf k)
      (s.trained k l).myId ((s.trained k l).identityFrame k), hout.trans ?_, rfl, ?_, ?_⟩
    · rw [hlink, hself]
    · rw [hlink, hself]
    · rw [hlink, hself]
    · rw [hlink, hself]
    · rw [hlink, State.trained, setPort_link_other _ hj, updLink_link_other _ hj]
    · rw [State.trained, setPort_out]
      rfl
    · exact length_identityFrame ..
    · exact take_identityFrame ..
  · refine ⟨_, exec_training_unspared h2 hl, ?_, ?_⟩
    · rw [recordFault_link, State.unspared, setPort_link_self]
    · rw [recordFault_faultTaken]
      exact faultsAfter_congr (congrArg Firmware.paused (setPort_fw ..)) (setPort_faultTaken ..) 1
  · have hsame := sendMaint_same s k (s.identityFrame k)
    have hands := sendMaint_hands s k (s.identityFrame k) _ rfl
    rw [identity_flits] at hands
    exact ⟨_, _, exec_identitySend_once hlo hhi h4, hsame.links_eq rfl, hsame.parts_eq rfl, hsame.mem_eq rfl, rfl, rfl,
      hands.1, hands.2⟩
  · have hsame := (sendMaint_same s k (s.identityFrame k)).trans (sendEcho_same _ k false 0 0)
    exact ⟨_, _, exec_identitySend_stage4 h4 hempty, hsame.links_eq rfl, hsame.parts_eq rfl, hsame.mem_eq rfl, rfl, rfl,
      sendIdentity_sendEcho_out hroom⟩
  · have hsame := countFrame_same s k f
    have hroom := countFrame_room s k f
    have hlink := hsame.link_eq rfl k
    have hverdict := judgeFrame_congr (hsame.links_eq rfl) hroom k f
    obtain ⟨hgood, hstate, hout, hserial⟩ := onIdentity_pass ((congrArg Link.state hlink).trans h3) (hverdict.trans hv)
    rw [hlink] at hgood hstate hout
    rw [hroom.maintRoom k 3, hsame.out.resolve_left (by decide)] at hout
    exact ⟨_, exec_identity hf k s, hgood, hstate, hout, hserial⟩
  · have hsame := countFrame_same s k f
    have hlink := hsame.link_eq rfl k
    have hverdict := judgeFrame_congr (hsame.links_eq rfl) (countFrame_room s k f) k f
    have hexec := (exec_identity hf k s).trans (congrArg _
      ((onIdentity_stage3 ((congrArg Link.state hlink).trans h3) f).trans (if_neg (hverdict ▸ hv))))
    refine ⟨_, hexec, ?_⟩
    rw [hverdict]
    refine (holdPort_enters ?_ f).imp_right fun h => h.imp_right fun h => h.trans ?_
    · rw [State.noted, updLink_link_self, hlink]
      exact h3
    · exact faultsAfter_congr (congrArg Firmware.paused (hsame.fw.resolve_left (by decide)))
        (congrArg Links.faultTaken (hsame.links_eq rfl)) 1
  · have hsame := countFrame_same s k (echoPayload false 0 0)
    obtain ⟨leaving, hout, hlinks, hparts⟩ :=
      answerEcho_answers ((congrArg Link.answers (hsame.link_eq rfl k)).trans hans)
      (((countFrame_room s k (echoPayload false 0 0)).maintRoom k 4).trans hroom) a
    rw [hsame.out.resolve_left (by decide)] at hout
    exact ⟨_, leaving, exec_echoRequest s k a, hout, hlinks.trans (hsame.links_eq rfl),
      hparts.trans (hsame.parts_eq rfl)⟩
  · have hsame := countFrame_same s k (echoPayload true 0 (BitVec.ofNat 64 d))
    have hlink := hsame.link_eq rfl k
    obtain ⟨hechoes, hstate, hout⟩ := onEcho_asks (trip := r - d) ((congrArg Link.state hlink).trans h4)
      ((congrArg (·.echoes.length) hlink).trans_lt hn)
      (((countFrame_room s k (echoPayload true 0 (BitVec.ofNat 64 d))).maintRoom k 3).trans hroom)
    rw [hlink] at hechoes
    rw [hsame.out.resolve_left (by decide)] at hout
    exact ⟨_, exec_echoReply s k r d, hechoes, hstate, hout⟩
  · have hsame := countFrame_same s k (echoPayload true 0 (BitVec.ofNat 64 d))
    have hlink := hsame.link_eq rfl k
    have hexec := (exec_echoReply s k r d).trans (congrArg _ (onEcho_last (trip := r - d)
      ((congrArg Link.state hlink).trans h4) ((congrArg (·.echoes.length) hlink).trans hn)))
    refine ⟨_, hexec, ?_, ?_⟩
    · rw [setPort_link_self]
    · rw [(setPort_same _ k 5).tb.resolve_left (by decide)]
      show (List.set _ _ _)[k.val]? = _
      rw [hlink, hsame.tb.resolve_left (by decide), List.getElem?_set_self (by have := k.isLt; omega)]

end Sys2Proof.Machine
end

section
/-! SUPPORT. What a fault has put to rest stays at rest (R29, R481, R528): reads that waited go on, collectives begin
and fail, and commits that waited settle, but none of it starts a partition, lights a dark module, or gives lines and
requests to a Yepecy port that is down. -/

namespace Sys2Proof.Machine

/-- A Yepecy port as a host link fault leaves it: in stage 1, with no line and no request. -/
structure HostPort.Dead (h : HostPort) : Prop where
  state : h.state = 0
  directory : h.directory = []
  requests : h.requests = []

/-- From z to s no partition has started, the module has stayed dark, and no dead Yepecy port has come back. -/
structure Rests (z s : State) : Prop where
  active : ∀ q, (z.part q).active = false → (s.part q).active = false
  dark : z.links.dark = true → s.links.dark = true
  dead : ∀ k, (z.hport k).Dead → (s.hport k).Dead

variable {z s t : State}

theorem Rests.refl (s : State) : Rests s s := ⟨fun _ h => h, id, fun _ h => h⟩

theorem Rests.trans (h : Rests z s) (g : Rests s t) : Rests z t :=
  ⟨fun q hq => g.active q (h.active q hq), fun hd => g.dark (h.dark hd), fun k hk => g.dead k (h.dead k hk)⟩

/-- A function that leaves partitions, links and host ports leaves what rests. -/
theorem Rests.same (h : Rests z s) {m : Nat} (w : Same m s t) (hp : m.testBit 7 = false) (hl : m.testBit 14 = false)
    (hh : m.testBit 15 = false) : Rests z t := by
  have hhost : t.host = s.host := w.host.resolve_left (by simp [hh])
  refine h.trans ⟨fun q hq => by rwa [w.part_eq hp], fun hd => by rwa [w.links_eq hl], fun k hk => ?_⟩
  unfold State.hport at hk ⊢
  rwa [hhost]

/-- States that agree in partitions, links and host ports. -/
theorem Rests.fields (h : Rests z s) (hp : t.parts = s.parts) (hl : t.links.dark = s.links.dark)
    (hh : t.host.ports = s.host.ports) :
    Rests z t := by
  refine h.trans ⟨fun q hq => ?_, fun hd => hl.trans hd, fun k hk => ?_⟩
  · unfold State.part at hq ⊢
    rwa [hp]
  · unfold State.hport at hk ⊢
    rwa [hh]

theorem Rests.ite (c : Prop) [Decidable c] (hs : Rests z s) (ht : Rests z t) : Rests z (if c then s else t) := by
  split <;> assumption

theorem Rests.foldl {α : Type} (f : State → α → State) (hf : ∀ s a, Rests z s → Rests z (f s a)) (l : List α)
    (h : Rests z s) : Rests z (l.foldl f s) :=
  foldl_keeps (P := Rests z) f hf l s h

theorem Rests.send (h : Rests z s) (o : Out) : Rests z (s.send o) := h.fields rfl rfl rfl

theorem Rests.setMem (h : Rests z s) (m : List Host.Cell) : Rests z { s with mem := m } := h.fields rfl rfl rfl

theorem Rests.updPart (h : Rests z s) (p : Nat) (f : Part → Part) (hf : ∀ q, q.active = false → (f q).active = false) :
    Rests z (s.updPart p f) := by
  refine h.trans ⟨fun q hq => ?_, id, fun _ hk => hk⟩
  rw [State.part_updPart]
  split
  · next e => exact hf _ (e ▸ hq)
  · exact hq

theorem Rests.updHport (h : Rests z s) (k : Nat) (f : HostPort → HostPort) (hf : ∀ x, x.Dead → (f x).Dead) :
    Rests z (s.updHport k f) := by
  refine h.trans ⟨fun _ hq => hq, id, fun j hj => ?_⟩
  rw [State.hport_updHport]
  split
  · next e => exact hf _ (e ▸ hj)
  · exact hj

/-- A port that is not dead may change. -/
theorem Rests.updHport_live (h : Rests z s) {k : Nat} (hlive : ¬ (s.hport k).Dead) (f : HostPort → HostPort) :
    Rests z (s.updHport k f) := by
  refine h.trans ⟨fun _ hq => hq, id, fun j hj => ?_⟩
  rw [State.hport_updHport]
  split
  · next e => exact absurd (e ▸ hj) hlive
  · exact hj

/-! ### RECALLs, interrupts and memory -/

theorem Rests.recallLine (h : Rests z s) (k line : Nat) : Rests z (s.recallLine k line) := by
  unfold State.recallLine
  dsimp only
  split
  · exact h
  · split
    · exact h.updHport _ _ fun x hx => ⟨hx.state, hx.directory, hx.requests⟩
    · next tag _ =>
      exact (h.updHport k (fun h => { h with recalled := h.recalled ++ [(line, tag.toNat)], nextTag := tag + 1 })
        fun x hx => ⟨hx.state, hx.directory, hx.requests⟩).fields rfl rfl rfl

theorem Rests.recallFor (h : Rests z s) (a n : Nat) (write : Bool) : Rests z (s.recallFor a n write) :=
  .foldl _ (fun _ k hs => .foldl _ (fun _ l ht => ht.recallLine k l) _ hs) _ h

theorem Rests.updQueue (h : Rests z s) (k q : Nat) (f : HQueue → HQueue) : Rests z (s.updQueue k q f) :=
  h.updHport k _ fun _ hx => ⟨hx.state, hx.directory, hx.requests⟩

/-- A request of the module leaves by a port that is up. -/
theorem Rests.hostRequest (h : Rests z s) {k : Nat} (hlive : ¬ (s.hport k).Dead) (isRead : Bool) (addr len : Nat)
    (payload : List Byte) (core : Option Nat) : Rests z (s.hostRequest k isRead addr len payload core) := by
  unfold State.hostRequest
  split
  · exact h
  · exact (h.updHport_live hlive _).send _

theorem Rests.sendInterrupt (h : Rests z s) (k v : Nat) : Rests z (s.sendInterrupt k v) := by
  unfold State.sendInterrupt
  dsimp only
  split
  · exact h
  · next h3 =>
    have hlive : ∀ x : HostPort, x.state = (s.hport k).state → ¬ x.Dead := fun x hx hd =>
      h3 (by rw [hx.symm.trans hd.state]; decide)
    split
    · exact h.updHport_live (hlive _ rfl) _
    · refine (h.updHport_live (hlive _ rfl) _).hostRequest ?_ ..
      rw [State.hport_updHport, if_pos rfl]
      exact hlive _ rfl

theorem Rests.raiseOn (h : Rests z s) (k v cause : Nat) : Rests z (s.raiseOn k v cause) := by
  unfold State.raiseOn
  refine .ite _ (h.updHport _ _ ?_) ((h.updHport _ _ ?_).sendInterrupt k v) <;>
    exact fun _ hx => ⟨hx.state, hx.directory, hx.requests⟩

theorem Rests.raiseCause (h : Rests z s) (p cause : Nat) : Rests z (s.raiseCause p cause) :=
  .foldl _ (fun _ k hs => .ite _ (.foldl _ (fun _ v ht => .ite _ (ht.raiseOn k v cause) ht) _ hs) hs) _ h


theorem Rests.storeRun (h : Rests z s) (a : Nat) (bs : List Byte) : Rests z (s.storeRun a bs) := by
  unfold State.storeRun
  refine Rests.same (m := 0x48) (.setMem (.foldl _ (fun _ k hs => .ite _ hs (hs.updHport k _ ?_)) _
    (h.recallFor a bs.length true)) _) (State.liftPoison_keeps rfl _ a bs.length
    (State.dropTags_keeps rfl _ a bs.length (.refl _))) rfl rfl rfl
  exact fun _ hx => ⟨hx.state, hx.directory, hx.requests⟩

theorem Rests.zeroRange (h : Rests z s) (a n : Nat) : Rests z (s.zeroRange a n) := by
  unfold State.zeroRange
  refine .setMem (.foldl _ (fun s k hs => .ite _ hs ?_) _ h) _
  refine (Rests.foldl _ (fun _ l ht => ht.recallLine k l) _ hs).updHport k _ fun x hx => ⟨hx.state, ?_, hx.requests⟩
  rw [hx.directory]
  rfl

theorem Rests.storeBytes (h : Rests z s) (ws : List (Nat × Byte)) : Rests z (s.storeBytes ws) :=
  .foldl _ (fun _ r hs => hs.storeRun r.1 r.2) _ h

theorem Rests.freeRange (h : Rests z s) (a n : Nat) : Rests z (s.freeRange a n) :=
  (h.storeRun a _).fields rfl rfl rfl

/-! ### Tallies, completion and stops -/

theorem Rests.updCore (h : Rests z s) (c : Nat) (f : Core → Core) : Rests z (s.updCore c f) := h.fields rfl rfl rfl

theorem Rests.putTally (h : Rests z s) (c t : Nat) (v : Word) : Rests z (s.putTally c t v) := by
  unfold State.putTally
  dsimp only
  split
  · exact (h.updCore c _).updPart _ _ fun _ hq => hq
  · exact h.updCore c _

theorem Rests.releaseQueues (h : Rests z s) (c t : Nat) : Rests z (s.releaseQueues c t) :=
  .foldl _ (fun _ k hs => .foldl _ (fun _ q ht => .ite _ (ht.updQueue k q _) ht) _ hs) _ h

theorem Rests.setTally (h : Rests z s) (c t : Nat) (v : Word) : Rests z (s.setTally c t v) := by
  have hput := (h.putTally c t v).releaseQueues c t
  unfold State.setTally
  dsimp only
  split
  · exact hput
  · refine .ite _ hput (.foldl _ (fun s q hs => .ite _ ?_ hs) _ hput)
    exact hs.same (State.enqueueX_keeps (fp := 0x400) rfl s _ _ _ (.refl s)) rfl rfl rfl

theorem Rests.addTally (h : Rests z s) (c t : Nat) (v : Word) : Rests z (s.addTally c t v) := h.setTally c t _

theorem Rests.writeRecord (h : Rests z s) (c kind tag : Nat) (st flags : Half) :
    Rests z (s.writeRecord c kind tag st flags) := by
  unfold State.writeRecord
  refine .ite _ (h.updCore c _) ?_
  have hstore := fun a bs f => (h.storeRun a bs).updCore c f
  dsimp only
  split
  · exact (hstore _ _ _).raiseCause _ 0
  · exact hstore _ _ _

theorem Rests.stopQueue (h : Rests z s) (c tag : Nat) (st : Half) : Rests z (s.stopQueue c tag st) := by
  unfold State.stopQueue
  dsimp only
  split
  · exact .ite _ ((h.updCore c _).raiseCause _ 1) (h.updCore c _)
  · exact h.updCore c _

theorem Rests.complete (h : Rests z s) (p c : Nat) (e : Entry) (st flags : Half) (signal : Bool) :
    Rests z (s.complete p c e st flags signal) := by
  unfold State.complete
  have hsignal := Rests.ite (signal && e.sigEnable)
    (h.addTally (e.sigCore (s.part p).layout.live.first.toNat) e.sigTally
    (BitVec.ofNat 32 e.sigIncrement)) h
  have hdone := hsignal.same (State.collDone_keeps (fp := 0x800) rfl _ e.kind (.refl _)) rfl rfl rfl
  have hrecord := Rests.ite (st ≠ stDONE ∨ e.record) (hdone.writeRecord c e.kind e.tag st flags) hdone
  exact .ite _ (hrecord.stopQueue c e.tag st) hrecord

theorem Rests.disarm (h : Rests z s) (p : Nat) : Rests z (s.disarm p) :=
  h.updPart p _ fun q hq => by rw [Part.disarm_active, hq]

theorem Rests.queuesOf (h : Rests z s) (p : Nat) (f : HQueue → HQueue) : Rests z (s.queuesOf p f) :=
  .foldl _ (fun _ k hs => .foldl _ (fun _ q ht => .ite _ (ht.updQueue k q f) ht) _ hs) _ h

theorem Rests.clearCore (h : Rests z s) (c : Nat) : Rests z (s.clearCore c) :=
  ((h.updCore c _).zeroRange _ _).zeroRange _ _

theorem Rests.setHub (h : Rests z s) (x : Coll) (f : Fabric) : Rests z { s with coll := x, fabric := f } :=
  h.fields rfl rfl rfl

theorem Rests.setTrain (h : Rests z s) (x : Train) : Rests z { s with train := x } := h.fields rfl rfl rfl

theorem Rests.discard (h : Rests z s) (p : Nat) : Rests z (s.discard p) := by
  unfold State.discard
  refine .setTrain (.foldl _ ?_ _ (.foldl _ ?_ _ ?_)) _
  · refine fun _ k hs => hs.updHport k _ fun x hx => ⟨hx.state, hx.directory, ?_⟩
    rw [hx.requests]
    rfl
  · exact fun s k hs => hs.same (State.closeSkein_keeps (fp := 0x400) rfl s k (.refl s)) rfl rfl rfl
  · refine .setHub (.foldl _ (fun _ c hs => hs.updCore c _) _ ?_) _ _
    refine .same (m := 0x800) ?_ (State.freeLedger_keeps rfl _ p (.refl _)) rfl rfl rfl
    exact .foldl _ (fun _ x hs => hs.freeRange x.1 x.2) _ h

theorem Rests.stopPart (h : Rests z s) (p : Nat) (cause : Half) (keep : Bool) : Rests z (s.stopPart p cause keep) := by
  refine .ite _ h (.raiseCause (.updPart
    (.queuesOf (.same (m := 0x100) (.ite _ (.foldl _ (fun _ c hs => hs.clearCore c) _
    (h.discard p)) (h.discard p)) (State.emptyContexts_keeps rfl _ p (.refl _)) rfl rfl rfl) p _) p _ ?_) p 2)
  exact fun q _ => Part.stop_active ..

theorem Rests.writeFault (h : Rests z s) (f : HeldFault) : Rests z (s.writeFault f) :=
  .foldl _ (fun _ p hs => hs.raiseCause p 5) _ (h.fields rfl rfl rfl)

theorem Rests.recordFault (h : Rests z s) (st : Half) (cls kind unit : Nat) (stopped : List Nat) (d0 d1 : Nat) :
    Rests z (s.recordFault st cls kind unit stopped d0 d1) := by
  unfold State.recordFault
  have hcount := Rests.ite (cls = 8) (t := s) (h.fields (t := { s with links := { s.links with
    moduleFaults := s.links.moduleFaults + 1 } }) rfl rfl rfl) h
  exact .ite _ (hcount.writeFault _) (.ite _ (hcount.fields rfl rfl rfl) hcount)

theorem Rests.fault (h : Rests z s) (st : Half) (cls kind unit : Nat) (parts : List Nat) (d0 d1 : Nat) :
    Rests z (s.fault st cls kind unit parts d0 d1) :=
  .recordFault (.foldl _ (fun _ p hs => .ite _ (hs.stopPart p st false) (hs.disarm p)) _ h) ..

theorem Rests.failCommand (h : Rests z s) (p c : Nat) (e : Entry) (st flags : Half) (cls kind unit d0 : Nat) :
    Rests z (s.failCommand p c e st flags cls kind unit d0) :=
  (h.complete p c e st flags false).fault ..

/-! ### Collectives that waited for lines (R505) -/

/-- A function of the hub alone. -/
theorem Rests.coll (h : Rests z s) (w : Same 0x800 s t) : Rests z t := h.same w rfl rfl rfl

theorem Rests.setRun (h : Rests z s) (i : Nat) (r : CollRun) : Rests z (s.setRun i r) :=
  h.coll (State.setRun_keeps rfl s i r (.refl s))

theorem Rests.dropEvent (h : Rests z s) (i : Nat) (r : CollRun) (st : Half) (pos elem : Nat) :
    Rests z ((s.dropRun i).collEvent r st pos elem) :=
  h.coll (State.collEvent_keeps rfl _ r st pos elem (State.dropRun_keeps rfl s i (.refl s)))

theorem Rests.failSource (h : Rests z s) (i : Nat) (r : CollRun) (bad : Nat) : Rests z (s.failSource i r bad) := by
  unfold State.failSource State.failRead
  exact (h.dropEvent i r stECC r.pos 0).failCommand ..

theorem Rests.failRun (h : Rests z s) (i : Nat) (r : CollRun) (st : Half) (cls kind unit : Nat) :
    Rests z (s.failRun i r st cls kind unit) :=
  (h.dropEvent i r st r.pos 0).failCommand ..

theorem Rests.updNorms (h : Rests z s) (p : Nat) (f : List NormWait → List NormWait) : Rests z (s.updNorms p f) :=
  h.updPart p _ fun _ hq => hq

theorem Rests.writeCount (h : Rests z s) (d : Desc) (lo : Nat) (bs : List Byte) : Rests z (s.writeCount d lo bs) := by
  unfold State.writeCount
  exact .ite _ h (h.storeBytes _)

theorem Rests.writeRun (h : Rests z s) (r : CollRun) (d : Desc) (lo : Nat) (bs : List Byte) :
    Rests z (s.writeRun r d lo bs).1 := by
  unfold State.writeRun
  dsimp only
  split
  · exact h.same (State.noteStale_keeps (fp := 0x40000) rfl s _ (.refl s)) rfl rfl rfl
  · exact h.writeCount d lo bs

theorem Rests.gatherOwn (h : Rests z s) (i : Nat) (r : CollRun) (rd : Reader) : Rests z (s.gatherOwn i r rd) := by
  unfold State.gatherOwn
  dsimp only
  split
  · exact (h.writeRun ..).setRun ..
  · exact h.setRun i r

theorem Rests.finalise (h : Rests z s) (i : Nat) (r : CollRun) (g : Seg) (ps : List Pair) :
    Rests z (s.finalise i r g ps) := by
  unfold State.finalise
  dsimp only
  split
  · exact h.setRun i r
  · have hput := fun l (t : State) (ht : Rests z t) => ht.coll (State.putLedger_keeps rfl t l (.refl t))
    refine .ite _ ((h.writeRun ..).setRun ..) (.ite _ (hput _ _ ((h.writeRun ..).setRun ..))
      ((hput _ _ ((h.writeRun ..).setRun ..)).updNorms _ _))

theorem Rests.lineFinal (h : Rests z s) (i : Nat) (r : CollRun) : Rests z (s.lineFinal i r) :=
  .ite _ (h.setRun i r) (h.finalise ..)

theorem Rests.setColl (h : Rests z s) (x : Coll) : Rests z { s with coll := x } := h.fields rfl rfl rfl

theorem Rests.beginRun (h : Rests z s) (i : Nat) (r : CollRun) (included late : Bool) (flits : Nat) (ecc : Ecc) :
    Rests z (s.beginRun i r included late flits ecc) := by
  unfold State.beginRun
  dsimp only
  generalize hu : s.accessErrors _ _ ecc = u
  have hread : Rests z u.1 := hu ▸ h.same (State.accessErrors_keeps (fp := 0x8) rfl s _ _ ecc (.refl s)) rfl rfl rfl
  split
  · exact hread.failSource ..
  · have hcount := fun x => hread.setColl x
    refine .ite _ (.gatherOwn ?_ ..) (.ite _ (.setRun ?_ ..) (.lineFinal ?_ ..)) <;>
      refine .updNorms (.ite _ (.updPart (.ite _ (.updPart (hcount _) _ _ ?_) (hcount _)) _ _ ?_)
        (.ite _ (.updPart (hcount _) _ _ ?_) (hcount _))) _ _ <;>
      exact fun _ hq => hq

theorem Rests.startRun (h : Rests z s) (i : Nat) (r : CollRun) (included late : Bool) (ecc : Ecc) :
    Rests z (s.startRun i r included late ecc) :=
  .ite _ ((Rests.foldl _ (fun _ x hs => hs.recallFor x.1 x.2 false) _ h).setRun ..) (h.beginRun ..)

theorem Rests.takeSeg (h : Rests z s) (i : Nat) (r : CollRun) (dir phase : Nat) (g : Seg) :
    Rests z (s.takeSeg i r dir phase g) := by
  unfold State.takeSeg
  refine .ite _ ?_ (.ite _ (h.setRun ..) (.ite _ (h.finalise ..) (h.lineFinal ..)))
  split
  · exact h.setRun i r
  · exact (h.writeRun ..).setRun ..

theorem Rests.drainStream (h : Rests z s) (i k fuel : Nat) : Rests z (s.drainStream i k fuel) := by
  induction fuel generalizing s with
  | zero => exact h
  | succ fuel ih =>
    unfold State.drainStream
    split
    · exact h
    · split
      · exact h
      · split
        · exact h
        · exact .ite _ h (.ite _ (.ite _ (h.failRun ..) (h.setRun ..)) (.ite _ h (ih (h.takeSeg ..))))

theorem Rests.workRun (h : Rests z s) (i : Nat) : Rests z (s.workRun i) := by
  unfold State.workRun
  split
  · exact h
  · have hdrain := fun r n => Rests.foldl
        (fun s k => if s.stillRun i r && !s.wrongRun i then s.drainStream i k n else s)
      (fun _ k hs => .ite _ (hs.drainStream i k n) hs) (List.range 4) h
    refine .ite _ h (.ite _ (.same (m := 0x200C00) (hdrain _ _) (State.sendRun_keeps rfl _ i (.refl _)) rfl rfl rfl)
      (hdrain _ _))

theorem Rests.resumeRuns (h : Rests z s) : Rests z s.resumeRuns := by
  refine .foldl _ (fun s i hs => ?_) _ h
  split
  · split
    · exact (hs.startRun ..).workRun i
    · exact hs
  · exact hs

theorem Rests.takeManifest (h : Rests z s) (p : Nat) (base : Long) : Rests z (s.takeManifest p base) := by
  unfold State.takeManifest
  refine h.updPart p _ fun q hq => ?_
  split <;> exact hq

theorem Rests.awaitManifest (h : Rests z s) (p : Nat) (base : Long) : Rests z (s.awaitManifest p base) := by
  unfold State.awaitManifest
  split
  · exact (h.recallFor ..).updPart p _ fun _ hq => hq
  · exact h.takeManifest p base

theorem Rests.resumeReads (h : Rests z s) : Rests z s.resumeReads := by
  refine .resumeRuns (.foldl _ (fun s p hs => ?_) _ h)
  split
  · exact hs.awaitManifest ..
  · exact hs

/-! ### Aperture commits and the ports themselves (R507, R528) -/

theorem Rests.updMgmt (h : Rests z s) (f : Mgmt → Mgmt) : Rests z (s.updMgmt f) := h.fields rfl rfl rfl

theorem Rests.sendFrame (h : Rests z t) (u : State) (d : Dgram) (frame : List Byte) :
    Rests z (t.sendFrame u d frame) := by
  unfold State.sendFrame
  dsimp only
  split <;> exact h.fields rfl rfl rfl

theorem Rests.deliverAnswer (h : Rests z t) (u : State) (path : Path) (op : Nat) (r : AReq) (x : Reply) :
    Rests z (t.deliverAnswer u path op r x) := by
  unfold State.deliverAnswer
  dsimp only
  split
  · exact (h.updMgmt _).sendFrame ..
  · refine .ite _ ((h.updMgmt _).updHport _ _ ?_) (h.updMgmt _)
    exact fun _ hx => ⟨hx.state, hx.directory, hx.requests⟩

theorem Rests.settleAperture (h : Rests z s) (p : Nat) : Rests z (s.settleAperture p) := by
  unfold State.settleAperture
  split
  · exact h
  · refine .ite _ h (.foldl _ (fun _ w hs => hs.deliverAnswer _ _ _ _ _) _ ((h.updPart p _ ?_).updMgmt _))
    exact fun _ hq => hq

theorem Rests.settleApertures (h : Rests z s) : Rests z s.settleApertures :=
  .foldl _ (fun _ p hs => hs.settleAperture p) _ h

theorem HostPort.down_dead (h : HostPort) : h.down.Dead := ⟨rfl, rfl, rfl⟩

theorem Rests.hostDown (h : Rests z s) (k : Nat) : Rests z (s.hostDown k) :=
  (h.updMgmt _).updHport k _ fun x _ => x.down_dead

theorem Rests.hostFault (h : Rests z s) (k : Nat) : Rests z (s.hostFault k) :=
  (((h.fault ..).hostDown k).settleApertures).resumeReads

theorem hostDown_dead (s : State) (k : Nat) : ((s.hostDown k).hport k).Dead := by
  rw [State.hostDown, State.hport_updHport, if_pos rfl]
  exact HostPort.down_dead _

theorem hostDown_part (s : State) (k p : Nat) : (s.hostDown k).part p = s.part p := rfl

/-- What a host link fault puts to rest stays there. -/
theorem hostFault_rests (s : State) (k : Nat) :
    Rests ((s.fault stHOST_LOST 11 8 k ((List.range 16).filter fun p => s.boundTo p k) 0 0).hostDown k)
      (s.hostFault k) := by
  unfold State.hostFault
  exact ((Rests.refl _).settleApertures).resumeReads

/-- A host link fault leaves its port dead and the partitions bound to it stopped. -/
theorem hostFault_effect (s : State) (k : Nat) : ((s.hostFault k).hport k).Dead ∧
    ∀ p < 16, s.boundTo p k = true → ((s.hostFault k).part p).active = false := by
  refine ⟨(hostFault_rests s k).dead k (hostDown_dead _ k), fun p hp hb => (hostFault_rests s k).active p ?_⟩
  rw [hostDown_part, fault_active]
  exact if_pos (List.mem_filter.2 ⟨List.mem_range.2 hp, hb⟩)

end Sys2Proof.Machine
end

section
/-! SUPPORT. Ports that leave service, loss of lock, parity errors and the wear programme (O6 to O8). -/

namespace Sys2Proof.Machine

/-! ### A port lost, and one that starts again (R472, R478, R481, R490) -/

theorem losePort_link_self (s : State) (k d0 : Nat) (h : (s.link k).state ≠ 0) :
    (s.losePort k d0).link k = { s.link k with state := 8 } := by
  rw [losePort_link, if_pos ⟨rfl, h⟩]

/-- A port of which the record changes, lost if it was in service. -/
theorem updLink_losePort {s : State} {k d0 : Nat} {f : Link → Link} (hf : (f (s.link k)).state = (s.link k).state)
    (h5 : (s.link k).state = 5) :
    ((s.updLink k f).losePort k d0).link k = { f (s.link k) with state := 8 } := by
  have hself := updLink_link_self s k f
  rw [losePort_link_self _ k d0 (by rw [hself, hf, h5]; decide), hself]

theorem exec_stageTimeout_fails {s : State} {k : Fin 6} (h2 : 2 ≤ (s.link k).state.toNat)
    (hle : (s.link k).state.toNat ≤ 4) (h4 : (s.link k).state = 4 → (s.link k).echoes ≠ []) (lost : Nat) :
    exec (.stageTimeout k lost) s = .next ((s.updLink k fun l => { l with
      uncorrectable := if lost = 0 then l.uncorrectable else l.uncorrectable + 1 }).setPort k 1) :=
  congrArg Host.Outcome.next (if_pos ⟨h2, hle, fun h => h4 (BitVec.eq_of_toNat_eq h)⟩)

theorem exec_stageTimeout_waits {s : State} {k : Fin 6} (h4 : (s.link k).state = 4) (hnone : (s.link k).echoes = [])
    (lost : Nat) : exec (.stageTimeout k lost) s = .next s :=
  congrArg Host.Outcome.next (if_neg fun h => h.2.2 (congrArg BitVec.toNat h4) hnone)

theorem exec_codeword (s : State) (k : Fin 6) (strand : Byte) : exec (.codewordUncorrectable k strand) s = .next
    (if (s.link k).state = 5 then
      (s.updLink k fun l => { l with uncorrectable := l.uncorrectable + 1 }).losePort k strand.toNat
    else s.updLink k fun l => { l with uncorrectable := l.uncorrectable + 1 }) := rfl

theorem exec_lightLoss (s : State) (k : Fin 6) (strand : Byte) : exec (.lightLoss k strand) s = .next
    (if (s.link k).state = 5 then
      (s.updLink k fun l => { l with marked := insertNat l.marked strand.toNat }).losePort k strand.toNat
    else if 2 ≤ (s.link k).state.toNat ∧ (s.link k).state.toNat ≤ 7 then
      (s.updLink k fun l => { l with marked := insertNat l.marked strand.toNat }).setPort k 1
    else s.updLink k fun l => { l with marked := insertNat l.marked strand.toNat }) :=
  congrArg Host.Outcome.next (if_congr ⟨fun h => BitVec.eq_of_toNat_eq h, congrArg BitVec.toNat⟩ rfl rfl)

theorem exec_retrain (s : State) (k : Fin 6) : exec (.retrain k) s = .next (s.retrain k).1 := rfl

/-- A retrain that nothing forbids. -/
theorem retrain_starts {s : State} {k : Nat} (hparts : s.portParts k = []) (h0 : (s.link k).state ≠ 0)
    (hfar : (s.link k).state = 5 → (s.link k).farSlices = []) : (s.retrain k).1 = s.setPort k 1 := by
  unfold State.retrain
  rw [if_neg, if_neg h0]
  rw [hparts]
  intro h
  obtain ⟨h5, hne⟩ : ((s.link k).state == 5) = true ∧ (!(s.link k).farSlices.isEmpty) = true :=
    Bool.and_eq_true_iff.1 h
  rw [hfar (beq_iff_eq.1 h5)] at hne
  exact Bool.false_ne_true hne

/-- A retrain that a slice of one end forbids. -/
theorem retrain_refused {s : State} {k : Nat}
    (h : s.portParts k ≠ [] ∨ ((s.link k).state = 5 ∧ (s.link k).farSlices ≠ [])) : (s.retrain k).1 = s := by
  unfold State.retrain
  rw [if_pos]
  refine Bool.or_eq_true_iff.2 (h.imp (fun h => ?_) fun ⟨h5, hne⟩ => Bool.and_eq_true_iff.2 ⟨beq_iff_eq.2 h5, ?_⟩)
  · cases hparts : s.portParts k with
    | nil => exact absurd hparts h
    | cons p ps => rfl
  · cases hfar : (s.link k).farSlices with
    | nil => exact absurd hfar hne
    | cons p ps => rfl

/-- Settles O6: each fault of a port by the stage it meets. -/
theorem portFaultsLeaveService : Obligations.PortFaultsLeaveService := by
  refine fun k s => ⟨fun lost h2 hle h4 => ⟨_, exec_stageTimeout_fails h2 hle h4 lost, ?_, ?_⟩,
    fun lost h4 hnone => exec_stageTimeout_waits h4 hnone lost, fun strand => ⟨_, exec_codeword s k strand, ?_⟩,
    fun strand => ⟨_, exec_lightLoss s k strand, ?_⟩, fun hparts h0 hfar => ⟨s.setPort k 1, ?_, ?_, fun j hj =>
      setPort_link_other s hj 1⟩, fun h => ?_⟩
  · rw [setPort_link_self]
  · rw [setPort_link_self, updLink_link_self]
    show (if lost = 0 then _ else _) = _
    split
    · exact (BitVec.add_zero _).symm
    · rfl
  · split
    · next h5 => rw [updLink_losePort rfl h5]; exact ⟨rfl, rfl⟩
    · rw [updLink_link_self]; exact ⟨rfl, rfl⟩
  · by_cases h5 : (s.link k).state = 5
    · rw [if_pos h5, if_pos h5, updLink_losePort rfl h5]
      exact ⟨rfl, rfl⟩
    · rw [if_neg h5, if_neg h5]
      split
      · rw [setPort_link_self, updLink_link_self]; exact ⟨rfl, rfl⟩
      · rw [updLink_link_self]; exact ⟨rfl, rfl⟩
  · rw [exec_retrain, retrain_starts hparts h0 hfar]
  · rw [setPort_link_self]
  · rw [exec_retrain, retrain_refused h]

/-! ### Loss of lock and parity (R25, R29, R194, R481) -/

theorem freeLedger_coll (s : State) (p : Nat) : ∃ l, (s.freeLedger p).coll = { s.coll with ledger := l } := ⟨_, rfl⟩

/-- What the discard of a partition's work leaves of the hub. -/
theorem discard_coll (s : State) (p : Nat) :
    ∃ l, (s.discard p).coll = { s.coll with runs := s.coll.runs.filter (·.part != p), ledger := l } := by
  unfold State.discard
  dsimp only
  generalize (s.coresOf p).flatMap (s.openExtents p) ++ _ ++ _ = exts
  have hfree : (exts.foldl (fun s x => s.freeRange x.1 x.2) s).coll = s.coll :=
    (kept_foldl (m := 0x20804C) (fun s (x : Nat × Nat) => s.freeRange x.1 x.2) exts s
      (fun s x h => State.freeRange_keeps rfl s x.1 x.2 h) (Same.refl s)).coll.resolve_left (by decide)
  obtain ⟨l, hl⟩ := freeLedger_coll (exts.foldl (fun s x => s.freeRange x.1 x.2) s) p
  have hcores : ((s.coresOf p).foldl (fun s c => s.updCore c Core.stopped)
      ((exts.foldl (fun s x => s.freeRange x.1 x.2) s).freeLedger p)).coll = { s.coll with ledger := l } := by
    rw [← hfree, ← hl]
    refine foldl_same State.coll _ ?_ _ _
    exact fun _ _ => rfl
  generalize List.foldl (fun (s : State) c => s.updCore c Core.stopped) _ _ = u at hcores ⊢
  refine ⟨l, Eq.trans (foldl_same State.coll _ ?_ _ _) ((foldl_same State.coll _ (fun t k =>
    (State.closeSkein_keeps (fp := 0x400) rfl t k (.refl t)).coll.resolve_left (by decide)) _ _).trans ?_)⟩
  · exact fun _ _ => rfl
  show { u.coll with runs := u.coll.runs.filter (·.part != p) } = _
  rw [hcores]

/-- What a stop leaves of the hub: the runs of the other partitions, and ledger entries. -/
theorem stopPart_coll (s : State) (p : Nat) (cause : Half) (keep : Bool) : ∃ l, (s.stopPart p cause keep).coll =
    { s.coll with
      runs := if (s.part p).active = true then s.coll.runs.filter (·.part != p) else s.coll.runs, ledger := l } := by
  unfold State.stopPart
  cases (s.part p).active with
  | false => exact ⟨s.coll.ledger, rfl⟩
  | true =>
    obtain ⟨l, hl⟩ := discard_coll s p
    refine ⟨l, Eq.trans (Or.resolve_left (Same.coll (m := 0x2081C4) ?_) (by decide)) hl⟩
    refine State.raiseCause_keeps rfl _ _ _ (State.updPart_keeps rfl _ _ _ (State.queuesOf_keeps rfl _ _ _
      (State.emptyContexts_keeps rfl _ _ (kept_ite _ _ _ (kept_foldl _ _ _ (fun s c h =>
        State.clearCore_keeps rfl s c h) (Same.refl _)) (Same.refl _)))))

/-- A fault leaves of the hub everything but runs and ledger. -/
theorem fault_coll (s : State) (st : Half) (cls kind unit : Nat) (parts : List Nat) (d0 d1 : Nat) :
    ∃ r l, (s.fault st cls kind unit parts d0 d1).coll = { s.coll with runs := r, ledger := l } := by
  have hfold := foldl_keeps (P := fun t : State => ∃ r l, t.coll = { s.coll with runs := r, ledger := l })
    (fun s p => if (s.part p).active then s.stopPart p st false else s.disarm p) (fun t p h => by
      obtain ⟨r, l, h⟩ := h
      split
      · obtain ⟨g, hg⟩ := stopPart_coll t p st false
        exact ⟨_, _, hg.trans (by rw [h])⟩
      · exact ⟨r, l, h⟩) parts s ⟨_, _, rfl⟩
  obtain ⟨r, l, h⟩ := hfold
  refine ⟨r, l, Eq.trans ?_ h⟩
  exact (State.recordFault_keeps (fp := 0x20C000) rfl _ _ _ _ _ _ _ _ (Same.refl _)).coll.resolve_left (by decide)

/-- A fault leaves the count of core faults. -/
theorem fault_coreFaults (s : State) (st : Half) (cls kind unit : Nat) (parts : List Nat) (d0 d1 c : Nat) :
    ((s.fault st cls kind unit parts d0 d1).core c).coreFaults = (s.core c).coreFaults := by
  refine (congrArg Core.coreFaults ((State.recordFault_keeps (fp := 0x20C000) rfl _ _ _ _ _ _ _ _
    (Same.refl _)).core_eq rfl c)).trans ?_
  refine foldl_same (fun s : State => (s.core c).coreFaults) _ (fun s p => ?_) parts s
  split
  · obtain ⟨g, hg⟩ := stopPart_core s p st false c
    rw [hg]
    split <;> rfl
  · rfl

/-- Host ports that leave service after a module fault undo nothing of it. -/
theorem closing_rests (s : State) (ks : List Nat) :
    Rests s ([0, 1].foldl State.hostDown (ks.foldl State.hostFault s)) :=
  .foldl _ (fun _ k h => h.hostDown k) _ (.foldl _ (fun _ k h => h.hostFault k) _ (.refl s))

/-- A module fault over host ports in service: every partition stopped, the module dark. -/
theorem closeYepecy_effect (s : State) (unit : Nat) :
    (∀ p < 16, ((s.closeYepecy unit).part p).active = false) ∧ (s.closeYepecy unit).links.dark = true := by
  have hmodule := fun t => moduleFault_effect t stUNIT_FAULT 7 unit
  unfold State.closeYepecy
  refine ⟨fun p hp => (closing_rests _ _).active p ((hmodule _).1 p hp), (closing_rests _ _).dark ?_⟩
  obtain ⟨_, _, _, hlinks⟩ := (hmodule _).2.2
  rw [hlinks]

/-- The state in which a domain has just lost its lock. -/
def State.unlocked (s : State) (d : Nat) : State := { s with locked := s.locked &&& ~~~((1 : BitVec 40) <<< d) }

theorem exec_domainLockLoss {s : State} {d : Fin 40} (h : s.locked.toNat.testBit d = true) :
    exec (.domainLockLoss d) s = .next (if d.val < 16 then
        (s.unlocked d).fault stUNIT_FAULT 7 7 d ((s.unlocked d).partsOnDie (d % 8)) 0 0
      else if 28 ≤ d.val ∧ d.val < 34 then (s.unlocked d).losePort (d - 28) 0
      else if d.val = 39 then
        let t := (s.unlocked d).recordFault stDONE 9 7 d [] 0 0
        { t with links := { t.links with mgmtLost := true } }
      else if (s.unlocked d).yepecyOpen then (s.unlocked d).moduleFault stUNIT_FAULT 7 d
      else (s.unlocked d).closeYepecy d) :=
  congrArg Host.Outcome.next (if_neg (by rw [h]; exact Bool.false_ne_true))

/-- The Momond domain's loss: recorded, and management has ended. -/
def State.mgmtEnded (s : State) (d : Nat) : State :=
  let t := s.recordFault stDONE 9 7 d [] 0 0
  { t with links := { t.links with mgmtLost := true } }

theorem mgmtEnded_part (s : State) (d p : Nat) : (s.mgmtEnded d).part p = s.part p :=
  (State.recordFault_keeps (fp := 0x20C000) rfl s stDONE 9 7 d [] 0 0 (Same.refl s)).part_eq rfl p

theorem mgmtEnded_locked (s : State) (d : Nat) : (s.mgmtEnded d).locked = s.locked :=
  (State.recordFault_keeps (fp := 0x20C000) rfl s stDONE 9 7 d [] 0 0 (Same.refl s)).locked.resolve_left (by decide)

/-- The state of a port lost. -/
theorem losePort_state (s : State) (k d0 : Nat) :
    ((s.losePort k d0).link k).state = if (s.link k).state = 0 then 0 else 8 := by
  rw [losePort_link]
  by_cases h0 : (s.link k).state = 0
  · rw [if_neg fun h => h.2 h0, if_pos h0, h0]
  · rw [if_pos ⟨rfl, h0⟩, if_neg h0]

/-- A parity error of a bank: what it does is a fault of the bank's core, after a completion of its reader or none. -/
theorem exec_parityError_bank (s : State) (c reader : Fin 512) (e : Engine) :
    ∃ u : State, exec (.parityError (.accumulator c reader e)) s = .next (u.fault stECC 7 1 c (s.partOf c).toList 0 0) ∧
      ((u.core c).coreFaults = ((s.coreFault c).core c).coreFaults) := by
  show ∃ u : State, execParityError (.accumulator c reader e) s = _ ∧ _
  unfold execParityError
  dsimp only
  split
  · exact ⟨_, rfl, complete_keeps_core Core.coreFaults _ _ _ _ _ _ _ _ fun _ _ _ _ _ _ _ => rfl⟩
  · exact ⟨_, rfl, rfl⟩

theorem coreFault_counts (s : State) (c : Nat) :
    ((s.coreFault c).core c).coreFaults = (s.core c).coreFaults + 1 := by
  unfold State.coreFault
  rw [State.core_updCore, if_pos rfl]

/-- A fault of a core stops the partition that has it, and leaves its count. -/
theorem coreFault_effect {s u : State} {c p : Nat} (hp : s.partOf c = some p)
    (hu : (u.core c).coreFaults = ((s.coreFault c).core c).coreFaults) (st : Half) :
    ((u.fault st 7 1 c (s.partOf c).toList 0 0).part p).active = false ∧
      ((u.fault st 7 1 c (s.partOf c).toList 0 0).core c).coreFaults = (s.core c).coreFaults + 1 := by
  rw [fault_active, fault_coreFaults, hu, coreFault_counts, hp]
  exact ⟨if_pos (List.mem_singleton.2 rfl), rfl⟩

/-- Settles O7: the domain's class decides what its loss stops, and the unit what a parity error stops and marks. -/
theorem lockLossAndParity : Obligations.LockLossAndParity := by
  refine fun s => ⟨fun d h => ⟨_, exec_domainLockLoss h, ?_⟩, fun c p hp => ⟨fun reader e => ?_,
    ⟨_, rfl, coreFault_effect hp rfl stUNIT_FAULT⟩⟩, fun u => ⟨_, rfl, ?_, fun p hp => ?_⟩, fun h => ⟨_, rfl, ?_⟩⟩
  · by_cases h16 : d.val < 16
    · rw [if_pos h16]
      refine ⟨(State.fault_keeps (fp := 0x24CDCC) rfl (s.unlocked d) _ _ _ _ _ _ _ (Same.refl _)).locked.resolve_left
        (by decide), fun _ p hp => (fault_active ..).trans (if_pos hp), ?_, ?_, ?_⟩ <;> omega
    rw [if_neg h16]
    by_cases hport : 28 ≤ d.val ∧ d.val < 34
    · rw [if_pos hport]
      refine ⟨(State.losePort_keeps (fp := 0x2CEDCC) rfl (s.unlocked d) _ _ (Same.refl _)).locked.resolve_left
        (by decide), fun h => absurd h h16, fun _ _ => losePort_state .., ?_, ?_⟩ <;> omega
    rw [if_neg hport]
    by_cases h39 : d.val = 39
    · rw [if_pos h39]
      exact ⟨mgmtEnded_locked (s.unlocked d) d, fun h => absurd h h16, fun h h' => absurd ⟨h, h'⟩ hport,
        fun _ => ⟨rfl, fun p => congrArg Part.active (mgmtEnded_part (s.unlocked d) d p)⟩, fun _ _ h => absurd h39 h⟩
    rw [if_neg h39]
    by_cases hopen : (s.unlocked d).yepecyOpen = true
    · rw [if_pos hopen]
      obtain ⟨hparts, _, _, _, _, hlinks⟩ := moduleFault_effect (s.unlocked d) stUNIT_FAULT 7 d
      exact ⟨(State.moduleFault_keeps (fp := 0x2CEDCC) rfl (s.unlocked d) _ _ _ (Same.refl _)).locked.resolve_left
        (by decide), fun h => absurd h h16, fun h h' => absurd ⟨h, h'⟩ hport, fun h => absurd h h39,
        fun _ _ _ => ⟨hparts, congrArg Links.dark hlinks⟩⟩
    · rw [if_neg hopen]
      exact ⟨(State.closeYepecy_keeps (fp := 0x2DEDCC) rfl (s.unlocked d) _ (Same.refl _)).locked.resolve_left
        (by decide), fun h => absurd h h16, fun h h' => absurd ⟨h, h'⟩ hport, fun h => absurd h h39,
        fun _ _ _ => closeYepecy_effect (s.unlocked d) d⟩
  · obtain ⟨u, hexec, hu⟩ := exec_parityError_bank s c reader e
    exact ⟨_, hexec, coreFault_effect hp hu stECC⟩
  · obtain ⟨r, l, hcoll⟩ := fault_coll _ stUNIT_FAULT 4 5 u (s.partsOnUnit u) 0 0
    exact (congrArg Coll.markedUnits hcoll).trans rfl
  · exact (fault_active ..).trans (if_pos hp)
  · obtain ⟨hparts, _, _, _, _, hlinks⟩ := moduleFault_effect s stUNIT_FAULT 6 h
    exact ⟨hparts, by rw [hlinks]⟩

/-! ### The wear programme (R21, R39, R103, R104, R112, R311, R487 to R489) -/

/-- A scrub of a line that a core of this module has. -/
theorem exec_cellarScrub {s : State} {line : BitVec 26} (h : cellarCore (cellarBase + 256 * line.toNat) < s.coreCount)
    (found : Scrub) : exec (.cellarScrub line found) s = .next (match found with
      | .clean => s
      | .corrected => s.cellarCorrect (cellarBase + 256 * line.toNat)
      | .uncorrectable => (s.cellarFail (cellarBase + 256 * line.toNat)).recordFault stECC 1 1
          (cellarCore (cellarBase + 256 * line.toNat)) [] (cellarBase + 256 * line.toNat) 0) :=
  congrArg Host.Outcome.next (if_neg (not_le.2 h))

theorem cellarCorrect_memStat (s : State) (a : Nat) :
    (s.cellarCorrect a).memStat.eccCorrected = s.memStat.eccCorrected + 1 ∧
      (s.cellarCorrect a).memStat.poison = s.memStat.poison := by
  unfold State.cellarCorrect
  dsimp only
  split <;> exact ⟨rfl, rfl⟩

theorem lineOf_cellar (n : Nat) : lineOf (cellarBase + 256 * n) = n := by
  unfold lineOf
  omega

theorem exec_cellarLineSpare {s : State} {line : BitVec 26} (h : line.toNat ∈ s.memStat.linesPending)
    (hidle : s.shelfIdle (line.toNat / 131072 / 8) = true) (hfree : s.sparesOf (bankOf line.toNat) ≠ 0) :
    exec (.cellarLineSpare line) s = .next { s with memStat := { s.memStat with
      linesPending := s.memStat.linesPending.filter (· != line.toNat),
      lineErrors := Sparse.del s.memStat.lineErrors line.toNat,
      spareLines := Sparse.set 32 s.memStat.spareLines (bankOf line.toNat) (s.sparesOf (bankOf line.toNat) - 1) } } :=
  congrArg Host.Outcome.next (if_pos ⟨List.contains_iff_mem.2 h, hidle, hfree⟩)

theorem not_mem_filter_ne (l : List Nat) (n : Nat) : n ∉ l.filter (· != n) := fun h => by
  have := (List.mem_filter.1 h).2
  simp at this

theorem exec_hbmRowRepair {s : State} {row : Nat} (h : row ∈ s.memStat.repairsPending)
    (hidle : ∀ p < 16, (s.part p).active = false) (hfree : s.memStat.repairsFree.getD (row % 384 % 12) 0 ≠ 0) :
    exec (.hbmRowRepair row) s = .next { s with memStat := { s.memStat with
      repairsFree := s.memStat.repairsFree.set (row % 384 % 12) (s.memStat.repairsFree.getD (row % 384 % 12) 0 - 1),
      repairsPending := s.memStat.repairsPending.filter (· != row),
      rowErrors := Sparse.del s.memStat.rowErrors row } } := by
  refine congrArg Host.Outcome.next (if_pos ⟨List.contains_iff_mem.2 h, ?_, hfree⟩)
  rw [Bool.not_eq_true', List.any_eq_false]
  exact fun p hp => by rw [hidle p (List.mem_range.1 hp)]; exact Bool.false_ne_true

/-- A repair takes one of the free rows of its channel. -/
theorem getD_set_self {l : List Nat} {k : Nat} (h : l.getD k 0 ≠ 0) (n : Nat) : (l.set k n).getD k 0 = n := by
  have hk : k < l.length := by
    by_contra hge
    exact h (List.getD_eq_default _ _ (not_lt.1 hge))
  rw [List.getD_eq_getElem?_getD, List.getElem?_set_self hk]
  rfl

/-- The memory of core c cleared, and its state as after reset. -/
def State.spareTaken (s : State) (c : Nat) : State :=
  (((s.zeroRange (cellarBase + c * 2 ^ 25) (2 ^ 25)).zeroRange (privAddr c 0) 0x650000).setCore c
    Core.reset).releaseCore c

theorem spareTaken_same (s : State) (c : Nat) : Same 0x208044 s (s.spareTaken c) :=
  State.releaseCore_keeps rfl _ c (State.setCore_keeps rfl _ c _ (State.zeroRange_keeps rfl _ _ _
    (State.zeroRange_keeps rfl s _ _ (Same.refl s))))

theorem spareTaken_core (s : State) (c d : Nat) : (s.spareTaken c).core d = if c = d then Core.reset else s.core d := by
  rw [State.spareTaken, (State.releaseCore_keeps (fp := 0x8000) rfl _ c (Same.refl _)).core_eq rfl, State.core_setCore,
    (State.zeroRange_keeps (fp := 0x208004) rfl _ _ _ (State.zeroRange_keeps rfl s _ _ (Same.refl s))).core_eq rfl]

/-- The map m of a die in force, and what was counted against the cellar lines of core c gone. -/
def State.remapped (s : State) (die c : Nat) (m : List Nat) : State := { s with
  hw := { s.hw with dieMap := s.hw.dieMap.set die m },
  memStat := { s.memStat with
    poison := s.memStat.poison.filter fun l => l / 131072 != c,
    linesPending := s.memStat.linesPending.filter fun l => l / 131072 != c,
    lineErrors := s.memStat.lineErrors.filter fun l => l.1 / 131072 != c,
    spareLines := s.memStat.spareLines.filter fun b => b.1 / 16 != c } }

theorem remapped_core (s : State) (die c : Nat) (m : List Nat) (d : Nat) :
    (s.remapped die c m).core d = s.core d := rfl

theorem remapped_part (s : State) (die c : Nat) (m : List Nat) (p : Nat) :
    (s.remapped die c m).part p = s.part p := rfl

theorem remapped_dieMap (s : State) (die c : Nat) (m : List Nat) :
    (s.remapped die c m).hw.dieMap = s.hw.dieMap.set die m := rfl

/-- A spare in the place of core c: its shelf reads zeroing. -/
def State.substituted (s : State) (c : Nat) (m : List Nat) : State :=
  ((s.spareTaken c).clearShelf (c / 8)).remapped (c / (8 * s.hw.grade.perDie)) c m

/-- A substitution that finds a spare (R20, R39, R487). -/
theorem exec_spareCoreSubstitution {s : State} {c : Fin 512} {m : List Nat} (hm : (s.core c).marked = true)
    (hidle : s.shelfIdle (c / 8) = true) (hc : c.val < s.coreCount)
    (hsub : substitute (s.hw.dieMap.getD (c / (8 * s.hw.grade.perDie)) []) (c % (8 * s.hw.grade.perDie)) = some m) :
    exec (.spareCoreSubstitution c) s = .next (s.substituted c m) := by
  refine congrArg Host.Outcome.next ((if_neg ?_).trans ?_)
  · rw [hm, hidle]
    exact fun h => h.elim (fun h => Bool.false_ne_true h) fun h => h.elim (fun h => Bool.false_ne_true h)
      fun h => absurd hc (not_lt.2 h)
  · rw [hsub]
    unfold State.substituted State.remapped State.spareTaken
    simp only [Nat.reducePow]

/-- The partition that has a shelf reads zeroing. -/
theorem clearShelf_zeroing {s : State} {shelf p : Nat} (h : s.partOfShelf shelf = some p) :
    ((s.clearShelf shelf).part p).state = .zeroing := by
  unfold State.clearShelf
  rw [h]
  dsimp only
  rw [State.part_updPart, if_pos rfl]

theorem clearShelf_core (s : State) (shelf c : Nat) : (s.clearShelf shelf).core c = s.core c := by
  unfold State.clearShelf
  split <;> rfl

theorem clearShelf_dieMap (s : State) (shelf : Nat) : (s.clearShelf shelf).hw.dieMap = s.hw.dieMap := by
  unfold State.clearShelf
  split <;> rfl

theorem substituted_core (s : State) (c : Nat) (m : List Nat) (d : Nat) :
    (s.substituted c m).core d = if c = d then Core.reset else s.core d := by
  rw [State.substituted, remapped_core, clearShelf_core, spareTaken_core]

theorem substituted_dieMap (s : State) (c : Nat) (m : List Nat) :
    (s.substituted c m).hw.dieMap = s.hw.dieMap.set (c / (8 * s.hw.grade.perDie)) m := by
  rw [State.substituted, remapped_dieMap, clearShelf_dieMap, (spareTaken_same s c).dieMap.resolve_left (by decide)]

theorem substituted_zeroing {s : State} {c p : Nat} (m : List Nat) (h : s.partOfShelf (c / 8) = some p) :
    ((s.substituted c m).part p).state = .zeroing := by
  have hshelf : (s.spareTaken c).partOfShelf (c / 8) = some p := by
    unfold State.partOfShelf State.hasShelf State.part at h ⊢
    rw [(spareTaken_same s c).parts_eq rfl]
    exact h
  rw [State.substituted, remapped_part, clearShelf_zeroing hshelf]

/-- A marked unit of a pair that no partition with a pattern uses. -/
theorem exec_unitSpareSubstitution {s : State} {u : Fin 56} (h : u.val ∈ s.coll.markedUnits)
    (hidle : ∀ p < 16, (s.part p).layout.live.unitMask.toNat.testBit (unitBit (unitPlus u)) = true →
      (s.part p).patterned = false) : exec (.unitSpareSubstitution u) s = .next
    (let t := { s with coll := { s.coll with markedUnits := s.coll.markedUnits.filter (· != u.val) } }
     if s.coll.unitSpares.getD (unitGroup u) 0 = 0 then { t with links := { t.links with
        pairsOut := t.links.pairsOut ||| 1 <<< unitBit (unitPlus u) } }
     else { t with coll := { t.coll with
        unitSpares := t.coll.unitSpares.set (unitGroup u) (s.coll.unitSpares.getD (unitGroup u) 0 - 1) } }) := by
  refine congrArg Host.Outcome.next (if_neg fun hno => hno.elim (fun hnot => ?_) fun hused => ?_)
  · rw [List.contains_iff_mem.2 h] at hnot
    exact Bool.false_ne_true hnot
  · obtain ⟨p, hp, hboth⟩ := List.any_eq_true.1 hused
    obtain ⟨hbit, hpat⟩ := Bool.and_eq_true_iff.1 hboth
    exact Bool.false_ne_true ((hidle p (List.mem_range.1 hp) hbit).symm.trans hpat)

/-- Settles O8: each row of the programme, where a spare stands in and where none is left. -/
theorem wearProgramme : Obligations.WearProgramme := by
  refine fun s => ⟨fun line h => ⟨exec_cellarScrub h _, ⟨_, exec_cellarScrub h _, (cellarCorrect_memStat s _).1,
    (cellarCorrect_memStat s _).2, rfl⟩, ⟨_, exec_cellarScrub h _, ?_⟩⟩, fun line h hidle hfree =>
    ⟨_, exec_cellarLineSpare h hidle hfree, not_mem_filter_ne _ _, (Sparse.get_set ..).trans (if_pos rfl), rfl⟩,
    fun row h hidle hfree => ⟨_, exec_hbmRowRepair h hidle hfree, not_mem_filter_ne _ _, getD_set_self hfree _, rfl⟩,
    fun c m hm hidle hc hsub => ?_, fun u h hidle => ⟨_, exec_unitSpareSubstitution h hidle, ?_, fun h0 => ?_,
    fun h0 => ?_⟩⟩
  · have hsame := State.recordFault_keeps (fp := 0x20C000) rfl (s.cellarFail (cellarBase + 256 * line.toNat)) stECC 1 1
      (cellarCore (cellarBase + 256 * line.toNat)) [] (cellarBase + 256 * line.toNat) 0 (Same.refl _)
    dsimp only
    rw [hsame.memStat.resolve_left (by decide), hsame.parts_eq rfl, hsame.mem_eq rfl]
    refine ⟨rfl, ?_, rfl, rfl⟩
    exact congrArg (insertNat s.memStat.poison) (lineOf_cellar line.toNat)
  · refine ⟨_, exec_spareCoreSubstitution hm hidle hc hsub, ?_, fun p hp => substituted_zeroing m hp,
      substituted_dieMap s c m, fun d hd => ?_⟩
    · rw [substituted_core, if_pos rfl]
    · rw [substituted_core, if_neg fun h => hd h.symm]
  · split <;> exact not_mem_filter_ne _ _
  · rw [if_pos h0]
  · rw [if_neg h0]

end Sys2Proof.Machine
end

section
/-! SUPPORT. The control block of a core: START, QUEUE_CTRL, the ring and the tally registers (O15, O16, O18). -/

namespace Sys2Proof.Machine

/-! ### START (R155, R436) -/

theorem patternRuns_of {s : State} {c p : Nat} (h : s.partOf c = some p) :
    s.patternRuns c = ((s.part p).patState == .running) := by
  unfold State.patternRuns
  rw [h]

/-- What refuses a START word that reaches its core. -/
theorem startRefused_iff {s : State} {c p : Nat} (h : s.partOf c = some p) (v : Word) : s.startRefused c v = true ↔
    fld v 16 16 ≠ 0x5354 ∨ 96 < fld v 0 7 ∨ (s.part p).patState = .running := by
  unfold State.startRefused
  rw [patternRuns_of h, Bool.or_eq_true_iff, Bool.or_eq_true_iff, bne_iff_ne, decide_eq_true_iff, beq_iff_eq, or_assoc]

theorem startWrite_flags {s : State} {c : Nat} {v : Word} {bad full : Bool} (hbad : s.startRefused c v = bad)
    (hfull : decide (64 ≤ (s.core c).queue.length) = full) (h : bad = true ∨ full = true) :
    s.startWrite c v = s.updCore c fun k => { k with refused := k.refused || bad, overflow := k.overflow || full } := by
  unfold State.startWrite
  dsimp only
  rw [hbad, hfull, if_pos (Bool.or_eq_true_iff.2 h.symm)]

theorem startWrite_enqueues {s : State} {c : Nat} {v : Word} (hbad : s.startRefused c v = false)
    (hfull : (s.core c).queue.length < 64) : s.startWrite c v = s.updCore c fun k => { k with
      queue := k.queue ++ [{ words := k.staged (fld v 0 7), startWords := fld v 0 7, badMagic := false,
                             fromStream := false, segClass := 0 }] } := by
  unfold State.startWrite
  dsimp only
  rw [hbad, if_neg]
  rw [decide_eq_false (not_le.2 hfull)]
  exact Bool.false_ne_true

/-- Updates of a core that agree on the core as it is. -/
theorem updCore_congr {s : State} {c : Nat} {f g : Core → Core} (h : f (s.core c) = g (s.core c)) :
    s.updCore c f = s.updCore c g := by
  unfold State.updCore
  rw [h]

/-- Settles O15: by what the word, the queue and the pattern say of a START that reaches its core. -/
theorem startEnqueuesTheStagedBlock : Obligations.StartEnqueuesTheStagedBlock := by
  refine fun port core v s => ⟨fun p h => ⟨fun bad full hbad hfull hor => ?_, fun hmagic hlen hroom hrun => ?_⟩,
    fun h => congrArg Host.Outcome.next (viaCore_refused h _),
    fun p h hc => congrArg Host.Outcome.next (viaCore_closed h hc _)⟩
  · refine congrArg Host.Outcome.next ((viaCore_reach h _).trans (startWrite_flags ?_ ?_ hor))
    · exact Bool.eq_iff_iff.2 ((startRefused_iff h.1.1 v).trans hbad.symm)
    · exact Bool.eq_iff_iff.2 (decide_eq_true_iff.trans hfull.symm)
  · have hgood : s.startRefused core v = false := by
      refine Bool.eq_false_iff.2 fun hr => ?_
      obtain hm | hl | hp := (startRefused_iff h.1.1 v).1 hr
      · exact hm hmagic
      · omega
      · exact hrun hp
    refine ⟨{ words := (s.core core).staged (fld v 0 7), startWords := fld v 0 7, badMagic := false,
              fromStream := false, segClass := 0 }, rfl, rfl, ?_⟩
    exact congrArg Host.Outcome.next ((viaCore_reach h _).trans ((startWrite_enqueues hgood hroom).trans
      (updCore_congr rfl)))

/-! ### QUEUE_CTRL (R172) -/

theorem coreActive_of {s : State} {c p : Nat} (h : s.partOf c = some p) : s.coreActive c = (s.part p).active := by
  unfold State.coreActive
  rw [h]

/-- What resume makes of a core, active saying whether its partition runs. -/
def Core.resumed (k : Core) (active : Bool) : Core :=
  if active = true ∧ k.qstate = .stopped then { k with qstate := .running } else k

/-- What flush discards. -/
def Core.flushed (k : Core) : Core := { k with queue := [], head := none, fnChecked := false, limited := false }

def Core.unstuck (k : Core) : Core := { k with overflow := false, refused := false }

theorem queueResume_core {s : State} {c p : Nat} (h : s.partOf c = some p) (d : Nat) :
    (s.queueResume c).core d = if c = d then (s.core c).resumed (s.part p).active else s.core d := by
  unfold State.queueResume Core.resumed
  rw [coreActive_of h]
  by_cases hrun : (s.part p).active = true ∧ (s.core c).qstate = .stopped
  · rw [if_pos (Bool.and_eq_true_iff.2 ⟨hrun.1, beq_iff_eq.2 hrun.2⟩), State.core_updCore, if_pos hrun]
  · rw [if_neg fun hand => hrun ⟨(Bool.and_eq_true_iff.1 hand).1, beq_iff_eq.1 (Bool.and_eq_true_iff.1 hand).2⟩,
      if_neg hrun]
    split
    · next e => rw [e]
    · rfl

theorem queueFlush_core {s : State} {c p : Nat} (h : s.partOf c = some p) (d : Nat) :
    (s.queueFlush c).core d = if c = d then (s.core c).flushed.resumed (s.part p).active else s.core d := by
  unfold State.queueFlush
  rw [queueResume_core (s := s.updCore c _) h, State.core_updCore, if_pos rfl]
  by_cases hd : c = d
  · rw [if_pos hd, if_pos hd]
    rfl
  · rw [if_neg hd, if_neg hd, State.core_updCore, if_neg hd]

theorem queueClearSticky_core (s : State) (c d : Nat) :
    (s.queueClearSticky c).core d = if c = d then (s.core c).unstuck else s.core d := State.core_updCore ..

theorem queueFlush_same (s : State) (c : Nat) : Same 0x40 s (s.queueFlush c) :=
  State.queueFlush_keeps rfl s c (Same.refl s)

/-- A step of a write taken or not: what it makes of the core it is for. -/
theorem core_ite {s t : State} {c : Nat} {g : Core → Core}
    (h : ∀ d, t.core d = if c = d then g (s.core c) else s.core d)
    (b : Bool) (d : Nat) :
    (if b then t else s).core d = if c = d then (if b then g (s.core c) else s.core c) else s.core d := by
  cases b with
  | true => exact h d
  | false =>
    by_cases hd : c = d
    · rw [if_pos hd, hd]
      rfl
    · rw [if_neg hd]
      rfl

/-- What a write of QUEUE_CTRL makes of its core, in the order of its bits. -/
def Core.ctrl (k : Core) (v : Word) (active : Bool) : Core :=
  let k := if bit v 1 then k.flushed.resumed active else k
  let k := if bit v 2 then k.unstuck else k
  if bit v 0 then k.resumed active else k

theorem writeQueueCtrl_core {s : State} {c p : Nat} (h : s.partOf c = some p) (v : Word) (d : Nat) :
    (s.writeQueueCtrl c v).core d = if c = d then (s.core c).ctrl v (s.part p).active else s.core d := by
  have hflush := core_ite (g := fun k => k.flushed.resumed (s.part p).active) (queueFlush_core h) (bit v 1)
  have hsame : Same 0x40 s (if bit v 1 then s.queueFlush c else s) :=
    kept_ite _ _ _ (queueFlush_same s c) (Same.refl s)
  have hclear := core_ite (g := Core.unstuck)
    (queueClearSticky_core (if bit v 1 then s.queueFlush c else s) c) (bit v 2)
  have hboth : Same 0x40 s (if bit v 2 then (if bit v 1 then s.queueFlush c else s).queueClearSticky c
      else if bit v 1 then s.queueFlush c else s) :=
    kept_ite _ _ _ (State.queueClearSticky_keeps rfl _ c hsame) hsame
  have hpart : (if bit v 2 then (if bit v 1 then s.queueFlush c else s).queueClearSticky c
      else if bit v 1 then s.queueFlush c else s).partOf c = some p := by
    unfold State.partOf State.partOfShelf State.hasShelf State.part at h ⊢
    rw [hboth.parts_eq rfl]
    exact h
  refine (core_ite (g := fun k => k.resumed _) (queueResume_core hpart) (bit v 0) d).trans ?_
  rw [hclear, hclear, hflush, hflush, hboth.part_eq rfl]
  by_cases hd : c = d
  · simp only [if_pos hd, if_pos]
    rfl
  · simp only [if_neg hd]

theorem Core.resumed_unstuck (k : Core) (active : Bool) : (k.resumed active).unstuck = k.unstuck.resumed active := by
  have hq : k.unstuck.qstate = k.qstate := rfl
  unfold Core.resumed
  rw [hq]
  split <;> rfl

theorem Core.resumed_resumed (k : Core) (active : Bool) : (k.resumed active).resumed active = k.resumed active := by
  by_cases h : active = true ∧ k.qstate = .stopped
  · rw [Core.resumed, Core.resumed, if_pos h, if_neg fun h => nomatch h.2]
  · rw [Core.resumed, Core.resumed, if_neg h, if_neg h]

/-- Flush and clear_sticky leave the state of the queue. -/
theorem Core.resumed_of {k a : Core} (h : a.qstate = k.qstate) (active : Bool) : a.resumed active =
    if active = true ∧ k.qstate = .stopped then { a with qstate := .running } else a := by
  rw [Core.resumed, h]

/-- A core as a write of QUEUE_CTRL leaves it before it resumes. -/
def Core.cleared (k : Core) (v : Word) : Core :=
  let k := if bit v 1 then k.flushed else k
  if bit v 2 then k.unstuck else k

theorem Core.cleared_qstate (k : Core) (v : Word) : (k.cleared v).qstate = k.qstate := by
  unfold Core.cleared
  cases bit v 1 <;> cases bit v 2 <;> rfl

/-- A write of several bits resumes once, at its end. -/
theorem Core.ctrl_eq (k : Core) (v : Word) (active : Bool) :
    k.ctrl v active = if bit v 0 ∨ bit v 1 then (k.cleared v).resumed active else k.cleared v := by
  unfold Core.ctrl Core.cleared
  cases bit v 1 <;> cases bit v 2 <;> cases bit v 0 <;>
    simp [Core.resumed_unstuck, Core.resumed_resumed]

theorem coreWrite_queueCtrl (s : State) (c : Nat) (v : Word) : s.coreWrite c 0x188 v = s.writeQueueCtrl c v := rfl

/-- Settles O16: one bit at a time, and a word of all of them. -/
theorem queueControl : Obligations.QueueControl := by
  refine fun port core s p h => ⟨⟨s.queueFlush core, congrArg Host.Outcome.next (viaCore_reach h _), fun c hc => ?_,
    (queueFlush_same s core).parts_eq rfl, (queueFlush_same s core).mem_eq rfl, ?_⟩,
    congrArg Host.Outcome.next (viaCore_reach h _), fun ha hq => ?_, fun hno => ?_, fun v =>
      ⟨s.writeQueueCtrl core v, ?_,
      ?_, fun c hc => ?_⟩⟩
  · rw [queueFlush_core h.1.1, if_neg (Ne.symm hc)]
  · rw [queueFlush_core h.1.1, if_pos rfl, Core.resumed_of (k := s.core core) (a := (s.core core).flushed) rfl]
    by_cases hrun : (s.part p).active = true ∧ (s.core core).qstate = .stopped
    · simp only [if_pos hrun]
      rfl
    · simp only [if_neg hrun]
      rfl
  · refine congrArg Host.Outcome.next ((viaCore_reach h _).trans (if_pos ?_))
    rw [coreActive_of h.1.1, ha, hq]
    rfl
  · refine congrArg Host.Outcome.next ((viaCore_reach h _).trans (if_neg fun hrun => ?_))
    rw [coreActive_of h.1.1] at hrun
    obtain ⟨ha, hq⟩ := Bool.and_eq_true_iff.1 hrun
    exact hno.elim (fun h => Bool.false_ne_true (h.symm.trans ha)) fun h => h (beq_iff_eq.1 hq)
  · exact (exec_registerWrite_core h (o := 0x188) (by decide) (by decide) v).trans
      (congrArg Host.Outcome.next (coreWrite_queueCtrl s core v))
  · rw [writeQueueCtrl_core h.1.1, if_pos rfl, Core.ctrl_eq, Core.resumed_of (Core.cleared_qstate ..), ← ite_and]
    rfl
  · rw [writeQueueCtrl_core h.1.1, if_neg (Ne.symm hc)]

/-! ### The completion ring and the tally registers (R161, R173, R175, R625) -/

theorem cplCommit_done {s : State} {c p : Nat} (h : s.partOf c = some p) (hst : s.cplCommitStatus p c = stDONE) :
    s.cplCommit c = s.updCore c fun k =>
      { k with cplStatus := stDONE, cpl := ⟨k.cpl.sh, k.cpl.sh⟩, producer := 0, consumer := 0 } := by
  unfold State.cplCommit
  rw [h]
  dsimp only
  rw [hst]
  rfl

theorem cplCommit_refused {s : State} {c p : Nat} (h : s.partOf c = some p) (hst : s.cplCommitStatus p c ≠ stDONE) :
    s.cplCommit c = s.updCore c fun k => { k with cplStatus := s.cplCommitStatus p c } := by
  unfold State.cplCommit
  rw [h]
  exact updCore_congr (if_neg hst)

theorem setTally_same (s : State) (c t : Nat) (v : Word) : Same 0x84C0 s (s.setTally c t v) :=
  State.setTally_keeps rfl s c t v (Same.refl s)

/-- A tally set: its value, no byte, no other tally. -/
theorem setTally_alone (s : State) (c n : Nat) (v : Word) : (s.setTally c n v).tallyOf c n = v ∧
    (s.setTally c n v).mem = s.mem ∧ ∀ d m, (d, m) ≠ (c, n) → (s.setTally c n v).tallyOf d m = s.tallyOf d m := by
  refine ⟨by rw [setTally_tallyOf, if_pos ⟨rfl, rfl⟩], (setTally_same s c n v).mem_eq rfl, fun d m h => ?_⟩
  rw [setTally_tallyOf, if_neg fun e => h (Prod.ext e.1 e.2)]

theorem exec_tallyAddRegister {port : Fin 2} {core : Fin 512} {s : State} {p : Nat} (h : s.Reaches port core p)
    (n : BitVec 8) (v : Word) : exec (.tallyAddRegister port core n v) s = .next
      (if v = 0 then s else s.setTally core n.toNat (s.tallyOf core n.toNat + v)) :=
  congrArg Host.Outcome.next (viaCore_reach h _)

/-- Settles O18: the ring by the status of its commit, a tally by whether its partition runs. -/
theorem ringAndTallyRegisters : Obligations.RingAndTallyRegisters := by
  refine ⟨fun port core s p h => ?_, fun port core n v s p h => ⟨fun ha => ?_, fun ha => ?_, ?_, fun hv => ?_⟩⟩
  · have hstatus : (if (fld (s.core core).cpl.sh.entries 0 5 ≠ 0 ∧ fld (s.core core).cpl.sh.entries 0 5 < 4) ∨
        16 < fld (s.core core).cpl.sh.entries 0 5 ∨
        (s.core core).cpl.sh.base.toNat % (16 * 2 ^ fld (s.core core).cpl.sh.entries 0 5) ≠ 0 ∨
        s.outstanding core ≠ 0 then stCONFIG
      else if s.namesPlace (s.core core).cpl.sh.base.toNat = false ∨ (fld (s.core core).cpl.sh.entries 0 5 ≠ 0 ∧
        s.inPlaces p (s.core core).cpl.sh.base.toNat (16 * 2 ^ fld (s.core core).cpl.sh.entries 0 5) = false)
        then stPRIVILEGE
      else stDONE) = s.cplCommitStatus p core := by
      unfold State.cplCommitStatus
      simp only [Bool.not_eq_true']
    dsimp only
    rw [hstatus]
    exact ⟨fun hst => congrArg Host.Outcome.next ((viaCore_reach h _).trans (cplCommit_done h.1.1 hst)),
      fun hst => congrArg Host.Outcome.next ((viaCore_reach h _).trans (cplCommit_refused h.1.1 hst))⟩
  · refine ⟨_, congrArg Host.Outcome.next ((viaCore_reach h _).trans (if_neg ?_)), setTally_alone s core n.toNat v⟩
    rw [coreActive_of h.1.1, ha]
    exact Bool.false_ne_true
  · exact congrArg Host.Outcome.next ((viaCore_reach h _).trans (if_pos ((coreActive_of h.1.1).trans ha)))
  · refine ⟨_, exec_tallyAddRegister h n v, ?_⟩
    by_cases hv : v = 0
    · rw [if_pos hv, hv]
      exact ⟨(BitVec.add_zero _).symm, rfl, fun _ _ _ => rfl⟩
    · rw [if_neg hv]
      exact setTally_alone s core n.toNat _
  · exact (exec_tallyAddRegister h n v).trans (congrArg Host.Outcome.next (if_pos hv))

end Sys2Proof.Machine
end

section
/-! SUPPORT. The issue stage: what stands before an issue, completion, TALLY_SET and PUBLISH (O20 to O22). -/

namespace Sys2Proof.Machine

/-! ### When the head of a core may issue (R132, R160) -/

/-- The head of core c waits on its tally or its resource. -/
def State.Waits (s : State) (c : Nat) (e : Entry) : Prop :=
  (e.waitEnable = true ∧ 2 ^ 31 ≤ (s.tallyOf c e.waitTally - e.waitTarget).toNat) ∨ s.resourceFree c e = false

theorem blocked_iff {s : State} {c : Nat} {k : Checked} (h : (s.core c).head = some k) : (s.core c).blocked = true ↔
    k.entry.waitEnable = true ∧ 2 ^ 31 ≤ (s.tallyOf c k.entry.waitTally - k.entry.waitTarget).toNat := by
  unfold Core.blocked waitMet
  rw [h]
  dsimp only
  rw [Bool.and_eq_true_iff, Bool.not_eq_true', decide_eq_false_iff_not, not_lt]
  rfl

theorem ready_iff {s : State} {c p : Nat} {k : Checked} : s.ready c = some (p, k) ↔
    s.partOf c = some p ∧ (s.core c).head = some k ∧ (s.part p).active = true ∧ (s.core c).qstate = .running ∧
      (s.core c).blocked = false ∧ s.resourceFree c k.entry = true := by
  unfold State.ready
  cases hp : s.partOf c with
  | none => simp
  | some q =>
    cases hk : (s.core c).head with
    | none => simp
    | some j =>
      dsimp only
      constructor
      · intro h
        split at h
        · next hc =>
          simp only [Bool.and_eq_true, beq_iff_eq, Bool.not_eq_true'] at hc
          cases h
          exact ⟨rfl, rfl, hc.1.1.1, hc.1.1.2, hc.1.2, hc.2⟩
        · exact absurd h (by simp)
      · rintro ⟨hq, hj, ha, hr, hb, hf⟩
        cases hq
        cases hj
        rw [ha, hr, hb, hf]
        rfl

/-- A head that waits does not issue. -/
theorem ready_none {s : State} {c : Nat} {k : Checked} (hk : (s.core c).head = some k)
    (hw : s.Waits c k.entry) : s.ready c = none := by
  cases hr : s.ready c with
  | none => rfl
  | some x =>
    obtain ⟨hq, hj, _, _, hb, hf⟩ := ready_iff.1 (show s.ready c = some (x.1, x.2) from hr)
    cases hk.symm.trans hj
    obtain hw | hw := hw
    · exact absurd ((blocked_iff hk).2 hw) (by rw [hb]; exact Bool.false_ne_true)
    · exact absurd hf (by rw [hw]; exact Bool.false_ne_true)

/-! ### What an issue does (R125, R176, R412, R611) -/

variable {s : State} {c p : Nat} {k : Checked} {want : Entry → Bool} {run : State → Nat → Checked → State}

theorem issue_none (h : s.ready c = none) : s.issue c want run = s := by
  unfold State.issue
  rw [h]

theorem issue_wanted (h : s.ready c = some (p, k)) (hw : want k.entry = true) : s.issue c want run =
    if k.noop then ((s.popHead c).noteIssued p k.entry).complete p c k.entry stDONE 0 true
    else match s.holdOf p k with
      | .stall => s.recallOperands k
      | .stale counted =>
        (((s.noteStale counted).dropBackward p k).popHead c).complete p c k.entry stSTALE_SHARD 0 false
      | .go => if s.overRise k.entry.kind then s.limit c else run s p k := by
  unfold State.issue
  rw [h]
  dsimp only
  rw [hw]
  rfl

theorem issue_noop (h : s.ready c = some (p, k)) (hw : want k.entry = true) (hn : k.noop = true) :
    s.issue c want run = ((s.popHead c).noteIssued p k.entry).complete p c k.entry stDONE 0 true := by
  rw [issue_wanted h hw, hn]
  rfl

theorem issue_stall (h : s.ready c = some (p, k)) (hw : want k.entry = true) (hn : k.noop = false)
    (hh : s.holdOf p k = .stall) : s.issue c want run = s.recallOperands k := by
  rw [issue_wanted h hw, hn, hh]
  rfl

theorem issue_stale (h : s.ready c = some (p, k)) (hw : want k.entry = true) (hn : k.noop = false) {gather : Bool}
    (hh : s.holdOf p k = .stale gather) : s.issue c want run =
      (((s.noteStale gather).dropBackward p k).popHead c).complete p c k.entry stSTALE_SHARD 0 false := by
  rw [issue_wanted h hw, hn, hh]
  rfl

theorem issue_limited (h : s.ready c = some (p, k)) (hw : want k.entry = true) (hn : k.noop = false)
    (hh : s.holdOf p k = .go) (ho : s.overRise k.entry.kind = true) : s.issue c want run = s.limit c := by
  rw [issue_wanted h hw, hn, hh]
  exact if_pos ho

/-- The head that issues runs. -/
theorem issue_runs (h : s.Issues p c k) (hw : want k.entry = true) : s.issue c want run = run s p k := by
  obtain ⟨hr, hn, hh, ho⟩ := h
  rw [issue_wanted hr hw, hn, hh]
  exact if_neg fun h => Bool.false_ne_true (ho.symm.trans h)

/-- A head that the limiter keeps back stays, and is counted once. -/
theorem limit_effect (s : State) (c : Nat) :
    (s.limit c).power.limiterStalls = s.power.limiterStalls + (if (s.core c).limited then 0 else 1) ∧
      ((s.limit c).core c).limited = true ∧ ((s.limit c).core c).head = (s.core c).head ∧ (s.limit c).mem = s.mem := by
  unfold State.limit
  by_cases h : (s.core c).limited = true
  · rw [if_pos h, if_pos h]
    exact ⟨(BitVec.add_zero _).symm, h, rfl, rfl⟩
  · have hcore : State.core { s.updCore c fun k => { k with limited := true } with
        power := { s.power with limiterStalls := s.power.limiterStalls + 1 } } c = { s.core c with limited := true } :=
      (State.core_updCore s c c fun k => { k with limited := true }).trans (if_pos rfl)
    rw [if_neg h, if_neg h, hcore]
    exact ⟨rfl, rfl, rfl, rfl⟩

/-- Every row that takes heads issues the head of its kind. -/
theorem headRows_issue {core : Fin 512} {ecc : Ecc} {row : Instr × (Entry → Bool)} (h : row ∈ headRows core ecc) :
    ∃ run, ∀ s : State, exec row.1 s = .next (s.issue core row.2 run) := by
  simp only [headRows, List.mem_cons, List.not_mem_nil, or_false] at h
  obtain h | h | h | h | h | h | h | h | h | h | h | h | h | h | h | h | h | h | h | h | h | h | h | h | h | h | h | h |
    h := h <;> cases h <;> exact ⟨_, fun s => rfl⟩

theorem exec_fnTableCheck_none {core : Fin 512} (h : s.ready core = none) : exec (.fnTableCheck core) s = .next s := by
  show execFnTableCheck core s = _
  unfold execFnTableCheck
  dsimp only
  rw [h]

/-- A SYNC command that issues. -/
theorem sync_runs (h : s.Issues p c k) (h5 : k.entry.kind = 5) {op : Nat} (hop : k.entry.syncOp = op)
    (act : State → Checked → State) :
    s.sync c op act = (act (s.popHead c) k).complete p c k.entry stDONE 0 true := by
  unfold State.sync
  refine issue_runs h ?_
  rw [h5, hop]
  exact Bool.and_eq_true_iff.2 ⟨rfl, beq_iff_eq.2 rfl⟩

/-- SYNC commands weigh nothing in the estimate. -/
theorem overRise_sync (s : State) : s.overRise 5 = false := rfl

/-- A SYNC head that waits for nothing issues. -/
theorem issues_sync (hp : s.partOf c = some p) (hk : (s.core c).head = some k) (h5 : k.entry.kind = 5)
    (ha : (s.part p).active = true) (hq : (s.core c).qstate = .running)
    (hw : k.entry.waitEnable = true → (s.tallyOf c k.entry.waitTally - k.entry.waitTarget).toNat < 2 ^ 31)
    (hn : k.noop = false) (hh : s.holdOf p k = .go) (hf : s.resourceFree c k.entry = true) : s.Issues p c k := by
  refine ⟨ready_iff.2 ⟨hp, hk, ha, hq, Bool.eq_false_iff.2 fun hb => ?_, hf⟩, hn, hh, by rw [h5]; exact overRise_sync s⟩
  obtain ⟨he, hge⟩ := (blocked_iff hk).1 hb
  exact absurd (hw he) (not_lt.2 hge)

/-- The resource of a SYNC command: for FENCE, that nothing of the core is outstanding. -/
theorem resourceFree_sync (h5 : k.entry.kind = 5) :
    s.resourceFree c k.entry = (k.entry.syncOp != 1 || s.outstanding c == 0) := by
  unfold State.resourceFree
  rw [h5]
  rfl

/-- Settles O20: a head that waits, a head that issues, by what it is held to, and the SYNC commands. -/
theorem waitsHoldUntilTheirTally : Obligations.WaitsHoldUntilTheirTally := by
  refine ⟨fun core ecc s p k hp hk hw c hc => ?_, fun core ecc s p k hr row hrow hwant => ?_,
    fun core s p k hp hk h5 ha hq hw hn hh => ⟨fun hop => ?_, fun hop hout => ?_, fun hop hout => ?_, fun hop => ?_⟩⟩
  · have hnone : s.ready core = none := ready_none hk hw
    obtain hc | hc := hc
    · obtain ⟨row, hrow, rfl⟩ := List.mem_map.1 hc
      obtain ⟨run, hexec⟩ := headRows_issue hrow
      rw [hexec, issue_none hnone]
    · rw [hc]
      exact exec_fnTableCheck_none hnone
  · obtain ⟨run, hexec⟩ := headRows_issue hrow
    rw [hexec]
    refine ⟨fun hn => ?_, fun hn hh => ?_, fun gather hn hh => ?_, fun hn hh ho => ⟨s.limit core, ?_, ?_⟩⟩
    · rw [issue_noop hr hwant hn]
    · rw [issue_stall hr hwant hn hh]
    · rw [issue_stale hr hwant hn hh]
    · rw [issue_limited hr hwant hn hh ho]
    · obtain ⟨hstalls, hlim, hhead, hmem⟩ := limit_effect s core
      exact ⟨hstalls, hlim, hhead.trans (ready_iff.1 hr).2.1, hmem⟩
  · exact congrArg Host.Outcome.next (sync_runs (issues_sync hp hk h5 ha hq hw hn hh
      ((resourceFree_sync h5).trans (by rw [hop]; rfl))) h5 hop _)
  · exact congrArg Host.Outcome.next (sync_runs (issues_sync hp hk h5 ha hq hw hn hh
      ((resourceFree_sync h5).trans (by rw [hop, hout]; rfl))) h5 hop _)
  · refine congrArg Host.Outcome.next (issue_none (ready_none hk (.inr ((resourceFree_sync h5).trans ?_))))
    rw [hop, beq_eq_false_iff_ne.2 hout]
    rfl
  · exact congrArg Host.Outcome.next (sync_runs (issues_sync hp hk h5 ha hq hw hn hh
      ((resourceFree_sync h5).trans (by rw [hop]; rfl))) h5 hop _)

/-! ### Completion (R135, R136, R166 to R168) -/

theorem length_recordOf (c kind tag stitch : Nat) (st flags : Half) :
    (recordOf c kind tag stitch st flags).length = 16 := by
  simp [recordOf, length_leBytes]

/-- Settles O21: the signal, the record and the stop of the queue, each by itself. -/
theorem completionSignalsRecordsAndStops : Obligations.CompletionSignalsRecordsAndStops := by
  intro p c e st flags signal s
  obtain ⟨hnone, hlost, hwritten⟩ := complete_record s p c e st flags signal
  refine ⟨fun hsig d n hd hn => ?_, fun hsig d n => ?_, fun hst hrec => hnone ⟨hst, hrec⟩, fun hor hfull => ?_,
    fun hor hroom => ?_, fun hstop hrun => ?_, fun hstop => ?_⟩
  · rw [complete_tallyOf, hsig, hd, hn]
    exact if_pos (by simp)
  · rw [complete_tallyOf, hsig]
    rfl
  · obtain ⟨hmem, _, hcount⟩ := hlost hor hfull
    exact ⟨hcount, hmem⟩
  · obtain ⟨hmem, hprod, _⟩ := hwritten hor (not_lt.2 hroom)
    refine ⟨hprod, fun a ha => ?_⟩
    rw [hmem, ← ha]
    refine ⟨fun i hi => ?_, fun b hb => memRead_memPut_outside (by rw [length_recordOf]; exact hb)⟩
    rw [memRead_memPut, if_pos (Nat.le_add_right a i), Nat.add_sub_cancel_left,
      List.getElem?_eq_getElem (by rw [length_recordOf]; exact hi), List.getD_eq_getElem _ _ (by
        rw [length_recordOf]; exact hi)]
    rfl
  · rw [complete_qstate, if_pos ⟨rfl, hstop, by rw [hrun]; exact nofun⟩]
  · rw [complete_qstate, if_neg fun h => Bool.false_ne_true (hstop.symm.trans h.2.1)]

/-! ### TALLY_SET and PUBLISH (R124, R153, R154, R163, R255 to R258) -/

/-- A tally set marks its partition as one whose tallies have changed, and no more of it. -/
theorem setTally_part (s : State) (c t : Nat) (v : Word) (q : Nat) :
    ∃ b, (s.setTally c t v).part q = { s.part q with changed := b } := by
  have hput : ∃ b, (s.putTally c t v).part q = { s.part q with changed := b } := by
    unfold State.putTally
    dsimp only
    split
    · rw [State.part_updPart]
      split
      · next e => subst e; exact ⟨true, rfl⟩
      · exact ⟨_, rfl⟩
    · exact ⟨_, rfl⟩
  have hrest : Same 0x8400 (s.putTally c t v) (s.setTally c t v) := by
    have hrel := State.releaseQueues_keeps (fp := 0x8400) rfl (s.putTally c t v) c t (Same.refl _)
    unfold State.setTally
    dsimp only
    split
    · exact hrel
    · refine kept_ite _ _ _ hrel (kept_foldl _ _ _ (fun u q h => kept_ite _ _ _ ?_ h) hrel)
      exact State.enqueueX_keeps rfl u _ _ _ h
  rw [hrest.part_eq rfl]
  exact hput

/-- So does a completion. -/
theorem complete_part (s : State) (p c : Nat) (e : Entry) (st flags : Half) (signal : Bool) (q : Nat) :
    ∃ b, (s.complete p c e st flags signal).part q = { s.part q with changed := b } := by
  have hsignal : ∃ b, (if signal && e.sigEnable then
      s.addTally (e.sigCore (s.part p).layout.live.first.toNat) e.sigTally
      (BitVec.ofNat 32 e.sigIncrement) else s).part q = { s.part q with changed := b } := by
    split
    · exact setTally_part ..
    · exact ⟨_, rfl⟩
  obtain ⟨b, hb⟩ := hsignal
  refine ⟨b, Eq.trans ?_ hb⟩
  unfold State.complete
  dsimp only
  generalize (if (signal && e.sigEnable) = true then _ else s) = u
  have hdone := State.collDone_keeps (fp := 0x20884C) rfl u e.kind (Same.refl u)
  have hrec := kept_ite (st ≠ stDONE ∨ e.record = true) _ _ (State.writeRecord_keeps rfl _ c e.kind e.tag
    st flags hdone)
    hdone
  exact (kept_ite (stopsQueue st = true) _ _ (State.stopQueue_keeps rfl _ c e.tag st hrec) hrec).part_eq rfl q

theorem complete_queue (s : State) (p c : Nat) (e : Entry) (st flags : Half) (signal : Bool) (d : Nat) :
    ((s.complete p c e st flags signal).core d).queue = (s.core d).queue :=
  complete_keeps_core Core.queue s p c e st flags signal d fun _ _ _ _ _ _ _ => rfl

theorem setTally_queue (s : State) (c t : Nat) (v : Word) (d : Nat) :
    ((s.setTally c t v).core d).queue = (s.core d).queue := by
  rw [setTally_core]
  split
  · next e => rw [e]
  · rfl

/-- The attic of the handle is not held: PUBLISH does not wait. -/
theorem publish_free (hfree : (s.part p).patState = .running → ∀ a ∈ (s.part p).attic,
    a.handle ≠ k.entry.syncOperand) :
    ((s.part p).patState == .running && (s.part p).attic.any fun a => a.handle == k.entry.syncOperand) = false := by
  refine Bool.eq_false_iff.2 fun h => ?_
  obtain ⟨hrun, hany⟩ := Bool.and_eq_true_iff.1 h
  obtain ⟨a, ha, heq⟩ := List.any_eq_true.1 hany
  exact hfree (beq_iff_eq.1 hrun) a ha (beq_iff_eq.1 heq)

/-- PUBLISH of a handle that the table does not hold. -/
theorem publish_uncommitted (hfree : ((s.part p).patState == .running &&
      (s.part p).attic.any fun a => a.handle == k.entry.syncOperand) = false)
    (hd : Sparse.find (s.part p).descs k.entry.syncOperand = none) :
    s.publish p c k = (s.popHead c).complete p c k.entry stHANDLE_INVALID 0 false := by
  unfold State.publish
  dsimp only
  rw [hfree, hd]
  rfl

theorem publish_unversioned (hfree : ((s.part p).patState == .running &&
      (s.part p).attic.any fun a => a.handle == k.entry.syncOperand) = false) {d : Desc}
    (hd : Sparse.find (s.part p).descs k.entry.syncOperand = some d) (hv : d.versioned = false) :
    s.publish p c k = (s.popHead c).complete p c k.entry stCONFIG 0 false := by
  unfold State.publish
  dsimp only
  rw [hfree, hd]
  dsimp only
  rw [hv]
  rfl

/-- PUBLISH of a versioned handle: the exchanged descriptor stands in the table, and the command completes. -/
theorem publish_exchanges (hfree : ((s.part p).patState == .running &&
      (s.part p).attic.any fun a => a.handle == k.entry.syncOperand) = false) {d : Desc}
    (hd : Sparse.find (s.part p).descs k.entry.syncOperand = some d) (hv : d.versioned = true) :
    ∃ f : Part → Part, s.publish p c k = ((s.popHead c).updPart p f).complete p c k.entry stDONE 0 true ∧
      ∀ q, (f q).descs = Sparse.put q.descs k.entry.syncOperand d.exchange := by
  unfold State.publish
  dsimp only
  rw [hfree, hd]
  dsimp only
  rw [if_neg (c := (!d.versioned) = true) (by rw [hv]; exact Bool.false_ne_true)]
  exact ⟨_, rfl, fun _ => rfl⟩

/-- PUBLISH while the attic of its handle is held. -/
theorem publish_waits (hrun : (s.part p).patState = .running)
    (hheld : ∃ a ∈ (s.part p).attic, a.handle = k.entry.syncOperand) : s.publish p c k = s := by
  obtain ⟨a, ha, heq⟩ := hheld
  unfold State.publish
  dsimp only
  rw [if_pos]
  exact Bool.and_eq_true_iff.2 ⟨beq_iff_eq.2 hrun, List.any_eq_true.2 ⟨a, ha, beq_iff_eq.2 heq⟩⟩

theorem exec_publish {core : Fin 512} (h : s.Issues p core k) (h5 : k.entry.kind = 5) (hop : k.entry.syncOp = 4) :
    exec (.publish core) s = .next (s.publish p core k) := by
  refine congrArg Host.Outcome.next (issue_runs h ?_)
  rw [h5, hop]
  rfl

/-- Settles O22: TALLY_SET before its signal; PUBLISH by what its table holds, and by the attic of its handle. -/
theorem tallySetAndPublish : Obligations.TallySetAndPublish := by
  intro core s p k h h5
  refine ⟨fun hop => ?_, fun hop hatt => ?_, fun hop hrun hheld => ?_⟩
  · refine ⟨_, congrArg Host.Outcome.next (sync_runs h h5 hop _), fun c n => ?_, ?_, fun hrec => ?_⟩
    · obtain ⟨b, hb⟩ := setTally_part (s.popHead core) core (k.entry.syncOperand % 256) (k.entry.w 7) p
      rw [complete_tallyOf, setTally_tallyOf, popHead_tallyOf, hb]
      show (if true && k.entry.sigEnable && decide (c = k.entry.sigCore (s.part p).layout.live.first.toNat) &&
        decide (n = k.entry.sigTally) then _ else _) = _
      by_cases hsig : k.entry.sigEnable = true ∧ c = k.entry.sigCore (s.part p).layout.live.first.toNat ∧
          n = k.entry.sigTally
      · rw [if_pos hsig, if_pos (by simp [hsig.1, hsig.2.1, hsig.2.2])]
      · rw [if_neg hsig, if_neg (by simpa [and_assoc] using hsig)]
        exact (BitVec.add_zero _).symm
    · rw [complete_queue, setTally_queue, popHead_core_self]
    · exact ((complete_record ..).1 ⟨rfl, hrec⟩).1.trans ((setTally_same ..).mem_eq rfl)
  · have hfree := publish_free hatt
    refine ⟨fun d hd hv => ?_, fun d hd hv => ?_, fun hd => ?_⟩
    · obtain ⟨f, hpub, hf⟩ := publish_exchanges (c := core) hfree hd hv
      obtain ⟨b, hb⟩ := complete_part ((s.popHead core).updPart p f) p core k.entry stDONE 0 true p
      have hdescs : ((((s.popHead core).updPart p f).complete p core k.entry stDONE 0 true).part p).descs
          = Sparse.put (s.part p).descs k.entry.syncOperand d.exchange := by
        rw [hb, State.part_updPart, if_pos rfl, hf]
        rfl
      refine ⟨_, d.exchange, (exec_publish h h5 hop).trans (congrArg _ hpub), ?_, rfl, rfl, rfl, rfl,
        fun g hg => ?_, ?_⟩
      · rw [hdescs, Sparse.find_put, if_pos rfl]
      · rw [hdescs, Sparse.find_put, if_neg (Ne.symm hg)]
      · rw [complete_queue, State.core_updPart, popHead_core_self]
    · rw [exec_publish h h5 hop, publish_unversioned hfree hd hv]
    · rw [exec_publish h h5 hop, publish_uncommitted hfree hd]
  · rw [exec_publish h h5 hop, publish_waits hrun hheld]

end Sys2Proof.Machine
end

section
/-! SUPPORT. The vector and row engines: function tables, VECTOR and the ROW commands (O24 to O26). -/

namespace Sys2Proof.Machine

/-! ### Reads that no error meets (R102, R109, R110) -/

/-- No line that the ranges read is poisoned, and no report names one of their addresses. -/
theorem badRead_false {s : State} {e : Ecc} {rs : List (Nat × Nat)} : s.badRead e rs = false ↔
    s.poisonRead rs = [] ∧ (∀ a ∈ e.cellarBad, (inRanges rs a && addrRegion a == 1) = false) ∧
      (∀ a ∈ e.hbmBad, (inRanges rs a && addrRegion a == 0) = false) ∧
      ∀ a ∈ e.parityBad, (inRanges rs a && addrRegion a == 0) = false := by
  unfold State.badRead
  simp only [Bool.or_eq_false_iff, bne_eq_false_iff_eq, List.any_eq_false, List.mem_append, Bool.not_eq_true,
    or_imp, forall_and, and_assoc]

theorem filter_eq_nil_of {α : Type} {l : List α} {f : α → Bool} (h : ∀ a ∈ l, f a = false) : l.filter f = [] :=
  List.filter_eq_nil_iff.2 fun a ha => by rw [h a ha]; exact Bool.false_ne_true

theorem readErrors_good {s : State} {e : Ecc} {rs : List (Nat × Nat)} (h : s.badRead e rs = false) :
    (s.readErrors rs e).2 = none := by
  obtain ⟨hold, hcellar, hhbm, hparity⟩ := badRead_false.1 h
  show List.head? _ = none
  rw [filter_eq_nil_of hcellar, hold, filter_eq_nil_of hhbm, List.append_nil rs, filter_eq_nil_of hparity]
  rfl

theorem readErrors_same (s : State) (rs : List (Nat × Nat)) (e : Ecc) : Same 0x8 s (s.readErrors rs e).1 :=
  State.readErrors_keeps rfl s rs e (Same.refl s)

/-- Ranges that none of several reads finds bad, read together, while no further line has been poisoned. -/
theorem badRead_flatMap {α : Type} {s t : State} {e : Ecc} {f : α → List (Nat × Nat)} {l : List α}
    (hp : ∀ x ∈ t.memStat.poison, x ∈ s.memStat.poison) (h : ∀ a ∈ l, s.badRead e (f a) = false) :
    t.badRead e (l.flatMap f) = false := by
  have hin : ∀ (a r : Nat), (∀ x ∈ l, (inRanges (f x) a && addrRegion a == r) = false) →
      (inRanges (l.flatMap f) a && addrRegion a == r) = false := fun a r hx => by
    cases hr : addrRegion a == r with
    | false => rw [Bool.and_false]
    | true =>
      simp only [hr, Bool.and_true] at hx
      rw [Bool.and_true, Bool.eq_false_iff]
      intro hany
      obtain ⟨x, hmem, hinside⟩ := List.any_eq_true.1 hany
      obtain ⟨b, hb, hx'⟩ := List.mem_flatMap.1 hmem
      exact Bool.false_ne_true ((hx b hb).symm.trans (List.any_eq_true.2 ⟨x, hx', hinside⟩))
  refine badRead_false.2 ⟨?_, fun a ha => hin a 1 fun x hx => (badRead_false.1 (h x hx)).2.1 a ha,
    fun a ha => hin a 0 fun x hx => (badRead_false.1 (h x hx)).2.2.1 a ha,
    fun a ha => hin a 0 fun x hx => (badRead_false.1 (h x hx)).2.2.2 a ha⟩
  refine filter_eq_nil_of fun a ha => Bool.eq_false_iff.2 fun hany => ?_
  obtain ⟨line, hline, rfl⟩ := List.mem_map.1 ha
  obtain ⟨r, hr, hover⟩ := List.any_eq_true.1 hany
  obtain ⟨b, hb, hr'⟩ := List.mem_flatMap.1 hr
  have hnil := (badRead_false.1 (h b hb)).1
  have hmem : cellarBase + 256 * line ∈ s.poisonRead (f b) :=
    List.mem_filter.2 ⟨List.mem_map.2 ⟨line, hp line hline, rfl⟩, List.any_eq_true.2 ⟨r, hr', hover⟩⟩
  rw [hnil] at hmem
  exact List.not_mem_nil hmem

/-! ### What an engine's stores leave as it was -/

/-- From s to t no partition has changed, no core but in tags and vector contexts, no byte that P holds of has, and no
line has been poisoned. -/
structure EngineFrame (P : Nat → Prop) (s t : State) : Prop where
  parts : t.parts = s.parts
  core : ∀ d, ∃ g x, t.core d = { s.core d with tags := g, contexts := x }
  mem : ∀ n, P n → memRead t.mem n = memRead s.mem n
  poison : ∀ l ∈ t.memStat.poison, l ∈ s.memStat.poison

variable {P : Nat → Prop} {s t u : State}

theorem EngineFrame.refl (s : State) : EngineFrame P s s := ⟨rfl, fun _ => ⟨_, _, rfl⟩, fun _ _ => rfl, fun _ h => h⟩

theorem EngineFrame.trans (h : EngineFrame P s t) (g : EngineFrame P t u) : EngineFrame P s u where
  parts := g.parts.trans h.parts
  core d := by
    obtain ⟨g', x', hu⟩ := g.core d
    obtain ⟨g, x, ht⟩ := h.core d
    exact ⟨g', x', by rw [hu, ht]⟩
  mem n hn := (g.mem n hn).trans (h.mem n hn)
  poison l hl := h.poison l (g.poison l hl)

/-- The partition of a core is one of the layouts. -/
theorem partOf_congr (h : t.parts = s.parts) (c : Nat) : t.partOf c = s.partOf c := by
  unfold State.partOf State.partOfShelf State.hasShelf State.part
  rw [h]

/-- A part of a core that neither tags nor contexts are in. -/
theorem EngineFrame.keeps {γ : Type} (h : EngineFrame P s t) (d : Nat) (g : Core → γ)
    (hg : ∀ (k : Core) tags contexts, g { k with tags, contexts } = g k) : g (t.core d) = g (s.core d) := by
  obtain ⟨tags, contexts, hc⟩ := h.core d
  rw [hc, hg]

theorem liftPoison_poison (s : State) (a n : Nat) : ∀ l ∈ (s.liftPoison a n).memStat.poison, l ∈ s.memStat.poison := by
  unfold State.liftPoison
  split
  · exact fun l hl => (List.mem_filter.1 hl).1
  · exact fun l hl => hl

theorem storeRun_poison (s : State) (a : Nat) (bs : List Byte) :
    ∀ l ∈ (s.storeRun a bs).memStat.poison, l ∈ s.memStat.poison := by
  have key : ∀ u : State, Same 0x208044 s u → ∀ l ∈ (u.liftPoison a bs.length).memStat.poison, l ∈ s.memStat.poison :=
    fun u hu l hl => hu.memStat.resolve_left (by decide) ▸ liftPoison_poison u a bs.length l hl
  unfold State.storeRun
  refine key _ (State.dropTags_keeps rfl _ _ _ (Same.put rfl _ _ (kept_foldl _ _ _ (fun u k h => ?_)
    (State.recallFor_keeps rfl s a bs.length true (Same.refl s)))))
  exact kept_ite _ _ _ h (State.updHport_keeps rfl u k _ h)

theorem storeRun_frame {a : Nat} {bs : List Byte} (h : ∀ n, P n → n < a ∨ a + bs.length ≤ n) :
    EngineFrame P s (s.storeRun a bs) where
  parts := (State.storeRun_keeps (fp := 0x20804C) rfl s a bs (Same.refl s)).parts_eq rfl
  core d := (storeRun_core s a bs d).imp fun _ hg => ⟨_, hg⟩
  mem n hn := by rw [State.storeRun_mem, memRead_memPut_outside (h n hn)]
  poison := storeRun_poison s a bs

theorem storeBytes_frame {ws : List (Nat × Byte)} (h : ∀ n, P n → ∀ w ∈ ws, w.1 ≠ n) :
    EngineFrame P s (s.storeBytes ws) where
  parts := (State.storeBytes_keeps (fp := 0x20804C) rfl s ws (Same.refl s)).parts_eq rfl
  core d := (storeBytes_core s ws d).imp fun _ hg => ⟨_, hg⟩
  mem n hn := storeBytes_outside (h n hn)
  poison := foldl_keeps (P := fun u : State => ∀ l ∈ u.memStat.poison, l ∈ s.memStat.poison) _
    (fun u r hu l hl => hu l (storeRun_poison u r.1 r.2 l hl)) _ s fun _ hl => hl

/-! ### VECTOR (R203 to R212) -/

section
variable {v : VecRun} {ecc : Ecc} {c : Nat}

/-- Byte n is none that a store of this VECTOR could write: no byte of a written operand at a position of its lanes. -/
def VecRun.Spares (v : VecRun) (n : Nat) : Prop :=
  ∀ w ∈ v.chk.entry.instrs, vWrites w = true → ∀ d, v.chk.desc (8 + 4 * vSlot w) = some d →
    ∀ rd e (batch : List (Pos × Sys2Proof.Machine.Num)), (∀ y ∈ batch, ∃ iv ∈ indexVectors v.chk.entry.trips,
      ∃ j < v.width, y.1 = lanePos v.chk (8 + 4 * vSlot w) iv j) →
    ∀ b ∈ (d.storeBatch rd e batch).1, addrLocal b.1 ≠ n

/-- The batch of a store stands at positions of its lanes. -/
theorem batch_lanes {iv : List Nat} {w : Word} {en : List Bool} {l : Lanes} :
    ∀ y ∈ (v.batch iv w en l).1, ∃ j < v.width, y.1 = lanePos v.chk (8 + 4 * vSlot w) iv j := by
  intro y hy
  obtain ⟨j, hj, rfl⟩ := List.mem_map.1 hy
  exact ⟨j, List.mem_range.1 (List.mem_filter.1 hj).1, rfl⟩

/-- One instruction leaves every byte that the command's stores spare. -/
theorem instr_frame {iv : List Nat} (hiv : iv ∈ indexVectors v.chk.entry.trips) {tail : List Bool}
    (a : State × Lanes) {w : Word} (hw : w ∈ v.chk.entry.instrs) :
    EngineFrame v.Spares a.1 (v.instr ecc iv tail a w).1 := by
  unfold VecRun.instr
  dsimp only
  split
  · exact .refl a.1
  · split
    · next d _ hd =>
      split
      · exact .refl a.1
      · split
        · next hwrites =>
          refine storeBytes_frame fun n hn b hb => ?_
          obtain ⟨x, hx, rfl⟩ := List.mem_map.1 hb
          exact hn w hw hwrites d hd _ _ _ (fun y hy => ⟨iv, hiv, batch_lanes y hy⟩) x hx
        · exact .refl a.1
    · exact .refl a.1
    · exact .refl a.1

/-- The contexts of a core set. -/
theorem contexts_frame (P : Nat → Prop) (s : State) (c : Nat) (f : Core → Sparse VecCtx) :
    EngineFrame P s (s.updCore c fun x => { x with contexts := f x }) where
  parts := rfl
  core d := by
    rw [State.core_updCore]
    split
    · next e => exact ⟨_, _, by rw [← e]⟩
    · exact ⟨_, _, rfl⟩
  mem _ _ := rfl
  poison _ h := h

theorem iteration_frame {x : List Nat × Nat} (hx : x.1 ∈ indexVectors v.chk.entry.trips) (a : VecAcc) :
    EngineFrame v.Spares a.st (v.iteration ecc c a x).st := by
  unfold VecRun.iteration
  split
  · exact .refl a.st
  · have hrun := List.foldlRecOn (motive := fun r : State × Lanes => EngineFrame v.Spares a.st r.1) v.chk.entry.instrs
      (v.instr ecc x.1 (v.tail x.1)) (b := (a.st, ⟨[], [], 0, [], false⟩)) (.refl a.st)
      fun r hr w hw => hr.trans (instr_frame hx r hw)
    exact hrun.trans (contexts_frame _ _ c fun k => Sparse.put k.contexts (x.2 % 8) (v.leaves _))

theorem iterations_frame (a : VecAcc) : EngineFrame v.Spares a.st
    ((indexVectors v.chk.entry.trips).zipIdx.foldl (v.iteration ecc c) a).st :=
  List.foldlRecOn (motive := fun r : VecAcc => EngineFrame v.Spares a.st r.st) _ _ (.refl a.st)
    fun r hr _ hx => hr.trans (iteration_frame (List.fst_mem_of_mem_zipIdx hx) r)

/-- A VECTOR command whose reads are good holds the engine with the flags of its iterations. -/
theorem runVector_good {s : State} {p : Nat} {k : Checked} {x : VecAcc}
    (hv : v = { chk := k, env := s.envOf c k.entry, wide := k.entry.instrs.any vWide, fn0 := (s.core c).fn0,
                fn1 := (s.core c).fn1 })
    (hx : x = (indexVectors k.entry.trips).zipIdx.foldl (v.iteration ecc c) ⟨s, 0, [], false⟩)
    (hgood : (x.st.readErrors x.reads ecc).2 = none) :
    s.runVector p c k ecc = (x.st.readErrors x.reads ecc).1.vectorRuns c k x.flags stDONE none := by
  unfold State.runVector
  dsimp only
  rw [← hv, ← hx, hgood]

end

/-- A VECTOR command that issues with its tables judged, and is no FNLOAD. -/
theorem exec_vector_runs {core : Fin 512} {ecc : Ecc} {s : State} {p : Nat} {k : Checked} (h : s.Issues p core k)
    (h2 : k.entry.kind = 2) (ht : k.entry.namesTable = true → (s.core core).fnChecked = true)
    (hf : k.entry.isFnload = false) : exec (.vector core ecc) s = .next ((s.popHead core).runVector p core k ecc) := by
  refine congrArg Host.Outcome.next ((issue_runs (want := fun e => e.kind == 2) h (beq_iff_eq.2 h2)).trans ?_)
  rw [if_neg, if_neg (by rw [hf]; exact Bool.false_ne_true)]
  intro hand
  obtain ⟨hnames, hnot⟩ := Bool.and_eq_true_iff.1 hand
  rw [ht hnames] at hnot
  exact Bool.false_ne_true hnot

theorem vectorRuns_core (s : State) (c : Nat) (k : Checked) (flags status : Half) (image : Option (Nat × List Word))
    (d : Nat) : (s.vectorRuns c k flags status image).core d = if c = d then { s.core c with
      vector := some { chk := k, flags, status, image } } else s.core d := State.core_updCore ..

/-- Settles O25: the iterations run from the queue without its head, and what their stores spare stays. -/
theorem vectorRunsItsIterations : Obligations.VectorRunsItsIterations := by
  intro core ecc s p k h h2 ht hf v hv x hx hgood
  have hv' : v = { chk := k, env := (s.popHead core).envOf core k.entry, wide := k.entry.instrs.any vWide,
                   fn0 := ((s.popHead core).core core).fn0, fn1 := ((s.popHead core).core core).fn1 } := by
    rw [hv, popHead_core_self]
    rfl
  have hchk : v.chk = k := by rw [hv]
  have hexec := (exec_vector_runs (ecc := ecc) h h2 ht hf).trans (congrArg _ (runVector_good hv' hx hgood))
  have hread := readErrors_same x.st x.reads ecc
  have hframe : EngineFrame v.Spares (s.popHead core) x.st := by
    rw [hx, ← hchk]
    exact iterations_frame (v := v) ⟨s.popHead core, 0, [], false⟩
  refine ⟨_, { chk := k, flags := x.flags, status := stDONE, image := none }, hexec,
    (congrArg Core.vector (vectorRuns_core ..)).trans ?_, rfl, rfl, rfl, hread.mem_eq rfl, rfl, ?_, ?_, ?_, ?_,
    (hread.parts_eq rfl).trans hframe.parts, fun c hc => ?_, fun n hn => ?_⟩
  · rw [if_pos rfl]
  · rw [vectorRuns_core, if_pos rfl, hread.core_eq rfl]
  · rw [vectorRuns_core, if_pos rfl, hread.core_eq rfl]
    exact (hframe.keeps core Core.queue fun _ _ _ => rfl).trans (by rw [popHead_core_self])
  · rw [vectorRuns_core, if_pos rfl, hread.core_eq rfl]
    exact (hframe.keeps core Core.tallies fun _ _ _ => rfl).trans (by rw [popHead_core_self])
  · rw [vectorRuns_core, if_pos rfl, hread.core_eq rfl]
    exact (hframe.keeps core Core.fn0 fun _ _ _ => rfl).trans (by rw [popHead_core_self])
  · rw [vectorRuns_core, if_neg (Ne.symm hc), hread.core_eq rfl]
    refine ⟨(hframe.keeps c Core.queue fun _ _ _ => rfl).trans ?_, (hframe.keeps c Core.vector fun _ _ _ =>
      rfl).trans ?_,
      (hframe.keeps c Core.tallies fun _ _ _ => rfl).trans ?_⟩ <;> rw [popHead_core_other s hc]
  · exact (congrArg (memRead · n) (hread.mem_eq rfl)).trans (hframe.mem n (by rw [VecRun.Spares, hchk]; exact hn))

/-! ### Function tables (R221, R223, R224, R630) -/

theorem exec_fnTableCheck {core : Fin 512} {s : State} {p : Nat} {k : Checked} (h : s.Issues p core k)
    (h2 : k.entry.kind = 2) (hc : (s.core core).fnChecked = false) : exec (.fnTableCheck core) s = .next
      (if (s.core core).tablesLoaded k.entry then s.updCore core fun x => { x with fnChecked := true }
       else (s.popHead core).complete p core k.entry stCONFIG 0 false) := by
  obtain ⟨hr, hn, hh, _⟩ := h
  show execFnTableCheck core s = _
  unfold execFnTableCheck
  dsimp only
  rw [hr]
  dsimp only
  rw [if_pos]
  rw [h2, hn, hc, hh]
  rfl

/-- An FNLOAD whose image reads well: the engine holds the image that passes its checks, or the status of one that
fails them. -/
theorem runFnload_good {s : State} {p c : Nat} {k : Checked} {ecc : Ecc} {w : Word} {d : Desc}
    (hw : k.entry.instrs = [w]) (hop : vOp w = 25) (hd : k.desc (8 + 4 * vSlot w) = some d)
    (hgood : s.badRead ecc (tableRanges d) = false) : s.runFnload p c k ecc =
      if tableOk (s.tableImage d) then
        (s.readErrors (tableRanges d) ecc).1.vectorRuns c k 0 stDONE (some (vB w % 2, s.tableImage d))
      else (s.readErrors (tableRanges d) ecc).1.vectorRuns c k 0 stCONFIG none := by
  have hfind : (k.entry.instrs.find? fun w => vOp w == 25) = some w := by
    rw [hw]
    exact List.find?_cons_of_pos (beq_iff_eq.2 hop)
  unfold State.runFnload
  rw [hfind]
  dsimp only
  rw [hd]
  dsimp only
  rw [readErrors_good hgood]

theorem exec_vector_fnload {core : Fin 512} {ecc : Ecc} {s : State} {p : Nat} {k : Checked} {w : Word}
    (h : s.Issues p core k) (h2 : k.entry.kind = 2) (hw : k.entry.instrs = [w]) (hop : vOp w = 25) :
    exec (.vector core ecc) s = .next ((s.popHead core).runFnload p core k ecc) := by
  refine congrArg Host.Outcome.next ((issue_runs (want := fun e => e.kind == 2) h (beq_iff_eq.2 h2)).trans ?_)
  have hnames : k.entry.namesTable = false := by simp [Entry.namesTable, hw, hop]
  have hload : k.entry.isFnload = true := by simp [Entry.isFnload, hw, hop]
  rw [hnames, hload]
  rfl

/-- The vector engine's command completes: the engine is free, and a table takes the image that was loaded. -/
theorem finishVector_effect {s : State} {c : Nat} {r : EngineRun} (hr : (s.core c).vector = some r) (p : Nat) :
    ((s.finishVector p c).core c).vector = none ∧
      ((s.finishVector p c).core c).fn0 = (match r.image with | some (0, t) => some t | _ => (s.core c).fn0) ∧
      ((s.finishVector p c).core c).fn1 = (match r.image with | some (1, t) => some t | _ => (s.core c).fn1) := by
  unfold State.finishVector
  rw [hr]
  dsimp only
  refine ⟨(complete_keeps_core Core.vector _ _ _ _ _ _ _ _ fun _ _ _ _ _ _ _ => rfl).trans ?_,
    (complete_keeps_core Core.fn0 _ _ _ _ _ _ _ _ fun _ _ _ _ _ _ _ => rfl).trans ?_,
    (complete_keeps_core Core.fn1 _ _ _ _ _ _ _ _ fun _ _ _ _ _ _ _ => rfl).trans ?_⟩ <;>
    rw [State.core_updCore, if_pos rfl] <;> rfl

theorem exec_commandComplete {core : Fin 512} {s : State} {p : Nat} (hp : s.partOf core = some p) (e : Engine)
    (landing : Half) : exec (.commandComplete core e landing) s = .next (match e with
      | .tensor => s.finishTensor p core
      | .vector => s.finishVector p core
      | .row => s.finishRow p core
      | .mover => s.finishMover p core landing
      | .hubColl resv => s.finishColl core resv.toNat) := by
  show Host.Outcome.next (s.engineComplete core e landing) = _
  cases e <;> simp only [State.engineComplete, hp]

/-- Settles O24: the check of the tables, and FNLOAD to its completion. -/
theorem functionTables : Obligations.FunctionTables := by
  intro core ecc s p k h h2
  refine ⟨fun hc hl => (exec_fnTableCheck h h2 hc).trans (congrArg _ (if_pos hl)), fun hc hl => ?_,
    fun w d hw hop hd hgood => ?_⟩
  · rw [exec_fnTableCheck h h2 hc, hl]
    rfl
  · have hexec := (exec_vector_fnload (ecc := ecc) h h2 hw hop).trans
      (congrArg _ (runFnload_good hw hop hd (s := s.popHead core) hgood))
    have himage : (s.popHead core).tableImage d = s.tableImage d := rfl
    have hread := readErrors_same (s.popHead core) (tableRanges d) ecc
    have hcore : ∀ flags status image, ((((s.popHead core).readErrors (tableRanges d) ecc).1.vectorRuns core k flags
        status image).core core) = { (s.popHead core).core core with vector := some ⟨k, flags, status, image⟩ } :=
      fun flags status image => by rw [vectorRuns_core, if_pos rfl, hread.core_eq rfl]
    rw [himage] at hexec
    cases hok : tableOk (s.tableImage d) with
    | true =>
      rw [hok, if_pos rfl] at hexec
      have hvec := congrArg Core.vector (hcore 0 stDONE (some (vB w % 2, s.tableImage d)))
      refine ⟨_, _, hexec, hvec, rfl, hread.mem_eq rfl, ?_, ?_, fun _ =>
        ⟨rfl, rfl, _, ?_, (finishVector_effect hvec p).1,
        ?_⟩, fun hno => absurd hno Bool.noConfusion⟩
      · rw [hcore, popHead_core_self]
      · rw [hcore, popHead_core_self]
      · refine exec_commandComplete (e := .vector) ?_ 0
        exact (partOf_congr (hread.parts_eq rfl) core).trans (ready_iff.1 h.1).1
      · obtain ⟨_, h0, h1⟩ := finishVector_effect hvec p
        rw [h0, h1]
        obtain hb | hb := Nat.mod_two_eq_zero_or_one (vB w) <;> rw [hb] <;> rfl
    | false =>
      rw [hok, if_neg Bool.false_ne_true] at hexec
      refine ⟨_, _, hexec, congrArg Core.vector (hcore 0 stCONFIG none), rfl, hread.mem_eq rfl, ?_, ?_,
        fun hyes => absurd hyes Bool.noConfusion, fun _ => ⟨rfl, rfl⟩⟩
      · rw [hcore, popHead_core_self]
      · rw [hcore, popHead_core_self]

/-! ### Tags of the side memory (R233) -/

/-- From s to t core c has no tag that it did not have. -/
def TagsWithin (c : Nat) (s t : State) : Prop :=
  ∀ i v, Sparse.find (t.core c).tags i = some v → Sparse.find (s.core c).tags i = some v

/-- An entry found among those that a test of keys leaves was there before. -/
theorem find_filter_key {α : Type} {m : Sparse α} {f : Nat → Bool} {i : Nat} {v : α}
    (h : Sparse.find (m.filter fun x => f x.1) i = some v) : f i = true ∧ Sparse.find m i = some v := by
  induction m with
  | nil => exact nomatch h
  | cons x m ih =>
    obtain ⟨k, y⟩ := x
    cases hf : f k with
    | true =>
      rw [List.filter_cons_of_pos (p := fun x : Nat × α => f x.1) hf] at h
      by_cases hk : k = i
      · subst hk
        simp only [Sparse.find, if_pos] at h ⊢
        exact ⟨hf, h⟩
      · simp only [Sparse.find, if_neg hk] at h ⊢
        exact ih h
    | false =>
      rw [List.filter_cons_of_neg (p := fun x : Nat × α => f x.1) (by rw [hf]; exact Bool.false_ne_true)] at h
      obtain ⟨hi, hfind⟩ := ih h
      have hk : k ≠ i := fun e => Bool.false_ne_true (hf.symm.trans (e ▸ hi))
      simp only [Sparse.find, if_neg hk]
      exact ⟨hi, hfind⟩

theorem TagsWithin.refl (c : Nat) (s : State) : TagsWithin c s s := fun _ _ h => h

theorem TagsWithin.trans {c : Nat} {s t u : State} (h : TagsWithin c s t) (g : TagsWithin c t u) : TagsWithin c s u :=
  fun i v hi => h i v (g i v hi)

theorem TagsWithin.of_core {c : Nat} {s t : State} (h : t.core c = s.core c) : TagsWithin c s t := fun i v hi => by
  rwa [h] at hi

theorem dropTags_within (s : State) (a n c : Nat) : TagsWithin c s (s.dropTags a n) := by
  unfold State.dropTags
  dsimp only
  split
  · split
    · intro i v hi
      rw [State.core_updCore] at hi
      split at hi
      · next e =>
        subst e
        exact (find_filter_key (f := fun k => !(decide ((addrOffset a % 2 ^ 23 - 0x600000) / 8 ≤ k) &&
          decide (k < (addrOffset a % 2 ^ 23 + n - 0x600000 + 7) / 8))) hi).2
      · exact hi
    · exact .refl c s
  · exact .refl c s

theorem storeRun_within (s : State) (a : Nat) (bs : List Byte) (c : Nat) : TagsWithin c s (s.storeRun a bs) := by
  have key : ∀ u : State, Same 0x208004 s u → TagsWithin c s ((u.dropTags a bs.length).liftPoison a bs.length) :=
    fun u hu => (TagsWithin.of_core (hu.core_eq rfl c)).trans ((dropTags_within u a bs.length c).trans
      (.of_core ((State.liftPoison_keeps (fp := 0x8) rfl _ _ _ (Same.refl _)).core_eq rfl c)))
  unfold State.storeRun
  refine key _ (Same.put rfl _ _ (kept_foldl _ _ _ (fun u k h => ?_)
    (State.recallFor_keeps rfl s a bs.length true (Same.refl s))))
  exact kept_ite _ _ _ h (State.updHport_keeps rfl u k _ h)

theorem storeBytes_within (s : State) (ws : List (Nat × Byte)) (c : Nat) : TagsWithin c s (s.storeBytes ws) :=
  foldl_keeps (P := TagsWithin c s) _ (fun u r hu => hu.trans (storeRun_within u r.1 r.2 c)) _ s (.refl c s)

/-! ### ROW (R227 to R234, R248 to R251) -/

section
variable {c : Nat} {k : Checked} {e : Env} {x y : Desc}

/-- Byte n is none that this ROW command could write: none of Y at the positions of its rows, and, forward, none of the
side-memory entries it names. -/
def RowSpares (c : Nat) (k : Checked) (y : Desc) (n : Nat) : Prop :=
  (∀ rd e (batch : List (Pos × Sys2Proof.Machine.Num)), (∀ b ∈ batch, ∃ iv ∈ indexVectors k.entry.trips,
    ∃ q < 2, ∃ j, b.1 = rowPos k 12 q iv j) → ∀ w ∈ (y.storeBatch rd e batch).1, addrLocal w.1 ≠ n) ∧
  (k.entry.rowOp < 8 → ∀ i < (indexVectors k.entry.trips).length,
    n < sideAddr c (k.entry.rowBase + i) ∨ sideAddr c (k.entry.rowBase + i) + 8 ≤ n)

/-- What one row writes of Y stands at the positions of the row. -/
theorem writeRow_frame {iv : List Nat} (hiv : iv ∈ indexVectors k.entry.trips) (s : State) (o : RowOut) :
    EngineFrame (RowSpares c k y) s (s.writeRow k e y iv o).1 := by
  unfold State.writeRow
  refine storeBytes_frame fun n hn w hw => ?_
  obtain ⟨b, hb, rfl⟩ := List.mem_map.1 hw
  refine hn.1 _ _ _ (fun z hz => ⟨iv, hiv, ?_⟩) b hb
  obtain hz | hz := List.mem_append.1 hz
  · obtain ⟨v, _, rfl⟩ := List.mem_map.1 hz
    exact ⟨0, by decide, v.2, rfl⟩
  · split at hz
    · obtain ⟨v, _, rfl⟩ := List.mem_map.1 hz
      exact ⟨1, by decide, v.2, rfl⟩
    · exact nomatch hz

theorem tags_frame (P : Nat → Prop) (s : State) (c : Nat) (f : Core → Sparse Nat) :
    EngineFrame P s (s.updCore c fun x => { x with tags := f x }) where
  parts := rfl
  core d := by
    rw [State.core_updCore]
    split
    · next e => exact ⟨_, _, by rw [← e]⟩
    · exact ⟨_, _, rfl⟩
  mem _ _ := rfl
  poison _ h := h

/-- What row r computes of the state that the rows before it left. -/
def rowOut (c : Nat) (k : Checked) (e : Env) (x y : Desc) (s : State) (r : List Nat × Nat) : RowOut :=
  rowCompute k (memReader s.mem) e x r.1 y.key (f32 (memWord s.mem (sideAddr c (k.entry.rowBase + r.2))))
    (f32 (memWord s.mem (sideAddr c (k.entry.rowBase + r.2) + 4)))

/-- The side-memory entry and the tag that a forward row writes. -/
def State.tagRow (s : State) (c : Nat) (k : Checked) (i : Nat) (o : RowOut) : State :=
  (s.storeRun (sideAddr c (k.entry.rowBase + i)) (leBytes 4 o.stat0.toNat ++ leBytes 4 o.stat1.toNat)).updCore c
    fun q => { q with tags := Sparse.put q.tags (k.entry.rowBase + i) k.entry.rowCtx }

theorem rowStep_ended {a : RowState} (h : a.status ≠ stDONE) (r : List Nat × Nat) : rowStep c k e x y a r = a :=
  if_pos h

theorem rowStep_mismatch {a : RowState} {r : List Nat × Nat} (h : a.status = stDONE) (hb : 8 ≤ k.entry.rowOp)
    (ht : Sparse.find (a.st.core c).tags (k.entry.rowBase + r.2) ≠ some k.entry.rowCtx) :
    rowStep c k e x y a r = { a with status := stSIDE_TAG } := by
  unfold rowStep
  rw [if_neg (not_not.2 h)]
  refine if_pos ?_
  rw [decide_eq_true hb]
  exact bne_iff_ne.2 ht

theorem rowStep_back {a : RowState} {r : List Nat × Nat} (h : a.status = stDONE) (hb : 8 ≤ k.entry.rowOp)
    (ht : Sparse.find (a.st.core c).tags (k.entry.rowBase + r.2) = some k.entry.rowCtx) :
    rowStep c k e x y a r = { a with
      st := (a.st.writeRow k e y r.1 (rowOut c k e x y a.st r)).1,
      flags := a.flags ||| (rowOut c k e x y a.st r).flags ||| (a.st.writeRow k e y r.1 (rowOut c k e x y a.st r)).2,
      rows := a.rows + 1 } := by
  unfold rowStep
  rw [if_neg (not_not.2 h), decide_eq_true hb]
  dsimp only
  rw [if_neg, if_pos rfl]
  · rfl
  · rw [ht, Bool.true_and]
    exact fun h => bne_iff_ne.1 h rfl

theorem rowStep_forward {a : RowState} {r : List Nat × Nat} (h : a.status = stDONE) (hf : k.entry.rowOp < 8) :
    rowStep c k e x y a r = { a with
      st := (a.st.writeRow k e y r.1 (rowOut c k e x y a.st r)).1.tagRow c k r.2 (rowOut c k e x y a.st r),
      flags := a.flags ||| (rowOut c k e x y a.st r).flags ||| (a.st.writeRow k e y r.1 (rowOut c k e x y a.st r)).2,
      rows := a.rows + 1 } := by
  unfold rowStep
  rw [if_neg (not_not.2 h), decide_eq_false (not_le.2 hf)]
  rfl

theorem tagRow_frame (s : State) {i : Nat} (hi : i < (indexVectors k.entry.trips).length) (hf : k.entry.rowOp < 8)
    (o : RowOut) : EngineFrame (RowSpares c k y) s (s.tagRow c k i o) := by
  refine (storeRun_frame fun n hn => ?_).trans (tags_frame _ _ c _)
  rw [List.length_append, length_leBytes, length_leBytes]
  exact hn.2 hf i hi

/-- One row leaves what the command spares. -/
theorem rowStep_frame {r : List Nat × Nat} (hr : r ∈ (indexVectors k.entry.trips).zipIdx) (a : RowState) :
    EngineFrame (RowSpares c k y) a.st (rowStep c k e x y a r).st := by
  have hiv := List.fst_mem_of_mem_zipIdx hr
  have hlt := List.snd_lt_of_mem_zipIdx hr
  rw [Nat.add_zero] at hlt
  by_cases h : a.status = stDONE
  · by_cases hf : k.entry.rowOp < 8
    · rw [rowStep_forward h hf]
      dsimp only
      exact (writeRow_frame hiv a.st _).trans (tagRow_frame _ hlt hf _)
    · by_cases ht : Sparse.find (a.st.core c).tags (k.entry.rowBase + r.2) = some k.entry.rowCtx
      · rw [rowStep_back h (not_lt.1 hf) ht]
        exact writeRow_frame hiv a.st _
      · rw [rowStep_mismatch h (not_lt.1 hf) ht]
        exact .refl a.st
  · rw [rowStep_ended h]
    exact .refl a.st

theorem rows_frame (a : RowState) : EngineFrame (RowSpares c k y) a.st
    ((indexVectors k.entry.trips).zipIdx.foldl (rowStep c k e x y) a).st :=
  List.foldlRecOn (motive := fun r : RowState => EngineFrame (RowSpares c k y) a.st r.st) _ _ (.refl a.st)
    fun r hr _ hx => hr.trans (rowStep_frame hx r)

/-- A forward row ends with DONE, and tags its entry. -/
theorem rowStep_tags {a : RowState} (h : a.status = stDONE) (hf : k.entry.rowOp < 8) (r : List Nat × Nat) :
    (rowStep c k e x y a r).status = stDONE ∧
      Sparse.find ((rowStep c k e x y a r).st.core c).tags (k.entry.rowBase + r.2) = some k.entry.rowCtx := by
  rw [rowStep_forward h hf]
  refine ⟨h, ?_⟩
  show Sparse.find (State.core (State.tagRow ..) c).tags _ = _
  rw [State.tagRow, State.core_updCore, if_pos rfl]
  exact (Sparse.find_put ..).trans (if_pos rfl)

theorem rows_forward {a : RowState} (h : a.status = stDONE) (hf : k.entry.rowOp < 8) (rs : List (List Nat × Nat)) :
    (rs.foldl (rowStep c k e x y) a).status = stDONE :=
  foldl_keeps (P := fun a : RowState => a.status = stDONE) _ (fun _ r ha => (rowStep_tags ha hf r).1) rs a h

/-- After the last row of a forward command its tag stands. -/
theorem rows_last_tag {a : RowState} (h : a.status = stDONE) (hf : k.entry.rowOp < 8) {l : List (List Nat)} {i : Nat}
    (hi : i + 1 = l.length) :
    Sparse.find ((l.zipIdx.foldl (rowStep c k e x y) a).st.core c).tags (k.entry.rowBase + i) =
      some k.entry.rowCtx := by
  obtain ⟨init, last, rfl⟩ : ∃ init last, l = init ++ [last] :=
    (List.eq_nil_or_concat' l).elim (fun h => by rw [h] at hi; exact absurd hi (by simp)) id
  have hlen : init.length = i := by
    rw [List.length_append] at hi
    exact (Nat.succ.inj hi).symm
  rw [List.zipIdx_append, List.foldl_append, hlen, Nat.zero_add]
  exact (rowStep_tags (rows_forward h hf init.zipIdx) hf (last, i)).2

/-- A backward row adds no tag and ends with DONE or SIDE_TAG_MISMATCH, the latter where the tag it needs is another. -/
theorem rowStep_backward {s : State} {a : RowState} (hb : 8 ≤ k.entry.rowOp) (ha : TagsWithin c s a.st)
    (hst : a.status = stDONE ∨ a.status = stSIDE_TAG) (r : List Nat × Nat) :
    TagsWithin c s (rowStep c k e x y a r).st ∧
      ((rowStep c k e x y a r).status = stDONE ∨ (rowStep c k e x y a r).status = stSIDE_TAG) ∧
      (a.status = stSIDE_TAG ∨ Sparse.find (s.core c).tags (k.entry.rowBase + r.2) ≠ some k.entry.rowCtx →
        (rowStep c k e x y a r).status = stSIDE_TAG) := by
  obtain h | h := hst
  · by_cases ht : Sparse.find (a.st.core c).tags (k.entry.rowBase + r.2) = some k.entry.rowCtx
    · rw [rowStep_back h hb ht]
      refine ⟨ha.trans (storeBytes_within _ _ _), .inl h, fun hor => ?_⟩
      obtain hs | hs := hor
      · rw [h] at hs
        exact absurd hs (by decide)
      · exact absurd (ha _ _ ht) hs
    · rw [rowStep_mismatch h hb ht]
      exact ⟨ha, .inr rfl, fun _ => rfl⟩
  · rw [rowStep_ended (by rw [h]; decide)]
    exact ⟨ha, .inr h, fun _ => h⟩

theorem rows_backward {s : State} (hb : 8 ≤ k.entry.rowOp) (rs : List (List Nat × Nat)) {a : RowState}
    (ha : TagsWithin c s a.st) (hst : a.status = stDONE ∨ a.status = stSIDE_TAG)
    (hbad : a.status = stSIDE_TAG ∨ ∃ r ∈ rs, Sparse.find (s.core c).tags (k.entry.rowBase + r.2) ≠
      some k.entry.rowCtx) :
    (rs.foldl (rowStep c k e x y) a).status = stSIDE_TAG := by
  induction rs generalizing a with
  | nil => exact hbad.elim id fun ⟨_, h, _⟩ => nomatch h
  | cons r rs ih =>
    obtain ⟨hw, hst', hside⟩ := rowStep_backward (e := e) (x := x) (y := y) hb ha hst r
    refine ih hw hst' ?_
    obtain h | ⟨q, hq, hne⟩ := hbad
    · exact .inl (hside (.inl h))
    · obtain rfl | hq := List.mem_cons.1 hq
      · exact .inl (hside (.inr hne))
      · exact .inr ⟨q, hq, hne⟩

/-- A backward command with one row whose tag differs ends with SIDE_TAG_MISMATCH. -/
theorem rows_mismatch {s : State} (hb : 8 ≤ k.entry.rowOp) {a : RowState} (ha : TagsWithin c s a.st)
    (hst : a.status = stDONE) {l : List (List Nat)} {n : Nat} (hlt : n < l.length)
    (hne : Sparse.find (s.core c).tags (k.entry.rowBase + n) ≠ some k.entry.rowCtx) :
    (l.zipIdx.foldl (rowStep c k e x y) a).status = stSIDE_TAG :=
  have hmem : (l[n], n) ∈ l.zipIdx := List.mk_mem_zipIdx_iff_getElem?.2 (List.getElem?_eq_getElem hlt)
  rows_backward hb l.zipIdx ha (.inl hst) (.inr ⟨(l[n], n), hmem, hne⟩)

/-- A ROW command whose reads are good holds its engine with what its rows came to. -/
theorem runRow_good {s : State} {p : Nat} {ecc : Ecc} {z : RowState} (hx : k.desc 8 = some x) (hy : k.desc 12 = some y)
    (hgood : ∀ iv ∈ indexVectors k.entry.trips, s.badRead ecc (rowReads k iv) = false)
    (hz : z = (indexVectors k.entry.trips).zipIdx.foldl (rowStep c k (s.envOf c k.entry) x y) ⟨s, 0, stDONE, 0⟩) :
    ∃ u, Same 0x8 z.st u ∧ s.runRow p c k ecc = u.updCore c fun q => { q with
      row := some { chk := k, flags := z.flags, status := z.status, image := none } } := by
  have hall : s.goodIterations ecc (rowReads k) (indexVectors k.entry.trips) = indexVectors k.entry.trips := by
    refine List.takeWhile_eq_self_iff.2 fun iv hiv => ?_
    rw [hgood iv hiv]
    rfl
  have hpoison : ∀ l ∈ z.st.memStat.poison, l ∈ s.memStat.poison := hz ▸ (rows_frame _).poison
  have hreads : ∀ n, (z.st.readErrors (((indexVectors k.entry.trips).take n).flatMap (rowReads k)) ecc).2 = none :=
    fun n => readErrors_good (badRead_flatMap hpoison fun iv hiv => hgood iv (List.mem_of_mem_take hiv))
  refine ⟨_, readErrors_same z.st (((indexVectors k.entry.trips).take (if z.status ≠ stDONE then z.rows
    else (indexVectors k.entry.trips).length + 1)).flatMap (rowReads k)) ecc, ?_⟩
  unfold State.runRow
  rw [hx, hy]
  dsimp only
  rw [hall, ← hz]
  by_cases hst : z.status ≠ stDONE
  · rw [if_pos hst, if_pos hst, if_pos hst]
  · rw [if_neg hst, if_neg hst, if_neg hst, hreads]

end

theorem rowOp_runs {s : State} {p c : Nat} {k : Checked} (h : s.Issues p c k) (h3 : k.entry.kind = 3) {op : Nat}
    (hop : k.entry.rowOp = op) (ecc : Ecc) : s.rowOp c op ecc = (s.popHead c).runRow p c k ecc :=
  issue_runs h (Bool.and_eq_true_iff.2 ⟨beq_iff_eq.2 h3, beq_iff_eq.2 hop⟩)

/-- Each ROW command runs the operation that its entry names. -/
theorem exec_row {core : Fin 512} {ecc : Ecc} {s : State} {p : Nat} {k : Checked} {c : Instr} (h : s.Issues p core k)
    (h3 : k.entry.kind = 3) (hc : (c = .layernormFwd core ecc ∧ k.entry.rowOp = 0) ∨
      (c = .rmsnormFwd core ecc ∧ k.entry.rowOp = 1) ∨ (c = .softmaxFwd core ecc ∧ k.entry.rowOp = 2) ∨
      (c = .layernormBwd core ecc ∧ k.entry.rowOp = 8) ∨ (c = .rmsnormBwd core ecc ∧ k.entry.rowOp = 9) ∨
      (c = .softmaxBwd core ecc ∧ k.entry.rowOp = 10)) :
    exec c s = .next ((s.popHead core).runRow p core k ecc) := by
  obtain ⟨rfl, hop⟩ | ⟨rfl, hop⟩ | ⟨rfl, hop⟩ | ⟨rfl, hop⟩ | ⟨rfl, hop⟩ | ⟨rfl, hop⟩ := hc <;>
    exact congrArg Host.Outcome.next (rowOp_runs h h3 hop ecc)

/-- Settles O26: the rows run from the queue without its head; tags by the last row, the status by the first that
differs. -/
theorem rowCommandsRunTheirRows : Obligations.RowCommandsRunTheirRows := by
  intro core ecc s p k x y c h h3 hx hy hc hgood
  generalize hz : (indexVectors k.entry.trips).zipIdx.foldl (rowStep core k ((s.popHead core).envOf core k.entry) x y)
    ⟨s.popHead core, 0, stDONE, 0⟩ = z
  obtain ⟨u, hsame, hrun⟩ := runRow_good (s := s.popHead core) (p := p) (ecc := ecc) hx hy hgood hz.symm
  have hframe : EngineFrame (RowSpares core k y) (s.popHead core) z.st := by
    rw [← hz]
    exact rows_frame ⟨s.popHead core, 0, stDONE, 0⟩
  have hpop : TagsWithin core s (s.popHead core) := fun i v hi => by
    rw [popHead_core_self] at hi
    exact hi
  have hmiss : 8 ≤ k.entry.rowOp → (∃ n < (indexVectors k.entry.trips).length,
      Sparse.find (s.core core).tags (k.entry.rowBase + n) ≠ some k.entry.rowCtx) → z.status = stSIDE_TAG := by
    rintro hb ⟨n, hlt, hne⟩
    rw [← hz]
    exact rows_mismatch (s := s) hb hpop rfl hlt hne
  have hlast : k.entry.rowOp < 8 → ∀ i, i + 1 = (indexVectors k.entry.trips).length →
      Sparse.find (z.st.core core).tags (k.entry.rowBase + i) = some k.entry.rowCtx := by
    intro hf i hi
    rw [← hz]
    exact rows_last_tag rfl hf hi
  have hcore := hsame.core_eq rfl
  refine ⟨_, { chk := k, flags := z.flags, status := z.status, image := none }, (exec_row h h3 hc).trans
    (congrArg _ hrun),
    ?_, rfl, fun z' hz' => ?_, fun hf i hi => ?_, fun hb hbad => ?_, ?_, ?_, (hsame.parts_eq rfl).trans hframe.parts,
    fun d hd => ?_, fun n hn hside => ?_⟩
  · rw [State.core_updCore, if_pos rfl]
  · obtain rfl : z' = z := hz'.trans hz
    rw [State.core_updCore, if_pos rfl, hcore]
    exact ⟨hsame.mem_eq rfl, rfl, rfl, rfl⟩
  · rw [State.core_updCore, if_pos rfl, hcore]
    exact hlast hf i hi
  · exact hmiss hb hbad
  · rw [State.core_updCore, if_pos rfl, hcore]
    exact (hframe.keeps core Core.queue fun _ _ _ => rfl).trans (by rw [popHead_core_self])
  · rw [State.core_updCore, if_pos rfl, hcore]
    exact (hframe.keeps core Core.tallies fun _ _ _ => rfl).trans (by rw [popHead_core_self])
  · rw [State.core_updCore, if_neg (Ne.symm hd), hcore]
    refine ⟨(hframe.keeps d Core.queue fun _ _ _ => rfl).trans ?_, (hframe.keeps d Core.row fun _ _ _ =>
      rfl).trans ?_⟩ <;>
      rw [popHead_core_other s hd]
  · exact (congrArg (memRead · n) (hsame.mem_eq rfl)).trans (hframe.mem n ⟨hn, hside⟩)

end Sys2Proof.Machine
end


section
/-! SUPPORT. Proofs/Streams.lean: the stream fetcher of a core. -/

namespace Sys2Proof.Machine

theorem Fetcher.norm_base (f : Fetcher) : f.norm.base = f.base := by
  unfold Fetcher.norm
  split
  · split <;> rfl
  · rfl

theorem State.core_setFetch_self (s : State) (c : Nat) (f : Fetcher) :
    (s.setFetch c f).core c = { s.core c with fetch := some f } := by
  rw [State.setFetch, State.core_updCore, if_pos rfl]

section
variable {s : State} {c p : Nat} {pat : Pattern} {x : Fetcher} {f : State → Nat → Pattern → Fetcher → State}
  (hp : s.partOf c = some p) (hpat : (s.part p).pattern = some pat) (hrun : (s.part p).patState = .running)
  (hact : (s.part p).active = true) (hx : (s.core c).fetch = some x)

include hp hpat hrun hact hx

theorem fetchStep_running : s.fetchStep c f =
    if s.lineHeld (x.norm.base + 4 * x.norm.pos) (4 * s.fetchWords x.norm) false
    then s.recallFor (x.norm.base + 4 * x.norm.pos) (4 * s.fetchWords x.norm) false else f s p pat x.norm := by
  unfold State.fetchStep
  rw [hp, hx, x.norm_base]
  dsimp only
  rw [hpat]
  dsimp only
  exact if_neg fun h => h.elim (· hrun) fun h => by simp [hact] at h

theorem fetchStep_held (h : s.lineHeld (x.norm.base + 4 * x.norm.pos) (4 * s.fetchWords x.norm) false = true) :
    s.fetchStep c f = s.recallFor (x.norm.base + 4 * x.norm.pos) (4 * s.fetchWords x.norm) false :=
  (fetchStep_running hp hpat hrun hact hx).trans (if_pos h)

theorem fetchStep_runs (h : s.lineHeld (x.norm.base + 4 * x.norm.pos) (4 * s.fetchWords x.norm) false = false) :
    s.fetchStep c f = f s p pat x.norm :=
  (fetchStep_running hp hpat hrun hact hx).trans (if_neg (by rw [h]; exact Bool.false_ne_true))

end

/-- The block at which a fetcher stands. -/
def State.blockAt (s : State) (f : Fetcher) : Entry :=
  let n := fld (s.streamWord f f.pos) 21 7
  let start := s.streamWord f (f.pos + n)
  { words := (List.range n).map fun i => s.streamWord f (f.pos + i),
    startWords := fld start 0 7, badMagic := fld start 16 16 != 0x5354, fromStream := true,
    segClass := match f.seg with | some x => x.2.1 | none => 0 }

/-- Settles O30: a fetcher whose words are there does what the row says; else it recalls their lines. -/
theorem streamFetcher : Obligations.StreamFetcher := by
  intro core s p pat x f hp hpat hrun hact hx rfl
  refine ⟨fun hheld c hc => ?_, fun hfree => ?_⟩
  · obtain rfl | rfl | rfl | rfl | rfl | rfl := hc <;>
      exact congrArg Host.Outcome.next (fetchStep_held hp hpat hrun hact hx hheld)
  · have runs : ∀ f, s.fetchStep core f = f s p pat x.norm := fun f => fetchStep_runs hp hpat hrun hact hx hfree
    generalize x.norm = f at *
    have ends : f.wait = .go ∨ f.wait = .endStep → s.atControl f 4 = true →
        ¬ ((f.wait ≠ .go ∧ f.wait ≠ .endStep) ∨ !s.atControl f 4) := by
      rintro hw hat (⟨h, h'⟩ | h)
      · exact hw.elim h h'
      · rw [hat] at h
        exact Bool.false_ne_true h
    refine ⟨fun hgo hlt hw hq => ?_, fun hq => ?_, fun hgo hat => ?_, fun hw hslip hlt => ?_, fun hw hlt => ?_,
      fun hgo hat hstep => ?_, fun hgo hat => ?_, fun b hb hw hat hnext hdrain => ?_, fun b hb hw hat hend => ?_⟩
    · refine ⟨_, s.blockAt f,
        congrArg Host.Outcome.next ((runs _).trans (if_neg fun h => ?_)), ?_, rfl, rfl, rfl, ?_, rfl, rfl,
        fun d hd => ?_⟩
      · obtain h | h | h | h := h
        · exact h hgo
        · omega
        · exact hw h
        · omega
      · rw [State.core_setFetch_self, State.core_updCore, if_pos rfl]
        rfl
      · rw [State.core_setFetch_self]
      · rw [State.setFetch, State.core_updCore, if_neg (Ne.symm hd), State.core_updCore, if_neg (Ne.symm hd)]
    · exact congrArg Host.Outcome.next ((runs _).trans (if_pos (.inr (.inr (.inr hq)))))
    · refine congrArg Host.Outcome.next ((runs _).trans ?_)
      exact if_pos ⟨hgo, hat⟩
    · refine congrArg Host.Outcome.next ((runs _).trans ((if_neg (fun h => h hw)).trans ?_))
      refine if_pos ?_
      rw [hslip, decide_eq_true hlt]
      rfl
    · refine congrArg Host.Outcome.next ((runs _).trans ((if_neg (fun h => h hw)).trans ?_))
      refine (if_neg fun h => ?_).trans (if_neg fun h => ?_)
      · have := of_decide_eq_true (Bool.and_eq_true_iff.1 h).2
        omega
      · omega
    · have hguard : ¬ (f.wait ≠ .go ∨ !s.atControl f 2 ∨ (s.part p).sched.nextStep ≤ f.step) := by
        rintro (h | h | h)
        · exact h hgo
        · rw [hat] at h
          exact Bool.false_ne_true h
        · omega
      by_cases hcls : pat.classOf ((s.part p).sched.manifestOf f.step) (fld (s.streamWord f f.pos) 0 16)
          = fld (s.streamWord f f.pos) 16 2
      · refine ⟨_, congrArg Host.Outcome.next ((runs _).trans ((if_neg hguard).trans (if_pos hcls))), hgo, ?_⟩
        rw [if_pos hcls]
        exact ⟨rfl, rfl⟩
      · refine ⟨_, congrArg Host.Outcome.next ((runs _).trans ((if_neg hguard).trans (if_neg hcls))), hgo, ?_⟩
        rw [if_neg hcls]
        exact ⟨rfl, rfl⟩
    · refine congrArg Host.Outcome.next ((runs _).trans ?_)
      exact if_pos ⟨hgo, hat⟩
    · refine congrArg Host.Outcome.next ((runs _).trans ?_)
      dsimp only
      rw [hb]
      dsimp only
      refine (if_neg (ends hw hat)).trans ?_
      refine (if_pos ⟨hnext, ?_⟩)
      cases hs : (s.part p).drainStep with
      | none => rfl
      | some n =>
        have := hdrain n hs
        simp only [Option.any_some, Bool.not_eq_true', decide_eq_false_iff_not]
        omega
    · refine congrArg Host.Outcome.next ((runs _).trans ?_)
      dsimp only
      rw [hb]
      dsimp only
      refine (if_neg (ends hw hat)).trans ?_
      refine (if_neg fun h => ?_)
      obtain hend | ⟨n, hn, hle⟩ := hend
      · omega
      · rw [hn] at h
        simp [hle] at h

end Sys2Proof.Machine
end


section
/-! SUPPORT. Proofs/Stops.lean: what a stop leaves of the fabric, the gathers and the larder. -/

namespace Sys2Proof.Machine

theorem closeSkein_waiting (s : State) (k : Skein) : (s.closeSkein k).fabric.waiting = s.fabric.waiting := by
  unfold State.closeSkein State.injectHeld
  split <;> rfl

/-- A discard keeps the other partitions' waiting transfers and gathers. -/
theorem discard_fabric (s : State) (p : Nat) :
    (s.discard p).fabric.waiting = s.fabric.waiting.filter (·.part != p) ∧
      (s.discard p).train.records = s.train.records.filter (·.part != p) := by
  unfold State.discard
  dsimp only
  generalize (s.coresOf p).flatMap (s.openExtents p) ++ _ ++ _ = exts
  have hfree : Same 0x20884C s (exts.foldl (fun s x => s.freeRange x.1 x.2) s) :=
    kept_foldl (fun s (x : Nat × Nat) => s.freeRange x.1 x.2) exts s
      (fun s x h => State.freeRange_keeps rfl s x.1 x.2 h) (Same.refl s)
  have hcores : Same 0x20884C s ((s.coresOf p).foldl (fun s c => s.updCore c Core.stopped)
      ((exts.foldl (fun s x => s.freeRange x.1 x.2) s).freeLedger p)) :=
    kept_foldl _ _ _ (fun s c h => State.updCore_keeps rfl s c _ h) (State.freeLedger_keeps rfl _ p hfree)
  generalize List.foldl (fun (s : State) c => s.updCore c Core.stopped) _ _ = u at hcores ⊢
  have hfabric := hcores.fabric.resolve_left (by decide)
  have htrain := hcores.train.resolve_left (by decide)
  constructor
  · refine Eq.trans (foldl_same (fun s : State => s.fabric.waiting) _ ?_ _ _)
      ((foldl_same (fun s : State => s.fabric.waiting) _ closeSkein_waiting _ _).trans ?_)
    · exact fun _ _ => rfl
    · exact congrArg (fun f : Fabric => f.waiting.filter (·.part != p)) hfabric
  · refine congrArg (List.filter fun g : Gather => g.part != p) ?_
    refine Eq.trans (foldl_same (fun s : State => s.train.records) _ ?_ _ _)
      ((foldl_same (fun s : State => s.train.records) _ (fun t k =>
        congrArg Train.records ((State.closeSkein_keeps (fp := 0x400) rfl t k
          (.refl t)).train.resolve_left (by decide)))
        _ _).trans ?_)
    · exact fun _ _ => rfl
    · exact congrArg Train.records htrain

/-- The context of a partition, emptied. -/
def Ctx.emptied (x : Ctx) : Ctx := { x with records := [], fill := 0, joinedTo := false }

theorem emptyContexts_ctx (s : State) (p n : Nat) : (s.emptyContexts p).ctx n =
    if n < 48 ∧ (s.part p).layout.live.ctxMask.toNat.testBit n = true then (s.ctx n).emptied else s.ctx n := by
  have key : ∀ (l : List Nat) (u : State), u.parts = s.parts → ((l.foldl (fun (s : State) n =>
      if (s.part p).layout.live.ctxMask.toNat.testBit n then s.setCtx n (s.ctx n).emptied else s) u).ctx n) =
      if n ∈ l ∧ (s.part p).layout.live.ctxMask.toNat.testBit n = true then (u.ctx n).emptied else u.ctx n := by
    intro l
    induction l with
    | nil => exact fun u _ => (if_neg fun h => nomatch h.1).symm
    | cons m l ih =>
      intro u hu
      have hpart : u.part p = s.part p := congrArg (fun ps => Sparse.get Part.reset ps p) hu
      rw [List.foldl_cons, hpart]
      by_cases hm : (s.part p).layout.live.ctxMask.toNat.testBit m = true
      · rw [if_pos hm, ih (u.setCtx m (u.ctx m).emptied) hu, State.ctx_setCtx]
        by_cases h : m = n
        · subst h
          rw [if_pos rfl]
          exact (ite_self _).trans (if_pos ⟨List.mem_cons_self, hm⟩).symm
        · rw [if_neg h]
          refine if_congr (and_congr_left fun _ => ?_) rfl rfl
          rw [List.mem_cons, or_iff_right (Ne.symm h)]
      · rw [if_neg hm, ih _ hu]
        refine if_congr ⟨fun h => ⟨List.mem_cons_of_mem _ h.1, h.2⟩, fun h => ?_⟩ rfl rfl
        obtain rfl | h' := List.mem_cons.1 h.1
        · exact absurd h.2 hm
        · exact ⟨h', h.2⟩
  exact (key (List.range 48) s rfl).trans (if_congr (and_congr_left fun _ => List.mem_range) rfl rfl)

/-- What a stop of a running partition takes from the fabric, the gathers and the larder. -/
theorem stopPart_drops {s : State} {p : Nat} (h : (s.part p).active = true) (cause : Half) (keep : Bool) :
    (s.stopPart p cause keep).fabric.waiting = s.fabric.waiting.filter (·.part != p) ∧
      (s.stopPart p cause keep).train.records = s.train.records.filter (·.part != p) ∧
      ∀ n < 48, (s.part p).layout.live.ctxMask.toNat.testBit n = true →
        ((s.stopPart p cause keep).ctx n).records = [] ∧ ((s.stopPart p cause keep).ctx n).fill = 0 := by
  unfold State.stopPart
  rw [h]
  simp only [Bool.not_true, Bool.false_eq_true, if_false]
  obtain ⟨hwait, htrain⟩ := discard_fabric s p
  have hclear : Same 0x20804C (s.discard p)
      (if ((s.discard p).part p).layout.live.excl = 0 then ((s.discard p).coresOf p).foldl State.clearCore (s.discard p)
        else s.discard p) :=
    kept_ite _ _ _ (kept_foldl _ _ _ (fun s c h => State.clearCore_keeps rfl s c h) (.refl _)) (.refl _)
  have hpart : (s.discard p).part p = s.part p :=
    (State.discard_keeps (fp := 0x248C4C) rfl s p (.refl s)).part_eq rfl p
  generalize (if ((s.discard p).part p).layout.live.excl = 0 then _ else _) = u at hclear ⊢
  have hend : ∀ x : State, Same 0x208080 x
      (((x.queuesOf p HQueue.discard).updPart p fun q => q.stop cause keep).raiseCause p 2) := fun x =>
    State.raiseCause_keeps rfl _ _ _ (State.updPart_keeps rfl _ _ _ (State.queuesOf_keeps rfl _ _ _ (.refl x)))
  have hempty := State.emptyContexts_keeps (fp := 0x100) rfl u p (.refl u)
  refine ⟨?_, ?_, fun n hn hbit => ?_⟩
  · rw [(hend _).fabric.resolve_left (by decide), hempty.fabric.resolve_left (by decide),
      hclear.fabric.resolve_left (by decide), hwait]
  · rw [(hend _).train.resolve_left (by decide), hempty.train.resolve_left (by decide),
      hclear.train.resolve_left (by decide), htrain]
  · rw [(hend _).ctx_eq rfl, emptyContexts_ctx, hclear.part_eq rfl, hpart, if_pos ⟨hn, hbit⟩]
    exact ⟨rfl, rfl⟩

theorem exec_partStop {port : Fin 2} {p : Fin 16} {s : State} (h : s.boundTo p port = true) :
    exec (.partStop port p) s =
      .next ((s.stopPart p stDONE false).updPart p fun q => { q with ctrlStatus := stDONE }) :=
  congrArg Host.Outcome.next (viaPart_bound h _)

/-- Settles O36: the write of PART_CTRL stops the partition, and then notes its status. -/
theorem stopDiscardsWorkInFlight : Obligations.StopDiscardsWorkInFlight := by
  intro port p s hbound
  refine ⟨fun hidle => ?_, fun hact => ⟨_, exec_partStop hbound, ?_⟩⟩
  · rw [exec_partStop hbound, State.stopPart, hidle]
    rfl
  · obtain ⟨hwait, htrain, hctx⟩ := stopPart_drops hact stDONE false
    obtain ⟨l, hcoll⟩ := stopPart_coll s p stDONE false
    have hpart : (s.stopPart p stDONE false).part p = (s.part p).stop stDONE false :=
      (stopPart_part ..).trans (if_pos ⟨rfl, hact⟩)
    rw [if_pos hact] at hcoll
    have hlast : Same 0x80 (s.stopPart p stDONE false)
        ((s.stopPart p stDONE false).updPart p fun q => { q with ctrlStatus := stDONE }) :=
      State.updPart_keeps rfl _ _ _ (.refl _)
    have hfilter : ∀ {α : Type} {f : α → Nat} {xs : List α}, ∀ x ∈ xs.filter (f · != p.val), f x ≠ p.val :=
      fun x hx => bne_iff_ne.1 (List.mem_filter.1 hx).2
    rw [State.part_updPart, if_pos rfl, hpart]
    refine ⟨rfl, rfl, rfl, rfl, rfl, rfl, fun c hc => ?_, fun c n => ?_, ?_, ?_, ?_, fun n hn hbit => hctx n hn hbit,
      fun q hq => ?_⟩
    · obtain ⟨g, hg⟩ := stopPart_core s p stDONE false c
      rw [hlast.core_eq rfl, hg, if_pos ⟨hact, hc⟩]
      exact ⟨rfl, rfl, rfl, rfl, rfl, rfl, rfl, rfl⟩
    · exact (hlast.tallyOf_eq rfl c n).trans (stopPart_tallyOf ..)
    · rw [hlast.coll.resolve_left (by decide), hcoll]
      exact hfilter
    · rw [hlast.train.resolve_left (by decide), htrain]
      exact hfilter
    · rw [hlast.fabric.resolve_left (by decide), hwait]
      exact hfilter
    · rw [State.part_updPart, if_neg (Ne.symm hq), stopPart_part, if_neg fun h => hq h.1]
      exact ⟨rfl, rfl⟩

end Sys2Proof.Machine
end


section
/-! SUPPORT. Proofs/Commits.lean: what a partition's start, the commits of its groups and its loads leave. -/

namespace Sys2Proof.Machine

/-- What one member of a list brings about and every other one keeps holds after the whole list. -/
theorem foldl_reaches {α β : Type} {P : β → Prop} {f : β → α → β} {a : α} (hset : ∀ b, P (f b a))
    (hkeep : ∀ b x, P b → P (f b x)) {l : List α} (ha : a ∈ l) (b : β) : P (l.foldl f b) := by
  induction l generalizing b with
  | nil => nomatch ha
  | cons x l ih =>
    obtain rfl | h := List.mem_cons.1 ha
    · exact foldl_keeps f hkeep l _ (hset b)
    · exact ih h _

/-! ### Zeroing -/

theorem zeroRange_read (s : State) (a n i : Nat) :
    memRead (s.zeroRange a n).mem i = if a ≤ i ∧ i < a + n then 0 else memRead s.mem i := by
  rw [State.zeroRange_mem, memRead_memZero]

theorem zeroRange_zero {s : State} {i : Nat} (h : memRead s.mem i = 0) (a n : Nat) :
    memRead (s.zeroRange a n).mem i = 0 := by
  rw [zeroRange_read, h]
  exact ite_self _

theorem zeroRange_inside {s : State} {a n i : Nat} (h : a ≤ i) (h' : i < a + n) :
    memRead (s.zeroRange a n).mem i = 0 := by
  rw [zeroRange_read, if_pos ⟨h, h'⟩]

/-! ### The start of a partition -/

theorem freshCore_core (s : State) (c d : Nat) : (s.freshCore c).core d =
    if c = d then { s.core c with tags := [], fn0 := none, fn1 := none, fnChecked := false } else s.core d := by
  unfold State.freshCore State.clearCore
  have hzero (u : State) : Same 0x208004 u ((u.zeroRange (privAddr c 0) 0x600000).zeroRange
    (privAddr c 0x640000) 0x10000) :=
    State.zeroRange_keeps rfl _ _ _ (State.zeroRange_keeps rfl _ _ _ (.refl u))
  rw [State.core_updCore, (hzero _).core_eq rfl, (hzero _).core_eq rfl, State.core_updCore,
    State.core_updCore, if_pos rfl]
  split <;> rfl

theorem freshCore_mem (s : State) (c : Nat) : (s.freshCore c).mem =
    (((s.updCore c fun k => { k with tags := [] }).zeroRange (privAddr c 0) 0x600000).zeroRange
      (privAddr c 0x640000) 0x10000).mem := by
  unfold State.freshCore State.clearCore
  exact (State.updCore_keeps (fp := 0x40) rfl _ c _ (.refl _)).mem_eq rfl

theorem freshCore_zero {s : State} {i : Nat} (h : memRead s.mem i = 0) (c : Nat) :
    memRead (s.freshCore c).mem i = 0 := by
  rw [freshCore_mem, zeroRange_read, zeroRange_read]
  exact (ite_eq_left_iff.2 fun _ => ite_eq_left_iff.2 fun _ => h)

theorem freshCore_banks (s : State) (c : Nat) {n : Nat} (h : n < 0x10000) :
    memRead (s.freshCore c).mem (privAddr c 0x640000 + n) = 0 := by
  rw [freshCore_mem]
  exact zeroRange_inside (Nat.le_add_right _ _) (Nat.add_lt_add_left h _)

/-- A core that a start or a load has cleared: no table, no tag. -/
def Core.Fresh (k : Core) : Prop := k.fn0 = none ∧ k.fn1 = none ∧ k.tags = []

/-- A core that has from another its tables, tags and tallies. -/
def Core.Runs (k x : Core) : Prop := k.fn0 = x.fn0 ∧ k.fn1 = x.fn1 ∧ k.tags = x.tags ∧ k.tallies = x.tallies

theorem freshCores_core (s : State) (l : List Nat) (c : Nat) :
    ((l.foldl State.freshCore s).core c).tallies = (s.core c).tallies ∧
    (c ∈ l → ((l.foldl State.freshCore s).core c).Fresh ∧
      ∀ n < 0x10000, memRead (l.foldl State.freshCore s).mem (privAddr c 0x640000 + n) = 0) := by
  refine ⟨foldl_same (fun s : State => (s.core c).tallies) _ (fun s d => ?_) l s, fun hc => ⟨?_, fun n hn => ?_⟩⟩
  · rw [freshCore_core]
    split
    · rename_i h; rw [h]
    · rfl
  · refine foldl_reaches (P := fun s : State => (s.core c).Fresh) (fun s => ?_) (fun s d h => ?_) hc s
    · rw [freshCore_core, if_pos rfl]
      exact ⟨rfl, rfl, rfl⟩
    · rw [freshCore_core]
      split
      · exact ⟨rfl, rfl, rfl⟩
      · exact h
  · exact foldl_reaches (P := fun s : State => memRead s.mem (privAddr c 0x640000 + n) = 0)
      (fun s => freshCore_banks s c hn) (fun s d h => freshCore_zero h d) hc s

theorem freshNorm_part (s : State) (p q : Nat) : (s.freshNorm p).part q =
    if p = q then { s.part p with localNorm := ⟨0, 0⟩, reducedNorm := ⟨0, 0⟩, norms := [] } else s.part q :=
  State.part_updPart ..

/-- What a start leaves of its partition, and of the cores that its crossings reach. -/
theorem startPart_effect (s : State) (p : Nat) :
    (∀ q, (s.startPart p).part q = if p = q then { s.part p with
        state := .running, idleTicks := 0, drainStep := none, drainAt := none,
        localNorm := ⟨0, 0⟩, reducedNorm := ⟨0, 0⟩, norms := [],
        latched := ⟨s.arith.round.toNat, s.arith.subnormal.toNat, s.arith.fp8.toNat, s.arith.comp.toNat,
          (s.part p).seed⟩ } else s.part q) ∧
    ∀ c ∈ s.coresOf p, s.coreOpen c = true → ((s.startPart p).core c).qstate = .running ∧
      ((s.startPart p).core c).Fresh ∧ ((s.startPart p).core c).tallies = (s.core c).tallies ∧
      ∀ n < 0x10000, memRead (s.startPart p).mem (privAddr c 0x640000 + n) = 0 := by
  unfold State.startPart
  dsimp only
  generalize hcs : (s.coresOf p).filter s.coreOpen = cs
  have hfresh : Same 0x208044 s (cs.foldl State.freshCore s) :=
    kept_foldl _ _ _ (fun s c h => State.freshCore_keeps rfl s c h) (.refl s)
  have hcores := freshCores_core s cs
  generalize cs.foldl State.freshCore s = a at hfresh hcores ⊢
  have hnorm : Same 0x880 a (a.freshNorm p) := State.freshNorm_keeps rfl _ _ (.refl a)
  have hpart := freshNorm_part a p
  generalize a.freshNorm p = b at hnorm hpart ⊢
  have hrun : ∀ c, ((cs.foldl (fun s c => s.updCore c fun k => { k with qstate := .running }) b).core c).Runs (b.core c)
      ∧ (c ∈ cs → ((cs.foldl (fun s c => s.updCore c fun k => { k with qstate := .running }) b).core c).qstate =
        .running) :=
    fun c => ⟨foldl_keeps (P := fun s : State => (s.core c).Runs (b.core c)) _ (fun s d h => by
        rw [State.core_updCore]
        split
        · rename_i hd
          subst hd
          exact h
        · exact h) cs b ⟨rfl, rfl, rfl, rfl⟩,
      fun hc => foldl_reaches (P := fun s : State => (s.core c).qstate = .running)
        (fun s => by rw [State.core_updCore, if_pos rfl]) (fun s d h => by
          rw [State.core_updCore]
          split
          · rfl
          · exact h) hc b⟩
  have hsame : Same 0x40 b (cs.foldl (fun s c => s.updCore c fun k => { k with qstate := .running }) b) :=
    kept_foldl _ _ _ (fun s c h => State.updCore_keeps rfl s c _ h) (.refl b)
  generalize cs.foldl (fun s c => s.updCore c fun k => { k with qstate := .running }) b = d at hrun hsame ⊢
  generalize he : List.foldl _ d [0, 1] = e
  have hqueues : Same 0x8000 d e := he ▸ kept_foldl _ _ _ (fun s k h => kept_foldl _ _ _ (fun s i h =>
    kept_ite _ _ _ (State.updQueue_keeps rfl s k i _ h) h) h) (.refl d)
  have hparts (q : Nat) : e.part q =
      if p = q then { s.part p with localNorm := ⟨0, 0⟩, reducedNorm := ⟨0, 0⟩, norms := [] } else s.part q := by
    rw [hqueues.part_eq rfl, hsame.part_eq rfl, hpart, hfresh.part_eq rfl, hfresh.part_eq rfl]
  have harith : e.arith = s.arith := by
    rw [hqueues.arith.resolve_left (by decide), hsame.arith.resolve_left (by decide),
      hnorm.arith.resolve_left (by decide), hfresh.arith.resolve_left (by decide)]
  refine ⟨fun q => ?_, fun c hc hopen => ?_⟩
  · rw [State.part_updPart, hparts, hparts, if_pos rfl, harith]
    split <;> rfl
  · obtain ⟨htallies, hmember⟩ := hcores c
    obtain ⟨⟨h0, h1, ht⟩, hzero⟩ := hmember (hcs ▸ List.mem_filter.2 ⟨hc, hopen⟩)
    obtain ⟨⟨k0, k1, kt, kn⟩, hq⟩ := hrun c
    have hcore : e.core c = d.core c := hqueues.core_eq rfl c
    rw [hnorm.core_eq rfl] at k0 k1 kt kn
    rw [State.core_updPart, hcore]
    refine ⟨hq (hcs ▸ List.mem_filter.2 ⟨hc, hopen⟩), ⟨k0.trans h0, k1.trans h1, kt.trans ht⟩, kn.trans htallies,
      fun n hn => ?_⟩
    have hmem : e.mem = a.mem := by rw [hqueues.mem_eq rfl, hsame.mem_eq rfl, hnorm.mem_eq rfl]
    exact (congrArg (memRead · _) hmem).trans (hzero n hn)

/-- Whether a start of partition p is taken. -/
def State.startOk (s : State) (p : Nat) : Bool :=
  (s.part p).state == .stopped && (s.part p).patState != .armed && (s.part p).layout.live.count != 0 && s.mayStart

/-- The status of a write of PART_CTRL noted. -/
def State.noteCtrl (s : State) (p : Nat) (st : Half) : State := s.updPart p fun q => { q with ctrlStatus := st }

theorem partCtrl_start (s : State) (p : Nat) : s.partCtrl p true false false =
    if s.startOk p then (s.startPart p).noteCtrl p stDONE else s.noteCtrl p stCONFIG := by
  unfold State.partCtrl State.startOk State.noteCtrl
  simp only [Bool.false_eq_true, if_false, if_true, Bool.false_and, Bool.false_or, Bool.true_and, Bool.not_eq_true',
    ← Bool.not_eq_true, ite_not]

theorem partCtrl_drain (s : State) (p : Nat) : s.partCtrl p false false true =
    if (s.part p).drainOk then
      (s.updPart p fun q => { q with drainStep := some q.drainReg.toNat }).noteCtrl p stDONE
    else s.noteCtrl p stCONFIG := by
  unfold State.partCtrl State.noteCtrl
  simp only [Bool.false_eq_true, if_false, if_true, Bool.false_and, Bool.or_false, Bool.true_and, Bool.not_eq_true',
    ← Bool.not_eq_true, ite_not]

/-- Settles O35: a start runs the effects of `startPart`; a drain notes its step alone. -/
theorem partitionStartAndDrain : Obligations.PartitionStartAndDrain := by
  intro port p s
  refine ⟨fun hbound => ?_, fun hbound => ⟨congrArg Host.Outcome.next (viaPart_refused hbound _),
    congrArg Host.Outcome.next (viaPart_refused hbound _), congrArg Host.Outcome.next (viaPart_refused hbound _)⟩⟩
  have hstart : exec (.partStart port p) s = _ :=
    congrArg Host.Outcome.next ((viaPart_bound hbound _).trans (partCtrl_start s p))
  have hdrain : exec (.partDrain port p) s = _ :=
    congrArg Host.Outcome.next ((viaPart_bound hbound _).trans (partCtrl_drain s p))
  refine ⟨fun hstop harm hcount hmay => ?_, fun hno => ?_, fun hok => ?_, fun hno => ?_⟩
  · have hok : s.startOk p = true := by
      unfold State.startOk
      rw [hstop, hmay, bne_iff_ne.2 harm, bne_iff_ne.2 hcount]
      rfl
    rw [if_pos hok] at hstart
    obtain ⟨hpart, hcore⟩ := startPart_effect s p
    generalize s.startPart p = u at hstart hpart hcore
    refine ⟨_, hstart, ?_⟩
    have hself : (u.noteCtrl p stDONE).part p = { u.part p with ctrlStatus := stDONE } :=
      (State.part_updPart ..).trans (if_pos rfl)
    rw [hself, hpart, if_pos rfl]
    refine ⟨rfl, rfl, rfl, rfl, rfl, fun c hc hopen => ?_, fun q hq => ?_⟩
    · obtain ⟨hq, ⟨h0, h1, ht⟩, htallies, hzero⟩ := hcore c hc hopen
      exact ⟨hq, h0, h1, ht, htallies, hzero⟩
    · rw [State.noteCtrl, State.part_updPart, if_neg (Ne.symm hq), hpart, if_neg (Ne.symm hq)]
  · refine hstart.trans (congrArg Host.Outcome.next (if_neg ?_))
    simp only [State.startOk, Bool.and_eq_true, beq_iff_eq, bne_iff_ne, ne_eq, and_assoc]
    rintro ⟨h1, h2, h3, h4⟩
    obtain h | h | h | h := hno
    · exact h h1
    · exact h2 h
    · exact h3 h
    · exact absurd (h.symm.trans h4) (by decide)
  · rw [if_pos hok] at hdrain
    refine ⟨_, hdrain, ?_, fun q hq => ?_, rfl, rfl⟩
    · rw [State.noteCtrl, State.part_updPart, if_pos rfl, State.part_updPart, if_pos rfl]
    · rw [State.noteCtrl, State.part_updPart, if_neg (Ne.symm hq), State.part_updPart, if_neg (Ne.symm hq)]
  · exact hdrain.trans (congrArg Host.Outcome.next (if_neg (by rw [hno]; exact Bool.false_ne_true)))

/-! ### Layouts -/

/-- One core's share of the zeroing of its shelf. -/
def State.zeroCore (s : State) (c : Nat) : State :=
  let u := (s.zeroRange (cellarBase + c * 2 ^ 25) (2 ^ 25)).zeroRange (privAddr c 0) 0x650000
  { (u.updCore c Core.zeroed).releaseCore c with memStat := { u.memStat with
    poison := u.memStat.poison.filter fun l => l / 131072 != c } }

theorem zeroShelf_eq (s : State) (x : Nat) :
    s.zeroShelf x = (List.range 8).foldl (fun s i => s.zeroCore (8 * x + i)) s := by
  unfold State.zeroShelf State.zeroCore
  simp only [Nat.reducePow]

theorem zeroCore_core (s : State) (c d : Nat) :
    (s.zeroCore c).core d = if c = d then (s.core c).zeroed else s.core d := by
  have hzero : Same 0x208004 s ((s.zeroRange (cellarBase + c * 2 ^ 25) (2 ^ 25)).zeroRange (privAddr c 0) 0x650000) :=
    State.zeroRange_keeps rfl _ _ _ (State.zeroRange_keeps rfl _ _ _ (.refl s))
  unfold State.zeroCore
  generalize (s.zeroRange (cellarBase + c * 2 ^ 25) (2 ^ 25)).zeroRange (privAddr c 0) 0x650000 = u at hzero ⊢
  refine ((State.releaseCore_keeps (fp := 0x8000) rfl (u.updCore c Core.zeroed) c (.refl _)).core_eq rfl d).trans ?_
  rw [State.core_updCore, hzero.core_eq rfl, hzero.core_eq rfl]

theorem zeroCore_read (s : State) (c i : Nat) : memRead (s.zeroCore c).mem i =
    memRead ((s.zeroRange (cellarBase + c * 2 ^ 25) (2 ^ 25)).zeroRange (privAddr c 0) 0x650000).mem i := by
  unfold State.zeroCore
  generalize (s.zeroRange (cellarBase + c * 2 ^ 25) (2 ^ 25)).zeroRange (privAddr c 0) 0x650000 = u
  exact congrArg (memRead · i) ((State.releaseCore_keeps (fp := 0x8040) rfl _ c
    (State.updCore_keeps rfl u c Core.zeroed (.refl u))).mem_eq rfl)

/-- A core whose registers and memory read as zeroing leaves them: empty queue, no tally, no tag, zero bytes. -/
def State.Cleared (s : State) (c : Nat) : Prop :=
  ((s.core c).tallies = [] ∧ (s.core c).queue = [] ∧ (s.core c).tags = []) ∧
    (∀ n < 2 ^ 25, memRead s.mem (cellarBase + c * 2 ^ 25 + n) = 0) ∧
    ∀ n < 0x650000, memRead s.mem (privAddr c n) = 0

theorem privAddr_eq (c n : Nat) : privAddr c n = privAddr c 0 + n := by
  unfold privAddr
  rw [Nat.add_zero]

theorem zeroCore_clears (s : State) (c : Nat) : (s.zeroCore c).Cleared c := by
  refine ⟨?_, fun n hn => ?_, fun n hn => ?_⟩
  · rw [zeroCore_core, if_pos rfl]
    exact ⟨rfl, rfl, rfl⟩
  · rw [zeroCore_read]
    exact zeroRange_zero (zeroRange_inside (Nat.le_add_right _ _) (Nat.add_lt_add_left hn _)) _ _
  · rw [zeroCore_read, privAddr_eq c n]
    exact zeroRange_inside (Nat.le_add_right _ _) (Nat.add_lt_add_left hn _)

theorem State.Cleared.zeroCore {s : State} {c : Nat} (h : s.Cleared c) (d : Nat) : (s.zeroCore d).Cleared c := by
  obtain ⟨hcore, hcellar, hpriv⟩ := h
  refine ⟨?_, fun n hn => ?_, fun n hn => ?_⟩
  · rw [zeroCore_core]
    split
    · exact ⟨rfl, rfl, rfl⟩
    · exact hcore
  · rw [zeroCore_read]
    exact zeroRange_zero (zeroRange_zero (hcellar n hn) _ _) _ _
  · rw [zeroCore_read]
    exact zeroRange_zero (zeroRange_zero (hpriv n hn) _ _) _ _

theorem State.Cleared.zeroShelf {s : State} {c : Nat} (h : s.Cleared c) (x : Nat) : (s.zeroShelf x).Cleared c := by
  rw [zeroShelf_eq]
  exact foldl_keeps (P := fun s : State => s.Cleared c) _ (fun _ _ h => h.zeroCore _) _ s h

/-- After its zeroing every core of every shelf is cleared. -/
theorem zeroShelves_clear {l : List Nat} {x i : Nat} (hx : x ∈ l) (hi : i < 8) (s : State) :
    (l.foldl State.zeroShelf s).Cleared (8 * x + i) := by
  refine foldl_reaches (P := fun s : State => s.Cleared (8 * x + i)) (fun s => ?_) (fun s y h => h.zeroShelf y) hx s
  rw [zeroShelf_eq]
  exact foldl_reaches (P := fun s : State => s.Cleared (8 * x + i)) (f := fun s i => s.zeroCore (8 * x + i))
    (fun s => zeroCore_clears s _) (fun s y h => h.zeroCore _) (List.mem_range.2 hi) s

theorem State.Cleared.congr {s t : State} {c : Nat} (h : s.Cleared c) (hcore : t.core c = s.core c)
    (hmem : t.mem = s.mem) :
    t.Cleared c := by
  unfold State.Cleared
  rw [hcore, hmem]
  exact h

/-- What the commit of a layout leaves. -/
theorem applyLayout_effect (s : State) (p : Nat) :
    (∀ x ∈ s.shelvesToZero p, ∀ i < 8, (s.applyLayout p).Cleared (8 * x + i)) ∧
    (∀ q, q ≠ p → (s.applyLayout p).part q = s.part q) ∧
    ((s.applyLayout p).part p).layout.live = (s.part p).layout.sh ∧
    ((s.applyLayout p).part p).clearing = ((s.part p).clearing || !(s.shelvesToZero p).isEmpty) ∧
    ((s.applyLayout p).part p).state = (if (!(s.shelvesToZero p).isEmpty || (s.part p).clearing) = true then .zeroing
      else if (s.part p).layout.sh.count = 0 then .absent else .stopped) ∧
    ((s.part p).layout.live.count = 0 → ((s.applyLayout p).part p).descs = []) := by
  unfold State.applyLayout
  dsimp only
  have hclear := fun x hx i hi => zeroShelves_clear (l := s.shelvesToZero p) (x := x) (i := i) hx hi s
  have hsame : Same 0x20804C s ((s.shelvesToZero p).foldl State.zeroShelf s) :=
    kept_foldl _ _ _ (fun s x h => State.zeroShelf_keeps rfl s x h) (.refl s)
  generalize (s.shelvesToZero p).foldl State.zeroShelf s = u at hclear hsame ⊢
  refine ⟨fun x hx i hi => (hclear x hx i hi).congr rfl rfl, fun q hq => ?_, ?_⟩
  · rw [State.part_updPart, if_neg (Ne.symm hq)]
    exact hsame.part_eq rfl q
  · rw [State.part_updPart, if_pos rfl]
    have hpart : u.part p = s.part p := hsame.part_eq rfl p
    refine ⟨rfl, congrArg (fun q : Part => q.clearing || _) hpart,
      congrArg
        (fun q : Part => if (!(s.shelvesToZero p).isEmpty || q.clearing) = true then PState.zeroing else _) hpart,
      fun h0 => ?_⟩
    exact if_pos (Or.inl h0)

/-! ### The end of a clearing -/

/-- An aperture commit that takes effect alters its partition's aperture alone. -/
theorem settleAperture_part (s : State) (p q : Nat) :
    ∃ a w, (s.settleAperture p).part q = { s.part q with aper := a, waitingAper := w } := by
  unfold State.settleAperture
  split
  · exact ⟨_, _, rfl⟩
  · split
    · exact ⟨_, _, rfl⟩
    · rw [(State.answerWaiting_keeps (fp := 0x218000) rfl _ p true (.refl _)).part_eq rfl, State.part_updPart]
      split
      · rename_i h
        subst h
        exact ⟨_, _, rfl⟩
      · exact ⟨_, _, rfl⟩

theorem settleApertures_part (s : State) (q : Nat) :
    ∃ a w, s.settleApertures.part q = { s.part q with aper := a, waitingAper := w } :=
  foldl_keeps (P := fun t : State => ∃ a w, t.part q = { s.part q with aper := a, waitingAper := w }) _ (fun t p h => by
    obtain ⟨a, w, h⟩ := h
    obtain ⟨a', w', h'⟩ := settleAperture_part t p q
    exact ⟨a', w', h'.trans (by rw [h])⟩) _ s ⟨_, _, rfl⟩

/-- The units that a clearing still has to zero. -/
def Part.toClear (q : Part) : List (Nat × Nat) :=
  match q.waitingWindows with
  | some ws => removedUnits q.windows.live ws
  | none => []

/-- Ranges of units zeroed. -/
def State.zeroUnits (s : State) (l : List (Nat × Nat)) : State :=
  l.foldl (fun (s : State) r => s.zeroRange (r.1 * 262144) ((r.2 - r.1) * 262144)) s

theorem zeroUnits_zero {l : List (Nat × Nat)} {r : Nat × Nat} (hr : r ∈ l) {n : Nat} (h : r.1 * 262144 ≤ n)
    (h' : n < r.2 * 262144) (s : State) : memRead (s.zeroUnits l).mem n = 0 := by
  have hlen : n < r.1 * 262144 + (r.2 - r.1) * 262144 := by
    rw [← Nat.add_mul, Nat.add_sub_cancel' (Nat.le_of_lt (Nat.lt_of_mul_lt_mul_right (h.trans_lt h')))]
    exact h'
  exact foldl_reaches (P := fun s : State => memRead s.mem n = 0)
    (f := fun (s : State) (r : Nat × Nat) => s.zeroRange (r.1 * 262144) ((r.2 - r.1) * 262144))
    (fun _ => zeroRange_inside h hlen) (fun _ _ h => zeroRange_zero h _ _) hr s

/-- A partition as the end of its clearing leaves it. -/
def Part.cleared (q : Part) : Part := { q with
  clearing := false, waitingWindows := none,
  windows := ⟨q.windows.sh, q.waitingWindows.getD q.windows.live⟩,
  state := if q.layout.live.count = 0 then .absent else if q.state = .zeroing then .stopped else q.state }

/-- The clearing of partition p ended, before apertures that waited take effect. -/
def State.clearingEnded (s : State) (p : Nat) : State :=
  let u := s.zeroUnits (s.part p).toClear
  { u.updPart p Part.cleared with
    tenancy := { u.tenancy with clearing := u.tenancy.clearing.filter (·.1 != p) } }

theorem zeroingDone_eq {s : State} {p : Nat} (h : (s.part p).clearing = true) :
    s.zeroingDone p = (s.clearingEnded p).settleApertures :=
  if_neg (by rw [h]; decide)

/-- ZEROING_COMPLETE zeroes the units that go, and ends the clearing. -/
theorem zeroingComplete_effect {p : Fin 16} {s : State} (h : (s.part p).clearing = true) :
    ∃ t a w, exec (.zeroingComplete p) s = .next t ∧ t.mem = (s.zeroUnits (s.part p).toClear).mem ∧
      t.part p = { (s.part p).cleared with aper := a, waitingAper := w } := by
  have hpart : (s.clearingEnded p).part p = (s.part p).cleared := by
    have hzero : Same 0x208004 s (s.zeroUnits (s.part p).toClear) :=
      kept_foldl _ _ _ (fun s r h => State.zeroRange_keeps rfl s _ _ h) (.refl s)
    refine (State.part_updPart ..).trans ((if_pos rfl).trans ?_)
    rw [hzero.part_eq rfl]
  obtain ⟨a, w, hq⟩ := settleApertures_part (s.clearingEnded p) p
  have hlast : Same 0x218080 (s.clearingEnded p) ((s.zeroingDone p).answerWaiting p false) :=
    zeroingDone_eq h ▸ State.answerWaiting_keeps rfl _ _ _ (State.settleApertures_keeps rfl _ (.refl _))
  refine ⟨_, a, w, congrArg Host.Outcome.next (if_pos h), hlast.mem_eq rfl, ?_⟩
  rw [(State.answerWaiting_keeps (fp := 0x218000) rfl _ _ _ (.refl _)).part_eq rfl, zeroingDone_eq h, hq, hpart]

/-! ### LAYOUT_COMMIT -/

/-- A commit of a group before ready, or while its partition runs, changes nothing. -/
theorem groupCommit_waits {s : State} {p : Nat} {judge : State → Half} {apply : State → State}
    {note : State → Half → State} (h : s.isReady = false ∨ (s.part p).active = true) :
    (s.afterReady fun s => s.groupCommit p judge apply note).1 = s := by
  unfold State.afterReady State.groupCommit
  obtain h | h := h
  · rw [h]
    rfl
  · dsimp only
    rw [h]
    split <;> rfl

section
variable {s : State} {p : Nat} {judge : State → Half} {apply : State → State} {note : State → Half → State}
  (hidle : (s.part p).active = false)
include hidle

theorem groupCommit_passes (h : judge s = stDONE) : (s.groupCommit p judge apply note).1 = note (apply s) stDONE := by
  unfold State.groupCommit
  rw [hidle]
  dsimp only
  rw [h]
  rfl

theorem groupCommit_fails (h : judge s ≠ stDONE) : (s.groupCommit p judge apply note).1 = note s (judge s) := by
  unfold State.groupCommit
  rw [hidle]
  exact congrArg Prod.fst (if_neg h)

end

theorem afterReady_runs {s : State} (h : s.isReady = true) (f : State → State × Answer) : s.afterReady f = f s :=
  if_pos h

/-- Settles O37: the shelves that change hands are zeroed, then the layout is in force; ZEROING_COMPLETE ends it. -/
theorem layoutCommitZeroesShelves : Obligations.LayoutCommitZeroesShelves := by
  intro p s
  refine ⟨fun h => congrArg Host.Outcome.next (groupCommit_waits h), fun hready hidle hst => ?_,
    fun hready hidle hst => ?_, fun hclear hzero hwait => ?_, fun h => ?_⟩
  · refine congrArg Host.Outcome.next ((congrArg Prod.fst (afterReady_runs hready _)).trans ?_)
    exact groupCommit_fails hidle hst
  · obtain ⟨hcores, hothers, hlive, hclearing, hstate, hdescs⟩ := applyLayout_effect s p
    have hexec : exec (.layoutCommit p) s = .next ((s.applyLayout p).noteLayout stDONE) :=
      congrArg Host.Outcome.next ((congrArg Prod.fst (afterReady_runs hready _)).trans (groupCommit_passes hidle hst))
    generalize s.applyLayout p = u at hexec hcores hothers hlive hclearing hstate hdescs
    refine ⟨_, hexec, rfl, hlive, fun x hx i hi => ?_, fun hz => ?_, fun hz hc => ?_, hdescs, hothers⟩
    · obtain ⟨⟨ht, hq, hg⟩, hcellar, hpriv⟩ := hcores x hx i hi
      exact ⟨ht, hq, hg, hcellar, hpriv⟩
    · have hne : (s.shelvesToZero p).isEmpty = false := by
        rw [Bool.eq_false_iff, ne_eq, List.isEmpty_iff]
        exact hz
      rw [hne] at hclearing hstate
      exact ⟨hstate, hclearing.trans (Bool.or_true _)⟩
    · rw [hz, hc] at hstate
      exact hstate
  · obtain ⟨t, a, w, hexec, hmem, hpart⟩ := zeroingComplete_effect hclear
    refine ⟨t, hexec, congrArg Part.clearing hpart, (congrArg Part.state hpart).trans ?_, hmem.trans ?_⟩
    · show (if _ then PState.absent else if _ then _ else _) = _
      rw [if_pos hzero]
    · unfold Part.toClear
      rw [hwait]
      rfl
  · exact congrArg Host.Outcome.next (if_neg (by rw [h]; decide))

end Sys2Proof.Machine
end


section
/-! SUPPORT. Proofs/Groups.lean: the commits of windows, larder, guarantees, placement and aperture. -/

namespace Sys2Proof.Machine

theorem updPart_congr {s : State} {p : Nat} {f g : Part → Part} (h : f (s.part p) = g (s.part p)) :
    s.updPart p f = s.updPart p g := congrArg (s.setPart p) h

/-! ### Lines that hosts hold -/

theorem recallLine_directory (s : State) (k line j : Nat) :
    ((s.recallLine k line).hport j).directory = (s.hport j).directory := by
  unfold State.recallLine
  dsimp only
  split
  · rfl
  · split
    · rw [State.hport_updHport]
      split
      · rename_i h
        rw [← h]
      · rfl
    · rename_i t _
      show ((s.updHport k fun h =>
        { h with recalled := h.recalled ++ [(line, t.toNat)], nextTag := t + 1 }).hport j).directory = _
      rw [State.hport_updHport]
      split
      · rename_i h
        rw [← h]
      · rfl

theorem recallFor_directory (s : State) (a n : Nat) (write : Bool) (j : Nat) :
    ((s.recallFor a n write).hport j).directory = (s.hport j).directory :=
  foldl_same (fun s : State => (s.hport j).directory) _ (fun s k =>
    foldl_same (fun s : State => (s.hport j).directory) _ (fun s l => recallLine_directory s k l j) _ s) _ s

theorem lineHeld_congr {s t : State} (h : ∀ j, (t.hport j).directory = (s.hport j).directory) (a n : Nat)
    (write : Bool) :
    t.lineHeld a n write = s.lineHeld a n write := by
  unfold State.lineHeld HostPort.heldIn
  simp only [h]

/-! ### Shares of guarantees -/

/-- Where the minima fit the capacity no share is cut. -/
theorem reduceShares_fits {cls least : Nat → Nat} {capacity : Nat}
    (h : ((List.range 16).map least).sum ≤ capacity) : reduceShares cls least capacity =
      ((List.range 16).map least, []) := by
  unfold reduceShares
  dsimp only
  rw [Nat.sub_eq_zero_of_le h]
  generalize List.flatMap _ _ = order
  have hfold : ∀ (l : List Nat) (now : List Nat), l.foldl (fun (a : List Nat × Nat × List Nat) p =>
      let cut := min (a.1.getD p 0) a.2.1
      if cut = 0 then a else (a.1.set p (a.1.getD p 0 - cut), a.2.1 - cut, a.2.2 ++ [p])) (now, 0, []) =
        (now, 0, []) := by
    intro l now
    induction l with
    | nil => rfl
    | cons p l ih =>
      rw [List.foldl_cons]
      refine Eq.trans (congrArg (fun z => List.foldl _ z l) (if_pos (Nat.min_zero _))) ih
  rw [hfold]

theorem foldl_updPart_part (f : Nat → Part → Part) {l : List Nat} (hl : l.Nodup) (s : State) (q : Nat) :
    (l.foldl (fun s p => s.updPart p (f p)) s).part q = if q ∈ l then f q (s.part q) else s.part q := by
  induction l generalizing s with
  | nil => exact (if_neg fun h => nomatch h).symm
  | cons p l ih =>
    obtain ⟨hp, hl⟩ := List.nodup_cons.1 hl
    rw [List.foldl_cons, ih hl, State.part_updPart]
    by_cases h : p = q
    · subst h
      rw [if_neg hp, if_pos rfl]
      exact (if_pos List.mem_cons_self).symm
    · rw [if_neg h]
      refine if_congr ?_ rfl rfl
      rw [List.mem_cons, or_iff_right (Ne.symm h)]

/-- The least injection rates, and the least shares of HBM, of all partitions together. -/
def State.injectSum (s : State) : Nat := ((List.range 16).map fun p => (s.part p).guar.live.inject.toNat).sum
def State.hbmSum (s : State) : Nat := ((List.range 16).map fun p => (s.part p).guar.live.hbm.toNat).sum

theorem getD_map_range {f : Nat → Nat} {p n : Nat} (h : p < n) : ((List.range n).map f).getD p 0 = f p := by
  rw [List.getD_eq_getElem?_getD, List.getElem?_map, List.getElem?_range h]
  rfl

theorem refreshInject_fits {s : State} (h : s.injectSum ≤ s.injectCapacity) (q : Nat) : s.refreshInject.part q =
    if q < 16 then { s.part q with injectNow := (s.part q).guar.live.inject } else s.part q := by
  unfold State.refreshInject
  dsimp only
  rw [reduceShares_fits h]
  refine (foldl_updPart_part (fun p q => { q with injectNow := BitVec.ofNat 32 (((List.range 16).map fun p =>
    (s.part p).guar.live.inject.toNat).getD p 0) }) List.nodup_range s q).trans ?_
  by_cases hq : q < 16
  · rw [if_pos (List.mem_range.2 hq), if_pos hq, getD_map_range hq, BitVec.ofNat_toNat, BitVec.setWidth_eq]
  · rw [if_neg (mt List.mem_range.1 hq), if_neg hq]

theorem refreshHbm_fits {s : State} (h : s.hbmSum ≤ hbmCapacity) (q : Nat) : s.refreshHbm.part q =
    if q < 16 then { s.part q with hbmNow := (s.part q).guar.live.hbm } else s.part q := by
  unfold State.refreshHbm
  dsimp only
  rw [reduceShares_fits h]
  refine (foldl_updPart_part (fun p q => { q with hbmNow := BitVec.ofNat 8 (((List.range 16).map fun p =>
    (s.part p).guar.live.hbm.toNat).getD p 0) }) List.nodup_range s q).trans ?_
  by_cases hq : q < 16
  · rw [if_pos (List.mem_range.2 hq), if_pos hq, getD_map_range hq, BitVec.ofNat_toNat, BitVec.setWidth_eq]
  · rw [if_neg (mt List.mem_range.1 hq), if_neg hq]

/-- The guarantees of partition p as its shadow has them. -/
def State.guaranteed (s : State) (p : Nat) : State := s.updPart p fun q => { q with guar := ⟨q.guar.sh, q.guar.sh⟩ }

theorem guaranteed_guar (s : State) (p q : Nat) : ((s.guaranteed p).part q).guar.live =
    if q = p then (s.part q).guar.sh else (s.part q).guar.live := by
  rw [State.guaranteed, State.part_updPart]
  by_cases h : p = q
  · subst h
    rw [if_pos rfl, if_pos rfl]
  · rw [if_neg h, if_neg (Ne.symm h)]

theorem guaranteed_sum (s : State) (p : Nat) (f : Guar → Nat) :
    ((List.range 16).map fun q => f ((s.guaranteed p).part q).guar.live).sum = s.sumMinima p f := by
  unfold State.sumMinima
  simp only [guaranteed_guar]

theorem guaranteed_capacity (s : State) (p : Nat) : (s.guaranteed p).injectCapacity = s.injectCapacity := rfl

/-- A guarantee commit that passes cuts no share: each partition has what it is guaranteed. -/
theorem guarantee_effect {s : State} {p : Nat} (hp : p < 16) (h : s.guaranteeStatus p = stDONE) :
    (((s.guaranteed p).refreshInject.refreshHbm).part p).guar.live = (s.part p).guar.sh ∧
      (((s.guaranteed p).refreshInject.refreshHbm).part p).injectNow = (s.part p).guar.sh.inject ∧
      (((s.guaranteed p).refreshInject.refreshHbm).part p).hbmNow = (s.part p).guar.sh.hbm := by
  have hfits : s.sumMinima p (·.inject.toNat) ≤ s.injectCapacity ∧ s.sumMinima p (·.hbm.toNat) ≤ hbmCapacity := by
    unfold State.guaranteeStatus at h
    by_contra hno
    refine absurd h ?_
    rw [if_neg fun hall => hno ⟨hall.1, hall.2.1⟩]
    decide
  have hinject := refreshInject_fits (s := s.guaranteed p)
    (le_of_eq_of_le (guaranteed_sum s p fun g => g.inject.toNat)
      (hfits.1.trans (le_of_eq (guaranteed_capacity s p).symm)))
  have hhbm := refreshHbm_fits (s := (s.guaranteed p).refreshInject) (by
    refine le_trans (le_of_eq ?_) ((guaranteed_sum s p fun g => g.hbm.toNat).trans_le hfits.2)
    unfold State.hbmSum
    refine congrArg List.sum (List.map_congr_left fun q _ => ?_)
    rw [hinject]
    split <;> rfl) p
  rw [hhbm, if_pos hp, hinject, if_pos hp, State.guaranteed, State.part_updPart, if_pos rfl]
  exact ⟨rfl, rfl, rfl⟩

/-! ### Windows, larder and aperture -/

theorem exec_windowCommit (p : Fin 16) (s : State) : exec (.windowCommit p) s = .next
    (if (s.part p).waitingWindows.isSome then s else (s.afterReady fun s => s.groupCommit p (fun s => s.windowStatus p)
      (fun s => s.applyWindows p) (fun s _ => s)).1) := by
  refine congrArg Host.Outcome.next ?_
  unfold State.commitWindows
  split <;> rfl

theorem exec_apertureCommit (p : Fin 16) (s : State) : exec (.apertureCommit p) s = .next
    (if (s.part p).waitingAper.isSome then s else (s.groupCommit p (fun s => s.apertureStatus p)
      (fun s => s.applyAperture p) (fun s _ => s)).1) := by
  refine congrArg Host.Outcome.next ?_
  unfold State.commitAperture
  split <;> rfl

/-- Windows that remove units wait, and their partition with them. -/
theorem applyWindows_waits {s : State} {p : Nat} (h : removedUnits (s.part p).windows.live (s.part p).windows.sh ≠ []) :
    (s.applyWindows p).part p = { s.part p with
      waitingWindows := some (s.part p).windows.sh, clearing := true,
      state := if (s.part p).state = .absent ∨ (s.part p).state = .stopped then .zeroing else (s.part p).state } :=
  (State.part_updPart ..).trans ((if_pos rfl).trans (if_neg (by rwa [List.isEmpty_iff])))

/-- An aperture that clears no window of which a host holds a line is in force; another one waits. -/
theorem applyAperture_effect (s : State) (p : Nat) :
    ((∀ r ∈ (s.part p).uncached (s.part p).aper.sh, s.lineHeld r.1 r.2 true = false) →
      ((s.applyAperture p).part p).aper.live = (s.part p).aper.sh ∧ ((s.applyAperture p).part p).waitingAper = none) ∧
    ((∃ r ∈ (s.part p).uncached (s.part p).aper.sh, s.lineHeld r.1 r.2 true = true) →
      ((s.applyAperture p).part p).aper = (s.part p).aper ∧
        ((s.applyAperture p).part p).waitingAper = some (s.part p).aper.sh) ∧
    (s.applyAperture p).mem = s.mem ∧ ∀ q, q ≠ p → (s.applyAperture p).part q = s.part q := by
  unfold State.applyAperture
  dsimp only
  have hsame : Same 0x208000 s (((s.part p).uncached (s.part p).aper.sh).foldl (fun s r =>
    s.recallFor r.1 r.2 true) s) :=
    kept_foldl _ _ _ (fun s r h => State.recallFor_keeps rfl s r.1 r.2 true h) (.refl s)
  have hlines : ∀ j, ((((s.part p).uncached (s.part p).aper.sh).foldl
      (fun s r => s.recallFor r.1 r.2 true) s).hport j).directory = (s.hport j).directory := by
    refine fun j => foldl_same (fun s : State => (s.hport j).directory) _ ?_ _ s
    exact fun s r => recallFor_directory s r.1 r.2 true j
  generalize ((s.part p).uncached (s.part p).aper.sh).foldl (fun s r => s.recallFor r.1 r.2 true) s = u
    at hsame hlines ⊢
  have hpart (q : Nat) : (u.updPart p fun q => { q with waitingAper := some q.aper.sh }).part q =
      if p = q then { s.part p with waitingAper := some (s.part p).aper.sh } else s.part q := by
    rw [State.part_updPart, hsame.part_eq rfl, hsame.part_eq rfl]
  have hheld : ∀ a n, (u.updPart p fun q => { q with waitingAper := some q.aper.sh }).lineHeld a n true =
      s.lineHeld a n true := fun a n =>
    (lineHeld_congr (s := u) (fun _ => rfl) a n true).trans (lineHeld_congr hlines a n true)
  have hmem : (u.updPart p fun q => { q with waitingAper := some q.aper.sh }).mem = s.mem := hsame.mem_eq rfl
  generalize (u.updPart p fun q => { q with waitingAper := some q.aper.sh }) = v at hpart hheld hmem ⊢
  have hself : v.part p = { s.part p with waitingAper := some (s.part p).aper.sh } := (hpart p).trans (if_pos rfl)
  have hsettle : v.settleAperture p =
      if ((s.part p).uncached (s.part p).aper.sh).any fun r => s.lineHeld r.1 r.2 true then v
      else (v.updPart p fun q => { q with
        aper := ⟨q.aper.sh, (s.part p).aper.sh⟩, waitingAper := none }).answerWaiting p true := by
    unfold State.settleAperture
    rw [hself]
    simp only [hheld]
    rfl
  have hanswer : ∀ x : State, Same 0x218000 x (x.answerWaiting p true) := fun x =>
    State.answerWaiting_keeps rfl _ _ _ (.refl x)
  rw [hsettle]
  refine ⟨fun hfree => ?_, fun ⟨r, hr, hrheld⟩ => ?_, ?_, fun q hq => ?_⟩
  · rw [if_neg (by simpa using hfree), (hanswer _).part_eq rfl, State.part_updPart, if_pos rfl]
    exact ⟨rfl, rfl⟩
  · rw [if_pos (List.any_eq_true.2 ⟨r, hr, hrheld⟩), hself]
    exact ⟨rfl, rfl⟩
  · split
    · exact hmem
    · rw [(hanswer _).mem_eq rfl]
      exact hmem
  · split
    · exact (hpart q).trans (if_neg (Ne.symm hq))
    · rw [(hanswer _).part_eq rfl, State.part_updPart, if_neg (Ne.symm hq), hpart, if_neg (Ne.symm hq)]

/-- WINDOW_COMMIT and LARDER_COMMIT, with the end of the clearing that windows wait for. -/
theorem windowAndLarderCommit (p : Fin 16) (s : State) (hready : s.isReady = true) (hidle : (s.part p).active = false) :
    (s.larderStatus p = stDONE → exec (.larderCommit p) s = .next (s.updPart p fun q =>
      { q with larder := ⟨q.larder.sh, q.larder.sh⟩ })) ∧
    (s.larderStatus p ≠ stDONE → exec (.larderCommit p) s = .next s) ∧
    ((s.part p).waitingWindows = none → s.windowStatus p ≠ stDONE → exec (.windowCommit p) s = .next s) ∧
    ((s.part p).waitingWindows = none → s.windowStatus p = stDONE →
      exec (.windowCommit p) s = .next (s.applyWindows p)) := by
  have hlarder : exec (.larderCommit p) s = _ :=
    congrArg Host.Outcome.next (congrArg Prod.fst (afterReady_runs hready _))
  have hwindow : (s.part p).waitingWindows = none → exec (.windowCommit p) s = _ := fun h =>
    (exec_windowCommit p s).trans (congrArg Host.Outcome.next ((if_neg (by rw [h]; decide)).trans
      (congrArg Prod.fst (afterReady_runs hready _))))
  exact ⟨fun h => hlarder.trans (congrArg Host.Outcome.next (groupCommit_passes hidle h)),
    fun h => hlarder.trans (congrArg Host.Outcome.next (groupCommit_fails hidle h)),
    fun hw h => (hwindow hw).trans (congrArg Host.Outcome.next (groupCommit_fails hidle h)),
    fun hw h => (hwindow hw).trans (congrArg Host.Outcome.next (groupCommit_passes hidle h))⟩

theorem groupCommit_active {s : State} {p : Nat} (h : (s.part p).active = true) (judge : State → Half)
    (apply : State → State) (note : State → Half → State) : (s.groupCommit p judge apply note).1 = s := by
  unfold State.groupCommit
  rw [h]
  rfl

theorem noteLayout_effect (s : State) (st : Half) :
    (s.noteLayout st).parts = s.parts ∧ (s.noteLayout st).mgmt.layoutStatus = st := ⟨rfl, rfl⟩

section
variable {p : Fin 16} {s : State} (hready : s.isReady = true) (hidle : (s.part p).active = false)
include hready hidle

theorem exec_guaranteeCommit (h : s.guaranteeStatus p = stDONE) : exec (.guaranteeCommit p) s =
    .next ((s.guaranteed p).refreshInject.refreshHbm.noteLayout stDONE) :=
  congrArg Host.Outcome.next ((congrArg Prod.fst (afterReady_runs hready _)).trans
    (groupCommit_passes (judge := fun s => s.guaranteeStatus p) hidle h))

theorem exec_guaranteeCommit_fails (h : s.guaranteeStatus p ≠ stDONE) : exec (.guaranteeCommit p) s =
    .next (s.noteLayout (s.guaranteeStatus p)) :=
  congrArg Host.Outcome.next ((congrArg Prod.fst (afterReady_runs hready _)).trans
    (groupCommit_fails (judge := fun s => s.guaranteeStatus p) hidle h))

theorem exec_placementCommit (h : s.placementStatus p = stDONE) : exec (.placementCommit p) s =
    .next (((s.updPart p fun q => { q with place := ⟨q.place.sh, q.place.sh⟩ }).refreshModes p).noteLayout stDONE) :=
  congrArg Host.Outcome.next ((congrArg Prod.fst (afterReady_runs hready _)).trans
    (groupCommit_passes (judge := fun s => s.placementStatus p) hidle h))

theorem exec_placementCommit_fails (h : s.placementStatus p ≠ stDONE) : exec (.placementCommit p) s =
    .next (s.noteLayout (s.placementStatus p)) :=
  congrArg Host.Outcome.next ((congrArg Prod.fst (afterReady_runs hready _)).trans
    (groupCommit_fails (judge := fun s => s.placementStatus p) hidle h))

end

/-- What a placement commit that passes leaves. -/
theorem placement_effect (s : State) (p q : Nat) :
    (((s.updPart p fun q => { q with place := ⟨q.place.sh, q.place.sh⟩ }).refreshModes p).part q) =
      if p = q then { s.part p with
        place := ⟨(s.part p).place.sh, (s.part p).place.sh⟩, axisModes := s.axisModes (s.part p).place.sh }
      else s.part q := by
  unfold State.refreshModes
  rw [State.part_updPart, State.part_updPart, State.part_updPart, if_pos rfl]
  split <;> rfl

/-- Settles O38: each commit is judged in its turn, and its shadow is in force where it passes. -/
theorem groupCommits : Obligations.GroupCommits := by
  refine ⟨fun p s => ⟨fun h => ⟨?_, congrArg Host.Outcome.next (groupCommit_waits h)⟩, fun hready hidle => ?_⟩,
    fun p s => ⟨fun hact => ⟨?_, ?_, ?_⟩, fun hnot => ⟨?_, ?_⟩, fun hidle => ⟨fun hready hst => ?_,
      fun hready hst => ?_,
      fun hready hst => ?_, fun hready hst => ?_, fun h => ?_, fun hw hst => ?_, fun hst => ?_⟩⟩⟩
  · rw [exec_windowCommit, groupCommit_waits h, ite_self]
  · obtain ⟨hpass, hfail, hwfail, hwpass⟩ := windowAndLarderCommit p s hready hidle
    refine ⟨hpass, hfail, fun h => ?_, hwfail, fun hw hst hnone => ?_, fun hw hst hsome => ?_⟩
    · rw [exec_windowCommit, if_pos h]
    · exact (hwpass hw hst).trans (congrArg Host.Outcome.next (updPart_congr (if_pos (by rw [hnone]; rfl))))
    · have hpart := applyWindows_waits hsome
      obtain ⟨u, a, w, hexec, hmem, hend⟩ := zeroingComplete_effect (p := p) (s := s.applyWindows p) (by rw [hpart])
      refine ⟨_, u, hwpass hw hst, by rw [hpart], fun hstop => ?_, rfl, hexec, ?_, fun r hr n hlo hhi => ?_⟩
      · rw [hpart]
        exact if_pos (.inr hstop)
      · rw [hend, hpart]
        rfl
      · rw [hmem]
        refine zeroUnits_zero (r := r) ?_ hlo hhi _
        rw [hpart]
        exact hr
  · exact congrArg Host.Outcome.next (groupCommit_waits (.inr hact))
  · exact congrArg Host.Outcome.next (groupCommit_waits (.inr hact))
  · rw [exec_apertureCommit, groupCommit_active hact, ite_self]
  · exact congrArg Host.Outcome.next (groupCommit_waits (.inl hnot))
  · exact congrArg Host.Outcome.next (groupCommit_waits (.inl hnot))
  · obtain ⟨hlive, hinject, hhbm⟩ := guarantee_effect p.isLt hst
    have hexec := exec_guaranteeCommit hready hidle hst
    generalize (s.guaranteed p).refreshInject.refreshHbm = u at hexec hlive hinject hhbm
    exact ⟨_, hexec, hlive, rfl, hinject, hhbm⟩
  · exact ⟨_, exec_guaranteeCommit_fails hready hidle hst, noteLayout_effect ..⟩
  · have hpart := placement_effect s p
    have hexec := exec_placementCommit hready hidle hst
    generalize (s.updPart p fun q => { q with place := ⟨q.place.sh, q.place.sh⟩ }).refreshModes p = u at hexec hpart
    have hself := (hpart p).trans (if_pos rfl)
    exact ⟨_, hexec, congrArg (fun q : Part => q.place.live) hself, congrArg Part.axisModes hself, rfl,
      fun q hq => (hpart q).trans (if_neg (Ne.symm hq))⟩
  · exact ⟨_, exec_placementCommit_fails hready hidle hst, noteLayout_effect ..⟩
  · rw [exec_apertureCommit, if_pos h]
  · have hexec := exec_apertureCommit p s
    rw [if_neg (by rw [hw]; decide), groupCommit_passes hidle hst] at hexec
    obtain ⟨hfree, hheld, hmem, hothers⟩ := applyAperture_effect s p
    exact ⟨_, hexec, hfree, hheld, hmem, hothers⟩
  · rw [exec_apertureCommit, groupCommit_fails hidle hst, ite_self]

end Sys2Proof.Machine
end


section
/-! SUPPORT. Proofs/Loads.lean: what a load clears, what its checks give, and the commits of starts and manifests. -/

namespace Sys2Proof.Machine

/-- A wider footprint. -/
theorem Same.mono {f m : Nat} {s t : State} (h : Same f s t) (hm : f &&& m = f) : Same m s t where
  wf := h.wf
  serve := h.serve.imp_left (bit_of hm)
  grade := h.grade
  stepping := h.stepping
  pending := h.pending
  counter := h.counter.imp_left (bit_of hm)
  revoked := h.revoked.imp_left (bit_of hm)
  dieMap := h.dieMap.imp_left (bit_of hm)
  mem := h.mem.imp_left (bit_of hm)
  memStat := h.memStat.imp_left (bit_of hm)
  power := h.power.imp_left (bit_of hm)
  locked := h.locked.imp_left (bit_of hm)
  cores := h.cores.imp_left (bit_of hm)
  parts := h.parts.imp_left (bit_of hm)
  ctxs := h.ctxs.imp_left (bit_of hm)
  arith := h.arith.imp_left (bit_of hm)
  fabric := h.fabric.imp_left (bit_of hm)
  coll := h.coll.imp_left (bit_of hm)
  tb := h.tb.imp_left (bit_of hm)
  ports := h.ports.imp_left (bit_of hm)
  links := h.links.imp_left (bit_of hm)
  host := h.host.imp_left (bit_of hm)
  mgmt := h.mgmt.imp_left (bit_of hm)
  fw := h.fw.imp_left (bit_of hm)
  train := h.train.imp_left (bit_of hm)
  tenancy := h.tenancy.imp_left (bit_of hm)
  jtag := h.jtag.imp_left (bit_of hm)
  out := h.out.imp_left (bit_of hm)

/-! ### Directories that stay empty -/

theorem hport_updHport_directory {s : State} {k j : Nat} {f : HostPort → HostPort}
    (h : (s.hport j).directory = []) (hf : ∀ x : HostPort, x.directory = [] → (f x).directory = []) :
    ((s.updHport k f).hport j).directory = [] := by
  rw [State.hport_updHport]
  split
  · rename_i hk
    exact hf _ (hk ▸ h)
  · exact h

theorem zeroRange_directory {s : State} {j : Nat} (h : (s.hport j).directory = []) (a n : Nat) :
    ((s.zeroRange a n).hport j).directory = [] := by
  unfold State.zeroRange
  refine foldl_keeps (P := fun s : State => (s.hport j).directory = []) _ (fun s k h => ?_) _ s h
  dsimp only
  split
  · exact h
  · refine hport_updHport_directory ?_ fun x hx => ?_
    · exact (foldl_same (fun s : State => (s.hport j).directory) _ (fun s l =>
      recallLine_directory s k l j) _ s).trans h
    · show x.directory.filter _ = []
      rw [hx]
      rfl

theorem updQueue_directory (s : State) (k q : Nat) (f : HQueue → HQueue) (j : Nat) :
    ((s.updQueue k q f).hport j).directory = (s.hport j).directory := by
  unfold State.updQueue
  rw [State.hport_updHport]
  split
  · rename_i h
    rw [h]
  · rfl

theorem releaseCore_directory (s : State) (c j : Nat) :
    ((s.releaseCore c).hport j).directory = (s.hport j).directory :=
  foldl_same (fun s : State => (s.hport j).directory) _ (fun s k =>
    foldl_same (fun s : State => (s.hport j).directory) _ (fun s q => by
      dsimp only
      split
      · exact updQueue_directory ..
      · rfl) _ s) _ s

theorem updCore_hport (s : State) (c : Nat) (f : Core → Core) (j : Nat) : (s.updCore c f).hport j = s.hport j := rfl

theorem freshCore_directory {s : State} {j : Nat} (h : (s.hport j).directory = []) (c : Nat) :
    ((s.freshCore c).hport j).directory = [] := by
  unfold State.freshCore State.clearCore
  rw [updCore_hport]
  refine zeroRange_directory (zeroRange_directory ?_ _ _) _ _
  rw [updCore_hport]
  exact h

theorem lineHeld_empty {s : State} (h : ∀ j < 2, (s.hport j).directory = []) (a n : Nat) (write : Bool) :
    s.lineHeld a n write = false := by
  unfold State.lineHeld HostPort.heldIn
  simp [h 0 (by decide), h 1 (by decide)]

/-! ### What a load clears -/

/-- A core as a load leaves it. -/
def State.loadCore (s : State) (c : Nat) : State :=
  ((s.freshCore c).updCore c fun k => { k with tallies := [] }).releaseCore c

theorem loadCore_core (s : State) (c d : Nat) : (s.loadCore c).core d = if c = d then
    { s.core c with tags := [], fn0 := none, fn1 := none, fnChecked := false, tallies := [] } else s.core d := by
  unfold State.loadCore
  rw [(State.releaseCore_keeps (fp := 0x8000) rfl _ c (.refl _)).core_eq rfl, State.core_updCore, freshCore_core,
    freshCore_core, if_pos rfl]
  split <;> rfl

theorem loadCore_same (s : State) (c : Nat) : Same 0x208044 s (s.loadCore c) :=
  State.releaseCore_keeps rfl _ c (State.updCore_keeps rfl _ c _ (State.freshCore_keeps rfl s c (.refl s)))

theorem loadCore_directory {s : State} {j : Nat} (h : (s.hport j).directory = []) (c : Nat) :
    ((s.loadCore c).hport j).directory = [] := by
  unfold State.loadCore
  rw [releaseCore_directory, updCore_hport]
  exact freshCore_directory h c

/-- What a load leaves of its partition, its cores, the gathers, the ledger and empty directories. -/
theorem loadEffects_effect (s : State) (p : Nat) :
    ((s.loadEffects p).part p = { s.part p with
      localNorm := ⟨0, 0⟩, reducedNorm := ⟨0, 0⟩, norms := [], attic := [], stats := [], pattern := none, armed := none,
      sched := { Sched.reset with slipTotal := (s.part p).sched.slipTotal }, patState := .checking }) ∧
    (∀ c ∈ s.coresOf p, ((s.loadEffects p).core c).tallies = [] ∧ ((s.loadEffects p).core c).fn0 = none ∧
      ((s.loadEffects p).core c).tags = []) ∧
    (s.loadEffects p).train.records = s.train.records.filter (·.part != p) ∧
    (s.loadEffects p).coll.ledger = s.coll.ledger.filter (·.part != p) ∧
    ∀ j, (s.hport j).directory = [] → ((s.loadEffects p).hport j).directory = [] := by
  unfold State.loadEffects
  dsimp only
  have hempty : Same 0x100 s (s.emptyContexts p) := State.emptyContexts_keeps rfl s p (.refl s)
  generalize s.emptyContexts p = a at hempty ⊢
  have hpart := freshNorm_part a p
  have hnorm : Same 0x880 a (a.freshNorm p) := State.freshNorm_keeps rfl _ _ (.refl a)
  have hledger : (a.freshNorm p).coll.ledger = a.coll.ledger.filter (·.part != p) := rfl
  generalize a.freshNorm p = b at hpart hnorm hledger ⊢
  have hcoresOf : b.coresOf p = s.coresOf p := by
    have hlayout : (b.part p).layout = (s.part p).layout := by
      rw [hpart, if_pos rfl, hempty.part_eq rfl]
    unfold State.coresOf
    rw [hlayout]
  rw [hcoresOf]
  generalize hd : List.foldl _ b (s.coresOf p) = d
  have hload : (s.coresOf p).foldl State.loadCore b = d := hd
  have hsame : Same 0x208044 b d := hload ▸ kept_foldl _ _ _ (fun s c h => h.trans (loadCore_same s c)) (.refl b)
  have hcores : ∀ c ∈ s.coresOf p, (d.core c).tallies = [] ∧ (d.core c).fn0 = none ∧ (d.core c).tags = [] := fun c hc =>
    hload ▸ foldl_reaches (P := fun s : State => (s.core c).tallies = [] ∧ (s.core c).fn0 = none ∧ (s.core c).tags = [])
      (fun s => by rw [loadCore_core, if_pos rfl]; exact ⟨rfl, rfl, rfl⟩)
      (fun s e h => by
        rw [loadCore_core]
        split
        · exact ⟨rfl, rfl, rfl⟩
        · exact h) hc b
  have hdirs : ∀ j, (b.hport j).directory = [] → (d.hport j).directory = [] := fun j h =>
    hload ▸ foldl_keeps (P := fun s : State => (s.hport j).directory = []) _ (fun s c h => loadCore_directory h c) _ b h
  generalize he : List.foldl _ d _ = e
  have hctxs : Same 0x100 d e := he ▸ kept_foldl _ _ _ (fun s n h => State.setCtx_keeps rfl s n _ h) (.refl d)
  have hrest : Same 0x208144 b e := (hsame.mono rfl).trans (hctxs.mono rfl)
  have hhost (j : Nat) : b.hport j = s.hport j := congrArg (fun x : HostLink => Sparse.get HostPort.reset x.ports j)
    ((hnorm.host.resolve_left (by decide)).trans (hempty.host.resolve_left (by decide)))
  have hlast (j : Nat) : e.hport j = d.hport j := congrArg (fun x : HostLink => Sparse.get HostPort.reset x.ports j)
    (hctxs.host.resolve_left (by decide))
  refine ⟨?_, fun c hc => ?_, ?_, ?_, fun j hj => ?_⟩
  · generalize hw : e.updPart p _ = w
    show w.part p = _
    rw [← hw, State.part_updPart, if_pos rfl, hrest.part_eq rfl, hpart, if_pos rfl, hempty.part_eq rfl]
  · have hcore : e.core c = d.core c := hctxs.core_eq rfl c
    show (e.core c).tallies = [] ∧ (e.core c).fn0 = none ∧ (e.core c).tags = []
    rw [hcore]
    exact hcores c hc
  · refine congrArg (List.filter fun g : Gather => g.part != p) (congrArg Train.records (?_ : e.train = s.train))
    rw [hrest.train.resolve_left (by decide), hnorm.train.resolve_left (by decide),
      hempty.train.resolve_left (by decide)]
  · show e.coll.ledger = _
    rw [hrest.coll.resolve_left (by decide), hledger, hempty.coll.resolve_left (by decide)]
  · show (e.hport j).directory = []
    rw [hlast]
    exact hdirs j (by rwa [hhost])

/-! ### PAT_COMMIT and PATTERN_LOAD_DONE -/

/-- A result of checks that, where it is DONE, comes with a pattern. -/
def Gives (pat : Pattern) (r : Half × Option Pattern) : Prop := r.1 = stDONE → r.2 = some pat

theorem Gives.fails {pat : Pattern} {st : Half} (h : st ≠ stDONE) (x : Option Pattern) : Gives pat (st, x) :=
  fun he => absurd he h

theorem Gives.ite {pat : Pattern} {c : Prop} [Decidable c] {a b : Half × Option Pattern} (ha : c → Gives pat a)
    (hb : Gives pat b) : Gives pat (if c then a else b) := by
  split
  · exact ha ‹_›
  · exact hb

/-- Checks that pass give the pattern of the image. -/
theorem loadChecks_done (s : State) (p base bytes : Nat) :
    Gives (s.readPattern base bytes) (s.loadChecks p base bytes) := by
  unfold State.loadChecks
  exact .ite (fun _ => .fails (by decide) _) <| .ite (fun _ => .fails (by decide) _) <|
    .ite (fun _ => .fails (by decide) _) <| .ite (fun _ => .fails (by decide) _) <|
    .ite (fun _ => .fails (by decide) _) <| .ite (fun _ => .fails (by decide) _) <|
    .ite (fun _ => .fails (by decide) _) <| .ite (fun _ => .fails (by decide) _) <|
    .ite (fun h => .fails h _) fun _ => rfl

/-- What a load has of its image: the result of its checks, or the place from where it will read them. -/
def State.loadNoted (s : State) (p : Nat) (r : Option (Half × Option Pattern)) (x : Option (Nat × Nat)) : State :=
  s.updPart p fun q => { q with loadResult := r, loadFrom := x }

/-- PAT_COMMIT of a partition with no pattern armed, running or being checked. -/
theorem patCommit_loads {s : State} {p : Nat}
    (h : ¬ ((s.part p).patState = .armed ∨ (s.part p).patState = .running ∨ (s.part p).patState = .checking)) :
    let x := ((s.part p).regs.base.sh.toNat, (s.part p).regs.bytes.sh.toNat)
    let u := s.loadEffects p
    s.patCommit p = if u.imagePlaced p x.1 x.2 && u.lineHeld (addrLocal x.1) x.2 false
      then (u.recallFor (addrLocal x.1) x.2 false).loadNoted p none (some x)
      else u.loadNoted p (some (u.loadChecks p x.1 x.2)) none :=
  if_neg h

theorem endLoad_part (s : State) (p : Nat) (r : Half × Option Pattern) :
    ((s.endLoad p r).part p).regs.commitStatus = r.1 ∧ ((s.endLoad p r).part p).loadStatus = r.1 ∧
      ((s.endLoad p r).part p).pattern = r.2 ∧ ((s.endLoad p r).part p).loadFrom = none ∧
      ((s.endLoad p r).part p).patState = (if r.1 = stDONE then .loaded else .empty) ∧
      ∀ pat, r.2 = some pat → ((s.endLoad p r).part p).regs.base.live = BitVec.ofNat 64 pat.base ∧
        ((s.endLoad p r).part p).regs.bytes.live = BitVec.ofNat 32 pat.bytes := by
  unfold State.endLoad
  rw [State.part_updPart, if_pos rfl]
  refine ⟨rfl, rfl, rfl, rfl, ?_, fun pat hpat => ?_⟩
  · exact if_congr beq_iff_eq rfl rfl
  · dsimp only
    rw [hpat]
    exact ⟨rfl, rfl⟩

theorem exec_patCommit {port : Fin 2} {p : Fin 16} {s : State} (h : s.boundTo p port = true) :
    exec (.patCommit port p) s = .next (s.patCommit p) := congrArg Host.Outcome.next (viaPart_bound h _)

theorem exec_patternLoadDone_checked {p : Fin 16} {s : State} {r : Half × Option Pattern}
    (h : (s.part p).patState = .checking) (hr : (s.part p).loadResult = some r) :
    exec (.patternLoadDone p) s = .next (s.endLoad p r) := by
  refine congrArg Host.Outcome.next ?_
  rw [h, hr]

theorem exec_patternLoadDone_waits {p : Fin 16} {s : State} {x : Nat × Nat}
    (h : (s.part p).patState = .checking) (hr : (s.part p).loadResult = none) (hx : (s.part p).loadFrom = some x) :
    exec (.patternLoadDone p) s = .next (if s.lineHeld (addrLocal x.1) x.2 false then
      s.recallFor (addrLocal x.1) x.2 false else s.endLoad p (s.loadChecks p x.1 x.2)) := by
  refine congrArg Host.Outcome.next ?_
  rw [h, hr, hx]

theorem exec_patternLoadDone_idle {p : Fin 16} {s : State} (h : (s.part p).patState ≠ .checking) :
    exec (.patternLoadDone p) s = .next s := by
  refine congrArg Host.Outcome.next ?_
  cases hq : (s.part p).patState with
  | checking => exact absurd hq h
  | _ => rfl

/-- What PAT_COMMIT notes of the load, on the state that the load's effects leave. -/
theorem patCommit_notes {s : State} {p : Nat}
    (h : ¬ ((s.part p).patState = .armed ∨ (s.part p).patState = .running ∨ (s.part p).patState = .checking)) :
    ∃ v r y, s.patCommit p = v.loadNoted p r y ∧ Same 0x208000 (s.loadEffects p) v ∧
      ((r = none ∧ y = some ((s.part p).regs.base.sh.toNat, (s.part p).regs.bytes.sh.toNat) ∧
          (s.loadEffects p).lineHeld (addrLocal (s.part p).regs.base.sh.toNat)
            (s.part p).regs.bytes.sh.toNat false = true) ∨
        r = some ((s.loadEffects p).loadChecks p (s.part p).regs.base.sh.toNat (s.part p).regs.bytes.sh.toNat)) := by
  rw [patCommit_loads h]
  generalize s.loadEffects p = u
  dsimp only
  split
  · rename_i hheld
    exact ⟨_, _, _, rfl, State.recallFor_keeps rfl _ _ _ _ (.refl u), .inl ⟨rfl, rfl, (Bool.and_eq_true_iff.1 hheld).2⟩⟩
  · exact ⟨_, _, _, rfl, .refl u, .inr rfl⟩

theorem loadNoted_part (s : State) (p : Nat) (r : Option (Half × Option Pattern)) (x : Option (Nat × Nat)) :
    (s.loadNoted p r x).part p = { s.part p with loadResult := r, loadFrom := x } :=
  (State.part_updPart ..).trans (if_pos rfl)

/-- Settles O39: the load clears first; its result, read at once or later, is put in force at its end. -/
theorem patternLoad : Obligations.PatternLoad := by
  intro port p s hbound
  refine ⟨fun h => (exec_patCommit hbound).trans (congrArg Host.Outcome.next (if_pos h)), fun h => ?_,
    fun x hcheck hres hfrom => ⟨fun hheld => ?_, fun hfree => ?_⟩, fun h => exec_patternLoadDone_idle h⟩
  · have hno : ¬ ((s.part p).patState = .armed ∨ (s.part p).patState = .running ∨ (s.part p).patState = .checking) := by
      obtain h | h | h := h <;> rw [h] <;> decide
    have hexec := exec_patCommit hbound
    obtain ⟨hpart, hcores, htrain, hledger, hdirs⟩ := loadEffects_effect s p
    have hchecks := loadChecks_done (s.loadEffects p) p (s.part p).regs.base.sh.toNat (s.part p).regs.bytes.sh.toNat
    obtain ⟨v, r, y, hv, hsame, hor⟩ := patCommit_notes hno
    rw [hv] at hexec
    generalize s.loadEffects p = u at hpart hcores htrain hledger hdirs hchecks hsame hor
    have hvpart := hsame.part_eq rfl p
    have hnoted := loadNoted_part v p r y
    have hlast : Same 0x80 v (v.loadNoted p r y) := State.updPart_keeps rfl v p _ (.refl v)
    rw [hvpart, hpart] at hnoted
    generalize v.loadNoted p r y = t at hexec hnoted hlast
    refine ⟨t, hexec, by rw [hnoted], by rw [hnoted], by rw [hnoted], by rw [hnoted], by rw [hnoted],
      fun c hc => ?_, ?_, ?_,
      fun hnone => ?_, fun hres => ?_, fun x hres => ⟨t.endLoad p x, exec_patternLoadDone_checked
        (by rw [hnoted]) hres, ?_⟩⟩
    · obtain ⟨ht, h0, hg⟩ := hcores c hc
      unfold State.tallyOf
      rw [hlast.core_eq rfl, hsame.core_eq rfl, ht]
      exact ⟨fun n => rfl, h0, hg⟩
    · rw [hlast.train.resolve_left (by decide), hsame.train.resolve_left (by decide), htrain]
      exact fun g hg => bne_iff_ne.1 (List.mem_filter.1 hg).2
    · rw [hlast.coll.resolve_left (by decide), hsame.coll.resolve_left (by decide), hledger]
      exact fun g hg => bne_iff_ne.1 (List.mem_filter.1 hg).2
    · obtain ⟨-, -, hheld⟩ | rfl := hor
      · rw [lineHeld_empty fun j hj => hdirs j (hnone j hj)] at hheld
        exact absurd hheld Bool.false_ne_true
      · rw [hnoted]
        rfl
    · obtain ⟨-, rfl, -⟩ | rfl := hor
      · rw [hnoted]
      · rw [hnoted] at hres
        exact absurd hres (Option.some_ne_none _)
    · obtain ⟨hcommit, hload, hpattern, -, hstate, hlive⟩ := endLoad_part t p x
      refine ⟨hcommit, hload, fun hdone => ?_, fun hne => hstate.trans (if_neg hne)⟩
      have hx : some x = r := by rw [← hres, hnoted]
      obtain ⟨rfl, -, -⟩ | rfl := hor
      · exact absurd hx (Option.some_ne_none _)
      · obtain rfl := Option.some.inj hx
        obtain ⟨hbase, hbytes⟩ := hlive _ (hchecks hdone)
        refine ⟨hstate.trans (if_pos hdone), hpattern, hbase.trans ?_, hbytes.trans ?_⟩
        · exact (BitVec.ofNat_toNat ..).trans (BitVec.setWidth_eq _)
        · exact (BitVec.ofNat_toNat ..).trans (BitVec.setWidth_eq _)
  · rw [exec_patternLoadDone_waits hcheck hres hfrom, if_pos hheld]
  · refine ⟨_, (exec_patternLoadDone_waits hcheck hres hfrom).trans
      (congrArg Host.Outcome.next (if_neg (by rw [hfree]; decide))), ?_⟩
    obtain ⟨-, hstatus, hpattern, hfrom, hstate, -⟩ := endLoad_part s p (s.loadChecks p x.1 x.2)
    exact ⟨hstatus, hpattern, hfrom, hstate⟩

/-! ### START_COMMIT and MAN_COMMIT -/

theorem exec_startCommit {port : Fin 2} {p : Fin 16} {s : State} (h : s.boundTo p port = true) :
    exec (.startCommit port p) s = .next (s.startCommit p) := congrArg Host.Outcome.next (viaPart_bound h _)

theorem startCommit_refused {s : State} {p : Nat} {st : Half} (h : s.startStatus p = st) (hst : st ≠ stDONE) :
    s.startCommit p = s.updPart p fun q => { q with regs := { q.regs with startStatus := st } } := by
  subst h
  unfold State.startCommit
  exact updPart_congr (if_pos hst)

theorem startCommit_part {s : State} {p : Nat} (h : s.startStatus p = stDONE) : (s.startCommit p).part p =
    { s.part p with
      regs := { (s.part p).regs with
        startStatus := stDONE, start := ⟨(s.part p).regs.start.sh, (s.part p).regs.start.sh⟩ },
      armed := if (s.part p).regs.start.sh.toNat = 0 then none else some (s.part p).regs.start.sh.toNat,
      patState := if (s.part p).regs.start.sh.toNat = 0 then .loaded else .armed } := by
  refine (State.part_updPart ..).trans ((if_pos rfl).trans ?_)
  rw [h]
  rfl

theorem long_toNat_ne {x : Long} (h : x ≠ 0) : x.toNat ≠ 0 := fun h0 => h (BitVec.eq_of_toNat_eq h0)

/-- The status of a start that is not 0 of a loaded pattern. -/
theorem startStatus_of {s : State} {p : Nat} {pat : Pattern} (hpat : (s.part p).pattern = some pat)
    (h : (s.part p).patState = .loaded ∨ (s.part p).patState = .armed) (h0 : (s.part p).regs.start.sh ≠ 0) :
    s.startStatus p = if s.aligned then
      (if (s.part p).regs.start.sh.toNat < s.tb.count.toNat + pat.slipLag + 16 then stCONFIG else stDONE)
      else stUNALIGNED := by
  unfold State.startStatus
  dsimp only
  rw [if_neg fun hno => h.elim hno.1 hno.2, if_neg (long_toNat_ne h0), hpat]
  cases s.aligned <;> rfl

theorem exec_manCommit {port : Fin 2} {p : Fin 16} {s : State} (h : s.boundTo p port = true) :
    exec (.manCommit port p) s = .next (s.awaitManifest p (s.part p).regs.man.sh) :=
  congrArg Host.Outcome.next (viaPart_bound h _)

/-- A manifest that passes is the next step's, and no further ahead than R395 allows. -/
theorem manStatus_done {s : State} {p base : Nat} (h : s.manStatus p base = stDONE) :
    (s.readManifest (addrLocal base)).step = (s.part p).sched.nextStep ∧
      (s.part p).sched.nextStep < (s.part p).sched.begun + 4 := by
  unfold State.manStatus at h
  dsimp only at h
  split at h
  · exact absurd h (by decide)
  · split at h
    · exact absurd h (by decide)
    · split at h
      · exact absurd h (by decide)
      · split at h
        · exact absurd h (by decide)
        · rename_i hno
          simp only [not_or, not_not, not_le] at hno
          obtain ⟨-, -, hstep, -, -, -, hbegun, -⟩ := hno
          exact ⟨hstep, hbegun⟩

section
variable {s : State} {p : Nat} {base : Long}

theorem awaitManifest_free (h : s.manHeld p base.toNat = none) : s.awaitManifest p base = s.takeManifest p base := by
  unfold State.awaitManifest
  rw [h]

theorem awaitManifest_held {x : Nat × Nat} (h : s.manHeld p base.toNat = some x) : s.awaitManifest p base =
    (s.recallFor x.1 x.2 false).updPart p fun q => { q with waitingMan := some base } := by
  unfold State.awaitManifest
  rw [h]

theorem takeManifest_fails (h : s.manStatus p base.toNat ≠ stDONE) : s.takeManifest p base = s.updPart p fun q =>
    { q with waitingMan := none, regs := { q.regs with manStatus := s.manStatus p base.toNat } } := by
  unfold State.takeManifest
  exact updPart_congr (if_pos h)

theorem takeManifest_part (h : s.manStatus p base.toNat = stDONE) : (s.takeManifest p base).part p =
    { s.part p with
      waitingMan := none,
      regs := { (s.part p).regs with manStatus := stDONE, man := ⟨(s.part p).regs.man.sh, base⟩ },
      sched := { (s.part p).sched with
        manifests := (s.part p).sched.manifests ++ [s.readManifest (addrLocal base.toNat)],
        nextStep := (s.part p).sched.nextStep + 1 },
      attic := match (s.part p).pattern with
        | some pat => (s.part p).attic.map (pat.replace { (s.part p).sched with
            manifests := (s.part p).sched.manifests ++ [s.readManifest (addrLocal base.toNat)] })
        | none => (s.part p).attic } := by
  unfold State.takeManifest
  refine (State.part_updPart ..).trans ((if_pos rfl).trans ?_)
  rw [h]
  exact if_neg fun hno => hno rfl

end

/-- Settles O40: START_COMMIT arms by its status; MAN_COMMIT takes a manifest that passes and that no host owns. -/
theorem startAndManifestCommit : Obligations.StartAndManifestCommit := by
  intro port p s hbound
  refine ⟨fun pat hpat hst h0 => ⟨fun hal hle => ?_, fun hal hlt => ?_, fun hal => ?_⟩, fun harm h0 => ?_,
    fun hl ha => ?_,
    ?_⟩
  · have hstatus := startStatus_of hpat hst h0
    rw [hal, if_pos rfl, if_neg (not_lt.2 hle)] at hstatus
    have hn : (s.part p).regs.start.sh.toNat ≠ 0 := long_toNat_ne h0
    have hpart := startCommit_part hstatus
    rw [if_neg hn, if_neg hn] at hpart
    refine ⟨_, exec_startCommit hbound, ?_⟩
    rw [hpart]
    exact ⟨rfl, rfl, rfl, rfl, rfl⟩
  · have hstatus := startStatus_of hpat hst h0
    rw [hal, if_pos rfl, if_pos hlt] at hstatus
    exact (exec_startCommit hbound).trans (congrArg Host.Outcome.next (startCommit_refused hstatus (by decide)))
  · have hstatus := startStatus_of hpat hst h0
    rw [hal, if_neg Bool.false_ne_true] at hstatus
    exact (exec_startCommit hbound).trans (congrArg Host.Outcome.next (startCommit_refused hstatus (by decide)))
  · have hstatus : s.startStatus p = stDONE := by
      unfold State.startStatus
      dsimp only
      rw [if_neg fun hno => hno.2 harm, h0]
      rfl
    have hpart := startCommit_part hstatus
    rw [h0] at hpart
    refine ⟨_, exec_startCommit hbound, ?_⟩
    rw [hpart]
    exact ⟨rfl, rfl⟩
  · have hstatus : s.startStatus p = stCONFIG := if_pos ⟨hl, ha⟩
    exact (exec_startCommit hbound).trans (congrArg Host.Outcome.next (startCommit_refused hstatus (by decide)))
  · rintro base rfl
    have hexec := exec_manCommit hbound
    refine ⟨fun hfree hdone => ?_, fun hfree hne => ?_, fun x hheld => ?_⟩
    · rw [awaitManifest_free hfree] at hexec
      have hpart := takeManifest_part hdone
      have hsame : Same 0x80 s (s.takeManifest p (s.part p).regs.man.sh) := State.takeManifest_keeps rfl _ _ _ (.refl s)
      obtain ⟨hstep, hbegun⟩ := manStatus_done hdone
      generalize s.takeManifest p (s.part p).regs.man.sh = t at hexec hpart hsame
      generalize s.readManifest (addrLocal (s.part p).regs.man.sh.toNat) = man at hpart hstep
      refine ⟨t, man, hexec, ?_, hstep, ?_, ?_, hbegun, hsame.mem_eq rfl, hsame.cores_eq rfl⟩ <;> rw [hpart]
    · rw [awaitManifest_free hfree, takeManifest_fails hne] at hexec
      exact hexec
    · rw [awaitManifest_held hheld] at hexec
      have hsame : Same 0x208000 s (s.recallFor x.1 x.2 false) := State.recallFor_keeps rfl _ _ _ _ (.refl s)
      generalize s.recallFor x.1 x.2 false = u at hexec hsame
      refine ⟨_, hexec, ?_, ?_, hsame.mem_eq rfl, hsame.cores_eq rfl⟩
      · rw [State.part_updPart, if_pos rfl]
      · rw [State.part_updPart, if_pos rfl, hsame.part_eq rfl]

end Sys2Proof.Machine
end


section
/-! SUPPORT. Proofs/Ends.lean: how a running partition ends, and the stitches that its pattern runs. -/

namespace Sys2Proof.Machine

theorem active_of_draining {q : Part} (h : q.state = .draining) : q.active = true := by
  unfold Part.active
  rw [h]
  rfl

/-- A fault of one running partition: it ends with the status, and one record is counted. -/
theorem fault_one {s : State} {p : Nat} (h : (s.part p).active = true) (st : Half) (cls kind unit d0 d1 : Nat) :
    ((s.fault st cls kind unit [p] d0 d1).part p).active = false ∧
      ((s.fault st cls kind unit [p] d0 d1).part p).stopCause = st ∧
      (s.fault st cls kind unit [p] d0 d1).links.faultTaken = s.faultsAfter 1 := by
  obtain ⟨r, x, hlinks⟩ := fault_links s st cls kind unit [p] d0 d1
  refine ⟨(fault_active ..).trans (if_pos (List.mem_singleton.2 rfl)), ?_, by rw [hlinks]⟩
  rw [fault_part, if_pos (List.mem_singleton.2 rfl), if_pos h]
  rfl

theorem exec_drainTimeout {p : Fin 16} {s : State} {d : Nat} (h : (s.part p).state = .draining)
    (hd : (s.part p).drainAt = some d) : exec (.drainTimeout p) s = .next
      (if d + s.tenancy.drainLimit.toNat ≤ s.power.ticks then s.fault stOUT_OF_STEP 5 0 0 [p] 0 0 else s) := by
  refine congrArg Host.Outcome.next ?_
  rw [h, hd]

/-- The record of a blocked queue before WAIT_CYCLE stops its partition. -/
def State.recordWait (p : Nat) (s : State) (c : Nat) : State :=
  match (s.core c).head with
  | some h => if (s.core c).blocked && (s.core c).qstate == .running then
      s.complete p c h.entry stWAIT_CYCLE 0 false else s
  | none => s

theorem recordWait_same (s : State) (p c : Nat) :
    Same 0x20884C s (s.recordWait p c) ∧ ∀ d n, (s.recordWait p c).tallyOf d n = s.tallyOf d n := by
  unfold State.recordWait
  split
  · split
    · exact ⟨complete_unsignalled rfl _ _ _ _ _ _ (.refl s), fun d n => complete_unsignalled_tallyOf ..⟩
    · exact ⟨.refl s, fun _ _ => rfl⟩
  · exact ⟨.refl s, fun _ _ => rfl⟩

/-- The records of every blocked queue of a partition. -/
def State.recordWaits (s : State) (p : Nat) : State := (s.coresOf p).foldl (State.recordWait p) s

theorem recordWaits_same (s : State) (p : Nat) : Same 0x20884C s (s.recordWaits p) :=
  kept_foldl _ _ _ (fun s c h => h.trans (recordWait_same s p c).1) (.refl s)

theorem recordWaits_tallyOf (s : State) (p d n : Nat) : (s.recordWaits p).tallyOf d n = s.tallyOf d n := by
  refine foldl_same (fun s : State => s.tallyOf d n) _ ?_ _ s
  exact fun s c => (recordWait_same s p c).2 d n

theorem exec_waitCycle (p : Fin 16) (s : State) : exec (.waitCycle p) s = .next
    (if (s.part p).active ∧ 64 ≤ (s.part p).idleTicks then (s.recordWaits p).stopPart p stWAIT_CYCLE false
      else s) := rfl

/-- Settles O33: each end stops its partition with its cause, or does nothing before its time. -/
theorem partitionsEnd : Obligations.PartitionsEnd := by
  intro p s
  refine ⟨fun hst hquiet => ?_, fun h => ?_, fun d hst hd => ⟨fun hle => ?_, fun hlt => ?_⟩,
    fun n o hact ho hn hlate hover => ?_, fun hact hle => ?_, fun h => ?_, fun h => ?_⟩
  · refine ⟨_, congrArg Host.Outcome.next (if_pos (by rw [hst, hquiet]; rfl)), ?_⟩
    have hpart : (s.stopPart p stDONE false).part p = (s.part p).stop stDONE false :=
      (stopPart_part ..).trans (if_pos ⟨rfl, active_of_draining hst⟩)
    rw [hpart]
    refine ⟨rfl, rfl, fun hrun => ?_, fun q hq => ?_⟩
    · unfold Part.stop
      rw [hrun]
      rfl
    · rw [stopPart_part, if_neg fun h => hq h.1]
  · refine congrArg Host.Outcome.next (if_neg fun hc => ?_)
    obtain ⟨h1, h2⟩ := Bool.and_eq_true_iff.1 hc
    exact h.elim (· (beq_iff_eq.1 h1)) fun h => Bool.false_ne_true (h.symm.trans h2)
  · exact ⟨_, (exec_drainTimeout hst hd).trans (congrArg Host.Outcome.next (if_pos hle)),
      fault_one (active_of_draining hst) ..⟩
  · exact (exec_drainTimeout hst hd).trans (congrArg Host.Outcome.next (if_neg (not_le.2 hlt)))
  · refine ⟨_, congrArg Host.Outcome.next (if_pos ?_), fault_one hact ..⟩
    rw [hact, Bool.true_and, Bool.or_eq_true_iff]
    refine .inl (List.any_eq_true.2 ⟨o, ho, ?_⟩)
    dsimp only
    rw [hn, hover, decide_eq_true hlate, beq_self_eq_true]
    rfl
  · refine ⟨_, (exec_waitCycle p s).trans (congrArg Host.Outcome.next (if_pos ⟨hact, hle⟩)), ?_⟩
    have hsame := recordWaits_same s p
    have htally := recordWaits_tallyOf s p
    generalize s.recordWaits p = u at hsame htally ⊢
    have hu : (u.part p).active = true := by rwa [hsame.part_eq rfl]
    have hpart : (u.stopPart p stWAIT_CYCLE false).part p = (u.part p).stop stWAIT_CYCLE false :=
      (stopPart_part ..).trans (if_pos ⟨rfl, hu⟩)
    rw [hpart]
    refine ⟨rfl, rfl, fun c n => (stopPart_tallyOf ..).trans (htally c n), ?_⟩
    exact congrArg (·.faultTaken) (((State.stopPart_keeps (fp := 0x248DCC) rfl u p _ _ (.refl u)).links_eq rfl).trans
      (hsame.links_eq rfl))
  · refine (exec_waitCycle p s).trans (congrArg Host.Outcome.next (if_neg fun hc => ?_))
    exact h.elim (fun h => Bool.false_ne_true (h.symm.trans hc.1)) fun h => absurd hc.2 (not_le.2 h)
  · refine ⟨_, rfl, ?_⟩
    rw [State.part_updPart, if_pos rfl]
    refine ⟨fun a => ?_, rfl, rfl, rfl⟩
    simp only [List.mem_filter, Bool.not_eq_true', Bool.and_eq_false_iff, beq_eq_false_iff_ne, decide_eq_false_iff_not,
      ne_eq, not_and_or]

end Sys2Proof.Machine
end


section
/-! SUPPORT. Proofs/Attest.lean: attestation reports. -/

namespace Sys2Proof.Machine

theorem length_takeAt (bs : List Byte) (o n : Nat) : (takeAt bs o n).length = n := by
  unfold takeAt
  rw [List.length_append, List.length_replicate, List.length_take]
  omega

theorem takeAt_middle {a b c : List Byte} {o n : Nat} (ha : a.length = o) (hb : b.length = n) :
    takeAt (a ++ (b ++ c)) o n = b := by
  subst ha hb
  unfold takeAt
  dsimp only
  rw [List.drop_left, List.take_left, Nat.sub_self]
  exact List.append_nil b

/-- The nonce stands in the report from byte 20 on. -/
theorem signedReport_nonce (s : State) (p : Nat) (nonce : List Byte) :
    takeAt (s.signedReport p nonce) 20 32 = takeAt nonce 0 32 := by
  unfold State.signedReport State.reportBody
  dsimp only
  simp only [List.append_assoc]
  rw [← List.append_assoc (leBytes 4 0x41545301), ← List.append_assoc (_ ++ _), ← List.append_assoc (_ ++ _),
    ← List.append_assoc (_ ++ _), ← List.append_assoc (_ ++ _)]
  refine takeAt_middle ?_ (length_takeAt ..)
  simp only [List.length_append, length_leBytes]

theorem value_attestReport (s : State) (sh : Bool) (p : Fin 16) :
    s.value sh 0x1201 (0x23 + p) = if (s.part p).attestState = 2 then (s.part p).report else [] := by
  show s.val1201 (0x23 + p) = _
  unfold State.val1201
  have hmod : (0x23 + p.val - 3) % 16 = p := by omega
  have hdiv : (0x23 + p.val - 3) / 16 = 2 := by omega
  rw [if_neg (by omega), if_neg (by omega), if_neg (by omega), hmod, hdiv]
  rfl

/-- The report r for partition p captured and queued. -/
def State.captured (s : State) (p : Nat) (nonce r : List Byte) : State :=
  { s.updPart p fun q => { q with nonce := takeAt nonce 0 32, attestState := 1, report := r } with
    fw := { s.fw with attestQueue := s.fw.attestQueue ++ [p] } }

theorem captured_part (s : State) (p : Nat) (nonce r : List Byte) (q : Nat) : (s.captured p nonce r).part q =
    if p = q then { s.part p with nonce := takeAt nonce 0 32, attestState := 1, report := r } else s.part q :=
  State.part_updPart s p q fun q => { q with nonce := takeAt nonce 0 32, attestState := 1, report := r }

/-- Settles O58: a nonce captures the signed report and queues it; the head of the queue ends first. -/
theorem attestationReports : Obligations.AttestationReports := by
  intro p nonce s
  refine ⟨fun sh => value_attestReport s sh p, fun h => ?_, fun h => ?_, fun h => ?_, fun h => ?_⟩
  · exact congrArg Host.Outcome.next (congrArg Prod.fst (if_pos h))
  · have hnonce := signedReport_nonce s p nonce
    have hexec : exec (.attestNonce p nonce) s = .next (s.captured p nonce (s.signedReport p nonce)) :=
      congrArg Host.Outcome.next (congrArg Prod.fst (if_neg h))
    generalize s.signedReport p nonce = r at hnonce hexec
    refine ⟨_, hexec, ?_⟩
    rw [captured_part, if_pos rfl]
    exact ⟨rfl, rfl, hnonce, rfl, fun q hq => (captured_part ..).trans (if_neg (Ne.symm hq)), rfl, rfl⟩
  · refine ⟨_, congrArg Host.Outcome.next (if_pos h), ?_⟩
    have hpart (q : Nat) : (s.updPart p fun q => { q with attestState := 2 }).part q =
        if p.val = q then { s.part p with attestState := 2 } else s.part q := State.part_updPart ..
    refine ⟨(congrArg Part.attestState (hpart p)).trans ?_, (congrArg Part.report (hpart p)).trans ?_, rfl,
      fun q hq => (hpart q).trans (if_neg (Ne.symm hq)), rfl⟩ <;>
      rw [if_pos rfl]
  · exact congrArg Host.Outcome.next (if_neg h)

end Sys2Proof.Machine
end


section
/-! SUPPORT. Proofs/Flash.lean: the regions of the flash, the boot record and what changes them. -/

namespace Sys2Proof.Machine

/-! ### The boot record -/

/-- Keeping the boot record writes its copies and nothing else. -/
theorem keepBoot_eq (s : State) : ∃ a b, s.keepBoot = { s with fw := { s.fw with first := a, second := b } } := by
  unfold State.keepBoot State.writeBoot
  dsimp only
  split
  · exact ⟨s.fw.first, s.fw.second, rfl⟩
  · split
    · exact ⟨s.fw.first, _, rfl⟩
    · exact ⟨_, s.fw.second, rfl⟩

/-! ### Bytes put into a region -/

/-- Bytes that no fixed block takes stand where they were put. -/
theorem place_data {x : Slot} {o : Nat} {bs : List Byte} (h : ∀ i < bs.length,
    (o + i) / blockBytes ∉ x.fixed) (d : Byte)
    (a : Nat) : Sparse.get d (x.place o bs).data a =
      if o ≤ a ∧ a < o + bs.length then bs.getD (a - o) 0 else Sparse.get d x.data a := by
  unfold Slot.place
  dsimp only
  induction bs using List.reverseRecOn with
  | nil => exact (if_neg (by simp)).symm
  | append_singleton bs b ih =>
    rw [List.length_append] at h
    rw [List.zipIdx_append, List.foldl_append, Nat.zero_add]
    have hfixed : x.fixed.contains ((o + bs.length) / blockBytes) = false := by
      rw [Bool.eq_false_iff, ne_eq, List.contains_iff_mem]
      exact h bs.length (Nat.lt_succ_self _)
    show Sparse.get d (if x.fixed.contains ((o + bs.length) / blockBytes) then _ else Sparse.put
      _ (o + bs.length) b) a = _
    rw [if_neg (by rw [hfixed]; exact Bool.false_ne_true), Sparse.get_put, ih fun i hi => h i (Nat.lt_succ_of_lt hi),
      List.length_append]
    by_cases ha : o + bs.length = a
    · subst ha
      rw [if_pos rfl, if_pos ⟨Nat.le_add_right _ _, Nat.lt_succ_self _⟩, Nat.add_sub_cancel_left]
      simp
    · rw [if_neg ha]
      by_cases hin : o ≤ a ∧ a < o + bs.length
      · rw [if_pos hin, if_pos ⟨hin.1, Nat.lt_succ_of_lt hin.2⟩, List.getD_append _ _ _ _ (by omega)]
      · rw [if_neg hin, if_neg fun h => hin ⟨h.1, by have := h.2; simp only [List.length_singleton] at this; omega⟩]

theorem place_byte {x : Slot} {o : Nat} {bs : List Byte} (hf : x.factory = false)
    (h : ∀ i < bs.length, (o + i) / blockBytes ∉ x.fixed) (a : Nat) : (x.place o bs).byte a =
      if o ≤ a ∧ a < o + bs.length then bs.getD (a - o) 0 else x.byte a := by
  unfold Slot.byte
  rw [hf, show (x.place o bs).factory = false from hf, if_neg Bool.false_ne_true, if_neg Bool.false_ne_true]
  exact place_data h _ a

/-- Where no block is whole, none is judged. -/
theorem judgeFrom_waits {x : Slot} {bs : List Nat} (h : ∀ b ∈ bs, x.arrived b = false) (crc0 : Nat) :
    x.judgeFrom crc0 bs = x := by
  have hfold : bs.foldl (fun x b => x.judge crc0 b) x = x := by
    induction bs with
    | nil => rfl
    | cons b bs ih =>
      have hb : x.judge crc0 b = x := if_pos (.inr (.inl (by rw [h b List.mem_cons_self]; rfl)))
      rw [List.foldl_cons, hb]
      exact ih fun b hb => h b (List.mem_cons_of_mem _ hb)
  unfold Slot.judgeFrom
  dsimp only
  rw [hfold]
  refine if_neg ?_
  cases x.fixed.contains 0 <;> decide

/-! ### Stores, erasure and reconstruction -/

theorem storeWrite_refused {s : State} {i off total : Nat} {data : List Byte} (h : s.runs i = true ∨
    (i = 2 ∧ s.mayReconstruct = false) ∨ (s.slot i).filling = 2 ∨ 1 < (s.slot i).state ∨ data = [] ∨
      1024 < data.length ∨
    imageBytesOk total = false ∨ total < off + data.length) : (s.storeWrite i off total data).1 = s := by
  unfold State.storeWrite
  dsimp only
  split
  · rfl
  · split
    · rfl
    · split
      · rfl
      · rename_i hrun hrec hfill
        refine congrArg Prod.fst (if_pos ?_)
        obtain h | ⟨h2, h⟩ | h | h | rfl | h | h | h := h
        · exact absurd h hrun
        · exact absurd ⟨h2, by rw [h]; rfl⟩ hrec
        · exact absurd h hfill
        · exact .inl h
        · exact .inr (.inl rfl)
        · exact .inr (.inr (.inl h))
        · exact .inr (.inr (.inr (.inl (by rw [h]; rfl))))
        · exact .inr (.inr (.inr (.inr (.inl h))))

/-- The region as a store leaves it where it completes no block. -/
def Slot.stored (x : Slot) (off total : Nat) (data : List Byte) : Slot :=
  ({ x with state := 1, filling := 1, total := total, status := stDONE } : Slot).place off data

theorem storeWrite_stores {s : State} {i off total : Nat} {data : List Byte} (hrun : s.runs i = false)
    (hrec : i = 2 → s.mayReconstruct = true) (hfill : (s.slot i).filling ≠ 2) (hst : (s.slot i).state ≤ 1)
    (hne : data ≠ []) (hlen : data.length ≤ 1024) (hok : imageBytesOk total = true) (hoff : off + data.length ≤ total)
    (htot : (s.slot i).state = 1 → (s.slot i).total = total) (hfac : (s.slot i).factory = false)
    (hfix : (s.slot i).fixed = []) (harr : ∀ b ∈ blocksAt off data.length,
      ((s.slot i).place off data).arrived b = false) :
    ∃ u : State, (s.storeWrite i off total data).1 = (u.updSlot i fun _ => (s.slot i).stored off total data).keepBoot ∧
      u.hw = s.hw ∧ ∀ j, u.slot j = s.slot j := by
  have hguard : ¬ (1 < (s.slot i).state ∨ data.length = 0 ∨ 1024 < data.length ∨ !imageBytesOk total ∨
      total < off + data.length ∨ ((s.slot i).state = 1 ∧ (s.slot i).total ≠ total)) := by
    rintro (h | h | h | h | h | ⟨h, h'⟩)
    · omega
    · exact hne (List.length_eq_zero_iff.1 h)
    · omega
    · rw [hok] at h
      exact Bool.false_ne_true h
    · omega
    · exact h' (htot h)
  have hblocks : ((s.slot i).stored off total data).fixed.length ≠ ((s.slot i).stored off total data).blocks := by
    have hcount : ((s.slot i).stored off total data).blocks = total / blockBytes := by
      unfold Slot.blocks Slot.size
      exact congrArg (· / blockBytes)
        (if_neg (by rw [show ((s.slot i).stored off total data).factory = false from hfac]; decide))
    have hpos : 1 ≤ total / blockBytes := by
      unfold imageBytesOk at hok
      simp only [Bool.and_eq_true, decide_eq_true_eq] at hok
      exact hok.1.2
    rw [hcount, show ((s.slot i).stored off total data).fixed = [] from hfix, List.length_nil]
    omega
  have hjudge : ∀ crc, ((s.slot i).stored off total data).judgeFrom crc (blocksAt off data.length) =
      (s.slot i).stored off total data := judgeFrom_waits harr
  refine ⟨if (s.slot i).state = 0 ∧ i < 2 then { s with fw := s.fw.freshImage } else s, ?_, ?_, fun j => ?_⟩
  · unfold State.storeWrite
    dsimp only
    rw [if_neg (by rw [hrun]; exact Bool.false_ne_true), if_neg fun h => by
      rw [hrec h.1] at h; exact Bool.false_ne_true h.2,
      if_neg hfill, if_neg hguard]
    dsimp only
    rw [show Slot.place { s.slot i with state := 1, filling := 1, total := total, status := stDONE } off data =
      (s.slot i).stored off total data from rfl, hjudge, if_neg hblocks]
  · split <;> rfl
  · split <;> rfl

theorem keepBoot_updSlot (s : State) (i : Nat) (f : Slot → Slot) (j : Nat) :
    (s.updSlot i f).keepBoot.slot j = if i = j then f (s.slot i) else s.slot j := by
  rw [keepBoot_slot, State.slot_updSlot]

theorem eraseSlot_erases {s : State} {i : Nat} (hrun : s.runs i = false) (hfill : (s.slot i).filling ≠ 2) :
    ∃ u : State, (s.eraseSlot i).1 = (u.updSlot i fun _ => Slot.reset).keepBoot ∧ u.hw = s.hw ∧
      ∀ j, u.slot j = s.slot j := by
  refine ⟨if i = s.spareSlot then { s with fw := s.fw.freshImage } else s, congrArg Prod.fst (if_neg ?_),
    ?_, fun j => ?_⟩
  · rintro (h | h)
    · rw [hrun] at h
      exact Bool.false_ne_true h
    · exact hfill h
  · split <;> rfl
  · split <;> rfl

/-- The region of a whole image that has been judged. -/
def Slot.judged (x : Slot) (st : Half) : Slot :=
  if st = stDONE then { x with state := 2, filling := 0, digest := x.digestOf, status := st } else x.fail st

theorem Slot.judged_effect (x : Slot) (st : Half) : (x.judged st).total = x.total ∧ (x.judged st).data = x.data ∧
    (x.judged st).state = if st = stDONE then 2 else 5 := by
  unfold Slot.judged
  split <;> exact ⟨rfl, rfl, rfl⟩

section
variable {s : State} (hst : (s.slot 2).state = 2) (hmay : s.mayReconstruct = true)
  (hspare : (s.slot s.spareSlot).state ≠ 1)
include hst hmay hspare

theorem reconstruct_starts : ¬ ((s.slot 2).state ≠ 2 ∨ !s.mayReconstruct ∨ (s.slot s.spareSlot).state = 1) := by
  rintro (h | h | h)
  · exact h hst
  · rw [hmay] at h
    exact Bool.false_ne_true h
  · exact hspare h

theorem reconstruct_otherBase (h : (s.slot 2).bytes 32 64 ≠ (s.slot s.fw.running).digest) :
    s.reconstruct = s.updSlot 2 fun x => x.fail stBASE_MISMATCH :=
  (if_neg (reconstruct_starts hst hmay hspare)).trans (if_pos h)

theorem reconstruct_malformed (h : (s.slot 2).bytes 32 64 = (s.slot s.fw.running).digest)
    (hops : operations (s.slot 2) (s.slot s.fw.running) = none) : s.reconstruct =
      ({ s with fw := s.fw.freshImage }.updSlot s.spareSlot fun _ => Slot.reset.fail stIMAGE_INVALID).keepBoot := by
  refine (if_neg (reconstruct_starts hst hmay hspare)).trans ((if_neg fun hne => hne h).trans ?_)
  dsimp only
  rw [hops]

theorem reconstruct_product {ops : List (Bool × Nat)} (h : (s.slot 2).bytes 32 64 = (s.slot s.fw.running).digest)
    (hops : operations (s.slot 2) (s.slot s.fw.running) = some ops) (j : Nat) : s.reconstruct.slot j =
      if s.spareSlot = j then (product (s.slot 2) (s.slot s.fw.running) ops).judged
        (s.checkImage (product (s.slot 2) (s.slot s.fw.running) ops) 0) else s.slot j := by
  have heq : s.reconstruct = (({ s with fw := s.fw.freshImage }.updSlot s.spareSlot fun _ =>
      product (s.slot 2) (s.slot s.fw.running) ops).finishSlot s.spareSlot 0).keepBoot := by
    refine (if_neg (reconstruct_starts hst hmay hspare)).trans ((if_neg fun hne => hne h).trans ?_)
    dsimp only
    rw [hops]
  generalize product (s.slot 2) (s.slot s.fw.running) ops = x at heq ⊢
  rw [heq, keepBoot_slot]
  unfold State.finishSlot
  dsimp only
  rw [State.slot_updSlot, State.slot_updSlot, State.slot_updSlot, if_pos rfl]
  split <;> rfl

end

/-! ### Handover -/

theorem raiseCause_links (l : List Nat) (s : State) (c : Nat) :
    (l.foldl (fun s p => s.raiseCause p c) s).links = s.links :=
  (kept_foldl (m := 0x208000) _ _ _ (fun s p h => State.raiseCause_keeps rfl s p c h) (Same.refl s)).links_eq rfl

/-- The fault records that the pause held back are written and counted. -/
theorem writeHeld_effect (s : State) : s.writeHeld.fw = { s.fw with paused := false } ∧ s.writeHeld.links.held = [] ∧
    s.writeHeld.links.faultTaken = s.links.faultTaken + BitVec.ofNat 32 s.links.held.length := by
  have hfold : ∀ (l : List HeldFault) (u : State), (l.foldl State.writeFault u).fw = u.fw ∧
      (l.foldl State.writeFault u).links.held = u.links.held ∧
      (l.foldl State.writeFault u).links.faultTaken = u.links.faultTaken + BitVec.ofNat 32 l.length := by
    intro l
    induction l with
    | nil => exact fun u => ⟨rfl, rfl, (BitVec.add_zero _).symm⟩
    | cons f l ih =>
      intro u
      obtain ⟨hfw, hheld, htaken⟩ := ih (u.writeFault f)
      have hlinks : (u.writeFault f).links = { u.links with
          faultTaken := u.links.faultTaken + 1, faultRing := pushRing 128 u.links.faultRing f.record } :=
        raiseCause_links ..
      refine ⟨hfw.trans ((State.writeFault_keeps (fp := 0x20C000) rfl u f (.refl u)).fw.resolve_left (by decide)),
        hheld.trans (by rw [hlinks]), htaken.trans ?_⟩
      rw [hlinks, List.length_cons, BitVec.add_assoc]
      refine congrArg (u.links.faultTaken + ·) ?_
      rw [Nat.add_comm, BitVec.ofNat_add]
      rfl
  exact hfold s.links.held _

/-- The firmware in slot i has taken over: its image is confirmed. -/
def State.takenOver (s : State) (i : Nat) : State :=
  let u := { s with fw := { s.fw with handoverTo := none } }.confirm i
  { u with fw := { u.fw with
      running := i, active := i, handovers := u.fw.handovers + 1,
      runVersion := BitVec.ofNat 32 (u.slot i).version, activateStatus := stDONE } }

/-- The handover to slot i has failed. -/
def State.rolledBack (s : State) (i : Nat) : State :=
  let u := { s with fw := { s.fw with handoverTo := none } }.updSlot i fun x => x.fail (s.checkImage (s.slot i) 0)
  { u with fw := { u.fw with rolledBack := u.fw.rolledBack + 1, activateStatus := stHANDOVER } }

theorem takenOver_effect (s : State) (i : Nat) : (s.takenOver i).fw.running = i ∧ (s.takenOver i).fw.active = i ∧
    ((s.takenOver i).slot i).state = 4 ∧ (s.takenOver i).fw.handovers = s.fw.handovers + 1 ∧
    (s.takenOver i).fw.handoverTo = none ∧ (s.takenOver i).links = s.links ∧ (s.takenOver i).parts = s.parts ∧
    (s.takenOver i).cores = s.cores ∧ (s.takenOver i).mem = s.mem := by
  refine ⟨rfl, rfl, confirm_slot { s with fw := { s.fw with handoverTo := none } } i, ?_⟩
  unfold State.takenOver State.confirm
  dsimp only
  split <;> exact ⟨rfl, rfl, rfl, rfl, rfl, rfl⟩

theorem rolledBack_effect (s : State) (i : Nat) : (s.rolledBack i).fw.running = s.fw.running ∧
    (s.rolledBack i).fw.active = s.fw.active ∧ ((s.rolledBack i).slot i).state = 5 ∧
    (s.rolledBack i).fw.rolledBack = s.fw.rolledBack + 1 ∧ (s.rolledBack i).fw.activateStatus = stHANDOVER ∧
    (s.rolledBack i).hw = s.hw ∧ (s.rolledBack i).links = s.links ∧ (s.rolledBack i).parts = s.parts ∧
    (s.rolledBack i).cores = s.cores ∧ (s.rolledBack i).mem = s.mem := by
  refine ⟨rfl, rfl, ?_, rfl, rfl, rfl, rfl, rfl, rfl, rfl⟩
  refine (congrArg Slot.state (State.slot_updSlot { s with fw := { s.fw with handoverTo := none } } i i
    (fun x => x.fail (s.checkImage (s.slot i) 0)))).trans ?_
  rw [if_pos rfl]
  rfl

/-- A handover that is not asked for, or for which the controller is not quiet, does nothing. -/
theorem handover_idle {s : State} (h : s.fw.handoverTo = none ∨ s.quiescent = false) :
    s.beginHandover = s ∧ (s.fw.paused = false → ∀ ok, s.handover ok = s) := by
  refine ⟨if_neg fun hboth => ?_, fun hp ok => ?_⟩
  · obtain ⟨hsome, hquiet⟩ := Bool.and_eq_true_iff.1 hboth
    obtain h | h := h
    · rw [h] at hsome
      exact Bool.false_ne_true hsome
    · rw [h] at hquiet
      exact Bool.false_ne_true hquiet
  · unfold State.handover
    split
    · rfl
    · next i hto =>
      obtain h | h := h
      · rw [h] at hto
        nomatch hto
      · rw [hp, h]
        rfl

section
variable {s : State} {i : Nat} (hto : s.fw.handoverTo = some i)
  (hgo : (s.fw.paused = false ∧ s.quiescent = true) ∨ (s.fw.paused = true ∧ s.mgmt.queue = []))
include hgo

theorem handover_starts : (!s.fw.paused && !s.quiescent) = false := by
  obtain ⟨-, h⟩ | ⟨h, -⟩ := hgo
  · rw [h]
    exact Bool.and_false _
  · rw [h]
    rfl

/-- A handover, with the queue of requests that the pause kept served. -/
theorem exec_handover (ok : Bool) : ∃ t, exec (.handover ok) s = .next t ∧
    (t = s.handover ok ∨ t = (s.handover ok).updMgmt fun m => { m with queue := [] }) := by
  obtain ⟨h, -⟩ | ⟨h, hq⟩ := hgo
  · exact ⟨_, congrArg Host.Outcome.next ((if_neg Bool.false_ne_true).trans (if_neg fun hp => by
      rw [h] at hp; exact Bool.false_ne_true hp)), .inl rfl⟩
  · refine ⟨_, congrArg Host.Outcome.next ((if_neg Bool.false_ne_true).trans ((if_pos h).trans ?_)), .inr rfl⟩
    have hmgmt : (s.handover ok).mgmt.queue = [] := by rw [handover_mgmt, hq]
    unfold State.serveQueue
    rw [hmgmt]
    rfl

include hto

theorem handover_taken (hst : (s.slot i).state = 2) (hok : s.checkImage (s.slot i) 0 = stDONE) :
    s.handover true = (s.takenOver i).keepBoot.writeHeld := by
  unfold State.handover
  rw [hto]
  dsimp only
  rw [if_neg (by rw [handover_starts hgo]; exact Bool.false_ne_true)]
  have hcheck : State.checkImage { s with fw := { s.fw with handoverTo := none } } (s.slot i) 0 = stDONE := hok
  have hslot : State.slot { s with fw := { s.fw with handoverTo := none } } i = s.slot i := rfl
  rw [hslot, hcheck, hst]
  rfl

theorem handover_rolledBack : s.handover false = (s.rolledBack i).keepBoot.writeHeld := by
  unfold State.handover
  rw [hto]
  dsimp only
  rw [if_neg (by rw [handover_starts hgo]; exact Bool.false_ne_true)]
  rfl

end

/-- What the end of a handover leaves of the state u that it has reached. -/
theorem handover_end {s t u : State} {ok : Bool} (hu : s.handover ok = u.keepBoot.writeHeld)
    (hlinks : u.links = s.links)
    (hrest : u.parts = s.parts ∧ u.cores = s.cores ∧ u.mem = s.mem)
    (ht : t = s.handover ok ∨ t = (s.handover ok).updMgmt fun m => { m with queue := [] }) :
    (∃ a b, t.fw = { u.fw with first := a, second := b, paused := false }) ∧ t.links.held = [] ∧
      t.links.faultTaken = s.links.faultTaken + BitVec.ofNat 32 s.links.held.length ∧ t.hw = u.hw ∧
      t.parts = s.parts ∧ t.cores = s.cores ∧ t.mem = s.mem := by
  obtain ⟨a, b, hboot⟩ := keepBoot_eq u
  have hend := writeHeld_effect u.keepBoot
  have hsame : Same 0x22C000 u u.keepBoot.writeHeld :=
    State.writeHeld_keeps rfl _ (State.keepBoot_keeps rfl _ (.refl u))
  rw [← hu] at hend hsame
  obtain ⟨hfw, hheld, htaken⟩ := hend
  obtain ⟨hparts, hcores, hmem⟩ := hrest
  have hall : (∃ a b, (s.handover ok).fw = { u.fw with first := a, second := b, paused := false }) ∧
      (s.handover ok).links.held = [] ∧
      (s.handover ok).links.faultTaken = s.links.faultTaken + BitVec.ofNat 32 s.links.held.length ∧
      (s.handover ok).hw = u.hw ∧ (s.handover ok).parts = s.parts ∧ (s.handover ok).cores = s.cores ∧
      (s.handover ok).mem = s.mem := by
    refine ⟨⟨a, b, hfw.trans ?_⟩, hheld, htaken.trans ?_, hsame.hw_eq rfl, (hsame.parts_eq rfl).trans hparts,
      (hsame.cores_eq rfl).trans hcores, (hsame.mem_eq rfl).trans hmem⟩
    · rw [hboot]
    · rw [hboot]
      exact congrArg (fun l : Links => l.faultTaken + BitVec.ofNat 32 l.held.length) hlinks
  obtain rfl | rfl := ht
  · exact hall
  · exact hall

theorem handover_slot {s t u : State} {ok : Bool} (hu : s.handover ok = u.keepBoot.writeHeld)
    (ht : t = s.handover ok ∨ t = (s.handover ok).updMgmt fun m => { m with queue := [] }) (i : Nat) :
    t.slot i = u.slot i := by
  have hslot : (s.handover ok).slot i = u.slot i := by rw [hu, writeHeld_slot, keepBoot_slot]
  obtain rfl | rfl := ht <;> exact hslot

/-- Settles O56: each write, reconstruction and activation by its own equation, a handover by how it ends. -/
theorem imagesAndActivation : Obligations.ImagesAndActivation := by
  intro s
  refine ⟨fun i off total data => ⟨fun h => ?_, fun hrun hrec hfill hst hne hlen hok hoff htot hfac hfix harr => ?_,
      fun h => ?_, fun hrun hfill => ?_⟩, fun h => ?_, fun hst hmay hspare => ⟨fun h => ?_, fun h hops => ?_,
      fun ops h hops => ?_⟩, fun h => ?_, fun hrec hst hfill hlo hhi => ?_, fun hrec hst => ⟨?_, ?_⟩,
        fun hrec hst => ?_,
    fun h => ⟨fun ok => ?_, fun hp ok => ?_⟩, fun i hto hq ok => ?_, fun i hto hgo => ⟨fun hst hok => ?_, ?_⟩⟩
  · refine congrArg Host.Outcome.next (storeWrite_refused ?_)
    exact h.imp_right fun h => h.imp_left fun ⟨h2, h⟩ => ⟨congrArg Fin.val h2, h⟩
  · obtain ⟨u, hu, hhw, hslot⟩ := storeWrite_stores hrun (fun h => hrec (Fin.ext h)) hfill hst hne hlen hok hoff htot
      hfac hfix harr
    refine ⟨_, congrArg Host.Outcome.next hu, ?_⟩
    have hself := (keepBoot_updSlot u i (fun _ => (s.slot i).stored off total data) i).trans (if_pos rfl)
    rw [hself]
    refine ⟨rfl, rfl, rfl, (keepBoot_hw _).trans hhw, fun j hj => ?_, fun o => ?_⟩
    · rw [keepBoot_updSlot, if_neg (Ne.symm hj), hslot]
    · exact place_byte hfac (fun i _ hi => by rw [show Slot.fixed _ = [] from hfix] at hi; nomatch hi) o
  · refine congrArg Host.Outcome.next (congrArg Prod.fst (if_pos h))
  · obtain ⟨u, hu, hhw, hslot⟩ := eraseSlot_erases hrun hfill
    refine ⟨_, congrArg Host.Outcome.next hu, (keepBoot_updSlot ..).trans (if_pos rfl), fun j hj => ?_,
      (keepBoot_hw _).trans hhw⟩
    rw [keepBoot_updSlot, if_neg (Ne.symm hj), hslot]
  · exact congrArg Host.Outcome.next (if_pos (.inl h))
  · refine ⟨_, congrArg Host.Outcome.next (reconstruct_otherBase hst hmay hspare h), ?_⟩
    rw [State.slot_updSlot, if_pos rfl]
    refine ⟨rfl, rfl, fun j hj => ?_⟩
    rw [State.slot_updSlot, if_neg (Ne.symm hj)]
  · refine ⟨_, congrArg Host.Outcome.next (reconstruct_malformed hst hmay hspare h hops), ?_, fun j hj => ?_⟩
    · rw [keepBoot_updSlot, if_pos rfl]
      rfl
    · rw [keepBoot_updSlot, if_neg (Ne.symm hj)]
      rfl
  · have hslot := reconstruct_product hst hmay hspare h hops
    have htotal : (product (s.slot 2) (s.slot s.fw.running) ops).total = ops.length * 65536 := rfl
    generalize product (s.slot 2) (s.slot s.fw.running) ops = x at hslot htotal ⊢
    have hself := (hslot s.spareSlot).trans (if_pos rfl)
    obtain ⟨ht, hd, hstate⟩ := x.judged_effect (s.checkImage x 0)
    refine ⟨_, rfl, (congrArg Slot.total hself).trans (ht.trans htotal), (congrArg Slot.data hself).trans hd,
      (congrArg Slot.state hself).trans hstate, fun j hj => (hslot j).trans (if_neg (Ne.symm hj))⟩
  · exact congrArg Host.Outcome.next (congrArg Prod.fst (if_pos h))
  · exact congrArg Host.Outcome.next (congrArg Prod.fst ((if_neg (by rw [hrec]; exact Bool.false_ne_true)).trans
      (if_pos ⟨hst, hfill, hlo, hhi⟩)))
  · exact congrArg Host.Outcome.next (congrArg Prod.fst ((if_neg (by rw [hrec]; exact Bool.false_ne_true)).trans
      (if_neg fun h => hst h.1)))
  · exact congrArg Host.Outcome.next (congrArg Prod.fst ((if_neg (by rw [hrec]; exact Bool.false_ne_true)).trans
      (if_neg hst)))
  · refine ⟨_, congrArg Host.Outcome.next (congrArg Prod.fst ((if_neg (by rw [hrec]; exact Bool.false_ne_true)).trans
      (if_pos hst))), ?_⟩
    have hslot : ((s.markTrial s.spareSlot).slot s.spareSlot).state = 3 :=
      congrArg Slot.state ((State.slot_updSlot s s.spareSlot _ fun x => { x with state := 3 }).trans (if_pos rfl))
    obtain ⟨a, b, hboot⟩ := keepBoot_eq (s.markTrial s.spareSlot)
    refine ⟨(congrArg Slot.state (keepBoot_slot ..)).trans hslot, ?_⟩
    rw [hboot]
    exact ⟨rfl, rfl, rfl, rfl⟩
  · exact congrArg Host.Outcome.next (handover_idle h).1
  · exact congrArg Host.Outcome.next (((if_neg Bool.false_ne_true).trans (if_neg fun h => by
      rw [hp] at h; exact Bool.false_ne_true h)).trans ((handover_idle h).2 hp ok))
  · exact congrArg Host.Outcome.next ((if_pos rfl).trans (if_pos (by rw [hto, hq]; rfl)))
  · obtain ⟨hrun, hact, hstate, hcount, hnone, hlinks, hparts, hcores, hmem⟩ := takenOver_effect s i
    have hu := handover_taken hto hgo hst hok
    obtain ⟨t, hexec, ht⟩ := exec_handover hgo true
    obtain ⟨⟨a, b, hfw⟩, hheld, htaken, -, hend⟩ := handover_end hu hlinks ⟨hparts, hcores, hmem⟩ ht
    refine ⟨t, hexec, ?_⟩
    have hslot := (congrArg Slot.state (handover_slot hu ht i)).trans hstate
    rw [hfw]
    exact ⟨hrun, hact, hslot, hcount, hnone, rfl, hheld, htaken, hend⟩
  · obtain ⟨hrun, hact, hstate, hcount, hstatus, hhw, hlinks, hparts, hcores, hmem⟩ := rolledBack_effect s i
    have hu := handover_rolledBack hto hgo
    obtain ⟨t, hexec, ht⟩ := exec_handover hgo false
    obtain ⟨⟨a, b, hfw⟩, -, -, hend, hparts, -, hmem⟩ := handover_end hu hlinks ⟨hparts, hcores, hmem⟩ ht
    have hslot := (congrArg Slot.state (handover_slot hu ht i)).trans hstate
    refine ⟨t, hexec, ?_⟩
    rw [hfw]
    exact ⟨hrun, hact, hslot, hcount, hstatus, rfl, hend.trans hhw, hparts, hmem⟩

end Sys2Proof.Machine
end


section
/-! SUPPORT. Proofs/Dist.lean: the frames of distribution (O57). -/

namespace Sys2Proof.Machine

/-! ### Frames handed to ports, one after another -/

theorem State.Hands.of_room {s u t : State} {k : Nat} {f : List Byte} (h : SameRoom s u) (hout : u.out = s.out)
    (hands : u.Hands t k f) : s.Hands t k f := by
  rintro p rfl
  have := hands _ rfl
  rwa [h.neighbourOf, h.myId, h.maintRoom, hout, h.waiting] at this

/-- From s to t frames have been handed to ports: the route is the same, and what left or waited still does. -/
structure Grows (s t : State) : Prop where
  route : t.fabric.route = s.fabric.route
  out : s.out ⊆ t.out
  waiting : s.fabric.maintWaiting ⊆ t.fabric.maintWaiting

/-- A maintenance frame that has left by a port, or waits there. -/
def State.Handed (t : State) (o : Out) : Prop := o ∈ t.out ∨ o ∈ t.fabric.maintWaiting

theorem Grows.refl (s : State) : Grows s s := ⟨rfl, fun _ h => h, fun _ h => h⟩

theorem Grows.trans {s t u : State} (h : Grows s t) (g : Grows t u) : Grows s u :=
  ⟨g.route.trans h.route, List.Subset.trans h.out g.out, List.Subset.trans h.waiting g.waiting⟩

theorem Grows.handed {s t : State} (h : Grows s t) {o : Out} (ho : s.Handed o) : t.Handed o :=
  ho.imp (h.out ·) (h.waiting ·)

theorem Grows.myId {s t : State} (h : Grows s t) : t.myId = s.myId := by
  unfold State.myId
  rw [h.route]

theorem Grows.neighbourOf {s t : State} (h : Grows s t) (k : Nat) : t.neighbourOf k = s.neighbourOf k := by
  unfold State.neighbourOf
  rw [h.route, h.myId]

/-- A frame handed to a port changes the room of no other port. -/
theorem sendMaint_elsewhere (s : State) (k : Nat) (f : List Byte) : Grows s (s.sendMaint k f) ∧
    ∀ j, j ≠ k → ∀ n, (s.sendMaint k f).maintRoom j n = s.maintRoom j n := by
  generalize hp : maintPacket (s.neighbourOf k) s.myId f = p
  have ho : s.maintOf (.fabric k p) = some (k, p) := rfl
  have hsend : s.sendMaint k f = s.sendOut (.fabric k p) := by rw [← hp]; rfl
  rw [hsend]
  cases hroom : s.maintRoom k p.flits with
  | true =>
    obtain ⟨hout, hsame⟩ := sendOut_room ho hroom
    refine ⟨⟨hsame.route, hout ▸ List.subset_append_left _ _, fun o h => hsame.waiting ▸ h⟩, fun j hj n => ?_⟩
    rw [hsame.maintRoom]
    unfold State.maintRoom State.credits
    rw [show Sparse.get [] (s.takeCredits k p.lane p.flits).fabric.creditUsed j = Sparse.get [] s.fabric.creditUsed j
      from (Sparse.get_put ..).trans (if_neg (Ne.symm hj))]
    rfl
  | false =>
    obtain ⟨hout, hwait⟩ := sendOut_waits ho hroom
    have hsent : s.sendOut (.fabric k p) =
        (s.updFabric fun x => { x with maintWaiting := x.maintWaiting ++ [.fabric k p] }).noteDepth k :=
      if_neg (by rw [hroom]; exact Bool.false_ne_true)
    refine ⟨⟨by rw [hsent]; rfl, hout ▸ fun _ h => h, hwait ▸ List.subset_append_left _ _⟩, fun j hj n => ?_⟩
    unfold State.maintRoom
    rw [hwait, List.any_append]
    have hother : ([Out.fabric k p].any fun o => o.port? == some j) = false := by
      simp only [List.any_cons, List.any_nil, Bool.or_false, Out.port?, beq_eq_false_iff_ne, ne_eq,
        Option.some.injEq]
      exact Ne.symm hj
    rw [hother, Bool.or_false, hsent]
    rfl

theorem sendMaint_grows (s : State) (k : Nat) (f : List Byte) : Grows s (s.sendMaint k f) :=
    (sendMaint_elsewhere s k f).1

theorem foldl_grows {α : Type} {g : State → α → State} (hg : ∀ s a, Grows s (g s a)) (l : List α) (s : State) :
    Grows s (l.foldl g s) := by
  induction l generalizing s with
  | nil => exact .refl s
  | cons a l ih => exact (hg s a).trans (ih _)

/-- Each of the frames sent to a port has left or waits there. -/
theorem sendMaints_handed {k : Nat} {l : List (List Byte)} {f : List Byte} (hf : f ∈ l) (s : State) :
    (l.foldl (fun s f => s.sendMaint k f) s).Handed (.fabric k (maintPacket (s.neighbourOf k) s.myId f)) := by
  induction l generalizing s with
  | nil => nomatch hf
  | cons g l ih =>
    have hgrow := sendMaint_grows s k g
    obtain rfl | hl := List.mem_cons.1 hf
    · refine (foldl_grows (fun s f => sendMaint_grows s k f) l _).handed ?_
      obtain ⟨hroom, hwait⟩ := sendMaint_hands s k f _ rfl
      cases h : s.maintRoom k (maintPacket (s.neighbourOf k) s.myId f).flits with
      | true => exact .inl (hroom h ▸ List.mem_append_right _ List.mem_cons_self)
      | false => exact .inr ((hwait h).2 ▸ List.mem_append_right _ List.mem_cons_self)
    · have := ih hl (s.sendMaint k g)
      rwa [hgrow.neighbourOf, hgrow.myId] at this

/-! ### Offers to the ports downstream -/

/-- The offer on one port, unless it has asked for nothing. -/
def State.offerOn (o : List Byte) (s : State) (k : Nat) : State :=
  if Sparse.find s.fw.wanted k = some [] then s else s.sendMaint k o

theorem offerOn_elsewhere (o : List Byte) (s : State) (k : Nat) : Grows s (s.offerOn o k) ∧
    ∀ j, j ≠ k → ∀ n, (s.offerOn o k).maintRoom j n = s.maintRoom j n := by
  unfold State.offerOn
  split
  · exact ⟨.refl s, fun _ _ _ => rfl⟩
  · exact sendMaint_elsewhere s k o

theorem offers_same (o : List Byte) (l : List Nat) (s : State) : Same 0x200400 s (l.foldl (State.offerOn o) s) :=
  kept_foldl _ _ _ (fun t k h => kept_ite _ _ _ h (h.trans (sendMaint_same t k o))) (.refl s)

/-- On each port the offer leaves where it has room, and waits otherwise. -/
theorem offers_handed {o : List Byte} {j : Nat} {l : List Nat} (hl : l.Nodup) (hj : j ∈ l) (s : State)
    (hw : Sparse.find s.fw.wanted j ≠ some []) : ∀ p, p = maintPacket (s.neighbourOf j) s.myId o →
      (s.maintRoom j p.flits = true → Out.fabric j p ∈ (l.foldl (State.offerOn o) s).out) ∧
      (s.maintRoom j p.flits = false → Out.fabric j p ∈ (l.foldl (State.offerOn o) s).fabric.maintWaiting) := by
  rintro p rfl
  induction l generalizing s with
  | nil => nomatch hj
  | cons k l ih =>
    obtain ⟨hnot, hl⟩ := List.nodup_cons.1 hl
    by_cases hkj : k = j
    · subst hkj
      have hon : s.offerOn o k = s.sendMaint k o := if_neg hw
      have hgrow := foldl_grows (fun s k => (offerOn_elsewhere o s k).1) l (s.offerOn o k)
      obtain ⟨hroom, hwait⟩ := sendMaint_hands s k o _ rfl
      rw [hon] at hgrow
      rw [List.foldl_cons, hon]
      exact ⟨fun h => hgrow.out (hroom h ▸ List.mem_append_right _ List.mem_cons_self),
        fun h => hgrow.waiting ((hwait h).2 ▸ List.mem_append_right _ List.mem_cons_self)⟩
    · obtain ⟨hgrow, hsame⟩ := offerOn_elsewhere o s k
      have hfw : (s.offerOn o k).fw = s.fw := (offers_same o [k] s).fw.resolve_left (by decide)
      have := ih hl ((List.mem_cons.1 hj).resolve_left (Ne.symm hkj)) (s.offerOn o k) (by rw [hfw]; exact hw)
      rwa [hgrow.neighbourOf, hgrow.myId, hsame j (Ne.symm hkj)] at this

theorem downPorts_nodup (s : State) : s.downPorts.Nodup := by
  unfold State.downPorts
  split
  · exact List.nodup_range.filter _
  · exact List.nodup_nil

/-! ### A frame that arrives -/

/-- A frame is counted, and then acts. -/
theorem guarded_distFrame {s : State} {k : Nat} {f : List Byte} (hup : (s.link k).state = 5) {n : Nat}
    (hlen : f.length = n) (act : State → State) :
    guarded (f.length == n) (s.distFrame k f act) = .next (act (s.countFrame k f)) := by
  unfold guarded State.distFrame
  rw [if_pos (beq_iff_eq.2 hlen), if_pos hup]

theorem countFrame_downPorts (s : State) (k : Nat) (f : List Byte) : (s.countFrame k f).downPorts = s.downPorts := by
  have hsame := countFrame_same s k f
  unfold State.downPorts
  rw [hsame.fw.resolve_left (by decide)]
  simp only [hsame.link_eq rfl]

/-- The NEED of a module that is receiving. -/
theorem sendNeed_hands {s u : State} (hroom : SameRoom s u) (hout : u.out = s.out) :
    s.Hands u.sendNeed u.fw.distUp.toNat (needFrame u.missingBlocks (offerDigest u.fw.offer)) :=
  .of_room hroom hout (sendMaint_hands u _ _)

/-- The state of a reception that has failed. -/
theorem failDist_effect (s : State) : s.failDist.distSlot.state = 5 ∧ s.failDist.distSlot.filling = 0 ∧
    s.failDist.fw.distState = 4 ∧ s.failDist.fw.running = s.fw.running := by
  generalize hu : ({ s.updSlot s.spareSlot fun x => { x with state := 5, filling := 0 } with
    fw := { (s.updSlot s.spareSlot fun x => { x with state := 5, filling := 0 }).fw with distState := 4 } } : State) = u
  have hfail : s.failDist = u.keepBoot := by rw [← hu]; rfl
  obtain ⟨a, b, hboot⟩ := keepBoot_eq u
  have hslot : u.slot s.spareSlot = { s.slot s.spareSlot with state := 5, filling := 0 } := by
    rw [← hu]
    exact (State.slot_updSlot s _ _ fun x => { x with state := 5, filling := 0 }).trans (if_pos rfl)
  have hdist : s.failDist.distSlot = u.slot s.spareSlot := by
    rw [hfail, hboot, ← hu]
    rfl
  rw [hdist, hslot]
  refine ⟨rfl, rfl, ?_, ?_⟩ <;> rw [hfail, hboot, ← hu]
  rfl

/-! ### An offer, a need, a part -/

/-- An offer that this module does not take is answered with an ABORT. -/
theorem onOffer_aborts {s : State} {k : Nat} (f : List Byte) (h : s.fw.distEnable = 0 ∨ s.fw.distUp.toNat ≠ k) :
    s.onOffer k f = s.sendMaint k ([0x13, 2, 0, 0] ++ offerDigest f) := by
  refine if_neg fun ⟨hen, hup, _⟩ => ?_
  obtain h | h := h
  · rw [hen] at h
    exact absurd h (by decide)
  · exact h hup

/-- What an accepted offer leaves of the state: the slot begins to receive. -/
def State.offered (s : State) (f : List Byte) : State :=
  let s := { s with fw := { s.fw.freshImage with offer := f, distState := 1, blocksRx := 0 } }
  (s.updSlot s.spareSlot fun _ => { Slot.reset with
    state := 1, filling := 2, total := offerCount f * blockBytes }).keepBoot

theorem offered_effect (s : State) (f : List Byte) : (s.offered f).distSlot.filling = 2 ∧
    (s.offered f).distSlot.state = 1 ∧ (s.offered f).distSlot.total = offerCount f * 65536 ∧
    (s.offered f).distSlot.fixed = [] ∧ (s.offered f).fw.offer = f ∧ (s.offered f).fw.distState = 1 ∧
    (s.offered f).fw.running = s.fw.running ∧ (s.offered f).fw.distUp = s.fw.distUp ∧
    (s.offered f).fabric = s.fabric ∧ (s.offered f).out = s.out := by
  generalize hx : ({ Slot.reset with state := 1, filling := 2, total := offerCount f * blockBytes } : Slot) = x
  generalize hv : ({ s with fw := { s.fw.freshImage with offer := f, distState := 1, blocksRx := 0 } } : State) = v
  have hu : s.offered f = (v.updSlot s.spareSlot fun _ => x).keepBoot := by rw [← hx, ← hv]; rfl
  obtain ⟨a, b, hboot⟩ := keepBoot_eq (v.updSlot s.spareSlot fun _ => x)
  have hslot : (s.offered f).distSlot = x := by
    have hspare : (s.offered f).spareSlot = s.spareSlot := by rw [hu, hboot, ← hv]; rfl
    show (s.offered f).slot _ = x
    rw [hspare, hu, keepBoot_updSlot, if_pos rfl]
  rw [hslot, ← hx]
  refine ⟨rfl, rfl, rfl, rfl, ?_⟩
  rw [hu, hboot, ← hv]
  exact ⟨rfl, rfl, rfl, rfl, rfl, rfl⟩

theorem offered_missing (s : State) (f : List Byte) : (s.offered f).missingBlocks = List.range (offerCount f) := by
  obtain ⟨-, -, -, hfixed, hoffer, -⟩ := offered_effect s f
  unfold State.missingBlocks
  rw [hfixed, hoffer]
  exact List.filter_eq_self.2 fun _ _ => rfl

theorem onOffer_accepts {s : State} {k : Nat} {f : List Byte} (hen : s.fw.distEnable = 1) (hup : s.fw.distUp.toNat = k)
    (hfill : s.distSlot.filling = 0) (hlo : 1 ≤ offerCount f) (hhi : offerCount f ≤ 256)
    (hst : s.distSlot.state ≠ 2) : s.onOffer k f = (s.offered f).sendNeed := by
  refine (if_pos ⟨hen, hup, by rw [hfill]; decide, hlo, hhi⟩).trans
    ((if_neg fun h => hst h.1).trans (if_neg fun h => ?_))
  have hrec := h.1
  unfold State.receiving at hrec
  rw [hfill] at hrec
  exact absurd hrec (by decide)

/-- The upstream's part of the image being received is not ignored. -/
theorem part_fits {s : State} {k : Nat} {f : List Byte} (hrec : s.receiving = true) (hup : s.fw.distUp.toNat = k)
    (hdig : takeAt f 8 8 = (offerDigest s.fw.offer).take 8) (hb : leAt f 2 2 < offerCount s.fw.offer)
    (hi : leAt f 4 2 < 512) : ¬((!s.receiving) = true ∨ s.fw.distUp.toNat ≠ k ∨
      takeAt f 8 8 ≠ (offerDigest s.fw.offer).take 8 ∨ offerCount s.fw.offer ≤ leAt f 2 2 ∨ 512 ≤ leAt f 4 2) := by
  rintro (h | h | h | h | h)
  · rw [hrec] at h
    exact Bool.false_ne_true h
  · exact h hup
  · exact h hdig
  · exact Nat.not_le_of_lt hb h
  · exact Nat.not_le_of_lt hi h

/-- A part puts its bytes in place where it completes no block. -/
theorem onPart_places {s : State} {k : Nat} {f : List Byte} (hrec : s.receiving = true) (hup : s.fw.distUp.toNat = k)
    (hdig : takeAt f 8 8 = (offerDigest s.fw.offer).take 8) (hb : leAt f 2 2 < offerCount s.fw.offer)
    (hi : leAt f 4 2 < 512)
    (harr : (s.distSlot.place (65536 * leAt f 2 2 + 128 * leAt f 4 2) (takeAt f 16 128)).arrived (leAt f 2 2) = false) :
    (s.onPart k f).distSlot = s.distSlot.place (65536 * leAt f 2 2 + 128 * leAt f 4 2) (takeAt f 16 128) ∧
      (s.onPart k f).out = s.out := by
  generalize hy : s.distSlot.place (65536 * leAt f 2 2 + 128 * leAt f 4 2) (takeAt f 16 128) = y at harr ⊢
  have hy' : s.distSlot.place (blockBytes * leAt f 2 2 + 128 * leAt f 4 2) (takeAt f 16 128) = y := hy
  have hz : y.judgeFrom (leAt s.fw.offer 12 4) [leAt f 2 2] = y :=
    judgeFrom_waits (fun b h => List.mem_singleton.1 h ▸ harr) _
  have hfailed : ((List.range (offerCount s.fw.offer)).filter fun c => y.arrived c && !y.arrived c) = [] :=
    List.filter_eq_nil_iff.2 fun c _ => by cases y.arrived c <;> decide
  have hfixed : y.fixed = s.distSlot.fixed := by rw [← hy]; rfl
  unfold State.onPart
  dsimp only
  rw [hy', hz, hfailed, if_neg (part_fits hrec hup hdig hb hi), if_pos ⟨congrArg List.length hfixed, rfl⟩]
  exact ⟨(State.slot_updSlot s s.spareSlot _ fun _ => y).trans (if_pos rfl), rfl⟩

theorem takeAt_getD {f : List Byte} {o n j : Nat} (hlen : o + n ≤ f.length) (hj : j < n) :
    (takeAt f o n).getD j 0 = f.getD (o + j) 0 := by
  unfold takeAt
  rw [List.getD_append _ _ _ _ (by simp only [List.length_take, List.length_drop]; omega)]
  simp only [List.getD_eq_getElem?_getD, List.getElem?_take, List.getElem?_drop, if_pos hj]

/-- The bytes of one part lie in one block. -/
theorem part_block {b i j : Nat} (hi : i < 512) (hj : j < 128) : (65536 * b + 128 * i + j) / blockBytes = b := by
  show (65536 * b + 128 * i + j) / 65536 = b
  omega

/-- dist_state alone is settled. -/
theorem settleDist_eq (s : State) : ∃ d, s.settleDist = { s with fw := { s.fw with distState := d } } := by
  unfold State.settleDist
  dsimp only
  split
  · exact ⟨s.fw.distState, rfl⟩
  · exact ⟨_, rfl⟩

/-- The blocks due to a port are sent to it; counted, they are noted as sent. -/
theorem sendBlocks_effect (s : State) (k : Nat) : ∃ (u : State) (a : Word) (b : Sparse (List Nat)),
    s.sendBlocks k = { u with fw := { s.fw with blocksTx := a, sent := b } } ∧ u.mem = s.mem ∧ u.parts = s.parts ∧
    (s.receiving = false → ∀ n ∈ s.dueBlocks k, ∀ x ∈ partFrames s.distSlot s.distSlot.digest n,
      u.Handed (.fabric k (maintPacket (s.neighbourOf k) s.myId x))) := by
  generalize hd : (if s.receiving then offerDigest s.fw.offer else s.distSlot.digest) = d
  generalize hl : (s.dueBlocks k).flatMap (partFrames s.distSlot d) = l
  have hsame : Same 0x200400 s (l.foldl (fun s f => s.sendMaint k f) s) :=
    kept_foldl _ _ _ (fun t f h => h.trans (sendMaint_same t k f)) (.refl s)
  have hfw := hsame.fw.resolve_left (by decide)
  refine ⟨l.foldl (fun s f => s.sendMaint k f) s, s.fw.blocksTx + BitVec.ofNat 32 (s.dueBlocks k).length,
    Sparse.put s.fw.sent k (Sparse.get [] s.fw.sent k ++ s.dueBlocks k), ?_, hsame.mem_eq rfl, hsame.parts_eq rfl,
    fun hrec n hn x hx => sendMaints_handed ?_ s⟩
  · rw [← hfw, ← hl, ← hd]
    rfl
  · rw [← hl, ← hd, if_neg (by rw [hrec]; exact Bool.false_ne_true)]
    exact List.mem_flatMap.2 ⟨n, hn, hx⟩

/-- A port asks for blocks w of the image, n of them at once. -/
def State.asked (s : State) (k : Nat) (w : List Nat) (n : Nat) (sent : Sparse (List Nat)) : State :=
  { s with fw := { s.fw with
    wanted := Sparse.put s.fw.wanted k w, window := Sparse.put s.fw.window k n, sent := sent } }

/-- A NEED of the offered image from a port downstream is noted, and its blocks are sent. -/
theorem onNeed_sends {s : State} {k : Nat} {f o : List Byte} (ho : s.offerFrame = some o)
    (hdig : offerDigest o = takeAt f 36 64) (hdown : k ∈ s.downPorts) : ∃ sent,
    s.onNeed k f = ((s.asked k ((List.range 256).filter fun b => (leAt f 4 32).testBit b) (leAt f 1 1) sent).sendBlocks
      k).settleDist ∧ (Sparse.find s.fw.sent k = none → Sparse.get [] sent k = []) := by
  generalize hw : (List.range 256).filter (fun b => (leAt f 4 32).testBit b) = w
  refine ⟨if (Sparse.find s.fw.wanted k).any fun old => decide (w.length < old.length) then s.fw.sent
    else Sparse.del s.fw.sent k, ?_, fun hnone => ?_⟩
  · unfold State.onNeed
    rw [ho]
    dsimp only
    rw [if_neg (by
      rintro (h | h)
      · exact h hdig
      · rw [List.contains_iff_mem.2 hdown] at h
        exact Bool.false_ne_true h), hw]
    rfl
  · split
    · unfold Sparse.get
      rw [hnone]
      rfl
    · unfold Sparse.get
      rw [Sparse.find_del, if_pos rfl]
      rfl

/-- A block that is asked for, within the window, of a whole image, is due where it was not sent. -/
theorem dueBlocks_asked {s : State} {k n b : Nat} {w : List Nat} {sent : Sparse (List Nat)} (hst : s.distSlot.state = 2)
    (hsent : Sparse.get [] sent k = []) (hb : b ∈ w) (hle : b ≤ w.headD 0 + n) :
    b ∈ (s.asked k w n sent).dueBlocks k := by
  unfold State.dueBlocks State.asked
  dsimp only
  rw [Sparse.get_put, if_pos rfl, Sparse.get_put, if_pos rfl, hsent]
  refine List.mem_filter.2 ⟨hb, ?_⟩
  have hstate : (State.distSlot { s with fw := { s.fw with
      wanted := Sparse.put s.fw.wanted k w, window := Sparse.put s.fw.window k n, sent := sent } }).state = 2 := hst
  rw [hstate, decide_eq_true hle]
  simp

/-- A module that offers an image and does not receive one has it whole. -/
theorem offered_whole {s : State} {o : List Byte} (hrec : s.receiving = false) (ho : s.offerFrame = some o) :
    s.distSlot.state = 2 := by
  unfold State.offerFrame at ho
  dsimp only at ho
  rw [if_neg (by rw [hrec]; exact Bool.false_ne_true)] at ho
  exact of_not_not fun h => by rw [if_neg h] at ho; nomatch ho

/-- Settles O57: each frame by its own equation; what is handed to one port leaves the room of the others. -/
theorem distributionFrames : Obligations.DistributionFrames := by
  intro k f s hup
  have hcount := countFrame_same s k f
  have hroom := countFrame_room s k f
  have hfw : (s.countFrame k f).fw = s.fw := hcount.fw.resolve_left (by decide)
  have hout : (s.countFrame k f).out = s.out := hcount.out.resolve_left (by decide)
  have hdist : (s.countFrame k f).distSlot = s.distSlot := by
    unfold State.distSlot State.spareSlot State.slot
    rw [hfw]
  have hreceiving : (s.countFrame k f).receiving = s.receiving := by
    unfold State.receiving
    rw [hdist]
  have hoffer : (s.countFrame k f).offerFrame = s.offerFrame := by
    unfold State.offerFrame
    rw [hreceiving, hdist, hfw]
  refine ⟨fun hlen => ⟨fun hno => ?_, fun hen hp hfill hlo hhi hst => ?_⟩, fun hnone => ?_, fun o ho => ?_,
    fun o w hlen ho hdig hdown hw => ?_, fun hrec hp => ⟨?_, fun hlen hdig hb hi hfac hfix harr => ?_,
      fun hlen h1 hdig => ?_, ?_⟩,
    fun hrec => ?_⟩
  · have hrun := onOffer_aborts (s := s.countFrame k f) (k := k) f (by rw [hfw]; exact hno)
    refine ⟨_, (guarded_distFrame hup hlen _).trans (congrArg _ hrun), .of_room hroom hout (sendMaint_hands _ _ _), ?_⟩
    have hsame := (hcount.mono rfl).trans (sendMaint_same (s.countFrame k f) k ([0x13, 2, 0, 0] ++ offerDigest f))
    exact ⟨hsame.fw.resolve_left (by decide), hsame.mem_eq rfl, hsame.parts_eq rfl⟩
  · have hrun := onOffer_accepts (s := s.countFrame k f) (k := k) (f := f) (by rw [hfw]; exact hen)
      (by rw [hfw]; exact hp) (by rw [hdist]; exact hfill) hlo hhi (by rw [hdist]; exact hst)
    obtain ⟨h1, h2, h3, -, h5, h6, h7, h8, hfab, hout'⟩ := offered_effect (s.countFrame k f) f
    have hmiss := offered_missing (s.countFrame k f) f
    generalize (s.countFrame k f).offered f = u at hrun h1 h2 h3 h5 h6 h7 h8 hfab hout' hmiss
    have hneed := sendNeed_hands (hroom.trans (.of_fabric hfab)) (hout'.trans hout)
    rw [hmiss, h5, h8, hfw, hp] at hneed
    have hend : u.sendNeed.fw = u.fw := (sendMaint_same u _ _).fw.resolve_left (by decide)
    have hslot : u.sendNeed.distSlot = u.distSlot := by
      unfold State.distSlot State.spareSlot State.slot
      rw [hend]
    refine ⟨_, (guarded_distFrame hup hlen _).trans (congrArg _ hrun), ?_⟩
    rw [hslot, hend]
    exact ⟨h1, h2, h3, h5, h6, hneed, h7.trans (by rw [hfw])⟩
  · unfold exec
    exact congrArg Host.Outcome.next (by rw [hnone])
  · have hrun : exec .offerSend s = .next (s.downPorts.foldl (State.offerOn o) s) :=
      congrArg Host.Outcome.next (by rw [ho]; rfl)
    have hsame := offers_same o s.downPorts s
    exact ⟨_, hrun, hsame.fw.resolve_left (by decide), hsame.mem_eq rfl, hsame.parts_eq rfl,
      fun j hj hw => offers_handed (downPorts_nodup s) hj s hw⟩
  · obtain ⟨sent, hrun, hnew⟩ := onNeed_sends (s := s.countFrame k f) (k := k) (f := f) (hoffer.trans ho) hdig
      (by rw [countFrame_downPorts]; exact hdown)
    rw [← hw] at hrun
    obtain ⟨u, a, b, hsend, hmem, hparts, hblocks⟩ :=
      sendBlocks_effect ((s.countFrame k f).asked k w (leAt f 1 1) sent) k
    obtain ⟨d, hsettle⟩ := settleDist_eq (((s.countFrame k f).asked k w (leAt f 1 1) sent).sendBlocks k)
    rw [hsettle, hsend] at hrun
    refine ⟨_, (guarded_distFrame hup hlen _).trans (congrArg _ hrun), (Sparse.find_put ..).trans (if_pos rfl),
      (Sparse.find_put ..).trans (if_pos rfl), (by rw [← hfw]; rfl), hmem.trans (hcount.mem_eq rfl),
      hparts.trans (hcount.parts_eq rfl), fun hrec hnone n hn hle x hx p hp => ?_⟩
    have hst : (s.countFrame k f).distSlot.state = 2 := by
      rw [hdist]
      exact offered_whole hrec ho
    have hdue := dueBlocks_asked (k := k) hst (hnew (by rw [hfw]; exact hnone)) hn hle
    have := hblocks (by rw [← hrec, ← hreceiving]; rfl) n hdue x (by
      show x ∈ partFrames (s.countFrame k f).distSlot (s.countFrame k f).distSlot.digest n
      rw [hdist]
      exact hx)
    rw [hp, ← hroom.neighbourOf, ← hroom.myId]
    exact this
  · have hneed := sendNeed_hands (SameRoom.refl s) rfl
    rw [hp] at hneed
    exact ⟨_, congrArg Host.Outcome.next (if_pos hrec), hneed, (sendMaint_same s _ _).fw.resolve_left (by decide)⟩
  · obtain ⟨hslot, hsent⟩ := onPart_places (s := s.countFrame k f) (k := k) (f := f) (hreceiving.trans hrec)
      (by rw [hfw]; exact hp) (by rw [hfw]; exact hdig) (by rw [hfw]; exact hb) hi (by rw [hdist]; exact harr)
    rw [hdist] at hslot
    refine ⟨_, guarded_distFrame hup hlen _, (congrArg Slot.fixed hslot).trans rfl, hsent.trans hout, fun o => ?_⟩
    have hbyte := place_byte (o := 65536 * leAt f 2 2 + 128 * leAt f 4 2) (bs := takeAt f 16 128) hfac
      (fun j hj => by
        rw [length_takeAt] at hj
        rw [part_block hi hj]
        exact hfix) o
    rw [hslot, hbyte, length_takeAt]
    split
    · next h => exact takeAt_getD (by rw [hlen]) (by omega)
    · rfl
  · have hrun : (s.countFrame k f).onAbort k f = (s.countFrame k f).failDist :=
      if_pos ⟨hreceiving.trans hrec, by rw [hfw]; exact hp, h1, by rw [hfw]; exact hdig⟩
    obtain ⟨h1, h2, h3, h4⟩ := failDist_effect (s.countFrame k f)
    exact ⟨_, (guarded_distFrame hup hlen _).trans (congrArg _ hrun), h1, h2, h3, h4.trans (by rw [hfw])⟩
  · obtain ⟨h1, h2, h3, h4⟩ := failDist_effect s
    exact ⟨_, congrArg Host.Outcome.next (if_pos hrec), h1, h2, h3, h4⟩
  · exact ⟨congrArg Host.Outcome.next (if_neg (by rw [hrec]; exact Bool.false_ne_true)),
      congrArg Host.Outcome.next (if_neg (by rw [hrec]; exact Bool.false_ne_true))⟩

end Sys2Proof.Machine
end


section
/-! SUPPORT. Proofs/Hub.lean: collectives handed to the hub, and their readiness (O48, O49). -/

namespace Sys2Proof.Machine

/-! ### The ledger -/

/-- A ledger entry put in place is the one that its bucket has. -/
theorem ledgerOf_putLedger (s : State) (l : Ledger) : (s.putLedger l).ledgerOf l.part l.bucket = some l := by
  generalize hsame : (fun x : Ledger => x.part == l.part && x.bucket == l.bucket) = same
  have hl : same l = true := by rw [← hsame]; simp
  have hput : (s.putLedger l).coll.ledger = if s.coll.ledger.any same then
      s.coll.ledger.map fun x => if same x then l else x else s.coll.ledger ++ [l] := by
    rw [← hsame]
    rfl
  unfold State.ledgerOf
  rw [hput, hsame]
  split
  · next hany =>
    rw [List.find?_map]
    have hcomp : (same ∘ fun x => if same x = true then l else x) = same := by
      funext x
      by_cases h : same x = true
      · rw [Function.comp_apply, if_pos h, hl, h]
      · rw [Function.comp_apply, if_neg h]
    rw [hcomp]
    obtain ⟨y, hy⟩ := Option.isSome_iff_exists.1 (List.find?_isSome.2 (List.any_eq_true.1 hany))
    rw [hy, Option.map_some, if_pos (List.find?_some hy)]
  · next hany =>
    have hnone : s.coll.ledger.find? same = none :=
      List.find?_eq_none.2 fun x hx h => hany (List.any_eq_true.2 ⟨x, hx, h⟩)
    rw [List.find?_append, hnone, List.find?_cons_of_pos hl]
    rfl

/-- The ledger as a command finds it, and as it leaves it. -/
theorem takeLedger_found {s : State} {p : Nat} {e : Entry} (h : 8 ≤ e.collOp ∨ e.count = 0 ∨
    (s.ledgerOf p e.bucket).isSome = true ∨ (e.collOp % 2 = 0 ∧
      poolOk 4096 s.ledgerHeld (fun q => (s.part q).guar.live.ledger.toNat) p 1 = true)) :
    ∃ l, s.takeLedger p e = some { s with coll := { s.coll with ledger := l } } ∧
      (e.collOp < 8 → e.count ≠ 0 →
        (State.ledgerOf { s with coll := { s.coll with ledger := l } } p e.bucket).isSome = true) ∧
      (e.collOp < 8 → e.count ≠ 0 → e.collOp % 2 = 0 → State.ledgerOf { s with coll := { s.coll with ledger := l } } p
        e.bucket = some ⟨p, e.bucket, 0, 0, [0, 0, 0], [0, 0, 0]⟩) ∧
      (8 ≤ e.collOp ∨ e.count = 0 ∨ e.collOp % 2 = 1 → l = s.coll.ledger) := by
  generalize hx : (⟨p, e.bucket, 0, 0, [0, 0, 0], [0, 0, 0]⟩ : Ledger) = x
  have hput : (State.ledgerOf { s with coll := { s.coll with ledger := (s.putLedger x).coll.ledger } } p e.bucket)
      = some x := by
    rw [← hx]
    exact ledgerOf_putLedger s _
  by_cases hnone : 8 ≤ e.collOp ∨ e.count = 0
  · exact ⟨s.coll.ledger, if_pos hnone, fun hlt hne => absurd hnone (by omega), fun hlt hne => absurd hnone (by omega),
      fun _ => rfl⟩
  · obtain ⟨hop, hcount⟩ := not_or.1 hnone
    cases hl : s.ledgerOf p e.bucket with
    | some y =>
      by_cases hodd : e.collOp % 2 = 1
      · refine ⟨s.coll.ledger, ?_, fun _ _ => ?_, fun _ _ h0 => by omega, fun _ => rfl⟩
        · unfold State.takeLedger
          rw [if_neg hnone, hl]
          exact if_pos hodd
        · exact Option.isSome_iff_exists.2 ⟨y, hl⟩
      · refine ⟨(s.putLedger x).coll.ledger, ?_, fun _ _ => ?_, fun _ _ _ => hput, fun h => by omega⟩
        · unfold State.takeLedger
          rw [if_neg hnone, hl, hx]
          exact if_neg hodd
        · rw [hput]
          rfl
    | none =>
      obtain h | h | h | ⟨heven, hpool⟩ := h
      · exact absurd h hop
      · exact absurd h hcount
      · rw [hl] at h
        exact absurd h (by decide)
      · refine ⟨(s.putLedger x).coll.ledger, ?_, fun _ _ => ?_, fun _ _ _ => hput, fun h => by omega⟩
        · unfold State.takeLedger
          rw [if_neg hnone, hl, hx]
          exact if_neg fun h => by
            obtain h | h := h
            · omega
            · rw [hpool] at h
              exact Bool.false_ne_true h
        · rw [hput]
          rfl

theorem takeLedger_missed {s : State} {p : Nat} {e : Entry} (hop : e.collOp < 8) (hcount : e.count ≠ 0)
    (hl : s.ledgerOf p e.bucket = none) (h : e.collOp % 2 = 1 ∨
      poolOk 4096 s.ledgerHeld (fun q => (s.part q).guar.live.ledger.toNat) p 1 = false) : s.takeLedger p e = none := by
  unfold State.takeLedger
  rw [if_neg (by omega), hl]
  refine if_pos (h.imp_right fun h => ?_)
  rw [h]
  rfl

/-! ### The hand-over -/

/-- The command at the head of a core's queue goes to the hub. -/
def State.handed (s : State) (p c : Nat) (k : Checked) : State :=
  match (s.popHead c).takeLedger p k.entry with
  | some s => { s with coll := { s.coll with runs := s.coll.runs ++ [s.newRun p c k false] } }
  | none => { s.popHead c with coll := { s.coll with runs := s.coll.runs ++ [(s.popHead c).newRun p c k true] } }

/-- Each operation hands its command over. -/
theorem exec_handOver {core : Fin 512} {s : State} {p : Nat} {k : Checked} {c : Instr} (h : s.Issues p core k)
    (h6 : k.entry.kind = 6)
    (hc : (c = .rsSum core ∧ k.entry.collOp = 0) ∨ (c = .rsSumCont core ∧ k.entry.collOp = 1) ∨
      (c = .rsMean core ∧ k.entry.collOp = 2) ∨ (c = .rsMeanCont core ∧ k.entry.collOp = 3) ∨
      (c = .arSum core ∧ k.entry.collOp = 4) ∨ (c = .arSumCont core ∧ k.entry.collOp = 5) ∨
      (c = .arMean core ∧ k.entry.collOp = 6) ∨ (c = .arMeanCont core ∧ k.entry.collOp = 7) ∨
      (c = .allGather core ∧ k.entry.collOp = 8) ∨ (c = .scalarSum core ∧ k.entry.collOp = 9) ∨
      (c = .scalarMax core ∧ k.entry.collOp = 10) ∨ (c = .normReduce core ∧ k.entry.collOp = 11)) :
    exec c s = .next (s.handed p core k) := by
  have hrun : ∀ op, k.entry.collOp = op → s.handOver core op = s.handed p core k := by
    rintro op rfl
    exact issue_runs h (by rw [h6]; simp)
  obtain ⟨rfl, hop⟩ | ⟨rfl, hop⟩ | ⟨rfl, hop⟩ | ⟨rfl, hop⟩ | ⟨rfl, hop⟩ | ⟨rfl, hop⟩ | ⟨rfl, hop⟩ | ⟨rfl, hop⟩ |
    ⟨rfl, hop⟩ | ⟨rfl, hop⟩ | ⟨rfl, hop⟩ | ⟨rfl, hop⟩ := hc <;>
  exact congrArg Host.Outcome.next (hrun _ hop)

/-- A run that found no ledger entry is not scanned, waits for nothing and ends with LEDGER_MISS. -/
theorem newRun_missed (s : State) (p c : Nat) (k : Checked) (hcount : k.entry.count ≠ 0) :
    (s.newRun p c k true).scan = 0 ∧ (s.newRun p c k true).waits = false ∧
      (s.newRun p c k true).status = stLEDGER_MISS := by
  refine ⟨if_neg fun h => ?_, rfl, (if_neg hcount).trans (if_pos rfl)⟩
  simp only [Bool.not_true, Bool.and_false, Bool.false_and] at h
  exact Bool.false_ne_true h

/-- Settles O48: the ledger decides whether the run that the hub takes has missed it. -/
theorem collectivesAreHandedOver : Obligations.CollectivesAreHandedOver := by
  intro core s p k c h h6 hc
  have hexec := exec_handOver h h6 hc
  have hpop := popHead_core_self s core.val
  refine ⟨fun hfound => ?_, fun hop hcount hl hno => ?_⟩
  · obtain ⟨l, htake, hsome, hreset, hkept⟩ := takeLedger_found (s := s.popHead core) hfound
    generalize hw : ({ s.popHead core with coll := { (s.popHead core).coll with ledger := l } } : State) =
      w at htake hsome hreset
    have hrun : s.handed p core k =
      { w with coll := { w.coll with runs := w.coll.runs ++ [w.newRun p core k false] } } := by
      unfold State.handed
      rw [htake]
    rw [hrun] at hexec
    refine ⟨_, w.newRun p core k false, hexec, ?_, rfl, rfl, rfl, rfl, rfl, rfl, ?_, ?_, ?_, ?_, hsome,
      hreset, fun h => ?_⟩
      <;> rw [← hw]
    · rfl
    · show ((s.popHead core).core core).queue = _
      rw [hpop]
    · show ((s.popHead core).core core).tallies = _
      rw [hpop]
    · rfl
    · rfl
    · exact hkept h
  · have htake := takeLedger_missed (s := s.popHead core) hop hcount hl hno
    have hrun : s.handed p core k = { s.popHead core with
        coll := { s.coll with runs := s.coll.runs ++ [(s.popHead core).newRun p core k true] } } := by
      unfold State.handed
      rw [htake]
    rw [hrun] at hexec
    obtain ⟨hscan, hwaits, hstatus⟩ := newRun_missed (s.popHead core) p core k hcount
    exact ⟨_, _, hexec, rfl, rfl, rfl, rfl, rfl, hscan, hwaits, hstatus, rfl, rfl, rfl, rfl, rfl,
      by show ((s.popHead core).core core).queue = _; rw [hpop], fun d n => popHead_tallyOf s core d n⟩

/-! ### Runs whose streams begin (R333) -/

/-- A run whose streams have begun and into which nothing has come yet. -/
structure CollRun.Fresh (late : Bool) (x : CollRun) : Prop where
  begun : x.begun = true
  late : x.late = late
  quiet : ∀ y ∈ x.rx, y.pieces = []
  right : x.wrong = none

/-- The hub has a run i, and n late exclusions counted. -/
def State.HasRun (s : State) (i : Nat) (n : Long) : Prop := s.coll.lateExclusions = n ∧ i < s.coll.runs.length

/-- Run i has begun and nothing has come for it. -/
def State.FreshAt (s : State) (i : Nat) (n : Long) (late : Bool) : Prop :=
  s.coll.lateExclusions = n ∧ ∃ x, s.coll.runs[i]? = some x ∧ x.Fresh late

section
variable {s t : State} {i : Nat} {n : Long} {late : Bool} {r : CollRun}

theorem State.HasRun.of_coll (h : s.HasRun i n) (ht : t.coll = s.coll) : t.HasRun i n := by
  unfold State.HasRun
  rw [ht]
  exact h

theorem State.FreshAt.of_coll (h : s.FreshAt i n late) (ht : t.coll = s.coll) : t.FreshAt i n late := by
  unfold State.FreshAt
  rw [ht]
  exact h

theorem State.FreshAt.hasRun (h : s.FreshAt i n late) : s.HasRun i n := by
  obtain ⟨hn, x, hx, -⟩ := h
  exact ⟨hn, (List.getElem?_eq_some_iff.1 hx).1⟩

theorem State.HasRun.setRun (h : s.HasRun i n) (hr : r.Fresh late) : (s.setRun i r).FreshAt i n late :=
  ⟨h.1, r, List.getElem?_set_self h.2, hr⟩

theorem CollRun.Fresh.push (h : r.Fresh late) (phase dir : Nat) (g : Seg) : (r.push phase dir g).Fresh late :=
  ⟨h.begun, h.late, h.quiet, h.right⟩

theorem CollRun.Fresh.note (h : r.Fresh late) (g : Seg) : (r.note g).Fresh late :=
  ⟨h.begun, h.late, h.quiet, h.right⟩

theorem writeRun_coll (s : State) (r : CollRun) (d : Desc) (lo : Nat) (bs : List Byte) :
    (s.writeRun r d lo bs).1.coll = s.coll :=
  (State.writeRun_keeps (fp := 0x24804C) rfl s r d lo bs (.refl s)).coll.resolve_left (by decide)

theorem CollRun.Fresh.writeRun (h : r.Fresh late) (d : Desc) (lo : Nat) (bs : List Byte) :
    (s.writeRun r d lo bs).2.Fresh late := by
  unfold State.writeRun
  dsimp only
  split
  · exact ⟨h.begun, h.late, h.quiet, h.right⟩
  · exact h

theorem State.HasRun.written (h : s.HasRun i n) (hr : r.Fresh late) (d : Desc) (lo : Nat) (bs : List Byte) :
    ((s.writeRun r d lo bs).1.setRun i (s.writeRun r d lo bs).2).FreshAt i n late :=
  (h.of_coll (writeRun_coll s r d lo bs)).setRun (hr.writeRun d lo bs)

/-- A run once a chunk of its own is final. -/
def CollRun.finalised (r : CollRun) (g : Seg) (f : List Byte × Half × List Word) : CollRun :=
  let g := { g with data := f.1 }
  let x := { r.note g with todo := r.todo - 1, flags := r.flags ||| f.2.1, finals := r.finals ++ [(g.half, f.2.2)],
                           record := if r.chk.entry.collOp = 11 then some f.1 else r.record }
  if x.ring then x.push 1 g.half g else (x.push 1 0 { g with half := 0 }).push 1 1 { g with half := 1 }

theorem CollRun.Fresh.finalised (h : r.Fresh late) (g : Seg) (f : List Byte × Half × List Word) :
    (r.finalised g f).Fresh late := by
  unfold CollRun.finalised
  dsimp only
  split <;> exact ⟨h.begun, h.late, h.quiet, h.right⟩

theorem State.FreshAt.putLedger (h : s.FreshAt i n late) (l : Ledger) : (s.putLedger l).FreshAt i n late := h

theorem State.FreshAt.digestRecord (h : s.FreshAt i n late) (x : CollRun) (port phase : Nat) (bad : Bool)
    (a b c : Long) : (s.digestRecord x port phase bad a b c).FreshAt i n late := by
  unfold State.digestRecord State.FreshAt
  dsimp only
  exact h

theorem State.HasRun.finalise (h : s.HasRun i n) (hr : r.Fresh late) (g : Seg) (ps : List Pair) :
    (s.finalise i r g ps).FreshAt i n late := by
  unfold State.finalise
  dsimp only
  split
  · exact h.setRun hr
  · next d hd =>
    have hset := h.written (hr.finalised g (s.finalRun r d (r.range r.chk.entry.count g.chunk g.half).1 g.weight ps)) d
      (r.range r.chk.entry.count g.chunk g.half).1
      (s.finalRun r d (r.range r.chk.entry.count g.chunk g.half).1 g.weight ps).1
    exact iteInduction (motive := fun t => State.FreshAt t i n late) (fun _ => hset) fun _ =>
      iteInduction (motive := fun t => State.FreshAt t i n late) (fun _ => hset.putLedger _) fun _ =>
        (hset.putLedger _).of_coll rfl

theorem State.HasRun.lineFinal (h : s.HasRun i n) (hr : r.Fresh late) : (s.lineFinal i r).FreshAt i n late := by
  unfold State.lineFinal
  dsimp only
  split
  · exact h.setRun hr
  · refine h.finalise ?_ _ _
    exact ⟨hr.begun, hr.late, hr.quiet, hr.right⟩

theorem State.HasRun.gatherOwn (h : s.HasRun i n) (hr : r.Fresh late) (rd : Reader) :
    (s.gatherOwn i r rd).FreshAt i n late := by
  unfold State.gatherOwn
  dsimp only
  split
  · refine h.written ?_ _ _ _
    exact ⟨hr.begun, hr.late, hr.quiet, hr.right⟩
  · exact h.setRun hr

/-- The segments that a run itself begins are handed to its streams. -/
theorem CollRun.Fresh.originated (h : r.Fresh late) (l : List TxStream) : CollRun.Fresh late (l.foldl (fun r t =>
    if t.phase = 0 then
      (t.turns.filter fun x => !(r.rx.any fun y => y.phase == 0 && y.dir == t.dir && y.turns.contains x)).foldl
        (fun r x => r.push 0 t.dir (r.origin x.1 x.2)) r
    else r) r) := by
  refine foldl_keeps _ (fun r t h => ?_) l r h
  split
  · exact foldl_keeps _ (fun r x h => h.push _ _ _) _ r h
  · exact h

/-- What a write meets alone it meets with reads too. -/
theorem accessErrors_writes {rs ws : List (Nat × Nat)} {ecc : Ecc} (h : (s.accessErrors rs ws ecc).2 = none) :
    (s.accessErrors [] ws ecc).2 = none := by
  simp only [State.accessErrors, List.head?_eq_none_iff, List.append_eq_nil_iff, List.filter_eq_nil_iff] at h ⊢
  obtain ⟨⟨⟨-, -⟩, -⟩, hparity⟩ := h
  refine ⟨⟨⟨fun a ha => ?_, by simp [State.poisonRead]⟩, fun a _ => Bool.false_ne_true⟩, fun a ha hin => ?_⟩
  · exact absurd (List.mem_filter.1 ha).2 Bool.false_ne_true
  · obtain ⟨hw, hr⟩ := Bool.and_eq_true_iff.1 hin
    refine hparity a ha (Bool.and_eq_true_iff.2 ⟨?_, hr⟩)
    unfold inRanges at hw ⊢
    rw [List.any_append, Bool.or_eq_true]
    exact .inr hw

/-- The streams of a run begin, whether it contributes or not. -/
theorem State.HasRun.beginRun (h : s.HasRun i n) {ecc : Ecc}
    (hacc : (s.accessErrors r.readExtents r.chk.writeExtents ecc).2 = none) (hquiet : ∀ y ∈ r.rx, y.pieces = [])
    (hright : r.wrong = none) (included late : Bool) (flits : Nat) :
    (s.beginRun i r included late flits ecc).FreshAt i (if late then n + 1 else n) late := by
  unfold State.beginRun
  extract_lets e op quar inc u v out src v1 v2 own weight sq v3 v4 r1 r2
  have hnone : u.2 = none := by
    show (s.accessErrors (if inc = true then r.readExtents else []) r.chk.writeExtents ecc).2 = none
    split
    · exact hacc
    · exact accessErrors_writes hacc
  have hu : u.1.coll = s.coll :=
    (State.accessErrors_keeps (fp := 0x8) rfl s _ _ ecc (.refl s)).coll.resolve_left (by decide)
  rw [hnone]
  dsimp -zeta only
  have hv1 : v1.HasRun i (if late then n + 1 else n) := by
    refine ⟨?_, ?_⟩
    · show (if late then u.1.coll.lateExclusions + 1 else u.1.coll.lateExclusions) = _
      rw [hu, h.1]
    · show i < u.1.coll.runs.length
      rw [hu]
      exact h.2
  have hr : r2.Fresh late := CollRun.Fresh.originated (r := r1) ⟨rfl, rfl, hquiet, hright⟩ r1.tx
  clear_value v1 r2
  have hv2 : v2.HasRun i (if late then n + 1 else n) :=
    iteInduction (motive := fun t => State.HasRun t i _) (fun _ => hv1) fun _ => hv1
  clear_value v2
  have hv3 : v3.HasRun i (if late then n + 1 else n) :=
    iteInduction (motive := fun t => State.HasRun t i _) (fun _ => hv2) fun _ => hv2
  have hv4 : v4.HasRun i (if late then n + 1 else n) := hv3
  clear_value v4
  exact iteInduction (motive := fun t => State.FreshAt t i _ late) (fun _ => State.HasRun.gatherOwn hv4 hr _) fun _ =>
    iteInduction (motive := fun t => State.FreshAt t i _ late) (fun _ => State.HasRun.setRun hv4 hr) fun _ =>
      State.HasRun.lineFinal hv4 hr

/-! ### What begun streams bring about while nothing comes -/

/-- Where nothing has come, no segment is taken. -/
theorem State.FreshAt.drainStream (h : s.FreshAt i n late) (k fuel : Nat) : s.drainStream i k fuel = s := by
  obtain ⟨-, x, hx, hfresh⟩ := h
  cases fuel with
  | zero => rfl
  | succ fuel =>
    unfold State.drainStream
    rw [hx]
    dsimp only
    split
    · rfl
    · next y hy =>
      split
      · rfl
      · next t rest ht =>
        have hempty : y.prefixBytes = [] := by
          unfold RxStream.prefixBytes
          rw [hfresh.quiet y (List.mem_of_getElem? hy)]
          rfl
        refine if_pos ?_
        rw [hempty, List.drop_nil]
        decide

/-- A stream sends what it may. -/
theorem State.FreshAt.sendStream (h : s.FreshAt i n late) (k : Nat) : (s.sendStream i k).FreshAt i n late := by
  obtain ⟨hn, x, hx, hfresh⟩ := id h
  unfold State.sendStream
  rw [hx]
  dsimp -zeta only
  split
  · next y e hy he =>
    refine iteInduction (motive := fun t => State.FreshAt t i n late) (fun _ => h) fun _ => ?_
    extract_lets e ps dest port t' u v d
    have hu : u.FreshAt i n late := h.hasRun.setRun ⟨hfresh.begun, hfresh.late, hfresh.quiet, hfresh.right⟩
    have hv : v.coll = u.coll := foldl_same State.coll _ (fun w p =>
      (State.sendSched_keeps (fp := 0x200400) rfl w _ _ _ _ _ _ _ (.refl w)).coll.resolve_left (by decide)) _ _
    exact iteInduction (motive := fun t => State.FreshAt t i n late) (fun _ => (hu.of_coll hv).digestRecord ..) fun _ =>
      hu.of_coll hv
  · exact h

theorem State.FreshAt.workRun (h : s.FreshAt i n late) : (s.workRun i).FreshAt i n late := by
  obtain ⟨hn, x, hx, hfresh⟩ := id h
  unfold State.workRun
  rw [hx]
  dsimp only
  rw [if_neg (by rw [hfresh.begun, hfresh.right]; exact Bool.false_ne_true)]
  have hdrain : ∀ l : List Nat, l.foldl (fun s k => if s.stillRun i x && !s.wrongRun i then s.drainStream i k
    (x.n + 1) else s) s = s := by
    intro l
    induction l with
    | nil => rfl
    | cons k l ih =>
      rw [List.foldl_cons, h.drainStream, ite_self]
      exact ih
  rw [hdrain]
  split
  · exact foldl_keeps (P := fun t => State.FreshAt t i n late) _ (fun t k ht => ht.sendStream k) _ s h
  · exact h

/-- A run that has not begun works nothing off. -/
theorem workRun_unbegun (hr : s.coll.runs[i]? = some r) (hbegun : r.begun = false) : s.workRun i = s := by
  unfold State.workRun
  rw [hr]
  exact if_pos (by rw [hbegun]; rfl)

end

/-! ### The scan and the deadline -/

theorem recallSource_same (s : State) (r : CollRun) : Same 0x208000 s (s.recallSource r) :=
  State.recallSource_keeps rfl s r (.refl s)

/-- The scan of run i ends. -/
def State.scanEnd (s : State) (i : Nat) (r : CollRun) (ecc : Ecc) : State :=
  match (s.readErrors r.readExtents ecc).2 with
  | some bad => (s.readErrors r.readExtents ecc).1.failSource i r bad
  | none => match firstNonfinite r.chk.entry.collOp (s.contribution r).1 0 (s.contribution r).1.length with
    | some x => (s.readErrors r.readExtents ecc).1.setRun i
        { r with scan := 3, nfElem := x, flags := r.flags ||| (s.contribution r).2 }
    | none => (s.readErrors r.readExtents ecc).1.setRun i
        { r with scan := 2, flags := r.flags ||| (s.contribution r).2 }

/-- The scan of the run that the command names. -/
theorem exec_quarantineScan {core : Fin 512} {n : Half} {ecc : Ecc} {s : State} {i : Nat} {r : CollRun}
    (hr : s.coll.runs[i]? = some r) (hi : (s.coll.runs.findIdx? fun x =>
      x.core == core.val && x.resv == n.toNat && x.scan == 1 && !x.begun) = some i) :
    exec (.quarantineScan core n ecc) s = .next (
      if r.chk.entry.trigEnable && !waitMet (s.tallyOf r.core r.chk.entry.trigTally) r.chk.entry.trigTarget then s
      else if s.sourceHeld r then s.recallSource r
      else s.scanEnd i r ecc) := by
  unfold exec execQuarantineScan
  dsimp only
  rw [hi]
  dsimp only
  rw [hr]
  rfl

/-- The readiness of the run that the command names is judged. -/
theorem exec_collectiveDeadline {core : Fin 512} {n : Half} {ecc : Ecc} {s : State} {i q : Nat} {r : CollRun}
    (hr : s.coll.runs[i]? = some r) (hi : (s.coll.runs.findIdx? fun x => x.core == core.val && x.resv == n.toNat &&
      x.due.isSome && !x.begun && x.judged.isNone) = some i) (hq : r.due = some q) (hcount : r.chk.entry.count ≠ 0) :
    exec (.collectiveDeadline core n ecc) s = .next (
      if (s.part r.part).sched.pstitch < q + r.chk.entry.deadline then s
      else (s.startRun i r (s.runReady r) (!s.runReady r && !r.miss) ecc).workRun i) := by
  unfold exec execCollectiveDeadline
  dsimp only
  rw [hi]
  dsimp only
  rw [hr]
  dsimp only
  rw [hq, Option.getD_some, if_congr (or_iff_right hcount) rfl rfl]

/-- What a scan that finds its place leaves of the hub. -/
theorem setRun_effect {s u : State} {i : Nat} {r : CollRun} (hu : Same 0x8 s u) (hr : s.coll.runs[i]? = some r)
    (x : CollRun) : (u.setRun i x).coll.runs[i]? = some x ∧
      (∀ j, j ≠ i → (u.setRun i x).coll.runs[j]? = s.coll.runs[j]?) ∧ (u.setRun i x).mem = s.mem ∧
      (u.setRun i x).parts = s.parts ∧ (u.setRun i x).cores = s.cores := by
  have hcoll : u.coll = s.coll := hu.coll.resolve_left (by decide)
  refine ⟨?_, fun j hj => ?_, hu.mem_eq rfl, hu.parts_eq rfl, hu.cores_eq rfl⟩
  · show (u.coll.runs.set i x)[i]? = some x
    rw [hcoll]
    exact List.getElem?_set_self (List.getElem?_eq_some_iff.1 hr).1
  · show (u.coll.runs.set i x)[j]? = _
    rw [hcoll]
    exact List.getElem?_set_ne (Ne.symm hj)

/-- Settles O49: the scan and the deadline of the run that the command names, and its streams while nothing comes. -/
theorem readinessIsJudgedOnce : Obligations.ReadinessIsJudgedOnce := by
  intro core n ecc s i r hr
  refine ⟨fun hi => ⟨fun htrig => ?_, fun hen hwait => ?_⟩, fun q hi hq hcount =>
    ⟨fun hlt => ?_, fun hle hok hheld => ?_,
    fun hle hno hacc hright hquiet => ?_⟩⟩
  · have hexec := exec_quarantineScan (ecc := ecc) hr hi
    have hgo : ¬(r.chk.entry.trigEnable && !waitMet (s.tallyOf r.core r.chk.entry.trigTally)
      r.chk.entry.trigTarget) = true := by
      obtain h | h := htrig <;> rw [h]
      · exact Bool.false_ne_true
      · rw [Bool.not_true, Bool.and_false]
        exact Bool.false_ne_true
    rw [if_neg hgo] at hexec
    refine ⟨fun hheld => ?_, fun hheld hread => ?_⟩
    · have hsame := recallSource_same s r
      exact ⟨_, hexec.trans (congrArg _ (if_pos hheld)), hsame.coll.resolve_left (by decide), hsame.mem_eq rfl,
        hsame.parts_eq rfl, hsame.cores_eq rfl⟩
    · rw [if_neg (by rw [hheld]; exact Bool.false_ne_true)] at hexec
      unfold State.scanEnd at hexec
      rw [hread] at hexec
      have hset := setRun_effect (readErrors_same s r.readExtents ecc) hr
      cases hfirst : firstNonfinite r.chk.entry.collOp (s.contribution r).1 0 (s.contribution r).1.length with
      | none =>
        rw [hfirst] at hexec
        obtain ⟨hself, hrest⟩ := hset { r with scan := 2, flags := r.flags ||| (s.contribution r).2 }
        exact ⟨_, _, hexec, hself, rfl, hrest⟩
      | some e =>
        rw [hfirst] at hexec
        obtain ⟨hself, hrest⟩ := hset { r with scan := 3, nfElem := e, flags := r.flags ||| (s.contribution r).2 }
        exact ⟨_, _, hexec, hself, rfl, hrest⟩
  · rw [exec_quarantineScan hr hi, if_pos (by rw [hen, hwait]; rfl)]
  · rw [exec_collectiveDeadline hr hi hq hcount, if_pos hlt]
  · have hsame := recallSource_same s r
    have hcoll : (s.recallSource r).coll = s.coll := hsame.coll.resolve_left (by decide)
    have hset := List.getElem?_set_self (a := { r with judged := some (true, false) })
      (List.getElem?_eq_some_iff.1 hr).1
    have hstart : s.startRun i r true (!true && !r.miss) ecc
        = (s.recallSource r).setRun i { r with judged := some (true, false) } := if_pos (by rw [hheld]; rfl)
    have hexec := exec_collectiveDeadline (ecc := ecc) hr hi hq hcount
    rw [if_neg (Nat.not_lt_of_le hle), hok, hstart] at hexec
    have hbegun : r.begun = false := by
      obtain ⟨hlen, hget, -⟩ := List.findIdx?_eq_some_iff_getElem.1 hi
      rw [(List.getElem?_eq_some_iff.1 hr).2] at hget
      simp only [Bool.and_eq_true, Bool.not_eq_true'] at hget
      exact hget.1.2
    have hrun : ((s.recallSource r).setRun i { r with judged := some (true, false) }).coll.runs[i]?
        = some { r with judged := some (true, false) } := by
      rw [← hcoll] at hset
      exact hset
    rw [workRun_unbegun hrun hbegun] at hexec
    exact ⟨_, hexec, hrun, (congrArg Coll.lateExclusions hcoll :), hsame.mem_eq rfl, hsame.parts_eq rfl⟩
  · have hexec := exec_collectiveDeadline (ecc := ecc) hr hi hq hcount
    have hstart : s.startRun i r (s.runReady r) (!s.runReady r && !r.miss) ecc = s.beginRun i { r with judged := none }
        (s.runReady r) (!s.runReady r && !r.miss)
          (if r.strict then 0 else ((s.runEntry r).map (·.flits)).getD 0) ecc := by
      refine if_neg ?_
      obtain h | h := hno <;> rw [h]
      · exact Bool.false_ne_true
      · rw [Bool.and_false]
        exact Bool.false_ne_true
    have hbegin := State.HasRun.beginRun (s := s) (i := i) ⟨rfl, (List.getElem?_eq_some_iff.1 hr).1⟩
      (r := { r with judged := none }) hacc hquiet hright (s.runReady r) (!s.runReady r && !r.miss)
      (if r.strict then 0 else ((s.runEntry r).map (·.flits)).getD 0)
    rw [← hstart] at hbegin
    obtain ⟨hn, x, hx, hfresh⟩ := hbegin.workRun
    rw [if_neg (Nat.not_lt_of_le hle)] at hexec
    refine ⟨_, x, hexec, hx, hfresh.begun, hfresh.late, hn.trans ?_⟩
    cases s.runReady r
    · cases r.miss
      · rfl
      · exact (BitVec.add_zero _).symm
    · exact (BitVec.add_zero _).symm

end Sys2Proof.Machine
end


section
/-! SUPPORT. Proofs/Bells.lean: doorbells, interrupts and host queues (O53). -/

namespace Sys2Proof.Machine

/-! ### Interrupts -/

/-- Vector v of port k. -/
def State.vec (s : State) (k v : Nat) : IVec := Sparse.get IVec.reset (s.hport k).vecs v

/-- From s to t the host queues are the same, and the vectors in what they select and what is pending on them. -/
structure SameSignals (s t : State) : Prop where
  queues : ∀ k, (t.hport k).queues = (s.hport k).queues
  causes : ∀ k v, (t.vec k v).causes = (s.vec k v).causes
  pending : ∀ k v, (t.vec k v).pending = (s.vec k v).pending

theorem SameSignals.refl (s : State) : SameSignals s s := ⟨fun _ => rfl, fun _ _ => rfl, fun _ _ => rfl⟩

theorem SameSignals.trans {s t u : State} (h : SameSignals s t) (g : SameSignals t u) : SameSignals s u :=
  ⟨fun k => (g.queues k).trans (h.queues k), fun k v => (g.causes k v).trans (h.causes k v),
    fun k v => (g.pending k v).trans (h.pending k v)⟩

/-- A change of one vector that keeps what it selects and what is pending on it. -/
theorem SameSignals.updVec {s : State} {k v : Nat} {x : IVec} (f : HostPort → HostPort)
    (hv : (f (s.hport k)).vecs = Sparse.put (s.hport k).vecs v x) (hc : x.causes = (s.vec k v).causes)
    (hp : x.pending = (s.vec k v).pending) (hq : (f (s.hport k)).queues = (s.hport k).queues) :
      SameSignals s (s.updHport k f) := by
  have hvec : ∀ j w, (s.updHport k f).vec j w = if k = j ∧ v = w then x else s.vec j w := by
    intro j w
    unfold State.vec
    rw [State.hport_updHport]
    by_cases hj : k = j
    · subst hj
      rw [if_pos rfl, hv, Sparse.get_put]
      by_cases hw : v = w
      · rw [if_pos hw, if_pos ⟨rfl, hw⟩]
      · rw [if_neg hw, if_neg fun h => hw h.2]
    · rw [if_neg hj, if_neg fun h => hj h.1]
  refine ⟨fun j => ?_, fun j w => ?_, fun j w => ?_⟩
  · rw [State.hport_updHport]
    split
    · next hj => rw [hq, hj]
    · rfl
  · rw [hvec]
    split
    · next h => rw [hc, h.1, h.2]
    · rfl
  · rw [hvec]
    split
    · next h => rw [hp, h.1, h.2]
    · rfl

/-- A change of a port that keeps its queues and its vectors. -/
theorem SameSignals.updPort {s : State} {k : Nat} (f : HostPort → HostPort) (hv : (f (s.hport k)).vecs =
    (s.hport k).vecs)
    (hq : (f (s.hport k)).queues = (s.hport k).queues) : SameSignals s (s.updHport k f) := by
  have hvec : ∀ j w, (s.updHport k f).vec j w = s.vec j w := by
    intro j w
    unfold State.vec
    rw [State.hport_updHport]
    split
    · next hj => rw [hv, hj]
    · rfl
  refine ⟨fun j => ?_, fun j w => by rw [hvec], fun j w => by rw [hvec]⟩
  rw [State.hport_updHport]
  split
  · next hj => rw [hq, hj]
  · rfl

theorem hostRequest_signals (s : State) (k : Nat) (isRead : Bool) (addr len : Nat) (payload : List Byte)
    (core : Option Nat) : SameSignals s (s.hostRequest k isRead addr len payload core) := by
  unfold State.hostRequest
  split
  · exact .refl s
  · next tag _ =>
    have h := SameSignals.updPort (s := s) (k := k) (fun h => { h with
      nextTag := tag + 1,
      requests := h.requests ++
        [{ tag := tag.toNat, isRead := isRead, addr := addr, len := len, core := core }] }) rfl rfl
    exact ⟨h.queues, h.causes, h.pending⟩

theorem sendInterrupt_signals (s : State) (k v : Nat) : SameSignals s (s.sendInterrupt k v) := by
  unfold State.sendInterrupt
  dsimp only
  split
  · exact .refl s
  · split
    · exact .updVec _ rfl rfl rfl rfl
    · refine .trans ?_ (hostRequest_signals ..)
      exact .updVec _ rfl rfl rfl rfl

/-- A cause raised on a vector becomes pending there, and nowhere else. -/
theorem raiseOn_effect (s : State) (k v cause : Nat) : (∀ j, ((s.raiseOn k v cause).hport j).queues =
    (s.hport j).queues) ∧
    (∀ j w, ((s.raiseOn k v cause).vec j w).causes = (s.vec j w).causes) ∧
    ∀ j w, ((s.raiseOn k v cause).vec j w).pending =
      if j = k ∧ w = v then (s.vec j w).pending ||| (1 : Word) <<< cause else (s.vec j w).pending := by
  generalize hx : ({ s.vec k v with
    pending := (s.vec k v).pending ||| (1 : Word) <<< cause,
    fresh := (s.vec k v).fresh ||| (1 : Word) <<< cause } : IVec) = x
  generalize hu : s.updHport k (fun h => { h with vecs := Sparse.put h.vecs v x }) = u
  have hraise : SameSignals u (s.raiseOn k v cause) := by
    rw [← hu, ← hx]
    unfold State.raiseOn
    dsimp only
    split
    · exact iteInduction (motive := SameSignals _) (fun _ => .refl _) fun _ => sendInterrupt_signals ..
    · exact iteInduction (motive := SameSignals _) (fun _ => .refl _) fun _ => sendInterrupt_signals ..
  have hvec : ∀ j w, u.vec j w = if j = k ∧ w = v then x else s.vec j w := by
    intro j w
    rw [← hu]
    unfold State.vec
    rw [State.hport_updHport]
    by_cases hj : k = j
    · subst hj
      rw [if_pos rfl, Sparse.get_put]
      by_cases hw : v = w
      · rw [if_pos hw, if_pos ⟨rfl, hw.symm⟩]
      · rw [if_neg hw, if_neg fun h => hw h.2.symm]
    · rw [if_neg hj, if_neg fun h => hj h.1.symm]
  refine ⟨fun j => (hraise.queues j).trans ?_, fun j w => (hraise.causes j w).trans ?_,
    fun j w => (hraise.pending j w).trans ?_⟩
  · rw [← hu, State.hport_updHport]
    split
    · next hj => rw [← hj]
    · rfl
  · rw [hvec]
    split
    · next h => rw [← hx, h.1, h.2]
    · rfl
  · rw [hvec]
    split
    · next h => rw [← hx, h.1, h.2]
    · rfl

/-- From s to t a cause of a partition is raised on the vectors of port k in a list. -/
structure Raised (k p cause : Nat) (l : List Nat) (s t : State) : Prop where
  queues : ∀ j, (t.hport j).queues = (s.hport j).queues
  causes : ∀ j w, (t.vec j w).causes = (s.vec j w).causes
  pending : ∀ j w, (t.vec j w).pending =
    if j = k ∧ w ∈ l ∧ (bit (s.vec j w).causes (16 + p) && bit (s.vec j w).causes cause) = true
    then (s.vec j w).pending ||| (1 : Word) <<< cause else (s.vec j w).pending

theorem Raised.nothing (k p cause : Nat) (s : State) : Raised k p cause [] s s :=
  ⟨fun _ => rfl, fun _ _ => rfl, fun _ _ => (if_neg fun h => nomatch h.2.1).symm⟩

theorem Raised.append {k p cause : Nat} {l m : List Nat} {s t u : State} (h : Raised k p cause l s t)
    (g : Raised k p cause m t u) : Raised k p cause (l ++ m) s u := by
  refine ⟨fun j => (g.queues j).trans (h.queues j), fun j w => (g.causes j w).trans (h.causes j w), fun j w => ?_⟩
  rw [g.pending, h.causes, h.pending]
  by_cases hsel : j = k ∧ (bit (s.vec j w).causes (16 + p) && bit (s.vec j w).causes cause) = true
  · obtain ⟨hj, hbits⟩ := hsel
    by_cases hm : w ∈ m
    · rw [if_pos ⟨hj, hm, hbits⟩]
      refine Eq.trans ?_ (if_pos ⟨hj, List.mem_append_right l hm, hbits⟩).symm
      split
      · rw [BitVec.or_assoc, BitVec.or_self]
      · rfl
    · rw [if_neg fun h => hm h.2.1, if_congr (and_congr_right fun _ => and_congr_left fun _ =>
        (List.mem_append.trans (or_iff_left hm)).symm) rfl rfl]
  · rw [if_neg fun h => hsel ⟨h.1, h.2.2⟩, if_neg fun h => hsel ⟨h.1, h.2.2⟩, if_neg fun h => hsel ⟨h.1, h.2.2⟩]

/-- A cause on one vector, where that selects it. -/
def State.raiseIf (k p cause : Nat) (s : State) (v : Nat) : State :=
  if bit (s.vec k v).causes (16 + p) && bit (s.vec k v).causes cause then s.raiseOn k v cause else s

theorem raiseIf_raised (k p cause : Nat) (s : State) (v : Nat) : Raised k p cause [v] s (s.raiseIf k p cause v) := by
  unfold State.raiseIf
  split
  · next hbits =>
    obtain ⟨hq, hc, hp⟩ := raiseOn_effect s k v cause
    refine ⟨hq, hc, fun j w => (hp j w).trans (if_congr (and_congr_right fun hj => ?_) rfl rfl)⟩
    rw [List.mem_singleton]
    exact ⟨fun hw => ⟨hw, by rw [hj, hw]; exact hbits⟩, fun h => h.1⟩
  · next hbits =>
    refine ⟨fun _ => rfl, fun _ _ => rfl, fun j w => (if_neg ?_).symm⟩
    rintro ⟨hj, hw, h⟩
    rw [hj, List.mem_singleton.1 hw] at h
    exact hbits h

theorem raiseVecs_raised (k p cause : Nat) (l : List Nat) (s : State) :
    Raised k p cause l s (l.foldl (State.raiseIf k p cause) s) := by
  induction l generalizing s with
  | nil => exact .nothing k p cause s
  | cons v l ih => exact (raiseIf_raised k p cause s v).append (ih _)

/-- A vector that the table of a port does not list selects nothing. -/
theorem find_unlisted {α : Type} {m : Sparse α} {v : Nat} (h : v ∉ m.map (·.1)) : Sparse.find m v = none := by
  induction m with
  | nil => rfl
  | cons x m ih =>
    rw [List.map_cons, List.mem_cons, not_or] at h
    exact (if_neg (Ne.symm h.1)).trans (ih h.2)

theorem selected_listed {s : State} {k v n : Nat} (h : bit (s.vec k v).causes n = true) :
    v ∈ (s.hport k).vecs.map (·.1) := by
  by_contra hv
  have hreset : s.vec k v = IVec.reset := by
    unfold State.vec Sparse.get
    rw [find_unlisted hv]
    rfl
  rw [hreset] at h
  exact absurd h (by simp [bit, IVec.reset])

/-- A cause of a partition on the vectors of one port. -/
def State.raisePort (p cause : Nat) (s : State) (k : Nat) : State :=
  if s.boundTo p k then ((s.hport k).vecs.map (·.1)).foldl (State.raiseIf k p cause) s else s

theorem raiseCause_ports (s : State) (p cause : Nat) :
    s.raiseCause p cause = ([0, 1].foldl (State.raisePort p cause) s) := rfl

/-- A partition is bound to one port: on it the cause is raised, on the other nothing. -/
theorem raiseCause_raised {s : State} {p k : Nat} (hk : k < 2) (hb : s.boundTo p k = true) (cause : Nat) :
    Raised k p cause ((s.hport k).vecs.map (·.1)) s (s.raiseCause p cause) := by
  have hother : ∀ j, j ≠ k → ∀ t : State, t.parts = s.parts → t.raisePort p cause j = t := by
    refine fun j hj t ht => if_neg fun h => hj ?_
    obtain ⟨-, hk⟩ := Bool.and_eq_true_iff.1 hb
    unfold State.boundTo State.part at h
    rw [ht] at h
    obtain ⟨-, h⟩ := Bool.and_eq_true_iff.1 h
    exact (of_decide_eq_true h).symm.trans (of_decide_eq_true hk)
  have hmine : s.raisePort p cause k = ((s.hport k).vecs.map (·.1)).foldl (State.raiseIf k p cause) s := if_pos hb
  have hraised := raiseVecs_raised k p cause ((s.hport k).vecs.map (·.1)) s
  rw [raiseCause_ports, List.foldl_cons, List.foldl_cons, List.foldl_nil]
  obtain rfl | rfl : k = 0 ∨ k = 1 := by omega
  · have hparts : (((s.hport 0).vecs.map (·.1)).foldl (State.raiseIf 0 p cause) s).parts = s.parts :=
      (kept_foldl (m := 0x208000) _ _ _ (fun t v h => kept_ite _ _ _ (State.raiseOn_keeps rfl t 0 v cause h) h)
        (.refl s)).parts_eq rfl
    rw [hmine, hother 1 (by decide) _ hparts]
    exact hraised
  · rw [hother 0 (by decide) s rfl, hmine]
    exact hraised

/-- What a cause leaves on the vectors of a port of the partition. -/
theorem raiseCause_effect {s : State} {p k : Nat} (hk : k < 2) (hb : s.boundTo p k = true) (cause v : Nat) :
    ((s.raiseCause p cause).vec k v).causes = (s.vec k v).causes ∧ ((s.raiseCause p cause).vec k v).pending =
      if (bit (s.vec k v).causes (16 + p) && bit (s.vec k v).causes cause) = true
      then (s.vec k v).pending ||| (1 : Word) <<< cause else (s.vec k v).pending := by
  obtain ⟨-, hcauses, hpending⟩ := raiseCause_raised hk hb cause
  refine ⟨hcauses k v, (hpending k v).trans (if_congr ⟨fun h => h.2.2, fun h => ⟨rfl, ?_, h⟩⟩ rfl rfl)⟩
  exact selected_listed (Bool.and_eq_true_iff.1 h).1

/-- No queue changes where a cause is raised. -/
theorem raiseCause_queues (s : State) (p cause k : Nat) :
    ((s.raiseCause p cause).hport k).queues = (s.hport k).queues := by
  rw [raiseCause_ports]
  refine foldl_same (fun t : State => (t.hport k).queues) _ (fun t j => ?_) _ s
  unfold State.raisePort
  split
  · exact (raiseVecs_raised j p cause _ t).queues k
  · rfl

/-! ### The end of a coalescing period -/

theorem hport_updHport_self (s : State) (k : Nat) (f : HostPort → HostPort) : (s.updHport k f).hport k = f
    (s.hport k) :=
  (State.hport_updHport s k k f).trans (if_pos rfl)

theorem vec_send (s : State) (o : Out) (k v : Nat) : (s.send o).vec k v = s.vec k v := rfl

/-- An interrupt leaves under a fresh tag, and its period begins. -/
theorem sendInterrupt_sends {s : State} {k v : Nat} {tag : BitVec 12} (hst : (s.hport k).state = 3)
    (htag : (s.hport k).freshTag = some tag) : (s.sendInterrupt k v).out = s.out ++
      [.host k (hostPacket 0xB 4 tag.toNat 0
      ((s.vec k v).addr.toNat % 2 ^ 46) (leBytes 4 (s.vec k v).data.toNat))] ∧
    ((s.sendInterrupt k v).vec k v).sentAt = some s.power.ticks := by
  unfold State.sendInterrupt
  dsimp only
  rw [if_neg fun h => h hst, if_neg (by rw [htag]; exact fun h => nomatch h)]
  generalize hx : ({ Sparse.get IVec.reset (s.hport k).vecs v with
    sentAt := some s.power.ticks, fresh := 0, owed := false } : IVec) = x
  generalize hu : s.updHport k (fun h => { h with vecs := Sparse.put h.vecs v x }) = u
  have hport : u.hport k = { s.hport k with vecs := Sparse.put (s.hport k).vecs v x } := by
    rw [← hu]
    exact hport_updHport_self ..
  have htag' : (u.hport k).freshTag = some tag := by
    rw [hport]
    exact htag
  have hout : u.out = s.out := by
    rw [← hu]
    rfl
  unfold State.hostRequest
  rw [htag']
  dsimp only
  refine ⟨congrArg (· ++ _) hout, ?_⟩
  rw [vec_send]
  unfold State.vec
  rw [hport_updHport_self, hport]
  show (Sparse.get IVec.reset (Sparse.put (s.hport k).vecs v x) v).sentAt = _
  rw [Sparse.get_put, if_pos rfl, ← hx]

/-- Without a tag it waits for one. -/
theorem sendInterrupt_owed {s : State} {k v : Nat} (hst : (s.hport k).state = 3) (htag : (s.hport k).freshTag = none) :
    (s.sendInterrupt k v).out = s.out ∧ ((s.sendInterrupt k v).vec k v).owed = true := by
  unfold State.sendInterrupt
  dsimp only
  rw [if_neg fun h => h hst, if_pos htag]
  refine ⟨rfl, ?_⟩
  unfold State.vec
  rw [hport_updHport_self, Sparse.get_put, if_pos rfl]

section
variable {s : State} {k v : Nat} {at_ : Nat} (hsent : (s.vec k v).sentAt = some at_)
include hsent

theorem coalesceEnd_early (h : s.power.ticks < at_ + (s.vec k v).coalesce.toNat) : s.coalesceEnd k v = s := by
  unfold State.vec at hsent h
  unfold State.coalesceEnd
  dsimp only
  rw [hsent]
  exact if_pos h

theorem coalesceEnd_pending (h : at_ + (s.vec k v).coalesce.toNat ≤ s.power.ticks)
    (hp : (s.vec k v).fresh &&& (s.vec k v).pending ≠ 0) : s.coalesceEnd k v = s.sendInterrupt k v := by
  unfold State.vec at hsent h hp
  unfold State.coalesceEnd
  dsimp only
  rw [hsent]
  exact (if_neg (Nat.not_lt_of_le h)).trans (if_pos hp)

theorem coalesceEnd_quiet (h : at_ + (s.vec k v).coalesce.toNat ≤ s.power.ticks)
    (hp : (s.vec k v).fresh &&& (s.vec k v).pending = 0) : (s.coalesceEnd k v).out = s.out ∧
      ((s.coalesceEnd k v).vec k v).sentAt = none := by
  unfold State.vec at hsent h hp
  unfold State.coalesceEnd
  dsimp only
  rw [hsent]
  dsimp only
  rw [if_neg (Nat.not_lt_of_le h), if_neg fun hne => hne hp]
  refine ⟨rfl, ?_⟩
  unfold State.vec
  rw [hport_updHport_self, Sparse.get_set, if_pos rfl]

end

/-! ### Host queues -/

theorem hqueue_updQueue (s : State) (k q j : Nat) (f : HQueue → HQueue) :
    (s.updQueue k q f).hqueue k j = if q = j then f (s.hqueue k q) else s.hqueue k j := by
  unfold State.hqueue State.updQueue
  rw [hport_updHport_self, Sparse.get_put]

/-- What a commit that passes makes of a queue. -/
def HQueue.committed (x : HQueue) : HQueue :=
  { x with base := ⟨x.base.sh, x.base.sh⟩, size := ⟨x.size.sh, x.size.sh⟩, bind := ⟨x.bind.sh, x.bind.sh⟩,
           commitStatus := stDONE, state := if fld x.size.sh 0 5 = 0 then 0 else if x.state = 0 then 1 else x.state }

theorem commitQueue_passes {s : State} {k q : Nat} (hreach : s.queueReached k q = true)
    (hst : s.queueStatus k (s.hqueue k q) = stDONE) : ∃ tally, s.commitQueue k q =
      s.updQueue k q fun _ => (s.hqueue k q).committed.empty tally := by
  refine ⟨s.tallyOf (s.hqueue k q).committed.core (s.hqueue k q).committed.releaseTally, ?_⟩
  unfold State.commitQueue
  dsimp only
  rw [hreach, if_neg (by decide), hst, if_neg fun h => h rfl]
  rfl

theorem commitQueue_fails {s : State} {k q : Nat} (hreach : s.queueReached k q = true)
    (hst : s.queueStatus k (s.hqueue k q) ≠ stDONE) : s.commitQueue k q = s.updQueue k q fun x =>
      { x with commitStatus := s.queueStatus k (s.hqueue k q) } := by
  unfold State.commitQueue
  dsimp only
  rw [hreach, if_neg (by decide), if_pos hst]

theorem flush_state (x : HQueue) :
    x.flush.state = (if x.state = 2 ∨ x.state = 3 then 1 else x.state) ∧ x.flush.counts = [] ∧ x.flush.slots = [] ∧
      x.flush.items = x.items := by
  unfold HQueue.flush
  dsimp only
  split
  · next h => exact ⟨(if_pos h).symm, rfl, rfl, rfl⟩
  · next h => exact ⟨(if_neg h).symm, rfl, rfl, rfl⟩

/-- A queue that has been idle too long is stranded. -/
theorem strandQueue_strands {s : State} {k q : Nat} (hst : (s.hqueue k q).state = 1) (hc : (s.hqueue k q).counts ≠ [])
    (hle : (s.hqueue k q).lastWr + s.host.hqIdle.toNat ≤ s.power.ticks) :
    (s.strandQueue k q).hqueue k q = { (s.hqueue k q).discard with state := 3, lastStatus := stTAIL } := by
  have hrun : s.strandQueue k q = (s.updQueue k q fun x =>
    { x.discard with state := 3, lastStatus := stTAIL }).raiseCause
      (s.hqueue k q).part 4 := if_pos ⟨hst, by rwa [Bool.not_eq_true', List.isEmpty_eq_false_iff], hle⟩
  rw [hrun, State.hqueue, raiseCause_queues]
  exact (hqueue_updQueue s k q q _).trans (if_pos rfl)

/-! ### Doorbells -/

theorem ring_adds {s : State} {k n : Nat} {v b : Word} (hb : b = Sparse.get 0 (s.hport k).dbBind n)
    (hbit : bit b 31 = true) (hok : s.bindOk k b = true) (hopen : s.coreOpen (bindCore b) = true) (hv : fld v 0 8 ≠ 0) :
    s.ring k n v = s.addTally (bindCore b) (bindTally b) (BitVec.ofNat 32 (fld v 0 8)) := by
  subst hb
  refine if_neg ?_
  rw [hbit, hok, hopen]
  rintro (h | h | h | h)
  · exact hv h
  · exact absurd h (by decide)
  · exact absurd h (by decide)
  · exact absurd h (by decide)

/-- The bit of a cause, as a number and as a word. -/
theorem causeBit (c : Nat) : ((1 <<< c : Nat) : Word) = (1 : Word) <<< c := by
  apply BitVec.eq_of_toNat_eq
  simp

/-- Settles O53: each write and each timer by its own equation; a cause by what it leaves on the vectors of its port. -/
theorem doorbellsInterruptsAndQueues : Obligations.DoorbellsInterruptsAndQueues := by
  intro k s
  refine ⟨fun n v => ⟨fun b hb hbit hok hopen hv => ?_, fun hbit => ?_, fun hok => ?_, fun hok => ?_⟩, fun p c hb => ?_,
    fun v x at_ hx hsent => ?_, fun q hreach => ⟨fun hst => ?_, fun hst => ?_, fun hst => ?_, fun hst => ?_⟩,
    fun q hreach => ?_, fun q hst hc => ⟨fun hle => ?_, fun hlt => ?_⟩⟩
  · have hrun := ring_adds hb hbit hok hopen hv
    refine ⟨_, congrArg Host.Outcome.next hrun,
      (State.addTally_keeps (fp := 0x84C0) rfl s _ _ _ (.refl s)).mem_eq rfl, ?_, fun c m hne => ?_⟩
    · rw [addTally_tallyOf, if_pos ⟨rfl, rfl⟩]
    · rw [addTally_tallyOf, if_neg fun h => hne (Prod.ext h.1 h.2)]
  · exact congrArg Host.Outcome.next (if_pos (.inr (.inl (by rw [hbit]; rfl))))
  · refine ⟨_, congrArg Host.Outcome.next (if_pos hok), ?_, rfl, rfl, rfl⟩
    rw [hport_updHport_self, Sparse.get_set, if_pos rfl]
  · exact congrArg Host.Outcome.next (if_neg (by rw [hok]; exact Bool.false_ne_true))
  · have hsame : Same 0x208000 s (s.raiseCause p c) := State.raiseCause_keeps rfl s p c (.refl s)
    refine ⟨_, rfl, hsame.parts_eq rfl, hsame.cores_eq rfl, hsame.mem_eq rfl, fun v x y hx hy => ?_⟩
    subst hx hy
    obtain ⟨hcauses, hpending⟩ := raiseCause_effect k.isLt hb c.val v
    exact ⟨hcauses, hpending.trans (by rw [causeBit]; rfl)⟩
  · subst hx
    refine ⟨fun hlt => congrArg Host.Outcome.next (coalesceEnd_early hsent hlt),
      fun hle hp => ⟨_, rfl, coalesceEnd_quiet hsent hle hp⟩, fun tag hle hp h3 htag => ?_, fun hle hp h3 htag => ?_⟩
    · exact ⟨_, congrArg Host.Outcome.next (coalesceEnd_pending hsent hle hp), sendInterrupt_sends h3 htag⟩
    · exact ⟨_, congrArg Host.Outcome.next (coalesceEnd_pending hsent hle hp), sendInterrupt_owed h3 htag⟩
  · obtain ⟨tally, hrun⟩ := commitQueue_passes hreach hst
    refine ⟨_, congrArg Host.Outcome.next hrun, ?_⟩
    rw [hqueue_updQueue, if_pos rfl]
    exact ⟨rfl, rfl, rfl, rfl, rfl, rfl, rfl, rfl, rfl, rfl,
      fun j hj => (hqueue_updQueue ..).trans (if_neg (Ne.symm hj)), rfl, rfl⟩
  · exact congrArg Host.Outcome.next (commitQueue_fails hreach hst)
  · refine ⟨_, congrArg Host.Outcome.next (if_pos ⟨hreach, hst⟩), ?_⟩
    obtain ⟨hstate, hcounts, hslots, hitems⟩ := flush_state (s.hqueue k q)
    rw [hqueue_updQueue, if_pos rfl]
    exact ⟨hcounts, hslots, hitems, hstate, rfl, rfl⟩
  · exact congrArg Host.Outcome.next (if_neg fun h => h.2 hst)
  · exact ⟨congrArg Host.Outcome.next (if_pos (by rw [hreach]; rfl)),
      congrArg Host.Outcome.next (if_neg fun h => Bool.false_ne_true (hreach.symm.trans h.1))⟩
  · have hsame : Same 0x208000 s (s.strandQueue k q) := State.strandQueue_keeps rfl s k q (.refl s)
    have hq := strandQueue_strands hst hc hle
    refine ⟨_, rfl, ?_⟩
    rw [hq]
    exact ⟨rfl, rfl, rfl, hsame.mem_eq rfl, hsame.parts_eq rfl⟩
  · exact congrArg Host.Outcome.next (if_neg fun h => Nat.not_le_of_lt hlt h.2.2)

end Sys2Proof.Machine
end


section
/-! SUPPORT. Proofs/Lines.lean: coherent lines and answers of a host (O52). -/

namespace Sys2Proof.Machine

/-! ### Arrival -/

/-- A packet of its kind with a good check acts on a port in service. -/
theorem guarded_hostArrival {s : State} {k : Nat} {p : HPkt} {n : Nat} (h3 : (s.hport k).state = 3)
    (hkind : p.isKind n = true)
    (hcheck : p.check = p.crc) (hD : p.kind ≠ 0xD) (hE : p.kind ≠ 0xE) (act : State → State) :
    guarded (p.isKind n) (s.hostArrival k p act) = .next (act s) := by
  have hgood : ¬(p.check ≠ p.crc ∨ p.kind = 0xD ∨ p.kind = 0xE) := by
    rintro (h | h | h)
    · exact h hcheck
    · exact hD h
    · exact hE h
  unfold guarded State.hostArrival
  rw [if_pos hkind, if_neg fun h => h h3, if_neg hgood]

/-! ### What waits and what is owed -/

/-- From s to t no host port has changed in its lines or in what waits for them. -/
structure SameLines (s t : State) : Prop where
  directory : ∀ j, (t.hport j).directory = (s.hport j).directory
  waiting : ∀ j, (t.hport j).waiting = (s.hport j).waiting

theorem SameLines.refl (s : State) : SameLines s s := ⟨fun _ => rfl, fun _ => rfl⟩

theorem SameLines.trans {s t u : State} (h : SameLines s t) (g : SameLines t u) : SameLines s u :=
  ⟨fun j => (g.directory j).trans (h.directory j), fun j => (g.waiting j).trans (h.waiting j)⟩

theorem SameLines.updHport {s : State} {k : Nat} (f : HostPort → HostPort)
    (hd : (f (s.hport k)).directory = (s.hport k).directory) (hw : (f (s.hport k)).waiting = (s.hport k).waiting) :
    SameLines s (s.updHport k f) := by
  constructor <;> intro j <;> rw [State.hport_updHport] <;> split
  · next hj => rw [hd, hj]
  · rfl
  · next hj => rw [hw, hj]
  · rfl

theorem SameLines.foldl {α : Type} {f : State → α → State} (hf : ∀ s a, SameLines s (f s a)) (l : List α) (s : State) :
    SameLines s (l.foldl f s) := by
  induction l generalizing s with
  | nil => exact .refl s
  | cons a l ih => exact (hf s a).trans (ih _)

theorem recallLine_lines (s : State) (k line : Nat) : SameLines s (s.recallLine k line) := by
  unfold State.recallLine
  dsimp only
  split
  · exact .refl s
  · split
    · exact .updHport _ rfl rfl
    · next tag _ =>
      have h := SameLines.updHport (s := s) (k := k)
        (fun h => { h with recalled := h.recalled ++ [(line, tag.toNat)], nextTag := tag + 1 }) rfl rfl
      exact ⟨h.directory, h.waiting⟩

theorem hostRequest_lines (s : State) (k : Nat) (isRead : Bool) (addr len : Nat) (payload : List Byte)
    (core : Option Nat) : SameLines s (s.hostRequest k isRead addr len payload core) := by
  unfold State.hostRequest
  split
  · exact .refl s
  · next tag _ =>
    have h := SameLines.updHport (s := s) (k := k) (fun h => { h with
      nextTag := tag + 1,
      requests := h.requests ++
        [{ tag := tag.toNat, isRead := isRead, addr := addr, len := len, core := core }] }) rfl rfl
    exact ⟨h.directory, h.waiting⟩

theorem sendInterrupt_lines (s : State) (k v : Nat) : SameLines s (s.sendInterrupt k v) := by
  unfold State.sendInterrupt
  dsimp only
  split
  · exact .refl s
  · split
    · exact .updHport _ rfl rfl
    · refine .trans ?_ (hostRequest_lines ..)
      exact .updHport _ rfl rfl

theorem sendOwed_lines (s : State) (k : Nat) : SameLines s (s.sendOwed k) := by
  unfold State.sendOwed
  dsimp only
  refine .trans ?_ (.foldl (fun t v => sendInterrupt_lines t k v) _ _)
  refine .trans ?_ (.foldl (fun t l => recallLine_lines t k l) _ _)
  exact .updHport _ rfl rfl

/-- Where nothing waits for a line, nothing goes on. -/
theorem resumeReads_idle {s : State} (h : s.NoneWaits) : s.resumeReads = s := by
  obtain ⟨hparts, hruns⟩ := h
  unfold State.resumeReads
  refine (congrArg State.resumeRuns (a₂ := s) ?_).trans ?_
  · induction List.range 16 with
    | nil => rfl
    | cons p l ih =>
      rw [List.foldl_cons, (hparts p).2]
      exact ih
  · unfold State.resumeRuns
    induction List.range s.coll.runs.length with
    | nil => rfl
    | cons i l ih =>
      rw [List.foldl_cons]
      cases hr : s.coll.runs[i]? with
      | none => exact ih
      | some r =>
        dsimp only
        rw [hruns r (List.mem_of_getElem? hr)]
        exact ih

theorem settleApertures_idle {s : State} (h : s.NoneWaits) : s.settleApertures = s := by
  unfold State.settleApertures
  induction List.range 16 with
  | nil => rfl
  | cons p l ih =>
    have hp : s.settleAperture p = s := by
      unfold State.settleAperture
      rw [(h.1 p).1]
    rw [List.foldl_cons, hp]
    exact ih

theorem State.NoneWaits.congr {s t : State} (h : s.NoneWaits) (hparts : t.parts = s.parts) (hcoll : t.coll = s.coll) :
    t.NoneWaits := by
  obtain ⟨hp, hr⟩ := h
  refine ⟨fun p => ?_, by rw [hcoll]; exact hr⟩
  rw [show t.part p = s.part p by unfold State.part; rw [hparts]]
  exact hp p

/-- A port that owes nothing sends nothing. -/
theorem sendOwed_idle {s : State} {k : Nat} (h : (s.hport k).OwesNothing) :
    s.sendOwed k = s.updHport k fun h => { h with owed := [] } := by
  obtain ⟨howed, hvecs⟩ := h
  unfold State.sendOwed
  dsimp only
  rw [howed, List.filter_eq_nil_iff.2 fun x hx => by rw [hvecs x hx]; exact Bool.false_ne_true]
  rfl

/-- Movers with no request to send send none. -/
theorem pumpHost_idle {s : State} (h : ∀ c m, (s.core c).mover = some m → m.hostTodo = []) (k : Nat) :
    s.pumpHost k = s := by
  unfold State.pumpHost
  induction s.cores.map (·.1) with
  | nil => rfl
  | cons c l ih =>
    rw [List.foldl_cons]
    split
    · next m p hm hp =>
      rw [h c m hm]
      split
      · exact ih
      · exact ih
    · exact ih

/-! ### Grants and writebacks -/

/-- What a run of bytes leaves in memory. -/
theorem memRead_memPut_run (m : Mem) (a : Nat) (bs : List Byte) (b : Nat) : memRead (memPut m a bs) b =
    if a ≤ b ∧ b < a + bs.length then bs.getD (b - a) 0 else memRead m b := by
  by_cases hin : a ≤ b ∧ b < a + bs.length
  · rw [if_pos hin, memRead_memPut, if_pos hin.1, List.getElem?_eq_getElem (by omega),
      List.getD_eq_getElem (hn := by omega)]
    rfl
  · rw [if_neg hin, memRead_memPut_outside (by omega)]


/-- A line granted: its bytes leave, and the directory records it as granted last. -/
theorem grantLine_grants {s : State} {k : Nat} {p : HPkt} {e : Ecc}
    (hunc : s.uncaching (addrLocal p.addr.toNat) = false)
    (hread : (s.readErrors [(addrLocal p.addr.toNat, 64)] e).2 = none) :
    ((s.grantLine k p e).hport k).directory = (s.hport k).directory.filter (fun x => x.1 != addrLocal p.addr.toNat / 64)
      ++ [(addrLocal p.addr.toNat / 64, p.kind == 2)] ∧
    (s.grantLine k p e).out = s.out ++
      [.host k (hostPacket 8 64 p.tag.toNat 0 0 (memBytes s.mem (addrLocal p.addr.toNat) 64))] ∧
    (s.grantLine k p e).mem = s.mem ∧ (s.grantLine k p e).parts = s.parts ∧ (s.grantLine k p e).cores = s.cores := by
  have hsame := readErrors_same s [(addrLocal p.addr.toNat, 64)] e
  generalize hu : (s.readErrors [(addrLocal p.addr.toNat, 64)] e).1 = u at hsame
  have hmem := hsame.mem_eq rfl
  have hhost : s.hostRead k p (addrLocal p.addr.toNat) 64 e =
      (u.respond k p stDONE (memBytes u.mem (addrLocal p.addr.toNat) 64), true) := by
    unfold State.hostRead
    dsimp only
    rw [hread, hu]
  have hgrant : s.grantLine k p e = (u.respond k p stDONE (memBytes u.mem (addrLocal p.addr.toNat) 64)).updHport k
      fun h => { h with directory := h.directory.filter (fun x => x.1 != addrLocal p.addr.toNat / 64)
        ++ [(addrLocal p.addr.toNat / 64, p.kind == 2)] } := by
    unfold State.grantLine
    dsimp only
    rw [hhost, if_pos rfl, if_neg (by rw [hunc]; exact Bool.false_ne_true)]
  have hlen : (memBytes u.mem (addrLocal p.addr.toNat) 64).length = 64 := by
    unfold memBytes
    rw [List.length_map, List.length_range]
  have hport : u.hport k = s.hport k :=
    congrArg (fun x : HostLink => Sparse.get HostPort.reset x.ports k) (hsame.host.resolve_left (by decide))
  rw [hgrant, hport_updHport_self]
  refine ⟨?_, ?_, hmem, hsame.parts_eq rfl, hsame.cores_eq rfl⟩
  · show (u.hport k).directory.filter _ ++ _ = _
    rw [hport]
  · show u.out ++ [.host k (hostPacket 8 _ p.tag.toNat 0 0 _)] = _
    rw [hlen, hmem, hsame.out.resolve_left (by decide)]

/-- What follows a line that has come back, where nothing waits for it: it has left the directory. -/
theorem dropLine_follows {s : State} {k l : Nat} (hwait : (s.hport k).waiting = []) (hnone : s.NoneWaits) :
    ∃ t, (((((s.updHport k fun h => h.dropLine l).sendOwed k).resumeReads).serveGrants k).settleApertures) = t ∧
      (∀ x ∈ (t.hport k).directory, x.1 ≠ l) ∧ Same 0x208000 s t := by
  generalize hv : (s.updHport k fun h => h.dropLine l) = v
  have hsv : Same 0x208000 s v := hv ▸ State.updHport_keeps rfl s k _ (.refl s)
  have hvport : v.hport k = (s.hport k).dropLine l := by
    rw [← hv]
    exact hport_updHport_self ..
  obtain ⟨hdir, hwaits⟩ := sendOwed_lines v k
  have hsw : Same 0x208000 s (v.sendOwed k) := State.sendOwed_keeps rfl v k hsv
  generalize v.sendOwed k = w at hdir hwaits hsw
  have hw := hnone.congr (hsw.parts_eq rfl) (hsw.coll.resolve_left (by decide))
  have hempty : (w.hport k).waiting = [] := by
    rw [hwaits, hvport]
    exact hwait
  have hgrants : w.serveGrants k = w.updHport k fun h => { h with waiting := [] } := by
    unfold State.serveGrants
    dsimp only
    rw [hempty]
    rfl
  rw [resumeReads_idle hw, hgrants, settleApertures_idle (s := w.updHport k _) (hw.congr rfl rfl)]
  refine ⟨_, rfl, fun x hx => ?_, State.updHport_keeps rfl w k _ hsw⟩
  rw [hport_updHport_self] at hx
  have hx' : x ∈ (w.hport k).directory := hx
  rw [hdir, hvport] at hx'
  exact bne_iff_ne.1 (List.mem_filter.1 hx').2

theorem memOpen_congr {s t : State} (hl : t.locked = s.locked) (hw : t.hw = s.hw) (a : Nat) :
    t.memOpen a = s.memOpen a := by
  unfold State.memOpen State.stackOpen State.crosses
  rw [hl, hw]

/-- What a writeback of a held line leaves, where nothing waits. -/
theorem onWb_stores {s : State} {k : Nat} {p : HPkt} {e : Ecc} (halign : addrLocal p.addr.toNat % 64 = 0)
    (hlen : p.payload.length = 0 ∨ p.payload.length = 64)
    (hheld : ((s.hport k).directory.any fun x => x.1 == addrLocal p.addr.toNat / 64) = true)
    (hwait : (s.hport k).waiting = []) (hover : (s.hport k).overlay = []) (hnone : s.NoneWaits)
    (hacc : (s.accessErrors [] [(addrLocal p.addr.toNat, p.payload.length)] e).2 = none) :
    (∀ x ∈ ((s.onWb k p e).hport k).directory, x.1 ≠ addrLocal p.addr.toNat / 64) ∧ (s.onWb k p e).parts = s.parts ∧
      (s.onWb k p e).cores = s.cores ∧ (s.onWb k p e).mem =
        if s.memOpen (addrLocal p.addr.toNat) then memPut s.mem (addrLocal p.addr.toNat) p.payload else s.mem := by
  have hsame : Same 0x8 s (s.accessErrors [] [(addrLocal p.addr.toNat, p.payload.length)] e).1 :=
    State.accessErrors_keeps rfl s _ _ e (.refl s)
  generalize hu : (s.accessErrors [] [(addrLocal p.addr.toNat, p.payload.length)] e).1 = u at hsame
  have hpar : s.hostParity (addrLocal p.addr.toNat) p.payload.length e = (u, true) := by
    unfold State.hostParity
    dsimp only
    rw [hacc, hu]
  have hgood : ¬(addrLocal p.addr.toNat % 64 ≠ 0 ∨ !(p.payload.length == 0 || p.payload.length == 64) ∨
      !((s.hport k).directory.any (fun x => x.1 == addrLocal p.addr.toNat / 64) ||
        (s.hport k).recalled.any fun x => x.1 == addrLocal p.addr.toNat / 64)) := by
    rw [hheld]
    rintro (h | h | h)
    · exact h halign
    · obtain hlen | hlen := hlen <;> rw [hlen] at h <;> exact absurd h (by decide)
    · exact Bool.false_ne_true h
  unfold State.onWb
  dsimp only
  rw [if_neg hgood, hpar, hheld, hover]
  dsimp only
  rw [List.filter_nil, List.foldl_nil, Bool.true_and, Bool.and_true]
  generalize hm : (if u.memOpen (addrLocal p.addr.toNat) = true then memPut u.mem (addrLocal p.addr.toNat) p.payload
    else u.mem) = m
  have hport : State.hport { u with mem := m } k = s.hport k :=
    congrArg (fun x : HostLink => Sparse.get HostPort.reset x.ports k) (hsame.host.resolve_left (by decide))
  obtain ⟨t, ht, hdir, hend⟩ := dropLine_follows (s := { u with mem := m }) (k := k) (l := addrLocal p.addr.toNat / 64)
    (by rw [hport]; exact hwait) (hnone.congr (hsame.parts_eq rfl) (hsame.coll.resolve_left (by decide)))
  rw [ht]
  refine ⟨hdir, (hend.parts_eq rfl).trans (hsame.parts_eq rfl), (hend.cores_eq rfl).trans (hsame.cores_eq rfl),
    (hend.mem_eq rfl).trans ?_⟩
  show m = _
  rw [← hm, hsame.mem_eq rfl, memOpen_congr (hsame.locked.resolve_left (by decide)) (hsame.hw_eq rfl)]

/-! ### Answers -/

/-- A RECALL leaves under a fresh tag. -/
theorem recallLine_sends {s : State} {k l : Nat} {tag : BitVec 12}
    (hrec : ((s.hport k).recalled.any fun x => x.1 == l) = false) (htag : (s.hport k).freshTag = some tag) :
    ((s.recallLine k l).hport k).recalled = (s.hport k).recalled ++ [(l, tag.toNat)] ∧
      (s.recallLine k l).out = s.out ++ [.host k (hostPacket 9 0 tag.toNat 0 (64 * l) [])] ∧
      (s.recallLine k l).mem = s.mem ∧ (s.recallLine k l).parts = s.parts := by
  unfold State.recallLine
  dsimp only
  rw [if_neg (by rw [hrec]; exact Bool.false_ne_true), htag]
  refine ⟨?_, rfl, rfl, rfl⟩
  exact congrArg HostPort.recalled (hport_updHport_self s k fun h => { h with
    recalled := h.recalled ++ [(l, tag.toNat)], nextTag := tag + 1 })

theorem onHAck_answers {s : State} {k : Nat} {p : HPkt} {r : HostReq}
    (hreq : (s.hport k).requestOf p.tag false = some r) :
    s.onHAck k p = (s.updHport k fun h => h.closeRequest r.tag).answerHost k r.core
      (if p.status = 0 then stDONE else stPRIVILEGE) .clean := by
  unfold State.onHAck
  rw [hreq]

/-- An answer that no mover waits for. -/
theorem answerHost_none {s : State} {k : Nat} (st : Half) (e : Ecc) (howes : (s.hport k).OwesNothing)
    (hidle : ∀ c m, (s.core c).mover = some m → m.hostTodo = []) :
    ((s.answerHost k none st e).hport k).requests = (s.hport k).requests ∧ (s.answerHost k none st e).cores = s.cores ∧
      (s.answerHost k none st e).mem = s.mem := by
  have hans : s.answerHost k none st e = s.updHport k fun h => { h with owed := [] } := by
    unfold State.answerHost
    dsimp only
    rw [sendOwed_idle howes]
    exact pumpHost_idle (s := s.updHport k _) hidle k
  rw [hans, hport_updHport_self]
  exact ⟨rfl, rfl, rfl⟩

/-- The mover of a core whose request is answered while others are outstanding. -/
theorem answerHost_counts {s : State} {k c : Nat} {m : MoverRun} (st : Half) (e : Ecc) (howes : (s.hport k).OwesNothing)
    (hidle : ∀ c m, (s.core c).mover = some m → m.hostTodo = []) (hm : (s.core c).mover = some m)
    (hlive : 2 ≤ m.hostLive) (hst : m.status = stDONE) :
    ∃ n, ((s.answerHost k (some c) st e).core c).mover = some n ∧ n.hostLive = m.hostLive - 1 ∧ n.status = st ∧
      (s.answerHost k (some c) st e).mem = s.mem := by
  generalize hu : (s.updHport k fun h => { h with owed := [] }) = u
  have hcores : u.cores = s.cores := by rw [← hu]; rfl
  have hcore : ∀ d, u.core d = s.core d := fun d => by unfold State.core; rw [hcores]
  have htodo := hidle c m hm
  obtain ⟨n, hn, hnlive, hnstatus, hntodo⟩ : ∃ n : MoverRun, (if st = stDONE then m.answered st true
      else { m.answered st true with
        hostLive := (m.answered st true).hostLive - (m.answered st true).hostTodo.length, hostTodo := [] }) = n ∧
      n.hostLive = m.hostLive - 1 ∧ n.status = st ∧ n.hostTodo = [] := by
    refine ⟨_, rfl, ?_, ?_, ?_⟩
    · split
      · rfl
      · show m.hostLive - 1 - m.hostTodo.length = _
        rw [htodo]
        rfl
    · have : (m.answered st true).status = st := if_pos hst
      split
      · exact this
      · exact this
    · split
      · exact htodo
      · rfl
  have hset : ∀ d, ((u.setMover c n).core d).mover = if c = d then some n else (s.core d).mover := by
    intro d
    unfold State.setMover
    rw [State.core_updCore]
    split
    · rfl
    · rw [hcore]
  have hpump : (u.setMover c n).pumpHost k = u.setMover c n := by
    refine pumpHost_idle (fun d x hx => ?_) k
    rw [hset] at hx
    split at hx
    · rw [← Option.some.inj hx, hntodo]
    · exact hidle d x hx
  have hself : ((u.setMover c n).core c).mover = some n := (hset c).trans (if_pos rfl)
  have hadvance : (u.setMover c n).moverAdvance c e = u.setMover c n := by
    unfold State.moverAdvance
    rw [hself]
    split
    · next p x _ hx =>
      rw [if_pos (.inr (by rw [← Option.some.inj hx]; omega))]
    · rfl
  have hans : s.answerHost k (some c) st e = u.setMover c n := by
    unfold State.answerHost
    dsimp only
    rw [sendOwed_idle howes, hu, hcore, hm]
    dsimp only
    rw [hn, hpump, hadvance]
  rw [hans]
  exact ⟨n, hself, hnlive, hnstatus, by rw [← hu]; rfl⟩

/-- Bytes staged for a mover stand where it will read them. -/
theorem staged_find (bs : List Byte) (a : Nat) (m : Sparse Byte) {i : Nat} (hi : i < bs.length) :
    Sparse.find (bs.zipIdx.foldl (fun t b => Sparse.put t (a + b.2) b.1) m) (a + i) = some (bs.getD i 0) := by
  induction bs using List.reverseRecOn with
  | nil => nomatch hi
  | append_singleton bs b ih =>
    rw [List.zipIdx_append, List.foldl_append, Nat.zero_add]
    show Sparse.find (Sparse.put _ (a + bs.length) b) (a + i) = _
    rw [Sparse.find_put]
    by_cases hlast : bs.length = i
    · rw [if_pos (by rw [hlast]), ← hlast]
      simp
    · rw [List.length_append, List.length_singleton] at hi
      rw [if_neg (by omega), ih (by omega), List.getD_append _ _ _ _ (by omega)]

/-- Part of an answer: its bytes wait for the mover, and the request for the rest. -/
theorem onHResp_part {s : State} {k c : Nat} {p : HPkt} {e : Ecc} {r : HostReq} {m : MoverRun}
    (hreq : (s.hport k).requestOf p.tag true = some r) (hc : r.core = some c) (hm : (s.core c).mover = some m)
    (hst : p.status = 0) (hlen : p.payload.length < r.len) : ∃ n, ((s.onHResp k p e).core c).mover = some n ∧
      n.hostLive = m.hostLive ∧ (s.onHResp k p e).mem = s.mem ∧ ∀ i < p.payload.length,
        Sparse.find n.staging (s.hostGlobal k r.addr + i) = some (p.payload.getD i 0) := by
  have htake : p.payload.take r.len = p.payload := List.take_of_length_le hlen.le
  have hstage : s.stageHost k r p.payload = s.setMover c { m with
      staging := p.payload.zipIdx.foldl (fun t b => Sparse.put t (s.hostGlobal k r.addr + b.2) b.1) m.staging } := by
    unfold State.stageHost
    rw [hc]
    dsimp only
    rw [hm]
  unfold State.onHResp
  rw [hreq]
  dsimp only
  rw [if_neg fun h => h hst, htake, if_neg (Nat.not_le_of_lt hlen), hstage]
  refine ⟨{ m with
    staging := p.payload.zipIdx.foldl (fun t b => Sparse.put t (s.hostGlobal k r.addr + b.2) b.1) m.staging }, ?_,
      rfl, rfl, fun i hi => staged_find _ _ _ hi⟩
  show ((s.setMover c _).core c).mover = _
  unfold State.setMover
  rw [State.core_updCore, if_pos rfl]

/-- Settles O52: each packet by its own equation, a line by what follows its return. -/
theorem hostLinesAndRequests : Obligations.HostLinesAndRequests := by
  intro k s h3
  refine ⟨fun p e c hcheck hc => ?_,
    fun p e h4 hkind hcheck hal hlen => ⟨fun hheld hwait hover hnone hacc => ?_, fun hheld hrec => ?_⟩,
    fun p h5 hkind hcheck => ?_, fun l tag hheld hrec htag => ?_,
    fun p r h6 hkind hcheck hreq hidle howes => ⟨fun hcore => ?_, fun c m hcore hm hlive hst => ?_⟩,
    fun p e r c m h7 hkind hcheck hreq hcore hm hst hlen => ?_, fun tag htag => ?_⟩
  · have hrun : exec c s = .next (s.onGrantRequest k p e) := by
      obtain ⟨h1, hkind, rfl⟩ | ⟨h2, hkind, rfl⟩ := hc
      · exact guarded_hostArrival h3 hkind hcheck (by rw [h1]; decide) (by rw [h1]; decide) _
      · exact guarded_hostArrival h3 hkind hcheck (by rw [h2]; decide) (by rw [h2]; decide) _
    refine ⟨fun hal hca hopen => ?_, fun hal hca hopen hgrant hunc hread => ?_, fun hno => ?_⟩
    · exact hrun.trans (congrArg _ ((if_pos ⟨hal, hca⟩).trans (if_neg (by rw [hopen]; exact Bool.false_ne_true))))
    · exact ⟨_, hrun.trans (congrArg _ ((if_pos ⟨hal, hca⟩).trans ((if_pos hopen).trans (if_pos hgrant)))),
        grantLine_grants hunc hread⟩
    · refine hrun.trans (congrArg _ (if_neg fun h => ?_))
      obtain h' | h' := hno
      · exact h' h.1
      · exact Bool.false_ne_true (h'.symm.trans h.2)
  · have hrun := guarded_hostArrival h3 hkind hcheck (by rw [h4]; decide) (by rw [h4]; decide) fun s => s.onWb k p e
    obtain ⟨hdir, hparts, hcores, hmem⟩ := onWb_stores hal hlen hheld hwait hover hnone hacc
    refine ⟨_, hrun, hdir, hparts, hcores, fun b => ?_⟩
    rw [hmem]
    by_cases hopen : s.memOpen (addrLocal p.addr.toNat) = true
    · rw [if_pos hopen, memRead_memPut_run, if_congr (and_iff_right hopen) rfl rfl]
    · rw [if_neg hopen, if_neg fun h => hopen h.1]
  · refine (guarded_hostArrival h3 hkind hcheck (by rw [h4]; decide) (by rw [h4]; decide) fun s => s.onWb k p e).trans
      (congrArg _ (if_pos (.inr (.inr ?_))))
    rw [hheld, hrec]
    rfl
  · exact guarded_hostArrival h3 hkind hcheck (by rw [h5]; decide) (by rw [h5]; decide) _
  · obtain ⟨hrecalled, hout, hmem, hparts⟩ := recallLine_sends hrec htag
    have hagain : ((s.recallLine k l).hport k).recalled.any (fun x => x.1 == l) = true := by
      rw [hrecalled, List.any_append]
      simp
    obtain ⟨hdead, hoff⟩ := hostFault_effect ((s.recallLine k l).updHport k fun h => h.dropLine l) k
    refine ⟨_, congrArg Host.Outcome.next (if_pos hheld), hrecalled, hout, hmem, _,
      congrArg Host.Outcome.next (if_pos hagain), hdead.state, hdead.directory, fun p hp hb => hoff p hp ?_⟩
    show State.boundTo _ p k = true
    unfold State.boundTo State.part at hb ⊢
    rw [show ((s.recallLine k l).updHport k fun h => h.dropLine l).parts = s.parts from hparts]
    exact hb
  · have hrun := guarded_hostArrival h3 hkind hcheck (by rw [h6]; decide) (by rw [h6]; decide) fun s => s.onHAck k p
    obtain ⟨hreqs, hcores, hmem⟩ := answerHost_none (s := s.updHport k fun h => h.closeRequest r.tag) (k := k)
      (if p.status = 0 then stDONE else stPRIVILEGE) .clean (by rw [hport_updHport_self]; exact howes) hidle
    refine ⟨_, hrun.trans (congrArg _ (onHAck_answers hreq)), ?_⟩
    rw [hcore, hreqs, hport_updHport_self]
    exact ⟨rfl, hcores, hmem⟩
  · have hrun := guarded_hostArrival h3 hkind hcheck (by rw [h6]; decide) (by rw [h6]; decide) fun s => s.onHAck k p
    obtain ⟨n, hn, hlive, hstatus, hmem⟩ := answerHost_counts (s := s.updHport k fun h => h.closeRequest r.tag)
      (if p.status = 0 then stDONE else stPRIVILEGE) .clean (by rw [hport_updHport_self]; exact howes)
        hidle hm hlive hst
    refine ⟨_, n, hrun.trans (congrArg _ (onHAck_answers hreq)), ?_⟩
    rw [hcore]
    exact ⟨hn, hlive, hstatus, hmem⟩
  · obtain ⟨n, hn, hlive, hmem, hbytes⟩ := onHResp_part (e := e) hreq hcore hm hst hlen
    exact ⟨_, n, guarded_hostArrival h3 hkind hcheck (by rw [h7]; decide) (by rw [h7]; decide) fun s => s.onHResp k p e,
      hn, hlive, hmem, hbytes⟩
  · obtain ⟨hdead, hoff⟩ := hostFault_effect s k
    exact ⟨_, congrArg Host.Outcome.next (if_pos htag), hdead.state, hdead.requests, hoff⟩

end Sys2Proof.Machine
end


section
/-! SUPPORT. Proofs/Yepecy.lean: HELLO, host link faults, RD and WR (O51). -/

namespace Sys2Proof.Machine

/-! ### What an interrupt leaves of a port -/

/-- A host port but for its vectors and its requests. -/
def HostPort.rest (h : HostPort) : HostPort := { h with vecs := [], nextTag := 0, requests := [] }

/-- From s to t the host ports have changed in vectors and requests alone. -/
def SameRest (s t : State) : Prop := ∀ j, (t.hport j).rest = (s.hport j).rest

theorem SameRest.refl (s : State) : SameRest s s := fun _ => rfl

theorem SameRest.trans {s t u : State} (h : SameRest s t) (g : SameRest t u) : SameRest s u :=
  fun j => (g j).trans (h j)

theorem SameRest.state {s t : State} (h : SameRest s t) (j : Nat) : (t.hport j).state = (s.hport j).state :=
  (congrArg HostPort.state (h j) :)

theorem SameRest.hellos {s t : State} (h : SameRest s t) (j : Nat) : (t.hport j).hellos = (s.hport j).hellos :=
  (congrArg HostPort.hellos (h j) :)

theorem SameRest.updHport {s : State} {k : Nat} {f : HostPort → HostPort} (hf : ∀ h, (f h).rest = h.rest) :
    SameRest s (s.updHport k f) := by
  intro j
  rw [State.hport_updHport]
  split
  · next hj => rw [hf, hj]
  · rfl

theorem SameRest.foldl {α : Type} {f : State → α → State} (hf : ∀ s a, SameRest s (f s a)) (l : List α) (s : State) :
    SameRest s (l.foldl f s) := by
  induction l generalizing s with
  | nil => exact .refl s
  | cons a l ih => exact (hf s a).trans (ih _)

theorem hostRequest_rest (s : State) (k : Nat) (isRead : Bool) (addr len : Nat) (payload : List Byte)
    (core : Option Nat) : SameRest s (s.hostRequest k isRead addr len payload core) := by
  unfold State.hostRequest
  split
  · exact .refl s
  · next tag _ =>
    exact fun j => SameRest.updHport (s := s) (k := k) (f := fun h => { h with
      nextTag := tag + 1,
      requests := h.requests ++
        [{ tag := tag.toNat, isRead := isRead, addr := addr, len := len, core := core }] }) (fun _ => rfl) j

theorem sendInterrupt_rest (s : State) (k v : Nat) : SameRest s (s.sendInterrupt k v) := by
  unfold State.sendInterrupt
  dsimp only
  split
  · exact .refl s
  · split
    · exact .updHport fun _ => rfl
    · refine .trans ?_ (hostRequest_rest _ _ _ _ _ _ _)
      exact .updHport fun _ => rfl

theorem raiseOn_rest (s : State) (k v cause : Nat) : SameRest s (s.raiseOn k v cause) := by
  unfold State.raiseOn
  dsimp only
  generalize hu : s.updHport k _ = u
  have hsu : SameRest s u := by
    rw [← hu]
    exact .updHport fun _ => rfl
  split
  all_goals exact iteInduction (motive := SameRest s) (fun _ => hsu) fun _ => hsu.trans (sendInterrupt_rest u k v)

theorem raiseCause_rest (s : State) (p cause : Nat) : SameRest s (s.raiseCause p cause) := by
  rw [raiseCause_ports]
  refine .foldl (fun t k => ?_) _ s
  unfold State.raisePort
  split
  · refine .foldl (fun u v => ?_) _ t
    unfold State.raiseIf
    split
    · exact raiseOn_rest u k v cause
    · exact .refl u
  · exact .refl t

theorem recordFault_rest (s : State) (st : Half) (cls kind unit : Nat) (stopped : List Nat) (d0 d1 : Nat) :
    SameRest s (s.recordFault st cls kind unit stopped d0 d1) := by
  have hwrite : ∀ (u : State) (f : HeldFault), u.host = s.host → SameRest s (u.writeFault f) := by
    intro u f hu
    refine .trans (t := { u with links := { u.links with
      faultTaken := u.links.faultTaken + 1, faultRing := pushRing 128 u.links.faultRing f.record } }) ?_
      (.foldl (fun t p => raiseCause_rest t p 5) _ _)
    intro j
    unfold State.hport
    rw [← hu]
  unfold State.recordFault
  dsimp only
  generalize hu : (if cls = 8 then _ else s : State) = u
  have hhost : u.host = s.host := by
    rw [← hu]
    split <;> rfl
  have hsu : SameRest s u := fun j => by
    unfold State.hport
    rw [hhost]
  exact iteInduction (motive := SameRest s) (fun _ => hwrite u _ hhost) fun _ =>
    iteInduction (motive := SameRest s) (fun _ => hsu) fun _ => hsu

/-! ### Faults where nothing waits -/

/-- A fault leaves nothing waiting where nothing waited. -/
theorem fault_noneWaits {s : State} (h : s.NoneWaits) (st : Half) (cls kind unit : Nat) (parts : List Nat)
    (d0 d1 : Nat) :
    (s.fault st cls kind unit parts d0 d1).NoneWaits := by
  obtain ⟨hparts, hruns⟩ := h
  refine ⟨fun p => ?_, ?_⟩
  · rw [fault_part]
    split
    · split
      · exact hparts p
      · unfold Part.disarm
        split
        · exact hparts p
        · exact hparts p
    · exact hparts p
  · have hfold := foldl_keeps (P := fun t : State => ∀ r ∈ t.coll.runs, r.judged = none)
      (fun s p => if (s.part p).active then s.stopPart p st false else s.disarm p) (fun t p h => by
        split
        · next hact =>
          obtain ⟨l, hl⟩ := stopPart_coll t p st false
          rw [hl, if_pos hact]
          exact fun r hr => h r (List.mem_filter.1 hr).1
        · exact h) parts s hruns
    unfold State.fault
    dsimp only
    rw [(State.recordFault_keeps (fp := 0x20C000) rfl _ _ _ _ _ _ _ _ (Same.refl _)).coll.resolve_left (by decide)]
    exact hfold

/-- A host link fault where nothing waits is one fault. -/
theorem hostFault_faultTaken {s : State} (h : s.NoneWaits) (k : Nat) :
    (s.hostFault k).links.faultTaken = s.faultsAfter 1 := by
  have hwaits := fault_noneWaits h stHOST_LOST 11 8 k ((List.range 16).filter fun p => s.boundTo p k) 0 0
  have htaken := fault_faultTaken s stHOST_LOST 11 8 k ((List.range 16).filter fun p => s.boundTo p k) 0 0
  unfold State.hostFault
  dsimp only
  generalize s.fault stHOST_LOST 11 8 k ((List.range 16).filter fun p => s.boundTo p k) 0 0 = u at hwaits htaken ⊢
  have hdown := hwaits.congr (t := u.hostDown k) rfl rfl
  rw [settleApertures_idle hdown, resumeReads_idle hdown]
  exact htaken

/-- A port in service lost where nothing waits counts twice: for the port, and for its host. -/
theorem loseHost_faultTaken {s : State} (h : s.NoneWaits) (k : Nat) :
    (s.loseHost k).links.faultTaken = s.faultsAfter 2 := by
  have hsame : Same 0x20C000 s (s.recordFault stPORT_LOST 3 8 k [] 0 0) :=
    State.recordFault_keeps rfl s _ _ _ _ _ _ _ (.refl s)
  have hone := recordFault_faultTaken s stPORT_LOST 3 8 k [] 0 0
  unfold State.loseHost
  rw [hostFault_faultTaken (h.congr (hsame.parts_eq rfl) (hsame.coll.resolve_left (by decide)))]
  unfold State.faultsAfter
  rw [hsame.fw.resolve_left (by decide), hone]
  unfold State.faultsAfter
  split
  · rfl
  · rw [BitVec.add_assoc]
    rfl

/-! ### HELLO (R498) -/

section
variable {s : State} {k : Nat} {v : Word} (hg : s.greets k = true)
include hg

theorem onHello_counts (hmaj : fld v 16 16 = s.hw.stepping.hostVersion / 2 ^ 16) (hn : (s.hport k).hellos < 2) :
    s.onHello k v = s.updHport k fun h => { h with hellos := h.hellos + 1 } := by
  unfold State.onHello
  dsimp only
  rw [hg, if_neg (by decide), if_neg fun h => h hmaj, if_pos hn]

theorem onHello_agrees (hmaj : fld v 16 16 = s.hw.stepping.hostVersion / 2 ^ 16) (hn : (s.hport k).hellos = 2) :
    s.onHello k v = s.updHport k fun h => { h with
      state := 3, hellos := 0, version := BitVec.ofNat 32 (s.hw.stepping.hostVersion / 2 ^ 16 * 2 ^ 16 +
        min (fld v 0 16) (s.hw.stepping.hostVersion % 2 ^ 16)) } := by
  unfold State.onHello
  dsimp only
  rw [hg, if_neg (by decide), if_neg fun h => h hmaj, if_neg (by omega)]

theorem onHello_differs (hmaj : fld v 16 16 ≠ s.hw.stepping.hostVersion / 2 ^ 16) :
    s.onHello k v = if (s.hport k).state = 4 then s.updHport k fun h => { h with state := 4, hellos := 0 }
      else (s.updHport k fun h => { h with state := 4, hellos := 0 }).recordFault stLINK_VERSION 3 8 k
        [] 0 v.toNat := by
  unfold State.onHello
  dsimp only
  rw [hg, if_neg (by decide), if_pos hmaj]

end

/-- The minor version in force is the lower one. -/
theorem version_minor (g : Stepping) (n : Nat) : (BitVec.ofNat 32 (g.hostVersion / 2 ^ 16 * 2 ^ 16 +
    min n (g.hostVersion % 2 ^ 16))).toNat % 2 ^ 16 = min n (g.hostVersion % 2 ^ 16) := by
  rw [BitVec.toNat_ofNat]
  cases g <;> simp only [Stepping.hostVersion] <;> omega

/-! ### RD and WR (R499 to R503) -/

theorem hostRead_good {s : State} {k a n : Nat} {p : HPkt} {e : Ecc} (h : (s.readErrors [(a, n)] e).2 = none) :
    (s.hostRead k p a n e).1 =
      (s.readErrors [(a, n)] e).1.respond k p stDONE (memBytes (s.readErrors [(a, n)] e).1.mem a n) := by
  unfold State.hostRead
  dsimp only
  rw [h]

/-- A register that a host reaches is a word of the region. -/
theorem hostReach_register {s : State} {k a n o : Nat} (h : s.hostReach k a n = .register o) :
    o % 4 = 0 ∧ o < 2 ^ 27 := by
  have hplace : s.hostPlace k a n = .register o := by
    unfold State.hostReach at h
    cases hp : s.hostPlace k a n with
    | register x =>
      rw [hp] at h
      dsimp only at h
      split at h
      · exact h
      · nomatch h
    | memory x =>
      rw [hp] at h
      dsimp only at h
      split at h <;> nomatch h
    | refused =>
      rw [hp] at h
      nomatch h
    | closed =>
      rw [hp] at h
      nomatch h
  unfold State.hostPlace at hplace
  split at hplace
  · nomatch hplace
  · split at hplace
    · split at hplace <;> nomatch hplace
    · split at hplace
      · split at hplace <;> nomatch hplace
      · nomatch hplace
    · split at hplace
      · next hreg =>
        obtain ⟨-, hal, hlt⟩ := hreg
        have ho := HostPlace.register.inj hplace
        unfold addrOffset at ho hlt
        omega
      · nomatch hplace
    · nomatch hplace

/-- A write to memory that no queue judges. -/
theorem hostWrite_unjudged {s : State} {k a : Nat} {bs : List Byte} {e : Ecc} (hq : s.queuesAt k a = []) :
    s.hostWrite k a bs e = if !(s.hostParity a bs.length e).2 then (s.hostParity a bs.length e).1
      else ({ (s.hostParity a bs.length e).1 with
        mem := memPut (s.hostParity a bs.length e).1.mem a bs }.dropTags a bs.length).liftPoison a bs.length := by
  unfold State.hostWrite
  dsimp only
  rw [hq, List.foldl_nil]
  exact if_neg Bool.false_ne_true

theorem accessErrors_same (s : State) (rs ws : List (Nat × Nat)) (e : Ecc) : Same 0x8 s (s.accessErrors rs ws e).1 :=
  State.accessErrors_keeps rfl s rs ws e (.refl s)

theorem hostWrite_stores {s : State} {k a : Nat} {bs : List Byte} {e : Ecc} (hq : s.queuesAt k a = [])
    (hacc : (s.accessErrors [] [(a, bs.length)] e).2 = none) : (s.hostWrite k a bs e).parts = s.parts ∧
      (s.hostWrite k a bs e).out = s.out ∧ (s.hostWrite k a bs e).mem = memPut s.mem a bs := by
  have hsame := accessErrors_same s [] [(a, bs.length)] e
  have hpar : s.hostParity a bs.length e = ((s.accessErrors [] [(a, bs.length)] e).1, true) := by
    unfold State.hostParity
    dsimp only
    rw [hacc]
  generalize (s.accessErrors [] [(a, bs.length)] e).1 = u at hsame hpar
  have hrun : s.hostWrite k a bs e = ({ u with mem := memPut u.mem a bs }.dropTags a bs.length).liftPoison a
    bs.length := by
    rw [hostWrite_unjudged hq, hpar]
    exact if_neg Bool.false_ne_true
  rw [hrun]
  have hend : Same 0x48 { u with mem := memPut u.mem a bs }
      (({ u with mem := memPut u.mem a bs }.dropTags a bs.length).liftPoison a bs.length) :=
    State.liftPoison_keeps rfl _ _ _ (State.dropTags_keeps rfl _ _ _ (.refl _))
  refine ⟨(hend.parts_eq rfl).trans (hsame.parts_eq rfl), (hend.out.resolve_left (by decide)).trans
    (hsame.out.resolve_left (by decide)), (hend.mem_eq rfl).trans ?_⟩
  show memPut u.mem a bs = _
  rw [hsame.mem_eq rfl]

theorem hostWrite_fails {s : State} {k a : Nat} {bs : List Byte} {e : Ecc} (hq : s.queuesAt k a = [])
    (hacc : (s.accessErrors [] [(a, bs.length)] e).2 ≠ none) : (s.hostWrite k a bs e).parts = s.parts ∧
      (s.hostWrite k a bs e).mem = s.mem ∧ (s.hostWrite k a bs e).links.faultTaken = s.faultsAfter 1 := by
  obtain ⟨bad, hbad⟩ := Option.ne_none_iff_exists'.1 hacc
  have hsame := accessErrors_same s [] [(a, bs.length)] e
  have hpar : s.hostParity a bs.length e = ((s.accessErrors [] [(a, bs.length)] e).1.recordFault stECC 1 (memUnit bad).1
      (memUnit bad).2 [] bad 0, false) := by
    unfold State.hostParity
    dsimp only
    rw [hbad]
  generalize (s.accessErrors [] [(a, bs.length)] e).1 = u at hsame hpar
  have hrun : s.hostWrite k a bs e = u.recordFault stECC 1 (memUnit bad).1 (memUnit bad).2 [] bad 0 := by
    rw [hostWrite_unjudged hq, hpar]
    exact if_pos rfl
  rw [hrun]
  have hrec : Same 0x20C000 u (u.recordFault stECC 1 (memUnit bad).1 (memUnit bad).2 [] bad 0) :=
    State.recordFault_keeps rfl u _ _ _ _ _ _ _ (.refl u)
  refine ⟨(hrec.parts_eq rfl).trans (hsame.parts_eq rfl), (hrec.mem_eq rfl).trans (hsame.mem_eq rfl),
    (recordFault_faultTaken ..).trans (faultsAfter_congr ?_ ?_ 1)⟩
  · rw [hsame.fw.resolve_left (by decide)]
  · rw [hsame.links_eq rfl]

/-- Settles O51: HELLO by its majors, a fault by what it rests, RD and WR by the place that the host reaches. -/
theorem hostPortServes : Obligations.HostPortServes := by
  intro k s
  refine ⟨fun hg => ⟨?_, fun v => ?_⟩, fun hg => ⟨?_, fun v c hc => ?_, fun v c hc => ?_, fun v hmaj hn => ?_,
      fun v hmaj hn => ?_, fun v hmaj => ?_⟩, fun h3 => ⟨?_, fun p e hkind hcheck => ?_, fun p e h0 hkind hcheck => ?_,
      fun p e hk hkind hcheck => ?_⟩, fun o v ho => ?_, fun o v ho hno => ?_⟩
  · exact congrArg Host.Outcome.next (if_neg (by rw [hg]; exact Bool.false_ne_true))
  · have hidle : s.onHello k v = s := if_pos (by rw [hg]; rfl)
    exact congrArg Host.Outcome.next ((if_neg Bool.false_ne_true).trans hidle)
  · exact ⟨_, congrArg Host.Outcome.next (if_pos hg), rfl, rfl, rfl, rfl⟩
  · obtain ⟨hdead, hoff⟩ := hostFault_effect s k
    exact ⟨_, congrArg Host.Outcome.next ((if_pos (bne_iff_ne.2 hc)).trans (if_pos (.inl hg))), hdead.state, hoff⟩
  · subst hc
    exact congrArg Host.Outcome.next (if_neg (by simp))
  · refine ⟨_, congrArg Host.Outcome.next (onHello_counts hg hmaj hn), ?_⟩
    rw [hport_updHport_self]
    exact ⟨rfl, rfl, rfl, rfl⟩
  · refine ⟨_, congrArg Host.Outcome.next (onHello_agrees hg hmaj hn), ?_⟩
    rw [hport_updHport_self]
    exact ⟨rfl, version_minor _ _, rfl⟩
  · have hrun := onHello_differs hg hmaj
    generalize hu : s.updHport k (fun h => { h with state := 4, hellos := 0 }) = u at hrun
    have hport : u.hport k = { s.hport k with state := 4, hellos := 0 } := by
      rw [← hu]
      exact hport_updHport_self ..
    refine ⟨_, congrArg Host.Outcome.next hrun, ?_⟩
    split
    · next h4 =>
      rw [hport, ← hu]
      exact ⟨rfl, rfl, rfl, rfl⟩
    · next h4 =>
      have hrest := recordFault_rest u stLINK_VERSION 3 8 k [] 0 v.toNat
      have hrec : Same 0x20C000 u (u.recordFault stLINK_VERSION 3 8 k [] 0 v.toNat) :=
        State.recordFault_keeps rfl u _ _ _ _ _ _ _ (.refl u)
      refine ⟨(hrest.state k).trans (by rw [hport]), (hrest.hellos k).trans (by rw [hport]),
        (recordFault_faultTaken ..).trans ?_, (hrec.parts_eq rfl).trans ?_⟩ <;> rw [← hu]
      · rfl
      · rfl
  · obtain ⟨hdead, hoff⟩ := hostFault_effect (s.recordFault stPORT_LOST 3 8 k [] 0 0) k
    have hrec : Same 0x20C000 s (s.recordFault stPORT_LOST 3 8 k [] 0 0) :=
      State.recordFault_keeps rfl s _ _ _ _ _ _ _ (.refl s)
    refine ⟨_, congrArg Host.Outcome.next (if_pos h3), hdead.state, hdead.directory, hdead.requests,
      fun h => loseHost_faultTaken h k, fun p hp hb => hoff p hp ?_⟩
    unfold State.boundTo at hb ⊢
    rw [hrec.part_eq rfl]
    exact hb
  · obtain ⟨hdead, hoff⟩ := hostFault_effect s k
    refine ⟨_, (if_pos hkind).trans (congrArg Host.Outcome.next ((if_neg fun h => h h3).trans (if_pos (.inl hcheck)))),
      hdead.state, hdead.directory, hoff⟩
  · have hrun := guarded_hostArrival h3 hkind hcheck (by rw [h0]; decide) (by rw [h0]; decide) fun s => s.onRd k p e
    refine ⟨fun a ha hread => ?_, fun o ho hreach => ?_, fun hcl => ?_, fun href => ?_⟩
    · have hsame := readErrors_same s [(a, p.len)] e
      have hgood := hostRead_good (p := p) (k := k) hread
      generalize (s.readErrors [(a, p.len)] e).1 = u at hsame hgood
      have hon : s.onRd k p e = u.respond k p stDONE (memBytes u.mem a p.len) := by
        unfold State.onRd
        rw [ha]
        exact hgood
      refine ⟨_, hrun.trans (congrArg _ hon), ?_, hsame.mem_eq rfl, hsame.parts_eq rfl, hsame.cores_eq rfl⟩
      show u.out ++ [.host k (hostPacket 8 (memBytes u.mem a p.len).length p.tag.toNat stDONE 0 _)] = _
      rw [hsame.out.resolve_left (by decide), hsame.mem_eq rfl, memBytes, List.length_map, List.length_range]
      rfl
    · refine hrun.trans (congrArg _ ?_)
      unfold State.onRd
      rw [ho]
      dsimp only
      rw [State.regRead, if_pos hreach]
      unfold State.respond
      rw [length_leBytes]
      rfl
    · refine hrun.trans (congrArg _ ?_)
      unfold State.onRd
      rw [hcl]
    · refine ⟨_, hrun.trans (congrArg _ (a₂ := s.refuseRead k p) ?_), rfl, rfl, rfl⟩
      unfold State.onRd
      rw [href]
  · have hrun := guarded_hostArrival h3 hkind hcheck (by rw [hk]; decide) (by rw [hk]; decide) fun s => s.onWr k p e
    refine ⟨fun a ha hq => ?_, fun o ho => ?_, fun hcl => ?_, fun href => ?_⟩
    · have hon : s.onWr k p e = s.hostWrite k a p.payload e := by
        unfold State.onWr
        rw [ha]
      refine ⟨fun hacc => ?_, fun hacc => ?_⟩
      · obtain ⟨hparts, hout, hmem⟩ := hostWrite_stores hq hacc
        refine ⟨_, hrun.trans (congrArg _ hon), hparts, hout, fun b => ?_⟩
        rw [hmem, memRead_memPut_run]
      · exact ⟨_, hrun.trans (congrArg _ hon), hostWrite_fails hq hacc⟩
    · obtain ⟨hal, hlt⟩ := hostReach_register ho
      have hnat : (BitVec.ofNat 27 o).toNat = o := by
        rw [BitVec.toNat_ofNat, Nat.mod_eq_of_lt hlt]
      have hreg : exec (.registerWrite k (BitVec.ofNat 27 o) (BitVec.ofNat 32 (ofLe p.payload))) s
          = .next (s.regWrite k o (BitVec.ofNat 32 (ofLe p.payload))) := by
        refine congrArg Host.Outcome.next ((if_neg ?_).trans ?_)
        · rw [hnat]
          exact fun h => h hal
        · rw [hnat]
      rw [hreg]
      refine hrun.trans (congrArg _ ?_)
      unfold State.onWr
      rw [ho]
    · refine hrun.trans (congrArg _ ?_)
      unfold State.onWr
      rw [hcl]
    · refine hrun.trans (congrArg _ ?_)
      unfold State.onWr
      rw [href]
  · exact congrArg Host.Outcome.next (if_pos ho)
  · exact congrArg Host.Outcome.next ((if_neg fun h => h ho).trans (if_pos (by rw [hno]; rfl)))

end Sys2Proof.Machine
end


section
/-! SUPPORT. Proofs/Node.lean: the mailbox, the timers of management and the IPv6 node (O55). -/

namespace Sys2Proof.Machine

/-! ### Frames of the segment (R535, R539) -/

/-- The state once a frame of the segment is counted. -/
def State.frameHeard (s : State) : State := s.updMgmt fun m => { m with framesRx := m.framesRx + 1 }

section
variable {s : State} {f : Frame} (h : State → State)

theorem fromFrame_unserved (hs : s.served = false) : s.fromFrame f h = s := if_pos (by rw [hs]; rfl)

theorem fromFrame_bad (hs : s.served = true) (hbad : f.fcs ≠ f.crc ∨ f.length < 64 ∨ 1518 < f.length) :
    s.fromFrame f h = s.updMgmt fun m => { m with frameErrors := m.frameErrors + 1 } :=
  (if_neg (by rw [hs]; exact Bool.false_ne_true)).trans (if_pos hbad)

section
variable (hs : s.served = true) (hf : f.fcs = f.crc) (hlo : 64 ≤ f.length) (hhi : f.length ≤ 1518)
include hs hf hlo hhi

theorem fromFrame_tagged (ht : f.tagged = true) : s.fromFrame f h = s := by
  refine (if_neg (by rw [hs]; exact Bool.false_ne_true)).trans ((if_neg ?_).trans (if_pos ht))
  rintro (h | h | h)
  · exact h hf
  · omega
  · omega

theorem fromFrame_good (ht : f.tagged = false) :
    s.fromFrame f h = if f.extended || !s.reachesMe f.dest then s.frameHeard else h s.frameHeard := by
  refine (if_neg (by rw [hs]; exact Bool.false_ne_true)).trans ((if_neg ?_).trans (if_neg ?_))
  · rintro (h | h | h)
    · exact h hf
    · omega
    · omega
  · rw [ht]
    exact Bool.false_ne_true

theorem fromFrame_elsewhere (ht : f.tagged = false) (hno : f.extended = true ∨ s.reachesMe f.dest = false) :
    s.fromFrame f h = s.frameHeard := by
  rw [fromFrame_good h hs hf hlo hhi ht]
  refine if_pos ?_
  obtain hno | hno := hno <;> rw [hno]
  · rfl
  · exact Bool.or_true _

end

theorem fromFrame_hears (hh : s.Hears f) : s.fromFrame f h = h s.frameHeard := by
  obtain ⟨hs, hf, hlo, hhi, ht, hx, hr⟩ := hh
  rw [fromFrame_good h hs hf hlo hhi ht, hx, hr]
  exact if_neg Bool.false_ne_true

end

/-! ### Answers of the mailbox -/

theorem ofLe_leBytes (n v : Nat) : ofLe (leBytes n v) = v % 2 ^ (8 * n) := by
  induction n generalizing v with
  | zero => simp [leBytes, ofLe, Nat.mod_one]
  | succ n ih =>
    rw [leBytes, ofLe, ih, BitVec.toNat_ofNat, Nat.shiftLeft_eq, Nat.shiftRight_eq_div_pow,
      show 8 * (n + 1) = 8 + 8 * n by omega, Nat.pow_add, Nat.mod_mul, Nat.mul_comm (2 ^ 8)]

/-- A number stands in a response where it was put. -/
theorem leAt_middle {a c : List Byte} {o : Nat} (n : Nat) {v : Nat} (ha : a.length = o) (hv : v < 2 ^ (8 * n)) :
    leAt (a ++ (leBytes n v ++ c)) o n = v := by
  rw [leAt, takeAt_middle ha (length_leBytes n v), ofLe_leBytes, Nat.mod_eq_of_lt hv]

theorem responseTo_fields (r : AReq) {op : Nat} (hop : op < 128) (x : Reply) :
    leAt (responseTo r op x) 3 1 = op + 128 ∧ leAt (responseTo r op x) 4 4 = r.reqId.toNat ∧
      leAt (responseTo r op x) 8 2 = r.index.toNat := by
  have hor : op ||| 0x80 = op + 128 := by
    rw [Nat.or_comm, ← Nat.two_pow_add_eq_or_of_lt (i := 7) hop 1]
    omega
  unfold responseTo
  rw [hor]
  refine ⟨?_, ?_, ?_⟩
  · simp only [List.append_assoc]
    rw [← List.append_assoc]
    exact leAt_middle 1 (by simp [length_leBytes]) (by omega)
  · simp only [List.append_assoc]
    rw [← List.append_assoc, ← List.append_assoc]
    exact leAt_middle 4 (by simp [length_leBytes]) r.reqId.isLt
  · simp only [List.append_assoc]
    rw [← List.append_assoc, ← List.append_assoc, ← List.append_assoc]
    exact leAt_middle 2 (by simp [length_leBytes]) r.index.isLt

/-- A READ and a DESCRIBE change management alone, in its snapshots. -/
theorem serve_reads (s : State) (path : Path) {op : Nat} (r : AReq) (hop : op = 1 ∨ op = 3) :
    Same 0x10000 s (s.serve path op r).1 := by
  unfold State.serve
  dsimp only
  split
  · exact .refl s
  · split
    · exact .refl s
    · split
      · exact .refl s
      · split
        · exact .refl s
        · split
          · exact .refl s
          · obtain rfl | rfl := hop
            · exact State.readEntry_keeps rfl s path r _ (.refl s)
            · exact .refl s

theorem waitsFor_reads (s t : State) {op : Nat} (r : AReq) (hop : op = 1 ∨ op = 3) : waitsFor s t op r = none := by
  have hne : op ≠ 2 := by omega
  unfold waitsFor
  dsimp only
  rw [if_neg fun h => hne h.1, if_neg fun h => hne h.1]

/-- A READ or a DESCRIBE through a busy mailbox is answered there. -/
theorem carryOut_mailbox {s : State} {k : Fin 2} {op : Nat} (r : AReq) (hop : op = 1 ∨ op = 3)
    (hbusy : (s.hport k).mbox.busy = true) : ∃ x, ((s.carryOut (.mailbox k) op r).hport k).mbox =
      { (s.hport k).mbox with busy := false, ready := true, response := responseTo r op x } ∧
      (s.carryOut (.mailbox k) op r).out = s.out ∧ Same 0x18000 s (s.carryOut (.mailbox k) op r) := by
  have hserve := serve_reads s (.mailbox k) r hop
  generalize hx : s.serve (.mailbox k) op r = x at hserve
  have hrun : s.carryOut (.mailbox k) op r = x.1.deliverAnswer s (.mailbox k) op r x.2 := by
    unfold State.carryOut
    dsimp only
    rw [waitsFor_reads s _ r hop, hx]
  generalize hu : x.1.updMgmt (fun m => { m with
    refusedCount := if x.2.status = stDONE then m.refusedCount else m.refusedCount + 1 }) = u
  have hhost : x.1.host = s.host := hserve.host.resolve_left (by decide)
  have hport : u.hport k = s.hport k := by
    rw [← hu]
    exact congrArg (fun x : HostLink => Sparse.get HostPort.reset x.ports k) hhost
  have hdeliver : x.1.deliverAnswer s (.mailbox k) op r x.2 = u.updHport k fun h => { h with
      mbox := { h.mbox with busy := false, ready := true, response := responseTo r op x.2 } } := by
    unfold State.deliverAnswer
    dsimp only
    rw [hu, hport]
    exact if_pos hbusy
  have hsu : Same 0x18000 s u := by
    rw [← hu]
    exact State.updMgmt_keeps rfl _ _ (hserve.mono rfl)
  rw [hrun, hdeliver, hport_updHport_self, hport]
  exact ⟨x.2, rfl, hsu.out.resolve_left (by decide), State.updHport_keeps rfl u k _ hsu⟩

/-- A request submitted through a mailbox that is free. -/
theorem fromMailbox_free {s : State} {k : Fin 2} (op : Nat) (r : AReq) (h3 : (s.hport k).state = 3)
    (hs : s.served = true)
    (hbusy : (s.hport k).mbox.busy = false) (hready : (s.hport k).mbox.ready = false) :
    s.fromMailbox k op r =
      if s.fw.paused then (s.updHport k fun h => { h with mbox := { h.mbox with busy := true } }).enqueue
        (.mailbox k) op r
      else (s.updHport k fun h => { h with mbox := { h.mbox with busy := true } }).carryOut (.mailbox k) op r := by
  unfold State.fromMailbox
  dsimp only
  rw [hbusy, hready, hs, if_neg (by rintro (h | h); exact h h3; exact Bool.false_ne_true h)]
  exact if_neg Bool.false_ne_true

theorem fromMailbox_taken {s : State} {k : Fin 2} (op : Nat) (r : AReq) (h3 : (s.hport k).state = 3)
    (hs : s.served = true)
    (h : (s.hport k).mbox.busy = true ∨ (s.hport k).mbox.ready = true) :
    s.fromMailbox k op r = s.updHport k fun h => { h with mbox := { h.mbox with refused := true } } := by
  unfold State.fromMailbox
  dsimp only
  rw [hs, if_neg (by rintro (h | h); exact h h3; exact Bool.false_ne_true h)]
  refine if_pos ?_
  obtain h | h := h <;> rw [h]
  · rfl
  · exact Bool.or_true _

theorem submit_legal {s : State} {k : Fin 2} {v : Word} {op : Nat} {r : AReq} (hlo : 28 ≤ fld v 0 11)
    (hhi : fld v 0 11 ≤ 1052) (hparse : parseRequest ((s.hport k).mbox.frame (fld v 0 11)) = (op, r)) :
    s.submit k v = s.fromMailbox k op r := by
  unfold State.submit
  dsimp only
  rw [if_neg (by omega), hparse]

/-! ### The IPv6 node -/

theorem commitNet_fails {s : State} {path : Path} (h : netCommitStatus s.mgmt.net.sh path ≠ stDONE) :
    (s.commitNet path).1 = s.updMgmt fun m => { m with netStatus := netCommitStatus s.mgmt.net.sh path } :=
  congrArg Prod.fst (if_neg h)

theorem commitNet_passes {s : State} {path : Path} (h : netCommitStatus s.mgmt.net.sh path = stDONE) :
    (s.commitNet path).1 = (s.updMgmt fun m => { m with netStatus := stDONE }).applyNet := by
  unfold State.commitNet
  dsimp only
  rw [h]
  rfl

/-- What new values of the network group leave. -/
theorem applyNet_effect (s : State) : s.applyNet.mgmt.net.live = s.mgmt.net.sh ∧ s.applyNet.mgmt.netStatus =
    s.mgmt.netStatus ∧
    (s.mgmt.net.sh.unicast = s.mgmt.net.live.unicast → s.applyNet.out = s.out ∧
      s.applyNet.mgmt.addrState = s.mgmt.addrState) ∧
    (s.mgmt.net.sh.unicast ≠ s.mgmt.net.live.unicast → s.applyNet.mgmt.addrState = s.mgmt.addrState &&& 0xF9 ∧
      s.applyNet.mgmt.detecting = s.mgmt.net.sh.unicast.any (· != 0) ∧
      (s.applyNet.mgmt.detecting = true → s.applyNet.out = s.out ++
        [.solicit s.applyNet.access s.mgmt.net.sh.unicast])) := by
  unfold State.applyNet
  dsimp only
  by_cases hsame : s.mgmt.net.sh.unicast = s.mgmt.net.live.unicast
  · rw [if_pos hsame]
    exact ⟨rfl, rfl, fun _ => ⟨rfl, rfl⟩, fun h => absurd hsame h⟩
  · rw [if_neg hsame]
    cases hany : s.mgmt.net.sh.unicast.any (· != 0) with
    | false => exact ⟨rfl, rfl, fun h => absurd h hsame, fun _ => ⟨rfl, rfl, fun h => absurd h Bool.false_ne_true⟩⟩
    | true => exact ⟨rfl, rfl, fun h => absurd h hsame, fun _ => ⟨rfl, rfl, fun _ => rfl⟩⟩

/-- Detection that finds the address in use: not in use here, and a duplicate. -/
theorem addrState_duplicate (a : Byte) : bit ((a &&& 0xF9) ||| 4) 1 = false ∧ bit ((a &&& 0xF9) ||| 4) 2 = true := by
  constructor
  · show ((a &&& 0xF9) ||| 4).getLsbD 1 = false
    simp
  · show ((a &&& 0xF9) ||| 4).getLsbD 2 = true
    simp

theorem addrState_unused (a : Byte) : bit (a &&& 0xF9) 1 = false := by
  show (a &&& 0xF9).getLsbD 1 = false
  simp

theorem addrState_used (a : Byte) : bit (a ||| 2) 1 = true := by
  show (a ||| 2).getLsbD 1 = true
  simp

/-- Settles O55: the mailbox by what it holds, the frames of the node by what they find. -/
theorem mailboxAndNode : Obligations.MailboxAndNode := by
  refine ⟨fun k s => ⟨fun v h3 hs => ⟨fun op r hlo hhi hbusy hready hparse hop hp => ?_,
      fun op r hlo hhi hbusy hready hparse hp => ?_, fun hlo hhi htaken => ?_, fun hlen => ?_⟩, ?_, ?_, fun n => ?_⟩,
    fun s => ⟨fun path hst => ?_, fun path hst => ?_, fun hdet => ?_, fun hdet => ?_,
      fun f target data ident c hc => ?_,
      fun f hh => ⟨fun target hdet huse => ?_, fun hdet hsrc => ?_, fun hdet => ?_, fun ident data => ?_⟩⟩⟩
  · have hrun := (submit_legal hlo hhi hparse).trans ((fromMailbox_free op r h3 hs hbusy hready).trans
      (if_neg (by rw [hp]; exact Bool.false_ne_true)))
    generalize hu : s.updHport k (fun h => { h with mbox := { h.mbox with busy := true } }) = u at hrun
    have hport : u.hport k = { s.hport k with mbox := { (s.hport k).mbox with busy := true } } := by
      rw [← hu]
      exact hport_updHport_self ..
    obtain ⟨x, hmbox, hout, hsame⟩ := carryOut_mailbox (s := u) (k := k) r hop (by rw [hport])
    obtain ⟨hfop, hfid, hfindex⟩ := responseTo_fields r (op := op) (by omega) x
    refine ⟨_, congrArg Host.Outcome.next hrun, ?_⟩
    rw [hmbox, hout, hsame.parts_eq rfl, hsame.cores_eq rfl, hsame.mem_eq rfl, ← hu]
    exact ⟨rfl, rfl, hfop, hfid, hfindex, rfl, rfl, rfl, rfl⟩
  · have hrun := (submit_legal hlo hhi hparse).trans ((fromMailbox_free op r h3 hs hbusy hready).trans (if_pos hp))
    have hport := hport_updHport_self s k fun h => { h with mbox := { h.mbox with busy := true } }
    exact ⟨_, congrArg Host.Outcome.next hrun, (congrArg (fun h : HostPort => h.mbox.busy) hport :), rfl, rfl, rfl, rfl⟩
  · exact congrArg Host.Outcome.next ((submit_legal hlo hhi rfl).trans (fromMailbox_taken _ _ h3 hs htaken))
  · exact congrArg Host.Outcome.next ((if_pos hlen).trans (if_pos hs))
  · refine ⟨_, rfl, ?_, fun j hj => (State.hport_updHport ..).trans (if_neg (Ne.symm hj)), rfl, rfl⟩
    exact congrArg HostPort.mbox (hport_updHport_self s k _)
  · refine ⟨_, rfl, ?_, fun j hj => (State.hport_updHport ..).trans (if_neg (Ne.symm hj)), rfl, rfl⟩
    exact congrArg HostPort.mbox (hport_updHport_self s k _)
  · exact ⟨rfl, rfl⟩
  · exact congrArg Host.Outcome.next (commitNet_fails hst)
  · obtain ⟨hlive, hstatus, hsame, hdiff⟩ := applyNet_effect (s.updMgmt fun m => { m with netStatus := stDONE })
    refine ⟨_, congrArg Host.Outcome.next (commitNet_passes hst), hlive, hstatus, hsame, fun hne => ?_⟩
    obtain ⟨haddr, hdet, hout⟩ := hdiff hne
    refine ⟨by rw [haddr]; exact addrState_unused _, ?_, hout⟩
    rw [hdet, List.any_eq_true]
    exact exists_congr fun b => and_congr_right fun _ => bne_iff_ne
  · exact ⟨_, congrArg Host.Outcome.next (if_pos hdet), rfl, addrState_used _, rfl⟩
  · exact congrArg Host.Outcome.next (if_neg (by rw [hdet]; exact Bool.false_ne_true))
  · have hrun : ∃ act, exec c s = .next (s.fromFrame f act) := by
      obtain rfl | rfl | rfl := hc
      · exact ⟨_, rfl⟩
      · exact ⟨_, rfl⟩
      · exact ⟨_, rfl⟩
    obtain ⟨act, hrun⟩ := hrun
    exact ⟨fun hs => hrun.trans (congrArg _ (fromFrame_unserved act hs)), fun hs hf hlo hhi ht hno =>
      hrun.trans (congrArg _ (fromFrame_elsewhere act hs hf hlo hhi ht hno))⟩
  · have hrun := fromFrame_hears (fun s : State =>
      if s.mgmt.detecting && target == s.mgmt.net.live.unicast && f.source.all (· == 0) then s.duplicate
      else if s.addressInUse target then s.sendNet (.advertise s.access target) else s) hh
    refine ⟨_, congrArg Host.Outcome.next (hrun.trans ((if_neg ?_).trans (if_pos huse))), rfl, rfl, rfl, rfl⟩
    rw [show s.frameHeard.mgmt.detecting = false from hdet]
    exact Bool.false_ne_true
  · have hrun := fromFrame_hears (fun u : State =>
      if u.mgmt.detecting && s.mgmt.net.live.unicast == u.mgmt.net.live.unicast && f.source.all
        (· == 0) then u.duplicate
      else if u.addressInUse s.mgmt.net.live.unicast then u.sendNet (.advertise u.access s.mgmt.net.live.unicast)
      else u) hh
    have hgo : (s.frameHeard.mgmt.detecting && s.mgmt.net.live.unicast == s.frameHeard.mgmt.net.live.unicast &&
        f.source.all (· == 0)) = true := by
      rw [show s.frameHeard.mgmt.detecting = true from hdet, List.all_eq_true.2 fun b hb => beq_iff_eq.2 (hsrc b hb)]
      simp [State.frameHeard, State.updMgmt]
    obtain ⟨h1, h2⟩ := addrState_duplicate s.mgmt.addrState
    exact ⟨_, congrArg Host.Outcome.next (hrun.trans (if_pos hgo)), rfl, h1, h2, rfl⟩
  · have hrun := fromFrame_hears (fun u : State =>
      if u.mgmt.detecting && s.mgmt.net.live.unicast == u.mgmt.net.live.unicast then u.duplicate else u) hh
    have hgo : (s.frameHeard.mgmt.detecting && s.mgmt.net.live.unicast ==
      s.frameHeard.mgmt.net.live.unicast) = true := by
      rw [show s.frameHeard.mgmt.detecting = true from hdet]
      simp [State.frameHeard, State.updMgmt]
    obtain ⟨h1, h2⟩ := addrState_duplicate s.mgmt.addrState
    exact ⟨_, congrArg Host.Outcome.next (hrun.trans (if_pos hgo)), rfl, h1, h2, rfl⟩
  · exact ⟨_, congrArg Host.Outcome.next (fromFrame_hears _ hh), rfl, rfl⟩

end Sys2Proof.Machine
end


section
/-! SUPPORT. Proofs/Network.lean: requests over the network (O54). -/

namespace Sys2Proof.Machine

/-! ### Answers (R540, R555) -/

/-- What a response leaves of the state t that the request led to: all but the management counts and the output. -/
theorem sendFrame_rest (t s : State) (d : Dgram) (frame : List Byte) :
    Same 0x210000 t (t.sendFrame s d frame) ∧ (t.sendFrame s d frame).mgmt.sessions = t.mgmt.sessions := by
  unfold State.sendFrame
  dsimp only
  generalize hu : t.updMgmt (fun m => { m with
    refusedCount := if leAt frame 12 2 = 0 then m.refusedCount else m.refusedCount + 1 }) = u
  have hsame : Same 0x210000 t u := by
    rw [← hu]
    exact State.updMgmt_keeps rfl t _ (.refl t)
  have hsess : u.mgmt.sessions = t.mgmt.sessions := by rw [← hu]; rfl
  cases s.asrelOut d frame with
  | none => exact ⟨hsame, hsess⟩
  | some o => exact ⟨Same.set_out rfl (State.updMgmt_keeps rfl u _ hsame), hsess⟩

/-- The response leaves first: where the request itself sent nothing, it is all that has left. -/
theorem sendFrame_out {t s : State} (d : Dgram) (frame : List Byte) (hout : t.out = s.out) :
    (t.sendFrame s d frame).out = s.out ++ s.answerOf d frame := by
  unfold State.sendFrame State.answerOf
  dsimp only
  cases s.asrelOut d frame with
  | none => exact hout.trans (List.append_nil _).symm
  | some o =>
    show s.out ++ o :: t.out.drop s.out.length = s.out ++ [o]
    rw [hout, List.drop_length]

/-! ### A request that the module serves -/

/-- The state that serves the request of a source not remembered: the frame counted, the source remembered. -/
def State.heardFrom (s : State) (d : Dgram) : State :=
  s.updMgmt fun m => { m with framesRx := m.framesRx + 1, kept := [(d.frame.source, [])] }

/-- The request of a datagram that is not discarded. -/
theorem fromNetwork_takes {s : State} {d : Dgram} (hh : s.Hears d.frame) (hd : s.discardsDgram d = false) (op : Nat)
    (r : AReq) (short : Bool) : s.fromNetwork d op r short = s.frameHeard.takeRequest d op r short :=
  (fromFrame_hears _ hh).trans (if_neg fun h => Bool.false_ne_true (hd.symm.trans h))

theorem takeRequest_serves {s : State} {d : Dgram} {op : Nat} {r : AReq} (hr : droppedReq r = false)
    (hw : s.netWaiting < 16) (hp : s.fw.paused = false) : s.takeRequest d op r false = s.serveNet d op r := by
  unfold State.takeRequest
  rw [hr, hp, decide_eq_false (Nat.not_le.2 hw)]
  rfl

theorem takeRequest_drops {s : State} {d : Dgram} {op : Nat} {r : AReq} {short : Bool}
    (h : short = true ∨ droppedReq r = true ∨ 16 ≤ s.netWaiting) :
    s.takeRequest d op r short = s.updMgmt fun m => { m with dropped := m.dropped + 1 } := by
  refine if_pos ?_
  obtain h | h | h := h
  · rw [h]
    rfl
  · rw [h, Bool.or_true, Bool.true_or]
  · rw [decide_eq_true h, Bool.or_true]

theorem takeRequest_waits {s : State} {d : Dgram} {op : Nat} {r : AReq} (hr : droppedReq r = false)
    (hw : s.netWaiting < 16) (hp : s.fw.paused = true) : s.takeRequest d op r false = s.enqueue (.net d) op r := by
  unfold State.takeRequest
  rw [hr, hp, decide_eq_false (Nat.not_le.2 hw)]
  rfl

/-- A request of the most recent source that was the last one it sent is answered again. -/
theorem serveNet_repeats {s : State} {d : Dgram} {op : Nat} {r : AReq} {k : Kept} {rest : List (List Byte × List Kept)}
    (hk : s.mgmt.kept = (d.frame.source, [k]) :: rest) (h1 : k.reqId = r.reqId) (h2 : k.opcode = op)
    (h3 : k.index = r.index) (h4 : k.sub = r.sub) : s.serveNet d op r =
      (s.updMgmt fun m => { m with kept := recentSource m.kept d.frame.source }).sendFrame
        (s.updMgmt fun m => { m with kept := recentSource m.kept d.frame.source }) d k.answer := by
  have hrecent : ((recentSource s.mgmt.kept d.frame.source).headD (d.frame.source, [])).2 = [k] := by
    rw [hk]
    unfold recentSource
    dsimp only
    have hfirst : ((d.frame.source, [k]) :: rest).find? (fun x => x.1 == d.frame.source) =
        some (d.frame.source, [k]) := List.find?_cons_of_pos (beq_self_eq_true d.frame.source)
    rw [hfirst]
    rfl
  have hfind : [k].find? (fun k : Kept =>
      k.reqId == r.reqId && k.opcode == op && k.index == r.index && k.sub == r.sub) = some k :=
    List.find?_cons_of_pos (by simp [h1, h2, h3, h4])
  unfold State.serveNet
  dsimp only
  rw [show (s.updMgmt fun m => { m with kept := recentSource m.kept d.frame.source }).mgmt.kept =
    recentSource s.mgmt.kept d.frame.source from rfl, hrecent, hfind]

/-- A request of a source not remembered is carried out. -/
theorem fromNetwork_carries {s : State} {d : Dgram} {op : Nat} {r : AReq} (hh : s.Hears d.frame)
    (hd : s.discardsDgram d = false) (hr : droppedReq r = false) (hw : s.netWaiting < 16) (hp : s.fw.paused = false)
    (hk : s.mgmt.kept = []) : s.fromNetwork d op r false = (s.heardFrom d).carryOut (.net d) op r := by
  have hheard : s.frameHeard.updMgmt (fun m => { m with kept := recentSource m.kept d.frame.source }) =
      s.heardFrom d := by
    have hrecent : recentSource s.mgmt.kept d.frame.source = [(d.frame.source, [])] := by
      rw [hk]
      rfl
    exact congrArg (fun k => s.updMgmt fun m => { m with framesRx := m.framesRx + 1, kept := k }) hrecent
  rw [fromNetwork_takes hh hd, takeRequest_serves (s := s.frameHeard) hr hw hp]
  unfold State.serveNet
  dsimp only
  rw [hheard]
  rfl

/-- A request served that does not wait and sends nothing of its own is answered; what it left stays. -/
theorem carryOut_net {u : State} {d : Dgram} {op : Nat} {r : AReq} {x : State × Reply}
    (hserve : u.serve (.net d) op r = x) (hwait : waitsFor u x.1 op r = none) (hout : x.1.out = u.out) :
    (u.carryOut (.net d) op r).out = u.out ++ u.answerOf d (responseTo r op x.2) ∧
      Same 0x210000 x.1 (u.carryOut (.net d) op r) ∧
      (u.carryOut (.net d) op r).mgmt.sessions = x.1.mgmt.sessions := by
  let v := x.1.updMgmt fun m => { m with
    kept := keepResponse m.kept d.frame.source
      { reqId := r.reqId, opcode := op, index := r.index, sub := r.sub, answer := responseTo r op x.2 } }
  have hrun : u.carryOut (.net d) op r = v.sendFrame u d (responseTo r op x.2) := by
    unfold State.carryOut
    dsimp only
    rw [hserve, hwait]
    rfl
  obtain ⟨hsame, hsess⟩ := sendFrame_rest v u d (responseTo r op x.2)
  rw [hrun]
  exact ⟨sendFrame_out d _ hout, (State.updMgmt_keeps rfl x.1 _ (.refl x.1)).trans hsame, hsess⟩

/-- A commit waits only where the request changes what a partition waits for. -/
theorem waitsFor_self (s : State) (op : Nat) (r : AReq) : waitsFor s s op r = none := by
  unfold waitsFor
  dsimp only
  rw [if_neg fun ⟨_, _, _, hnone, hsome⟩ => by simp_all, if_neg fun ⟨_, _, _, hnone, hsome⟩ => by simp_all]

theorem waitsFor_other (s t : State) {op : Nat} {r : AReq} (hop : op ≠ 2) : waitsFor s t op r = none := by
  unfold waitsFor
  dsimp only
  rw [if_neg fun h => hop h.1, if_neg fun h => hop h.1]

theorem waitsFor_powerLimit (s t : State) {op : Nat} {r : AReq} (hi : r.index = 0x1300) :
    waitsFor s t op r = none := by
  unfold waitsFor
  dsimp only
  rw [hi, if_neg fun h => absurd h.2.1 (by decide), if_neg fun h => absurd h.2.1 (by decide)]

theorem whenLegal_legal {ok : Bool} {s t : State} (h : ok = true) : whenLegal ok s t = carried t := if_pos h

theorem whenLegal_illegal {ok : Bool} {s t : State} (h : ok = false) : whenLegal ok s t = (s, denied 4) :=
  if_neg (by rw [h]; exact Bool.false_ne_true)

/-! ### What the serving says -/

section
variable {s : State} {path : Path} {op : Nat} {r : AReq}

theorem serve_malformed (h : malformedReq r op = true) : s.serve path op r = (s, (denied 13).reply) := if_pos (.inl h)

theorem serve_unpermitted (hm : malformedReq r op = false) (hr : droppedReq r = false)
    (hp : s.permitted path op r.index.toNat = false) : s.serve path op r = (s, Answer.reply (stPRIVILEGE, 11)) := by
  unfold State.serve
  dsimp only
  rw [hm, hr, hp]
  rfl

theorem permitted_listed {d : Dgram}
    (h : s.mgmt.net.live.used = [] ∨ d.frame.source ∈ s.mgmt.net.live.used) (op index : Nat) :
    s.permitted (.net d) op index = true := by
  show (s.mgmt.net.live.used.isEmpty || s.mgmt.net.live.used.contains d.frame.source || _) = true
  obtain h | h := h
  · rw [h]
    rfl
  · rw [List.contains_iff_mem.2 h, Bool.or_true, Bool.true_or]

/-- What a source of the list asks of an entry that is defined. -/
theorem serve_entry {d : Dgram} {e : EntryRow} (hm : malformedReq r op = false) (hr : droppedReq r = false)
    (hp : s.mgmt.net.live.used = [] ∨ d.frame.source ∈ s.mgmt.net.live.used) (hrec : s.inRecovery = false)
    (he : rowOf r.index.toNat r.sub.toNat = some e) (hop : op = 1 ∨ op = 2 ∨ op = 3 ∨ op = 4) :
    s.serve (.net d) op r =
      if op = 1 then s.readEntry (.net d) r e
      else if op = 2 then ((s.writeEntry (.net d) r e).1, Answer.reply (s.writeEntry (.net d) r e).2)
      else if op = 3 then (s, describeEntry e r.index.toNat r.sub.toNat)
      else (s.abortEntry (.net d) r, Answer.reply (stDONE, 0)) := by
  unfold State.serve
  dsimp only
  rw [hm, hr, permitted_listed hp, hrec, he]
  obtain rfl | rfl | rfl | rfl := hop <;> rfl

/-- A READ of a whole value from its beginning. -/
theorem readEntry_whole {e : EntryRow} (hacc : e.access ≠ .wo) (hoff : r.offset = 0)
    (hblock : isBlock (e.typeAt r.index.toNat r.sub.toNat) = false) :
    s.readEntry path r e = ({ s with freeCtr := s.freeCtr + 1 },
      ⟨stDONE, 0, typeCode (e.typeAt r.index.toNat r.sub.toNat),
        (s.value (r.flags == 1 && e.group) r.index.toNat r.sub.toNat).take 1024,
        some (s.value (r.flags == 1 && e.group) r.index.toNat r.sub.toNat).length⟩) := by
  have hzero : r.offset.toNat = 0 := by rw [hoff]; rfl
  unfold State.readEntry
  dsimp only
  rw [if_neg hacc, if_pos hzero, hblock, hzero]
  rfl

theorem writeEntry_unwritable {e : EntryRow} (h : e.access = .ro ∨ e.access = .const) :
    s.writeEntry path r e = (s, denied 2) := if_pos h

/-- The row of power_limit. -/
theorem rowOf_powerLimit : rowOf 0x1300 6 = some (one 0x06 "power_limit" .u32 .rw) := rfl

/-- A whole value of four bytes is written under no rule but its range. -/
theorem writeWhole_u32 {e : EntryRow} {bs : List Byte} (ht : e.typeAt r.index.toNat r.sub.toNat = .u32)
    (hlen : bs.length = 4) : s.writeWhole path r e bs = s.writeValue path r.index.toNat r.sub.toNat bs := by
  unfold State.writeWhole lengthWrong
  dsimp only
  rw [ht, hlen]
  rfl

theorem writeValue_powerLimit (sub : Nat) (w : Word) : s.writeValue path 0x1300 sub (leBytes 4 w.toNat) =
    whenLegal (within w.toNat 1000 2600) s (s.setLimit w) := by
  have hval : ofLe (leBytes 4 w.toNat) = w.toNat := (ofLe_leBytes 4 w.toNat).trans (Nat.mod_eq_of_lt w.isLt)
  have hrun : ∀ v, whenLegal (within v 1000 2600) s (s.setLimit (BitVec.ofNat 32 v)) =
      whenLegal (within v 1000 2600) s (s.setLimit (BitVec.ofNat 32 v)) := fun _ => rfl
  have hword : BitVec.ofNat 32 w.toNat = w := by rw [BitVec.ofNat_toNat, BitVec.setWidth_eq]
  refine (hrun (ofLe (leBytes 4 w.toNat))).trans ?_
  rw [hval, hword]

/-- A WRITE of power_limit (R622, R624). -/
theorem writeEntry_powerLimit {w : Word} (hi : r.index = 0x1300) (hs : r.sub = 6) (ho : r.offset = 0)
    (hn : r.dataBytes = 4) (ht : r.total = 4) (hd : r.data = leBytes 4 w.toNat) :
    s.writeEntry path r (one 0x06 "power_limit" .u32 .rw) =
      whenLegal (within w.toNat 1000 2600) s (s.setLimit w) := by
  have hindex : r.index.toNat = 0x1300 := by rw [hi]; rfl
  have hsub : r.sub.toNat = 6 := by rw [hs]; rfl
  have htotal : r.total.toNat = 4 := by rw [ht]; rfl
  have hlen : (leBytes 4 w.toNat).length = 4 := length_leBytes 4 w.toNat
  have hbs : r.data.take r.dataBytes.toNat = leBytes 4 w.toNat := by
    rw [hd, hn]
    exact List.take_of_length_le (by rw [hlen]; exact Nat.le_refl 4)
  unfold State.writeEntry
  dsimp only
  rw [hbs, writeWhole_u32 rfl hlen, hindex, hsub, htotal, hlen, writeValue_powerLimit, if_neg (by decide),
    if_neg (show ¬s.rwsRefused (one 0x06 "power_limit" .u32 .rw) 6 = true from Bool.false_ne_true),
    if_neg (by decide), if_neg (by decide), if_neg fun h => h ho]

end

/-! ### Requests over the network -/

/-- Each of the four requests comes as a datagram of its opcode. -/
theorem exec_network {c : Instr} {d : Dgram} {r : AReq} {form : ReqForm} {n : Nat} (s : State)
    (hc : (n = 1 ∧ c = Instr.asrelRead (.net d) r form) ∨ (n = 2 ∧ c = Instr.asrelWrite (.net d) r form) ∨
      (n = 3 ∧ c = Instr.describe (.net d) r form) ∨ (n = 4 ∧ c = Instr.asrelAbort (.net d) r form)) :
    exec c s = .next (s.fromNetwork d (form.opcodeOr n) r form.short) := by
  obtain ⟨rfl, rfl⟩ | ⟨rfl, rfl⟩ | ⟨rfl, rfl⟩ | ⟨rfl, rfl⟩ := hc <;> rfl

/-- A request answered from what serving it left: with the state as the request found it, or altered by it. -/
theorem fromNetwork_answers {s : State} {d : Dgram} {op : Nat} {r : AReq} {x : State × Reply} (hh : s.Hears d.frame)
    (hd : s.discardsDgram d = false) (hr : droppedReq r = false) (hw : s.netWaiting < 16) (hp : s.fw.paused = false)
    (hk : s.mgmt.kept = []) (hserve : (s.heardFrom d).serve (.net d) op r = x)
    (hwait : waitsFor (s.heardFrom d) x.1 op r = none) (hout : x.1.out = s.out) :
    (s.fromNetwork d op r false).out = s.out ++ s.answerOf d (responseTo r op x.2) ∧
      Same 0x210000 x.1 (s.fromNetwork d op r false) ∧
      (s.fromNetwork d op r false).mgmt.sessions = x.1.mgmt.sessions := by
  rw [fromNetwork_carries hh hd hr hw hp hk]
  exact carryOut_net hserve hwait hout

/-- Settles O54: the frame, the datagram, the request and its entry, each by what it finds. -/
theorem managementRequests : Obligations.ManagementRequests := by
  refine fun d r s => ⟨fun n op form c hc hop => ?_, fun hh hd hr hw hp hk hrec e hu he => ?_⟩
  · have hrun := exec_network s hc
    rw [← hop] at hrun
    refine ⟨fun hs => ?_, fun hs hbad => ?_, fun hs hf hlo hhi => ⟨fun ht => ?_, fun ht hno => ?_⟩, fun hh hd => ?_,
      fun hh hd hdrop => ?_, fun hh hd hshort hr hw hp => ?_, fun k rest hh hd hshort hr hw hp hk h1 h2 h3 h4 => ?_,
      fun hh hd hshort hr hw hp hk => ?_⟩
    · exact hrun.trans (congrArg _ (fromFrame_unserved _ hs))
    · exact hrun.trans (congrArg _ (fromFrame_bad _ hs hbad))
    · exact hrun.trans (congrArg _ (fromFrame_tagged _ hs hf hlo hhi ht))
    · exact hrun.trans (congrArg _ (fromFrame_elsewhere _ hs hf hlo hhi ht hno))
    · exact hrun.trans (congrArg _ ((fromFrame_hears _ hh).trans (if_pos hd)))
    · exact hrun.trans (congrArg _ ((fromNetwork_takes hh hd ..).trans (takeRequest_drops (s := s.frameHeard) hdrop)))
    · rw [hshort] at hrun
      exact hrun.trans (congrArg _ ((fromNetwork_takes hh hd ..).trans
        (takeRequest_waits (s := s.frameHeard) hr hw hp)))
    · rw [hshort] at hrun
      have hrepeat := serveNet_repeats (s := s.frameHeard) hk h1 h2 h3 h4
      refine ⟨_, hrun.trans (congrArg _ ((fromNetwork_takes hh hd ..).trans
        ((takeRequest_serves (s := s.frameHeard) hr hw hp).trans hrepeat))), ?_⟩
      generalize hu : s.frameHeard.updMgmt (fun m => { m with kept := recentSource m.kept d.frame.source }) = u
      have hsame := (sendFrame_rest u u d k.answer).1
      have hsent := sendFrame_out (t := u) (s := u) d k.answer rfl
      rw [hsent, hsame.parts_eq rfl, hsame.power_eq rfl, hsame.cores_eq rfl, hsame.mem_eq rfl, ← hu]
      exact ⟨rfl, rfl, rfl, rfl, rfl⟩
    · rw [hshort] at hrun
      refine ⟨fun hm => ?_, fun hm hno => ?_⟩
      · obtain ⟨hout, hsame, -⟩ := fromNetwork_answers hh hd hr hw hp hk (serve_malformed hm) (waitsFor_self ..) rfl
        exact ⟨_, hrun, hout, hsame.parts_eq rfl, hsame.power_eq rfl, hsame.mem_eq rfl⟩
      · obtain ⟨hout, hsame, -⟩ :=
          fromNetwork_answers hh hd hr hw hp hk (serve_unpermitted hm hr hno) (waitsFor_self ..) rfl
        exact ⟨_, hrun, hout, hsame.parts_eq rfl, hsame.power_eq rfl, hsame.mem_eq rfl⟩
  · refine ⟨fun hm => ?_, fun u v hm hacc hoff hblock hu' hv => ?_, fun hm hacc => ?_,
      fun w hm hindex hsub hoff hbytes htotal hdata => ?_, fun hm => ?_⟩
    · have hserve := serve_entry (s := s.heardFrom d) hm hr hu hrec he (.inr (.inr (.inl rfl)))
      obtain ⟨hout, hsame, -⟩ := fromNetwork_answers hh hd hr hw hp hk hserve (waitsFor_self ..) rfl
      exact ⟨_, rfl, hout, hsame.parts_eq rfl, hsame.power_eq rfl, hsame.mem_eq rfl⟩
    · have hserve := (serve_entry (s := s.heardFrom d) hm hr hu hrec he (.inl rfl)).trans
        (readEntry_whole hacc hoff hblock)
      obtain ⟨hout, hsame, -⟩ := fromNetwork_answers hh hd hr hw hp hk hserve (waitsFor_reads _ _ r (.inl rfl)) rfl
      subst hv hu'
      exact ⟨_, rfl, hout, hsame.parts_eq rfl, hsame.power_eq rfl, hsame.mem_eq rfl⟩
    · have hserve := serve_entry (s := s.heardFrom d) hm hr hu hrec he (.inr (.inl rfl))
      rw [writeEntry_unwritable hacc] at hserve
      obtain ⟨hout, hsame, -⟩ := fromNetwork_answers hh hd hr hw hp hk hserve (waitsFor_self ..) rfl
      exact ⟨_, rfl, hout, hsame.parts_eq rfl, hsame.power_eq rfl, hsame.mem_eq rfl⟩
    · have hentry : e = one 0x06 "power_limit" .u32 .rw := by
        rw [hindex, hsub] at he
        exact Option.some.inj (he.symm.trans rowOf_powerLimit)
      have hserve := serve_entry (s := s.heardFrom d) hm hr hu hrec he (.inr (.inl rfl))
      rw [hentry, writeEntry_powerLimit hindex hsub hoff hbytes htotal hdata] at hserve
      by_cases hin : 1000 ≤ w.toNat ∧ w.toNat ≤ 2600
      · rw [whenLegal_legal (by simp [within, hin])] at hserve
        obtain ⟨-, hsame, -⟩ := fromNetwork_answers hh hd hr hw hp hk hserve (waitsFor_powerLimit _ _ hindex) rfl
        refine ⟨_, rfl, ?_, hsame.parts_eq rfl, hsame.cores_eq rfl, hsame.mem_eq rfl⟩
        rw [if_pos hin]
        exact hsame.power_eq rfl
      · rw [whenLegal_illegal (by simp [within]; omega)] at hserve
        obtain ⟨-, hsame, -⟩ := fromNetwork_answers hh hd hr hw hp hk hserve (waitsFor_self ..) rfl
        refine ⟨_, rfl, ?_, hsame.parts_eq rfl, hsame.cores_eq rfl, hsame.mem_eq rfl⟩
        rw [if_neg hin]
        exact hsame.power_eq rfl
    · have hserve := serve_entry (s := s.heardFrom d) hm hr hu hrec he (.inr (.inr (.inr rfl)))
      obtain ⟨-, hsame, hsess⟩ :=
        fromNetwork_answers hh hd hr hw hp hk hserve (waitsFor_other _ _ (by decide)) rfl
      refine ⟨s.fromNetwork d 4 r false, rfl, fun x hx => ?_, fun x hx hno => ?_, hsame.parts_eq rfl,
        hsame.power_eq rfl, hsame.mem_eq rfl⟩
      · rw [hsess] at hx
        exact (Bool.not_eq_true' _).mp (List.mem_filter.1 hx).2
      · rw [hsess]
        exact List.mem_filter.2 ⟨hx, (Bool.not_eq_true' _).mpr hno⟩

end Sys2Proof.Machine
end


section
/-! SUPPORT. Proofs/Arrivals.lean: request and reply packets as they come in on a port (O42). -/

namespace Sys2Proof.Machine

/-! ### The traffic of the fabric (R283 to R295) -/

/-- The fabric without what only counts packets of ports and samples them. -/
def Fabric.traffic (f : Fabric) : Fabric :=
  { f with ports := [], received := [], sampleSeen := 0, sampleTaken := 0, sampleRing := [] }

/-- The traffic under way is the same. -/
def SameTraffic (s t : State) : Prop := t.fabric.traffic = s.fabric.traffic

namespace SameTraffic
variable {s t u : State}

theorem refl (s : State) : SameTraffic s s := rfl

theorem trans (h : SameTraffic s t) (g : SameTraffic t u) : SameTraffic s u := Eq.trans g h

/-- What the fabric says apart from its counters and samples. -/
theorem keeps {γ : Type} (h : SameTraffic s t) (g : Fabric → γ) (hg : ∀ f : Fabric, g f.traffic = g f) :
    g t.fabric = g s.fabric := by
  rw [← hg, ← hg s.fabric]
  exact congrArg g h

theorem route (h : SameTraffic s t) : t.fabric.route = s.fabric.route := h.keeps (·.route) fun _ => rfl
theorem transit (h : SameTraffic s t) : t.fabric.transit = s.fabric.transit := h.keeps (·.transit) fun _ => rfl
theorem skeins (h : SameTraffic s t) : t.fabric.skeins = s.fabric.skeins := h.keeps (·.skeins) fun _ => rfl
theorem delivered (h : SameTraffic s t) : t.fabric.delivered = s.fabric.delivered := h.keeps (·.delivered) fun _ => rfl
theorem grants (h : SameTraffic s t) : t.fabric.grants = s.fabric.grants := h.keeps (·.grants) fun _ => rfl
theorem contexts (h : SameTraffic s t) : t.fabric.contexts = s.fabric.contexts := h.keeps (·.contexts) fun _ => rfl
theorem waiting (h : SameTraffic s t) : t.fabric.waiting = s.fabric.waiting := h.keeps (·.waiting) fun _ => rfl

end SameTraffic

theorem sample_traffic (s : State) (point cls : Nat) (part : Option Nat) (header : List Byte) :
    SameTraffic s (s.sample point cls part header) := by
  unfold State.sample
  dsimp only
  split
  · exact .refl s
  · split <;> rfl

theorem sample_same (s : State) (point cls : Nat) (part : Option Nat) (header : List Byte) :
    Same 0x400 s (s.sample point cls part header) := State.sample_keeps rfl s point cls part header (.refl s)

theorem countRx_traffic (s : State) (k flits cls channel : Nat) : SameTraffic s (s.countRx k flits cls channel) := rfl

theorem countRx_same (s : State) (k flits cls channel : Nat) : Same 0x400 s (s.countRx k flits cls channel) :=
  State.countRx_keeps rfl s k flits cls channel (.refl s)

/-- A counter of a port that an update changes. -/
theorem ctr_updCtr_self (s : State) (k : Nat) (f : PortCtr → PortCtr) :
    Sparse.get PortCtr.reset (s.updCtr k f).fabric.ports k = f (Sparse.get PortCtr.reset s.fabric.ports k) := by
  show Sparse.get PortCtr.reset (Sparse.set PortCtr.reset s.fabric.ports k _) k = _
  rw [Sparse.get_set, if_pos rfl]

theorem countRx_rxPackets (s : State) (k flits cls channel : Nat) :
    (Sparse.get PortCtr.reset (s.countRx k flits cls channel).fabric.ports k).rxPackets =
      (Sparse.get PortCtr.reset s.fabric.ports k).rxPackets + 1 := by
  unfold State.countRx
  dsimp only
  rw [ctr_updCtr_self]

theorem setTransit_rxPackets (s : State) (k : Nat) (l : List (Option Nat × Pkt)) :
    (Sparse.get PortCtr.reset (s.setTransit (some k) l).fabric.ports k).rxPackets =
      (Sparse.get PortCtr.reset s.fabric.ports k).rxPackets := by
  unfold State.setTransit State.noteDepth
  dsimp only
  rw [ctr_updCtr_self]

/-- A packet kept at an input port waits there behind the others; nothing but the fabric changes. -/
theorem keep_effect (s : State) (k : Nat) (p : Pkt) :
    (s.keep (some k) p).fabric.transit = s.fabric.transit ++ [(some k, { p with owner := none })] ∧
      (s.keep (some k) p).fabric.skeins = s.fabric.skeins ∧
      (s.keep (some k) p).fabric.completed = s.fabric.completed ∧ Same 0x400 s (s.keep (some k) p) :=
  ⟨rfl, rfl, rfl, State.keep_keeps rfl s (some k) p (.refl s)⟩

/-! ### Arrival on a port -/

section
variable {s : State} {k : Nat} {p : Pkt} (h : State → Option Nat → Pkt → State)

theorem arrival_unheard (hs : (s.link k).state ≠ 5) : s.arrival k p h = s := if_pos hs

section
variable (hs : (s.link k).state = 5)
include hs

theorem arrival_reserved (hc : p.channel = 3) :
    s.arrival k p h = (s.countRx k p.flits p.cls.toNat 2).discardPkt :=
  (if_neg fun h => h hs).trans (if_pos hc)

section
variable (hc : p.channel ≠ 3)
include hc

theorem arrival_crowded (hf : s.fits k p = false) : s.arrival k p h = s :=
  (if_neg fun h => h hs).trans ((if_neg hc).trans (if_pos (by rw [hf]; rfl)))

/-- A packet for which the port has room is counted, and goes to its place. -/
theorem arrival_taken (hf : s.fits k p = true) : s.arrival k p h =
    if s.isHere p.dest.toNat then (s.countRx k p.flits p.cls.toNat p.channel.toNat).consume (some k) p h
    else (s.countRx k p.flits p.cls.toNat p.channel.toNat).keep (some k) p :=
  (if_neg fun h => h hs).trans ((if_neg hc).trans (if_neg (by rw [hf]; exact Bool.false_ne_true)))

end
end

theorem arrival_delivers (hd : s.Delivers k p) : s.arrival k p h = h (s.received k p) (some k) p := by
  obtain ⟨hs, hc, hf, hhere, hcheck⟩ := hd
  exact (arrival_taken h hs hc hf).trans ((if_pos hhere).trans (if_neg fun hne => hne hcheck))

end

/-! ### What is the same once a packet has been received -/

theorem touchPart_fabric (s : State) (q : Nat) : (s.touchPart q).fabric = s.fabric :=
  (State.touchPart_keeps (fp := 0x80) rfl s q (.refl s)).fabric.resolve_left (by decide)

theorem touchPart_congr {s t : State} (h : t.parts = s.parts) (q : Nat) :
    (t.touchPart q).parts = (s.touchPart q).parts := by
  unfold State.touchPart State.updPart State.setPart State.part
  rw [h, apply_ite State.parts, apply_ite State.parts, h]

/-- A mark of a partition that is no idle stitch is all that a packet leaves of it. -/
theorem touchPart_part (s : State) (q r : Nat) : (s.touchPart q).part r =
    { s.part r with changed := (s.part r).changed || (decide (r = q) && (s.part r).active) } := by
  unfold State.touchPart
  split
  case isTrue hact =>
    rw [State.part_updPart]
    split
    · next h =>
      subst h
      rw [hact]
      simp
    · next h => simp [Ne.symm h]
  case isFalse hact =>
    by_cases h : r = q
    · subst h
      rw [Bool.eq_false_iff.2 hact]
      simp
    · simp [h]

/-- A packet taken in alters the fabric's count of deliveries and its samples, and marks its partition. -/
theorem takeIn_effect (s : State) (p : Pkt) :
    (s.takeIn p).fabric.traffic = { s.fabric with delivered := s.fabric.delivered + 1 }.traffic ∧
      (s.takeIn p).parts = (s.touchPart p.part.toNat).parts ∧ Same 0x480 s (s.takeIn p) := by
  refine ⟨Eq.trans (sample_traffic _ 6 p.cls.toNat (some p.part.toNat) p.bytes) ?_, (sample_same ..).parts_eq rfl,
    State.takeIn_keeps rfl s p (.refl s)⟩
  unfold State.updFabric
  dsimp only
  rw [touchPart_fabric]

/-- The same of one received on a port. -/
theorem received_effect (s : State) (k : Nat) (p : Pkt) :
    (s.received k p).fabric.traffic = { s.fabric with delivered := s.fabric.delivered + 1 }.traffic ∧
      (s.received k p).parts = (s.touchPart p.part.toNat).parts ∧ Same 0x480 s (s.received k p) := by
  obtain ⟨htraffic, hparts, hsame⟩ := takeIn_effect (s.countRx k p.flits p.cls.toNat p.channel.toNat) p
  exact ⟨htraffic, hparts.trans (touchPart_congr ((countRx_same ..).parts_eq rfl) _),
    ((countRx_same ..).mono rfl).trans hsame⟩

/-- What the row of a packet does with one that is delivered. -/
def packetHandler : Instr → Option (State → Option Nat → Pkt → State)
  | .write _ _ ecc => some fun s port p => s.onWrite port p ecc
  | .read _ _ ecc => some fun s port p => s.onRead port p ecc
  | .tally _ _ => some State.onTally
  | .fabOpen _ _ => some State.onOpen
  | .fabClose _ _ => some State.onClose
  | .readData _ _ ecc => some fun s port p => s.onReadData port p ecc
  | .ack _ _ => some State.onAck
  | .grant _ _ => some State.onGrant
  | .nack _ _ => some State.onNack
  | _ => none

/-- Settles O42: an arrival by the case it meets. -/
theorem packetsOnAPort : Obligations.PacketsOnAPort := by
  intro k p ecc c s hc
  obtain ⟨h, hof, hrun⟩ : ∃ h, packetHandler c = some h ∧ exec c s = .next (s.arrival k p h) := by
    obtain ⟨rfl, hk⟩ | ⟨rfl, hk⟩ | ⟨rfl, hk⟩ | ⟨rfl, hk⟩ | ⟨rfl, hk⟩ | ⟨rfl, hk⟩ | ⟨rfl, hk⟩ | ⟨rfl, hk⟩ |
      ⟨rfl, hk⟩ := hc <;> exact ⟨_, rfl, if_pos hk⟩
  refine ⟨fun hs => hrun.trans (congrArg _ (arrival_unheard h hs)), fun hs hch => ?_,
    fun hs hch hf => hrun.trans (congrArg _ (arrival_crowded h hs hch hf)), fun hs hch hf hno => ?_,
    fun hs hch hf hhere hbad => ?_, fun hd r hr => ?_⟩
  · exact ⟨_, hrun.trans (congrArg _ (arrival_reserved h hs hch)), rfl, rfl, countRx_rxPackets .., rfl, rfl, rfl, rfl,
      rfl⟩
  · obtain ⟨htransit, hskeins, -, hsame⟩ := keep_effect (s.countRx k p.flits p.cls.toNat p.channel.toNat) k p
    refine ⟨_, hrun.trans (congrArg _ ((arrival_taken h hs hch hf).trans
      (if_neg (by rw [hno]; exact Bool.false_ne_true)))), ?_, ?_, hsame.mem_eq rfl, hsame.cores_eq rfl,
      hsame.parts_eq rfl, hskeins⟩
    · rw [htransit]
      exact List.mem_append_right _ (List.mem_singleton.2 rfl)
    · exact (setTransit_rxPackets ..).trans (countRx_rxPackets ..)
  · exact ⟨_, hrun.trans (congrArg _ ((arrival_taken h hs hch hf).trans ((if_pos hhere).trans (if_pos hbad)))), rfl,
      rfl, rfl, rfl, rfl, rfl, rfl⟩
  · have hdel := hrun.trans (congrArg _ (arrival_delivers h hd))
    rw [← hr] at hdel
    obtain ⟨htraffic, hparts, hsame⟩ := received_effect s k p
    rw [← hr] at htraffic hparts hsame
    have hpart : ∀ q, r.part q = (s.touchPart p.part.toNat).part q := fun q =>
      congrArg (Sparse.get Part.reset · q) hparts
    refine ⟨congrArg (fun f : Fabric => f.delivered) htraffic, hsame.mem_eq rfl, hsame.cores_eq rfl, fun hact => ?_,
      fun q hq => ?_, ?_, ?_, ?_, ?_, ?_, ?_, ?_, ?_, ?_⟩
    · rw [hpart, touchPart_part, hact]
      simp
    · rw [hpart, touchPart_part, decide_eq_false hq, Bool.false_and, Bool.or_false]
    all_goals
      rintro rfl
      cases hof
      exact hdel

end Sys2Proof.Machine
end


section
/-! SUPPORT. Proofs/Requests.lean: what a packet finds once it has been received, and WRITE (O43). -/

namespace Sys2Proof.Machine

/-! ### What a received packet finds is what it found on arrival -/

/-- Two states that differ in the fabric, apart from its route, and in which partitions have worked in this stitch. -/
structure Alike (s t : State) : Prop where
  part : ∀ q, ∃ b, t.part q = { s.part q with changed := b }
  route : t.fabric.route = s.fabric.route
  same : Same 0x480 s t

namespace Alike
variable {s t u : State}

theorem trans (h : Alike s t) (g : Alike t u) : Alike s u where
  part q := by
    obtain ⟨b, hb⟩ := h.part q
    obtain ⟨c, hc⟩ := g.part q
    exact ⟨c, by rw [hc, hb]⟩
  route := g.route.trans h.route
  same := h.same.trans g.same

/-- What a partition says but for the mark of its stitch. -/
theorem partKeeps {γ : Type} (h : Alike s t) (q : Nat) (g : Part → γ)
    (hg : ∀ (x : Part) b, g { x with changed := b } = g x) : g (t.part q) = g (s.part q) := by
  obtain ⟨b, hb⟩ := h.part q
  rw [hb, hg]

variable (h : Alike s t)
include h

theorem layout (q : Nat) : (t.part q).layout = (s.part q).layout := h.partKeeps q (·.layout) fun _ _ => rfl
theorem place (q : Nat) : (t.part q).place = (s.part q).place := h.partKeeps q (·.place) fun _ _ => rfl
theorem windows (q : Nat) : (t.part q).windows = (s.part q).windows := h.partKeeps q (·.windows) fun _ _ => rfl
theorem aper (q : Nat) : (t.part q).aper = (s.part q).aper := h.partKeeps q (·.aper) fun _ _ => rfl
theorem guar (q : Nat) : (t.part q).guar = (s.part q).guar := h.partKeeps q (·.guar) fun _ _ => rfl
theorem attic (q : Nat) : (t.part q).attic = (s.part q).attic := h.partKeeps q (·.attic) fun _ _ => rfl
theorem state (q : Nat) : (t.part q).state = (s.part q).state := h.partKeeps q (·.state) fun _ _ => rfl
theorem active (q : Nat) : (t.part q).active = (s.part q).active := h.partKeeps q Part.active fun _ _ => rfl

theorem mem : t.mem = s.mem := h.same.mem_eq rfl
theorem cores : t.cores = s.cores := h.same.cores_eq rfl
theorem hw : t.hw = s.hw := h.same.hw_eq rfl
theorem links : t.links = s.links := h.same.links_eq rfl
theorem locked : t.locked = s.locked := h.same.locked.resolve_left (by decide)
theorem host : t.host = s.host := h.same.host.resolve_left (by decide)
theorem coll : t.coll = s.coll := h.same.coll.resolve_left (by decide)
theorem memStat : t.memStat = s.memStat := h.same.memStat.resolve_left (by decide)
theorem power : t.power = s.power := h.same.power_eq rfl
theorem fw : t.fw = s.fw := h.same.fw.resolve_left (by decide)

theorem myId : t.myId = s.myId := by
  unfold State.myId
  rw [h.route]

theorem inBox (lo size : Half) (id : Nat) : t.inBox lo size id = s.inBox lo size id := by
  unfold State.inBox
  rw [h.route]

theorem accepts (q src : Nat) : t.accepts q src = s.accepts q src := by
  unfold State.accepts
  simp only [h.place, h.inBox]

theorem turnsAway (q src : Nat) : t.turnsAway q src = s.turnsAway q src := by
  unfold State.turnsAway
  rw [h.state, h.active, h.accepts]

theorem serves (p : Pkt) : t.serves p = s.serves p := by
  unfold State.serves
  rw [h.turnsAway, h.active]

theorem namedPart (p d : Nat) : t.namedPart p d = s.namedPart p d := by
  unfold State.namedPart State.destPart
  simp only [h.place, h.inBox]

theorem coreCount : t.coreCount = s.coreCount := by
  unfold State.coreCount
  rw [h.hw]

theorem coreServed (c : Nat) : t.coreServed c = s.coreServed c := by
  unfold State.coreServed
  rw [h.coreCount, h.links]

theorem hasShelf (q n : Nat) : t.hasShelf q n = s.hasShelf q n := by
  unfold State.hasShelf
  rw [h.layout]

theorem partOf (c : Nat) : t.partOf c = s.partOf c := by
  unfold State.partOf State.partOfShelf
  simp only [h.hasShelf]

theorem tallyStatus (q c : Nat) : t.tallyStatus q c = s.tallyStatus q c := by
  unfold State.tallyStatus
  rw [h.coreServed, h.partOf]

theorem coreOpen (c : Nat) : t.coreOpen c = s.coreOpen c := by
  unfold State.coreOpen State.crosses
  rw [h.hw, h.locked]

theorem extOpen (a n : Nat) : t.extOpen a n = s.extOpen a n := by
  unfold State.extOpen State.stackOpen State.crosses
  simp only [h.locked, h.coreOpen]

theorem rangeStatus (q a n : Nat) : t.rangeStatus q a n = s.rangeStatus q a n := by
  unfold State.rangeStatus State.spanStatus State.inWindow State.windowsOf State.absentCore State.inAperture
  simp only [h.windows, h.aper, h.layout, h.hasShelf, h.coreCount]

theorem accessStatus (q a n : Nat) : t.accessStatus q a n = s.accessStatus q a n := by
  unfold State.accessStatus
  simp only [h.myId, h.layout, h.rangeStatus]

theorem gatherHolds : t.gatherHolds = s.gatherHolds := by
  unfold State.gatherHolds
  rw [h.cores]

theorem atticHolds (q : Nat) : t.atticHolds q = s.atticHolds q := by
  unfold State.atticHolds
  rw [h.attic]

theorem busyBanks : t.busyBanks = s.busyBanks := by
  unfold State.busyBanks
  rw [h.cores]

theorem busyRegions : t.busyRegions = s.busyRegions := by
  unfold State.busyRegions State.tallyOf State.core
  rw [h.coll, h.cores]

theorem writeStalls (p : Pkt) : t.writeStalls p = s.writeStalls p := by
  unfold State.writeStalls
  simp only [h.busyBanks, h.busyRegions, h.extOpen]

theorem lineHeld (a n : Nat) (write : Bool) : t.lineHeld a n write = s.lineHeld a n write :=
  lineHeld_congr (fun j => congrArg (fun x : HostLink => (Sparse.get HostPort.reset x.ports j).directory) h.host) a n
    write

theorem readAnswer (p : Pkt) : t.readAnswer p = s.readAnswer p := by
  unfold State.readAnswer
  simp only [h.namedPart, h.myId, h.mem]

theorem replyPacket (p : Pkt) (kind : Nat) (status : Half) (payload : List Byte) :
    t.replyPacket p kind status payload = s.replyPacket p kind status payload := by
  unfold State.replyPacket
  rw [h.namedPart, h.myId]

theorem faultsAfter (n : Nat) : t.faultsAfter n = s.faultsAfter n := by
  unfold State.faultsAfter
  rw [h.fw, h.links]

end Alike

/-- Only the fabric differs, and not in its route. -/
theorem Alike.of_fabric {s t : State} (h : Same 0x400 s t) (hroute : t.fabric.route = s.fabric.route) : Alike s t where
  part q := ⟨(s.part q).changed, h.part_eq rfl q⟩
  route := hroute
  same := h.mono rfl

/-- The fabric without what a packet received alters of it: the counters, the samples and the count of deliveries. -/
def Fabric.flow (f : Fabric) : Fabric := { f.traffic with delivered := 0 }

/-- What the fabric says apart from those is as it was before the packet came. -/
theorem received_flow (s : State) (k : Nat) (p : Pkt) {γ : Type} (g : Fabric → γ) (hg : ∀ f : Fabric, g f.flow = g f) :
    g (s.received k p).fabric = g s.fabric := by
  rw [← hg, ← hg s.fabric]
  have h := congrArg (fun f : Fabric => g { f with delivered := 0 }) (received_effect s k p).1
  exact h

theorem received_alike (s : State) (k : Nat) (p : Pkt) : Alike s (s.received k p) := by
  obtain ⟨htraffic, hparts, hsame⟩ := received_effect s k p
  exact ⟨fun q => ⟨_, (congrArg (Sparse.get Part.reset · q) hparts :).trans (touchPart_part ..)⟩,
    (congrArg Fabric.route htraffic :), hsame⟩

/-- The memories meet the same errors where the same lines are poisoned. -/
theorem accessErrors_congr {s t : State} (h : t.memStat = s.memStat) (rs ws : List (Nat × Nat)) (e : Ecc) :
    (t.accessErrors rs ws e).2 = (s.accessErrors rs ws e).2 := by
  have hold : t.poisonRead rs = s.poisonRead rs := by
    unfold State.poisonRead
    rw [h]
  unfold State.accessErrors
  dsimp only
  rw [hold]

/-! ### Replies and strays (R270, R283, R484) -/

theorem replyTo_effect (s : State) (p : Pkt) (kind : Nat) (status : Half) (payload : List Byte) :
    (s.replyTo p kind status payload).fabric =
        { s.fabric with transit := s.fabric.transit ++ [(none, s.replyPacket p kind status payload)] } ∧
      Same 0x400 s (s.replyTo p kind status payload) :=
  ⟨rfl, State.replyTo_keeps rfl s p kind status payload (.refl s)⟩

/-- A reply goes back to the packet's source, on its skein and with its transfer number. -/
theorem replyPacket_fields (s : State) (p : Pkt) (kind : Nat) (status : Half) (payload : List Byte) :
    (s.replyPacket p kind status payload).cls = 2 ∧
      (s.replyPacket p kind status payload).kind = BitVec.ofNat 4 kind ∧
      (s.replyPacket p kind status payload).dest = p.src ∧ (s.replyPacket p kind status payload).tno = p.tno ∧
      (s.replyPacket p kind status payload).skein = p.skein ∧
      (s.replyPacket p kind status payload).status = status ∧
      (s.replyPacket p kind status payload).payload = payload := by
  refine ⟨rfl, rfl, ?_, ?_, ?_, rfl, rfl⟩ <;> exact (BitVec.ofNat_toNat ..).trans (BitVec.setWidth_eq _)

/-! ### A packet counted in its transfer (R289 to R297) -/

theorem strayed_effect (s : State) :
    s.strayed.fabric = { s.fabric with stray := s.fabric.stray + 1 } ∧ Same 0x400 s s.strayed :=
  ⟨rfl, State.strayed_keeps rfl s (.refl s)⟩

/-- The state in which the grant has seen the transfer number. -/
def State.seen (s : State) (g : Granted) (n : Nat) : State := s.updGrant g.src g.skein fun _ => g.see n

/-- The context of a transfer after its first packet. -/
def State.firstContext (s : State) (p : Pkt) (st : Half) (tally : Option Word) : RxCtx :=
  { src := p.src.toNat, skein := p.skein.toNat, tno := p.tno.toNat, part := p.part.toNat, packets := 1,
    bytes := p.payload.length, totPackets := p.tpackets.toNat, totBytes := p.tbytes.toNat,
    heldTally := tally, fail := st,
    seenAt := s.power.ticks, isReply := false }

/-- The context of a transfer before its first packet. -/
def State.emptyContext (s : State) (p : Pkt) : RxCtx :=
  { src := p.src.toNat, skein := p.skein.toNat, tno := p.tno.toNat, part := p.part.toNat, packets := 0, bytes := 0,
    totPackets := p.tpackets.toNat, totBytes := p.tbytes.toNat, heldTally := none, fail := 0, seenAt := s.power.ticks,
    isReply := false }

/-- What the first packet of a transfer does. -/
def State.countFirst (s : State) (p : Pkt) (act : State → State × Half) (tally : Option Word) : State :=
  if p.tpackets.toNat < 1 ∨ p.tbytes.toNat < p.payload.length then
    ((s.updFabric fun f => { f with countOverruns := f.countOverruns + 1 }).freeContext (s.emptyContext p)).replyTo p 9
      stOVERRUN []
  else if 1 = p.tpackets.toNat ∧ p.payload.length = p.tbytes.toNat then
    (act s).1.completeRx p (s.firstContext p (act s).2 tally)
  else
    (if p.last then (act s).1.updFabric fun f => { f with earlyLast := f.earlyLast + 1 } else (act s).1).putContext
      (s.firstContext p (act s).2 tally)

/-- What a packet does that counts in the context x of its transfer. -/
def State.countOne (s : State) (p : Pkt) (x : RxCtx) (act : State → State × Half) (tally : Option Word) : State :=
  let n := p.payload.length
  if x.totPackets < x.packets + 1 ∨ x.totBytes < x.bytes + n ∨ x.totPackets ≠ p.tpackets.toNat
      ∨ x.totBytes ≠ p.tbytes.toNat then
    ((s.updFabric fun f => { f with countOverruns := f.countOverruns + 1 }).freeContext x).replyTo p 9 stOVERRUN []
  else
    let r := act s
    let x : RxCtx := { x.failed r.2 with
      packets := x.packets + 1, bytes := x.bytes + n, seenAt := s.power.ticks,
      heldTally := match tally with | some w => some w | none => x.heldTally }
    if x.packets = x.totPackets ∧ x.bytes = x.totBytes then r.1.completeRx p x
    else
      let s := if p.last then r.1.updFabric fun f => { f with earlyLast := f.earlyLast + 1 } else r.1
      s.putContext x

theorem countOne_empty (s : State) (p : Pkt) (act : State → State × Half) (tally : Option Word) :
    s.countOne p (s.emptyContext p) act tally = s.countFirst p act tally := by
  have hbytes : (s.emptyContext p).bytes + p.payload.length = p.payload.length := Nat.zero_add _
  unfold State.countOne State.countFirst
  dsimp only
  rw [hbytes]
  by_cases hover : p.tpackets.toNat < 1 ∨ p.tbytes.toNat < p.payload.length
  · rw [if_pos hover]
    exact if_pos (hover.imp id .inl)
  · rw [if_neg hover]
    refine (if_neg ?_).trans ?_
    · rintro (h | h | h | h)
      · exact hover (.inl h)
      · exact hover (.inr h)
      · exact h rfl
      · exact h rfl
    · cases tally <;> rfl

section
variable {s : State} {p : Pkt} (act : State → State × Half) (tally : Option Word)

theorem countIn_away (h : s.turnsAway p.part.toNat p.src.toNat = true) :
    s.countIn p act tally = s.replyTo p 0xB stPRIVILEGE [] := if_pos h

theorem serves_iff : s.serves p = true ↔
    s.turnsAway p.part.toNat p.src.toNat = false ∧ (s.part p.part.toNat).active = true := by
  unfold State.serves
  rw [Bool.and_eq_true, Bool.not_eq_true']

theorem countIn_stopped (h : s.turnsAway p.part.toNat p.src.toNat = false)
    (hact : (s.part p.part.toNat).active = false) : s.countIn p act tally = s.strayed :=
  (if_neg (by rw [h]; exact Bool.false_ne_true)).trans (if_pos (by rw [hact]; rfl))

section
variable (hserve : s.serves p = true)
include hserve

theorem countIn_ungranted (hg : s.grantOf p = none) : s.countIn p act tally = s.strayed := by
  obtain ⟨haway, hact⟩ := serves_iff.1 hserve
  refine (if_neg (by rw [haway]; exact Bool.false_ne_true)).trans
    ((if_neg (by rw [hact]; exact Bool.false_ne_true)).trans
    ?_)
  rw [hg]

section
variable {g : Granted} (hg : s.grantOf p = some g) (hfresh : ∀ x ∈ s.fabric.contexts, x.isOf p false = false)
include hg hfresh

theorem countIn_repeated (hdone : p.tno.toNat ∈ (g.see p.tno.toNat).done) : s.countIn p act tally = s.strayed := by
  obtain ⟨haway, hact⟩ := serves_iff.1 hserve
  have hnone : s.fabric.contexts.any (fun x => x.isOf p false) = false :=
    List.any_eq_false.2 fun x hx h => Bool.false_ne_true ((hfresh x hx).symm.trans h)
  refine (if_neg (by rw [haway]; exact Bool.false_ne_true)).trans
    ((if_neg (by rw [hact]; exact Bool.false_ne_true)).trans
    ?_)
  rw [hg]
  dsimp only
  rw [hnone, List.contains_iff_mem.2 hdone]
  exact if_pos rfl

/-- The first packet of a transfer that a context is free for. -/
theorem countIn_fresh (hnew : p.tno.toNat ∉ (g.see p.tno.toNat).done)
    (hroom : (s.fabric.contexts.filter fun x => !x.isReply && x.src == g.src && x.skein == g.skein).length < g.count) :
    s.countIn p act tally = (s.seen g p.tno.toNat).countFirst p act tally := by
  obtain ⟨haway, hact⟩ := serves_iff.1 hserve
  have hsrc : (g.see p.tno.toNat).src = g.src ∧ (g.see p.tno.toNat).skein = g.skein ∧
      (g.see p.tno.toNat).count = g.count := by
    unfold Granted.see
    split <;> exact ⟨rfl, rfl, rfl⟩
  refine (if_neg (by rw [haway]; exact Bool.false_ne_true)).trans
    ((if_neg (by rw [hact]; exact Bool.false_ne_true)).trans
    ?_)
  rw [hg]
  dsimp only
  rw [hsrc.1, hsrc.2.1, hsrc.2.2, decide_eq_false (Nat.not_le.2 hroom),
    Bool.eq_false_iff.2 fun h => hnew (List.contains_iff_mem.1 h)]
  refine (if_neg (by rw [Bool.or_false, Bool.and_false]; exact Bool.false_ne_true)).trans ?_
  have hfind : (s.seen g p.tno.toNat).rxContext p = (s.seen g p.tno.toNat).emptyContext p := by
    have hnone : s.fabric.contexts.find? (fun x => x.isOf p false) = none :=
      List.find?_eq_none.2 fun x hx h => Bool.false_ne_true ((hfresh x hx).symm.trans h)
    unfold State.rxContext
    rw [show (s.seen g p.tno.toNat).fabric.contexts = s.fabric.contexts from rfl, hnone]
    rfl
  refine Eq.trans (b := (s.seen g p.tno.toNat).countOne p ((s.seen g p.tno.toNat).rxContext p) act tally) rfl ?_
  rw [hfind, countOne_empty]

end
end
end

theorem freeContext_effect (s : State) (x : RxCtx) :
    (s.freeContext x).fabric.transit = s.fabric.transit ∧ (s.freeContext x).fabric.route = s.fabric.route ∧
      (s.freeContext x).fabric.completed = s.fabric.completed ∧
      (s.freeContext x).fabric.countOverruns = s.fabric.countOverruns ∧ Same 0x400 s (s.freeContext x) := by
  refine ⟨?_, ?_, ?_, ?_, State.freeContext_keeps rfl s x (.refl s)⟩ <;>
  · unfold State.freeContext
    dsimp only
    split <;> rfl

/-- A transfer that is complete and holds no increment is answered with its status. -/
theorem completeRx_plain {s : State} {p : Pkt} {x : RxCtx} (hx : x.heldTally = none) :
    (s.completeRx p x).fabric.transit = s.fabric.transit ++ [(none, s.replyPacket p 9 x.fail [])] ∧
      (s.completeRx p x).fabric.completed = s.fabric.completed + 1 ∧ Same 0x400 s (s.completeRx p x) := by
  obtain ⟨htransit, hroute, hcompleted, -, hsame⟩ := freeContext_effect s x
  have hrun : s.completeRx p x =
      ((s.freeContext x).updFabric fun f => { f with completed := f.completed + 1 }).replyTo p 9 x.fail [] := by
    unfold State.completeRx
    rw [hx]
  generalize hu : (s.freeContext x).updFabric (fun f => { f with completed := f.completed + 1 }) = u at hrun
  have hsu : Same 0x400 s u := by
    rw [← hu]
    exact State.updFabric_keeps rfl _ _ hsame
  have halike : Alike s u := .of_fabric hsu (by rw [← hu]; exact hroute)
  obtain ⟨hfabric, hreply⟩ := replyTo_effect u p 9 x.fail []
  rw [hrun, hfabric, halike.replyPacket, ← hu]
  refine ⟨congrArg (· ++ _) htransit, congrArg (· + 1) hcompleted, ?_⟩
  rw [hu]
  exact hsu.trans hreply

/-- A transfer whose count does not agree is answered with COUNT_OVERRUN. -/
theorem overrun_effect (s : State) (p : Pkt) (x : RxCtx) : ∀ t, t =
    ((s.updFabric fun f => { f with countOverruns := f.countOverruns + 1 }).freeContext x).replyTo p 9 stOVERRUN [] →
    t.fabric.transit = s.fabric.transit ++ [(none, s.replyPacket p 9 stOVERRUN [])] ∧
      t.fabric.countOverruns = s.fabric.countOverruns + 1 ∧ Same 0x400 s t := by
  rintro t rfl
  obtain ⟨htransit, hroute, -, hover, hsame⟩ :=
    freeContext_effect (s.updFabric fun f => { f with countOverruns := f.countOverruns + 1 }) x
  generalize hu : (s.updFabric fun f => { f with countOverruns := f.countOverruns + 1 }).freeContext x = u at *
  have hsu : Same 0x400 s u := (State.updFabric_keeps rfl s _ (.refl s)).trans hsame
  have halike : Alike s u := .of_fabric hsu hroute
  obtain ⟨hfabric, hreply⟩ := replyTo_effect u p 9 stOVERRUN []
  rw [hfabric, halike.replyPacket, hover]
  exact ⟨congrArg (· ++ _) htransit, rfl, hsu.trans hreply⟩

/-! ### Bytes that a packet brings (R105, R110, R125, R297, R414) -/

theorem meetAny_append (xs ys zs : List (Nat × Nat)) : meetAny xs (ys ++ zs) = (meetAny xs ys || meetAny xs zs) := by
  unfold meetAny
  rw [Bool.eq_iff_iff]
  simp only [List.any_append, Bool.or_eq_true, List.any_eq_true]
  constructor
  · rintro ⟨x, hx, h | h⟩
    · exact .inl ⟨x, hx, h⟩
    · exact .inr ⟨x, hx, h⟩
  · rintro (⟨x, hx, h⟩ | ⟨x, hx, h⟩)
    · exact ⟨x, hx, .inl h⟩
    · exact ⟨x, hx, .inr h⟩

/-- The status of bytes for a place of partition q, unless the memories fail. -/
def State.storeStatus (s : State) (q a n : Nat) : Half :=
  if s.accessStatus q a n ≠ stDONE then s.accessStatus q a n
  else if meetAny [(addrLocal a, n)] (s.gatherHolds ++ s.atticHolds q) then stSTALE_SHARD else stDONE

section
variable {s : State} {q a : Nat} {bs : List Byte} {ecc : Ecc}

/-- Bytes that are refused are not stored; a refusal by a gather's hold is counted. -/
theorem storeIn_refused (h : s.storeStatus q a bs.length ≠ stDONE) :
    (s.storeIn q a bs ecc).2 = s.storeStatus q a bs.length ∧ Same 0x40000 s (s.storeIn q a bs ecc).1 := by
  unfold State.storeStatus at *
  rw [meetAny_append] at *
  unfold State.storeIn
  dsimp only
  by_cases hst : s.accessStatus q a bs.length ≠ stDONE
  · rw [if_pos hst, if_pos hst]
    exact ⟨rfl, .refl s⟩
  · rw [if_neg hst] at h
    rw [if_neg hst, if_neg hst]
    cases hg : meetAny [(addrLocal a, bs.length)] s.gatherHolds with
    | true => exact ⟨rfl, State.noteStale_keeps rfl s true (.refl s)⟩
    | false =>
      rw [hg, Bool.false_or] at h
      cases hattic : meetAny [(addrLocal a, bs.length)] (s.atticHolds q) with
      | true => exact ⟨rfl, .refl s⟩
      | false =>
        rw [hattic] at h
        exact absurd rfl h

/-- Bytes that nothing refuses meet the memories. -/
theorem storeIn_admitted (h : s.storeStatus q a bs.length = stDONE) : s.storeIn q a bs ecc =
    (s.accessErrors [] [(addrLocal a, bs.length)] ecc).2.elim
      ((s.accessErrors [] [(addrLocal a, bs.length)] ecc).1.storeRun (addrLocal a) bs, stDONE)
      fun bad => ((s.accessErrors [] [(addrLocal a, bs.length)] ecc).1.fault stECC 1 (memUnit bad).1 (memUnit bad).2
        [q] bad 0, stECC) := by
  unfold State.storeStatus at h
  rw [meetAny_append] at h
  by_cases hst : s.accessStatus q a bs.length ≠ stDONE
  · rw [if_pos hst] at h
    exact absurd h hst
  · rw [if_neg hst] at h
    unfold State.storeIn
    dsimp only
    rw [if_neg hst]
    cases hg : meetAny [(addrLocal a, bs.length)] s.gatherHolds with
    | true =>
      rw [hg] at h
      exact absurd h (show stSTALE_SHARD ≠ stDONE by decide)
    | false =>
      cases hattic : meetAny [(addrLocal a, bs.length)] (s.atticHolds q) with
      | true =>
        rw [hg, hattic] at h
        exact absurd h (show stSTALE_SHARD ≠ stDONE by decide)
      | false =>
        cases (s.accessErrors [] [(addrLocal a, bs.length)] ecc).2 <;> rfl

/-- Bytes stored. -/
theorem storeIn_stored (h : s.storeStatus q a bs.length = stDONE)
    (hgood : (s.accessErrors [] [(addrLocal a, bs.length)] ecc).2 = none) :
    (s.storeIn q a bs ecc).2 = stDONE ∧ (s.storeIn q a bs ecc).1.mem = memPut s.mem (addrLocal a) bs ∧
      Same 0x20804C s (s.storeIn q a bs ecc).1 := by
  have hsame := accessErrors_same s [] [(addrLocal a, bs.length)] ecc
  rw [storeIn_admitted h, hgood]
  generalize (s.accessErrors [] [(addrLocal a, bs.length)] ecc).1 = u at hsame
  refine ⟨rfl, (State.storeRun_mem ..).trans ?_, (hsame.mono rfl).trans (State.storeRun_keeps rfl u _ _ (.refl u))⟩
  rw [hsame.mem_eq rfl]

/-- Bytes that are refused, or that the memories take: the answer and what it leaves. -/
theorem storeIn_answered (h : s.storeStatus q a bs.length ≠ stDONE ∨
    (s.accessErrors [] [(addrLocal a, bs.length)] ecc).2 = none) :
    (s.storeIn q a bs ecc).2 = s.storeStatus q a bs.length ∧ Same 0x24804C s (s.storeIn q a bs ecc).1 ∧
      (s.storeStatus q a bs.length = stDONE → (s.storeIn q a bs ecc).1.mem = memPut s.mem (addrLocal a) bs) ∧
      (s.storeStatus q a bs.length ≠ stDONE → (s.storeIn q a bs ecc).1.mem = s.mem) := by
  by_cases hst : s.storeStatus q a bs.length = stDONE
  · obtain ⟨hstatus, hmem, hsame⟩ := storeIn_stored hst (h.resolve_left fun hne => hne hst)
    exact ⟨hstatus.trans hst.symm, hsame.mono rfl, fun _ => hmem, fun hne => absurd hst hne⟩
  · obtain ⟨hstatus, hsame⟩ := storeIn_refused (ecc := ecc) hst
    exact ⟨hstatus, hsame.mono rfl, fun h => absurd h hst, fun _ => hsame.mem_eq rfl⟩

/-- A write that fails for good is a fault of the partition. -/
theorem storeIn_fails (h : s.storeStatus q a bs.length = stDONE)
    (hbad : (s.accessErrors [] [(addrLocal a, bs.length)] ecc).2 ≠ none) : ∃ u bad, Same 0x8 s u ∧
      s.storeIn q a bs ecc = (u.fault stECC 1 (memUnit bad).1 (memUnit bad).2 [q] bad 0, stECC) := by
  obtain ⟨bad, hbad⟩ := Option.ne_none_iff_exists'.1 hbad
  refine ⟨_, bad, accessErrors_same s [] [(addrLocal a, bs.length)] ecc, ?_⟩
  rw [storeIn_admitted h, hbad]
  rfl

end

/-- The first packet of a transfer that is also its last ends it. -/
theorem countFirst_ends (s : State) (p : Pkt) (act : State → State × Half) (tally : Option Word)
    (h1 : p.tpackets.toNat = 1) (hlen : p.payload.length = p.tbytes.toNat) :
    s.countFirst p act tally = (act s).1.completeRx p (s.firstContext p (act s).2 tally) := by
  unfold State.countFirst
  rw [if_neg (by omega), if_pos ⟨h1.symm, hlen⟩]

/-- The first of several packets leaves its context. -/
theorem countFirst_begins (s : State) (p : Pkt) (act : State → State × Half) (tally : Option Word)
    (h1 : 1 < p.tpackets.toNat) (hlen : p.payload.length ≤ p.tbytes.toNat) :
    s.countFirst p act tally =
      (if p.last then (act s).1.updFabric fun f => { f with earlyLast := f.earlyLast + 1 } else (act s).1).putContext
        (s.firstContext p (act s).2 tally) := by
  unfold State.countFirst
  rw [if_neg (by omega), if_neg (by omega)]

theorem storeStatus_or {st : Half} {held : Bool} {bad : Option Nat} (h : st ≠ stDONE ∨ held = true ∨ bad = none) :
    (if st ≠ stDONE then st else if held then stSTALE_SHARD else stDONE) ≠ stDONE ∨ bad = none := by
  obtain h | h | h := h
  · rw [if_pos h]
    exact .inl h
  · rw [h]
    refine .inl ?_
    split
    · assumption
    · exact show stSTALE_SHARD ≠ stDONE by decide
  · exact .inr h

/-! ### WRITE -/

theorem received_grantOf (s : State) (k : Nat) (p : Pkt) : (s.received k p).grantOf p = s.grantOf p :=
  received_flow s k p (fun f => f.grants.find? fun g : Granted =>
    g.src == p.src.toNat && g.skein == p.skein.toNat && g.part == p.part.toNat) fun _ => rfl

/-- A WRITE that nothing makes wait is counted in its transfer. -/
theorem onWrite_counts {s : State} {port : Option Nat} {p : Pkt} {ecc : Ecc}
    (h : s.serves p = false ∨ s.writeStalls p = false) :
    s.onWrite port p ecc = s.countIn p (fun s => s.writeIn p ecc) none := by
  refine if_neg ?_
  obtain h | h := h <;> rw [h]
  · exact Bool.false_ne_true
  · rw [Bool.and_false]
    exact Bool.false_ne_true

theorem Alike.storeStatus {s t : State} (h : Alike s t) (q a n : Nat) : t.storeStatus q a n = s.storeStatus q a n := by
  unfold State.storeStatus
  rw [h.accessStatus, h.gatherHolds, h.atticHolds]

theorem seen_alike (s : State) (g : Granted) (n : Nat) : Alike s (s.seen g n) :=
  .of_fabric (State.updGrant_keeps rfl s _ _ _ (.refl s)) rfl

/-- Settles O43: a WRITE by what its partition, its grant and its place say. -/
theorem writesAreStoredAndAcknowledged : Obligations.WritesAreStoredAndAcknowledged := by
  intro k p ecc s hkind hd
  have hrun : exec (.write k p ecc) s = .next ((s.received k p).onWrite (some k.val) p ecc) :=
    (if_pos hkind).trans (congrArg _ (arrival_delivers (fun s port p => s.onWrite port p ecc) hd))
  have halike := received_alike s k p
  obtain ⟨-, hparts, -⟩ := received_effect s k p
  have htransit := received_flow s k p (·.transit) fun _ => rfl
  have hcontexts := received_flow s k p (·.contexts) fun _ => rfl
  have hcompleted := received_flow s k p (·.completed) fun _ => rfl
  have hstray := received_flow s k p (·.stray) fun _ => rfl
  have hover' := received_flow s k p (·.countOverruns) fun _ => rfl
  have hgrant := received_grantOf s k p
  generalize s.received k p = u at hrun halike hparts htransit hcontexts hcompleted hstray hover' hgrant
  refine ⟨fun hserve hstall => ?_, fun haway => ?_, fun hno hor => ?_, fun g hserve hstall hg hfresh =>
    ⟨fun hdone => ?_, fun hnew hroom => ⟨fun hover => ?_, fun st held bad hst hheld hbad => ⟨fun h1 hlen hok => ?_,
      fun h1 hlen hst0 hheld0 hbad0 => ?_, fun h1 hlen hok => ?_⟩⟩⟩⟩
  · obtain ⟨hkept, -, hdone, hsame⟩ := keep_effect u k p
    refine ⟨_, hrun.trans (congrArg _ (if_pos ?_)), ?_, hdone.trans hcompleted, (hsame.mem_eq rfl).trans halike.mem,
      (hsame.parts_eq rfl).trans hparts, (hsame.cores_eq rfl).trans halike.cores⟩
    · rw [halike.serves, halike.writeStalls, hserve, hstall]
      rfl
    · rw [hkept]
      exact List.mem_append_right _ (List.mem_singleton.2 rfl)
  · have hserve : s.serves p = false := by
      unfold State.serves
      rw [haway]
      rfl
    rw [onWrite_counts (.inl ((halike.serves p).trans hserve)), countIn_away _ _ ((halike.turnsAway ..).trans haway)]
      at hrun
    obtain ⟨hfabric, hsame⟩ := replyTo_effect u p 0xB stPRIVILEGE []
    obtain ⟨-, hk, hdest, -, -, hstatus, -⟩ := replyPacket_fields u p 0xB stPRIVILEGE []
    refine ⟨_, _, hrun, ?_, hk, hstatus, hdest, (hsame.mem_eq rfl).trans halike.mem⟩
    rw [hfabric, ← htransit]
  · have hcount : u.onWrite (some k.val) p ecc = u.strayed := by
      cases hact : (s.part p.part.toNat).active with
      | false =>
        have hserve : s.serves p = false := by
          unfold State.serves
          rw [hact]
          exact Bool.and_false _
        rw [onWrite_counts (.inl ((halike.serves p).trans hserve)),
          countIn_stopped _ _ ((halike.turnsAway ..).trans hno) ((halike.active _).trans hact)]
      | true =>
        obtain hidle | ⟨hnone, hstall⟩ := hor
        · exact absurd (hact.symm.trans hidle) (by decide)
        · rw [onWrite_counts (.inr ((halike.writeStalls p).trans hstall)),
            countIn_ungranted _ _ ((halike.serves p).trans (serves_iff.2 ⟨hno, hact⟩)) (hgrant.trans hnone)]
    rw [hcount] at hrun
    obtain ⟨hfabric, hsame⟩ := strayed_effect u
    refine ⟨_, hrun, ?_, (hsame.mem_eq rfl).trans halike.mem, ?_⟩
    · rw [hfabric, ← hstray]
    · rw [hfabric, ← htransit]
  all_goals
    have hcount := onWrite_counts (port := some k.val) (ecc := ecc) (.inr ((halike.writeStalls p).trans hstall))
    have hserve' := (halike.serves p).trans hserve
    have hg' := hgrant.trans hg
    have hfresh' : ∀ x ∈ u.fabric.contexts, x.isOf p false = false := by rwa [hcontexts]
  · rw [hcount, countIn_repeated _ _ hserve' hg' hfresh' hdone] at hrun
    obtain ⟨hfabric, hsame⟩ := strayed_effect u
    refine ⟨_, hrun, ?_, (hsame.mem_eq rfl).trans halike.mem, ?_⟩
    · rw [hfabric, ← hstray]
    · rw [hfabric, ← htransit]
  all_goals
    have hfirst := countIn_fresh (fun s => s.writeIn p ecc) none hserve' hg' hfresh' hnew (by rwa [hcontexts])
    have hseen := halike.trans (seen_alike u g p.tno.toNat)
    rw [hcount, hfirst] at hrun
    have hvparts := hparts
    have hvtransit : (u.seen g p.tno.toNat).fabric.transit = s.fabric.transit := htransit
    have hvcompleted : (u.seen g p.tno.toNat).fabric.completed = s.fabric.completed := hcompleted
    have hvover : (u.seen g p.tno.toNat).fabric.countOverruns = s.fabric.countOverruns := hover'
    rw [← show (u.seen g p.tno.toNat).parts = u.parts from rfl] at hvparts
    generalize u.seen g p.tno.toNat = v at hrun hseen hvparts hvtransit hvcompleted hvover
  · obtain ⟨hout, hn, hsame⟩ := overrun_effect v p (v.emptyContext p) _ rfl
    obtain ⟨-, hk, -, -, -, hstatus, -⟩ := replyPacket_fields v p 9 stOVERRUN []
    refine ⟨_, _, hrun.trans (congrArg _ (if_pos ?_)), hout.trans (by rw [hvtransit]), hk, hstatus,
      (hsame.mem_eq rfl).trans hseen.mem, hn.trans (by rw [hvover])⟩
    obtain h | h := hover
    · exact .inr h
    · exact .inl (by rw [h]; decide)
  all_goals
    have hstatus : v.storeStatus p.part.toNat p.addr.toNat p.payload.length =
        if st ≠ stDONE then st else if held then stSTALE_SHARD else stDONE := by
      rw [hseen.storeStatus, State.storeStatus, ← hst, ← hheld]
    have hverrors : (v.accessErrors [] [(addrLocal p.addr.toNat, p.payload.length)] ecc).2 = bad :=
      (accessErrors_congr hseen.memStat ..).trans hbad.symm
  · have hends := countFirst_ends v p (fun s => s.writeIn p ecc) none (by rw [h1]; rfl) hlen.symm
    rw [hends] at hrun
    obtain ⟨hanswer, hsame, hstored, hrefused⟩ := storeIn_answered (s := v) (ecc := ecc) (q := p.part.toNat)
      (a := p.addr.toNat) (bs := p.payload) (by
        rw [hstatus, hverrors]
        exact storeStatus_or hok)
    obtain ⟨hsent, hdone, hlast⟩ := completeRx_plain (s := (v.writeIn p ecc).1) (p := p)
      (x := v.firstContext p (v.writeIn p ecc).2 none) rfl
    obtain ⟨hcls, hk, hdest, htno, hskein, hst', -⟩ :=
      replyPacket_fields (v.writeIn p ecc).1 p 9 (v.firstContext p (v.writeIn p ecc).2 none).fail []
    have hfabric : (v.writeIn p ecc).1.fabric = v.fabric := hsame.fabric.resolve_left (by decide)
    refine ⟨_, _, hrun, hsent.trans (by rw [hfabric, hvtransit]), hcls, hk, hdest, htno, hskein,
      hdone.trans (by rw [hfabric, hvcompleted]), ((hlast.parts_eq rfl).trans (hsame.parts_eq rfl)).trans hvparts,
      hst'.trans (hanswer.trans hstatus), fun h a => ?_, fun h => ?_⟩
    · have hmem : (v.writeIn p ecc).1.mem = _ := hstored (hanswer.symm.trans (hst'.symm.trans h))
      rw [hlast.mem_eq rfl, hmem, memRead_memPut_run, hseen.mem]
    · exact ((hlast.mem_eq rfl).trans (hrefused fun h' => h (hst'.trans (hanswer.trans h')))).trans hseen.mem
  · have hends := countFirst_ends v p (fun s => s.writeIn p ecc) none (by rw [h1]; rfl) hlen.symm
    rw [hends] at hrun
    obtain ⟨w, a, hw, hfail⟩ := storeIn_fails (s := v) (ecc := ecc) (q := p.part.toNat)
      (a := p.addr.toNat) (bs := p.payload) (by rw [hstatus, hst0, hheld0]; rfl) (by rwa [hverrors])
    rw [show v.writeIn p ecc = _ from hfail] at hrun
    obtain ⟨hsent, -, hlast⟩ := completeRx_plain (p := p) (x := v.firstContext p stECC none)
      (s := w.fault stECC 1 (memUnit a).1 (memUnit a).2 [p.part.toNat] a 0) rfl
    obtain ⟨-, hk, -, -, -, hst', -⟩ := replyPacket_fields
      (w.fault stECC 1 (memUnit a).1 (memUnit a).2 [p.part.toNat] a 0) p 9 (v.firstContext p stECC none).fail []
    refine ⟨_, _, hrun, ?_, hk, hst', ?_, ?_⟩
    · rw [hsent]
      exact List.mem_append_right _ (List.mem_singleton.2 rfl)
    · rw [hlast.part_eq rfl, fault_active, if_pos (List.mem_singleton.2 rfl)]
    · rw [hlast.links_eq rfl, fault_faultTaken, faultsAfter_congr (s := v) (by rw [hw.fw.resolve_left (by decide)])
        (by rw [hw.links_eq rfl]), hseen.faultsAfter]
  · obtain ⟨hanswer, hsame, -, -⟩ := storeIn_answered (s := v) (ecc := ecc) (q := p.part.toNat)
      (a := p.addr.toNat) (bs := p.payload) (by
        rw [hstatus, hverrors]
        exact storeStatus_or hok)
    rw [countFirst_begins v p (fun s => s.writeIn p ecc) none h1 hlen] at hrun
    refine ⟨_, v.firstContext p (v.writeIn p ecc).2 none, hrun, ?_, ?_, rfl, rfl, ?_⟩
    · exact List.mem_append_right _ (List.mem_singleton.2 rfl)
    · unfold RxCtx.isOf State.firstContext
      simp
    · have hfabric : (v.writeIn p ecc).1.fabric = v.fabric := hsame.fabric.resolve_left (by decide)
      unfold State.putContext State.updFabric
      dsimp only
      rw [apply_ite State.fabric]
      rw [apply_ite Fabric.transit]
      dsimp only
      rw [ite_self, hfabric, hvtransit]

end Sys2Proof.Machine
end


section
/-! SUPPORT. Proofs/Reads.lean: TALLY and READ delivered here (O44). -/

namespace Sys2Proof.Machine

/-! ### Bytes in pieces (R288) -/

theorem memBytes_add (m : Mem) (a n k : Nat) : memBytes m a (n + k) = memBytes m a n ++ memBytes m (a + n) k := by
  unfold memBytes
  rw [List.range_add, List.map_append, List.map_map]
  simp [Function.comp_def, Nat.add_assoc]

theorem length_memBytes (m : Mem) (a n : Nat) : (memBytes m a n).length = n := by simp [memBytes]

/-- The first j pieces of 256 bytes of a range. -/
theorem memBytes_pieces (m : Mem) (a n j : Nat) :
    (List.range j).flatMap (fun i => memBytes m (a + 256 * i) (min 256 (n - 256 * i))) =
      memBytes m a (min n (256 * j)) := by
  induction j with
  | zero => simp [memBytes]
  | succ j ih =>
    rw [List.range_succ, List.flatMap_append, ih, List.flatMap_singleton]
    obtain h | h := Nat.le_total n (256 * j)
    · rw [Nat.sub_eq_zero_of_le h, Nat.min_zero, Nat.min_eq_left h, Nat.min_eq_left (by omega)]
      exact List.append_nil _
    · rw [Nat.min_eq_right h, ← memBytes_add]
      congr 1
      omega

/-- The answer to a READ carries the bytes it asks for, at most 256 in a packet. -/
theorem readAnswer_effect (s : State) (p : Pkt) :
    (s.readAnswer p).flatMap (·.payload) = memBytes s.mem (addrLocal p.addr.toNat) p.tbytes.toNat ∧
      ∀ q ∈ s.readAnswer p, q.kind = 8 ∧ q.dest = p.src ∧ q.payload.length ≤ 256 := by
  unfold State.readAnswer
  dsimp only
  constructor
  · rw [List.flatMap_map]
    refine (memBytes_pieces s.mem (addrLocal p.addr.toNat) p.tbytes.toNat _).trans ?_
    congr 1
    unfold ceilDiv
    omega
  · intro q hq
    obtain ⟨i, -, rfl⟩ := List.mem_map.1 hq
    refine ⟨rfl, (BitVec.ofNat_toNat ..).trans (BitVec.setWidth_eq _), ?_⟩
    show (memBytes _ _ (min 256 _)).length ≤ 256
    rw [length_memBytes]
    exact Nat.min_le_left ..

/-- Packets handed to the fabric one after the other. -/
theorem foldl_inject (ps : List Pkt) (s : State) :
    ps.foldl State.inject s =
      { s with fabric := { s.fabric with transit := s.fabric.transit ++ ps.map fun q => (none, q) } } := by
  induction ps generalizing s with
  | nil => simp
  | cons q ps ih =>
    rw [List.foldl_cons, ih]
    simp [State.inject]

/-! ### TALLY -/

/-- A transfer that is complete and holds an increment for a core of its partition: added, and answered. -/
theorem completeRx_tally {s : State} {p : Pkt} {x : RxCtx} {w : Word} (hx : x.heldTally = some w) (hf : x.fail = stDONE)
    (hopen : s.coreOpen (fld w 0 9) = true) : ∃ q, (none, q) ∈ (s.completeRx p x).fabric.transit ∧
      q.kind = 9 ∧ q.tno = p.tno ∧ q.status = s.tallyStatus x.part (fld w 0 9) ∧
      (s.completeRx p x).mem = s.mem ∧ (s.completeRx p x).cores =
        (if q.status = stDONE then s.addTally (fld w 0 9) (fld w 16 8) (BitVec.ofNat 32 (fld w 24 8)) else
          s).cores := by
  generalize hv : (if s.tallyStatus x.part (fld w 0 9) = stDONE
    then s.addTally (fld w 0 9) (fld w 16 8) (BitVec.ofNat 32 (fld w 24 8)) else s) = v
  have hrun : s.completeRx p x = ((v.freeContext x).updFabric fun f =>
    { f with completed := f.completed + 1 }).replyTo p
      9 (s.tallyStatus x.part (fld w 0 9)) [] := by
    unfold State.completeRx
    rw [hx, hf, ← hv]
    dsimp only
    rw [if_pos rfl, if_congr (and_iff_left hopen) rfl rfl]
  have hkeep : Same 0x84C0 s v := by
    rw [← hv]
    exact kept_ite _ _ _ (State.addTally_keeps rfl s _ _ _ (.refl s)) (.refl s)
  generalize hu : (v.freeContext x).updFabric (fun f => { f with completed := f.completed + 1 }) = u at hrun
  have hvu : Same 0x400 v u := by
    rw [← hu]
    exact State.updFabric_keeps rfl _ _ (State.freeContext_keeps rfl v x (.refl v))
  obtain ⟨hfabric, hsame⟩ := replyTo_effect u p 9 (s.tallyStatus x.part (fld w 0 9)) []
  obtain ⟨-, hk, -, htno, -, hst, -⟩ := replyPacket_fields u p 9 (s.tallyStatus x.part (fld w 0 9)) []
  refine ⟨_, ?_, hk, htno, hst, ?_, ?_⟩
  · rw [hrun, hfabric]
    exact List.mem_append_right _ (List.mem_singleton.2 rfl)
  · rw [hrun, hsame.mem_eq rfl, hvu.mem_eq rfl, hkeep.mem_eq rfl]
  · rw [hrun, hsame.cores_eq rfl, hvu.cores_eq rfl, hst, hv]

/-- The core of an increment, in its word and in the payload. -/
theorem fld_tallyWord (n : Nat) : fld (BitVec.ofNat 32 n : Word) 0 9 = n % 512 := by
  unfold fld
  rw [BitVec.toNat_ofNat, Nat.shiftRight_zero]
  omega

/-! ### READ -/

/-- The state in which the grant has seen the transfer number of a READ, which is then finished. -/
def State.readSeen (s : State) (g : Granted) (n : Nat) : State :=
  s.updGrant g.src g.skein fun _ => (g.see n).finish n

theorem readSeen_alike (s : State) (g : Granted) (n : Nat) : Alike s (s.readSeen g n) :=
  .of_fabric (State.updGrant_keeps rfl s _ _ _ (.refl s)) rfl

section
variable {s : State} {port : Option Nat} {p : Pkt} {ecc : Ecc} {g : Granted} (hserve : s.serves p = true)
  (hg : s.grantOf p = some g) (hnew : p.tno.toNat ∉ (g.see p.tno.toNat).done)
include hserve hg hnew

/-- A READ of a transfer that is not finished, by its address and by what stands in its way. -/
theorem onRead_new : s.onRead port p ecc =
    if s.accessStatus p.part.toNat p.addr.toNat p.tbytes.toNat ≠ stDONE then
      (s.readSeen g p.tno.toNat).replyTo p 0xB
        (s.accessStatus p.part.toNat p.addr.toNat p.tbytes.toNat) []
    else if !s.extOpen (addrLocal p.addr.toNat) p.tbytes.toNat then s.keep port p
    else if s.lineHeld (addrLocal p.addr.toNat) p.tbytes.toNat false then
      (s.recallFor (addrLocal p.addr.toNat) p.tbytes.toNat false).keep port p
    else ((s.readSeen g p.tno.toNat).readErrors
        [(addrLocal p.addr.toNat, p.tbytes.toNat)] ecc).2.elim
      ((s.readAnswer p).foldl State.inject ((s.readSeen g p.tno.toNat).readErrors
        [(addrLocal p.addr.toNat, p.tbytes.toNat)] ecc).1)
      fun bad => (((s.readSeen g p.tno.toNat).readErrors
        [(addrLocal p.addr.toNat, p.tbytes.toNat)] ecc).1.fault stECC 1 (memUnit bad).1 (memUnit bad).2
          [p.part.toNat] bad 0).replyTo p 0xB stECC [] := by
  obtain ⟨haway, hact⟩ := serves_iff.1 hserve
  have hsrc : (g.see p.tno.toNat).src = g.src ∧ (g.see p.tno.toNat).skein = g.skein := by
    unfold Granted.see
    split <;> exact ⟨rfl, rfl⟩
  unfold State.onRead State.readSeen
  dsimp only
  rw [if_neg (by rw [haway]; exact Bool.false_ne_true), if_neg (by rw [hact]; exact Bool.false_ne_true), hg]
  dsimp only
  rw [hsrc.1, hsrc.2, if_neg fun h => hnew (List.contains_iff_mem.1 h)]
  cases ((s.updGrant g.src g.skein fun _ => (g.see p.tno.toNat).finish p.tno.toNat).readErrors
    [(addrLocal p.addr.toNat, p.tbytes.toNat)] ecc).2 <;> rfl

end

/-- Settles O44: TALLY by its core, READ by its place and what the memories meet. -/
theorem tallyAndReadArePerformed : Obligations.TallyAndReadArePerformed := by
  intro k p ecc s hd hserve g hg hnew
  have halike := received_alike s k p
  have htransit := received_flow s k p (·.transit) fun _ => rfl
  have hcontexts := received_flow s k p (·.contexts) fun _ => rfl
  have hgrant := received_grantOf s k p
  obtain ⟨-, hparts, -⟩ := received_effect s k p
  refine ⟨fun hkind w hw => ?_, fun hkind st a n hst ha hn => ?_⟩
  · have hrun : exec (.tally k p) s = .next ((s.received k p).onTally (some k.val) p) :=
      (if_pos hkind).trans (congrArg _ (arrival_delivers State.onTally hd))
    generalize s.received k p = u at hrun halike hparts htransit hcontexts hgrant
    have hserve' := (halike.serves p).trans hserve
    have hcore : fld w 0 9 = leAt p.payload 0 4 % 512 := by rw [hw, fld_tallyWord]
    refine ⟨fun hclosed => ?_, fun hopen hfresh hroom h1 hlen => ?_⟩
    · obtain ⟨hkept, -, -, hsame⟩ := keep_effect u k p
      refine ⟨_, hrun.trans (congrArg _ (if_pos ?_)), ?_, (hsame.mem_eq rfl).trans halike.mem,
        (hsame.cores_eq rfl).trans halike.cores⟩
      · rw [hserve', halike.coreOpen, hclosed]
        rfl
      · rw [hkept]
        exact List.mem_append_right _ (List.mem_singleton.2 rfl)
    · have hfirst := countIn_fresh (fun s => (s, stDONE)) (some w) hserve' (hgrant.trans hg) (by rwa [hcontexts]) hnew
        (by rwa [hcontexts])
      have hseen := halike.trans (seen_alike u g p.tno.toNat)
      rw [countFirst_ends _ p _ _ (by rw [h1]; rfl) hlen.symm] at hfirst
      have htally : u.onTally (some k.val) p = u.countIn p (fun s => (s, stDONE)) (some w) := by
        rw [hw]
        exact if_neg (by rw [halike.coreOpen, hopen, Bool.not_true, Bool.and_false]; exact Bool.false_ne_true)
      rw [htally, hfirst] at hrun
      generalize u.seen g p.tno.toNat = v at hrun hseen
      obtain ⟨q, hq, hk, htno, hstatus, hmem, hcores⟩ := completeRx_tally (s := v) (p := p)
        (x := v.firstContext p stDONE (some w)) rfl rfl (by rw [hseen.coreOpen, hcore]; exact hopen)
      have htallies : ∀ c n, v.tallyOf c n = s.tallyOf c n := fun c n => hseen.same.tallyOf_eq rfl c n
      refine ⟨_, q, hrun, hq, hk, htno, hstatus.trans (hseen.tallyStatus ..), hmem.trans hseen.mem, fun h => ?_,
        fun h c n => ?_⟩
      · rw [if_pos h] at hcores
        rw [State.tallyOf, State.core, hcores]
        exact (addTally_tallyOf ..).trans ((if_pos ⟨rfl, rfl⟩).trans (congrArg (· + _) (htallies ..)))
      · rw [if_neg h] at hcores
        rw [State.tallyOf, State.core, hcores]
        exact htallies c n
  · have hrun : exec (.read k p ecc) s = .next ((s.received k p).onRead (some k.val) p ecc) :=
      (if_pos hkind).trans (congrArg _ (arrival_delivers (fun s port p => s.onRead port p ecc) hd))
    generalize s.received k p = u at hrun halike hparts htransit hcontexts hgrant
    rw [onRead_new ((halike.serves p).trans hserve) (hgrant.trans hg) hnew, halike.accessStatus, halike.extOpen,
      halike.lineHeld, ← hst, ← ha, ← hn] at hrun
    refine ⟨fun h0 hor => ?_, fun h0 hopen hfree => ?_, fun hne => ?_⟩
    · rw [if_neg (not_not.2 h0)] at hrun
      have hkept : ∀ v, Same 0x208400 u v → (some k.val, { p with owner := none }) ∈
        (v.keep (some k) p).fabric.transit ∧
          (v.keep (some k) p).mem = s.mem ∧ (v.keep (some k) p).cores = s.cores := by
        intro v hv
        obtain ⟨hkept, -, -, hsame⟩ := keep_effect v k p
        refine ⟨?_, ((hsame.mem_eq rfl).trans (hv.mem_eq rfl)).trans halike.mem,
          ((hsame.cores_eq rfl).trans (hv.cores_eq rfl)).trans halike.cores⟩
        rw [hkept]
        exact List.mem_append_right _ (List.mem_singleton.2 rfl)
      cases hopen : s.extOpen a n with
      | false =>
        rw [hopen] at hrun
        exact ⟨_, hrun, hkept u (.refl u)⟩
      | true =>
        obtain h | h := hor
        · exact absurd (hopen.symm.trans h) (by decide)
        · rw [hopen, h] at hrun
          exact ⟨_, hrun, hkept _ (State.recallFor_keeps rfl u a n false (.refl u))⟩
    · rw [if_neg (not_not.2 h0), hopen, hfree, halike.readAnswer] at hrun
      have hseen := halike.trans (readSeen_alike u g p.tno.toNat)
      have hvparts : (u.readSeen g p.tno.toNat).parts = u.parts := rfl
      have hvtransit : (u.readSeen g p.tno.toNat).fabric.transit = u.fabric.transit := rfl
      have herrors : ((u.readSeen g p.tno.toNat).readErrors [(a, n)] ecc).2 = (s.readErrors [(a, n)] ecc).2 :=
        accessErrors_congr hseen.memStat ..
      have hread := accessErrors_same (u.readSeen g p.tno.toNat) [(a, n)] [] ecc
      change Same 0x8 _ ((u.readSeen g p.tno.toNat).readErrors [(a, n)] ecc).1 at hread
      generalize u.readSeen g p.tno.toNat = v at hrun hseen hvparts hvtransit herrors hread
      rw [herrors] at hrun
      generalize (v.readErrors [(a, n)] ecc).1 = w at hrun hread
      refine ⟨fun hgood => ?_, fun hbad => ?_⟩
      · rw [hgood] at hrun
        obtain ⟨hbytes, hall⟩ := readAnswer_effect s p
        have hsent : ((s.readAnswer p).foldl State.inject w) = _ := foldl_inject (s.readAnswer p) w
        refine ⟨_, hrun, ?_, ?_, ?_, by rw [hbytes, ha, hn], hall⟩
        · exact (congrArg State.mem hsent).trans ((hread.mem_eq rfl).trans hseen.mem)
        · exact (congrArg State.parts hsent).trans ((hread.parts_eq rfl).trans (hvparts.trans hparts))
        · refine (congrArg (fun t : State => t.fabric.transit) hsent).trans ?_
          have hfabric : w.fabric = v.fabric := hread.fabric.resolve_left (by decide)
          exact congrArg (· ++ _) ((congrArg Fabric.transit hfabric).trans (hvtransit.trans htransit))
      · obtain ⟨bad, hbad⟩ := Option.ne_none_iff_exists'.1 hbad
        rw [hbad] at hrun
        replace hrun : exec (.read k p ecc) s = .next
          ((w.fault stECC 1 (memUnit bad).1 (memUnit bad).2 [p.part.toNat] bad 0).replyTo p 0xB stECC []) := hrun
        generalize hx : w.fault stECC 1 (memUnit bad).1 (memUnit bad).2 [p.part.toNat] bad 0 = x at hrun
        obtain ⟨hfabric, hsame⟩ := replyTo_effect x p 0xB stECC []
        obtain ⟨-, hk, -, -, -, hstatus, -⟩ := replyPacket_fields x p 0xB stECC []
        refine ⟨_, _, hrun, ?_, hk, hstatus, ?_, ?_⟩
        · rw [hfabric]
          exact List.mem_append_right _ (List.mem_singleton.2 rfl)
        · rw [hsame.part_eq rfl, ← hx, fault_active, if_pos (List.mem_singleton.2 rfl)]
        · rw [hsame.links_eq rfl, ← hx, fault_faultTaken, faultsAfter_congr (s := v)
            (by rw [hread.fw.resolve_left (by decide)]) (by rw [hread.links_eq rfl]), hseen.faultsAfter]
    · rw [if_pos hne] at hrun
      have hseen := halike.trans (readSeen_alike u g p.tno.toNat)
      have hvtransit : (u.readSeen g p.tno.toNat).fabric.transit = u.fabric.transit := rfl
      generalize u.readSeen g p.tno.toNat = v at hrun hseen hvtransit
      obtain ⟨hfabric, hsame⟩ := replyTo_effect v p 0xB st []
      obtain ⟨-, hk, -, -, -, hstatus, -⟩ := replyPacket_fields v p 0xB st []
      refine ⟨_, _, hrun, ?_, hk, hstatus, (hsame.mem_eq rfl).trans hseen.mem⟩
      rw [hfabric]
      exact congrArg (· ++ _) (hvtransit.trans htransit)

end Sys2Proof.Machine
end


section
/-! SUPPORT. Proofs/Skeins.lean: OPEN, GRANT, CLOSE and the timers of skeins and transfers (O45). -/

namespace Sys2Proof.Machine

/-! ### OPEN and CLOSE delivered here (R283, R285, R287) -/

/-- The payload of a GRANT: contexts and cores. -/
def grantPayload (n cores : Nat) : List Byte := leBytes 4 (n ||| cores <<< 16) ++ leBytes 4 0

theorem foldl_max_le {b : Nat} : ∀ (l : List Nat) (a : Nat), a ≤ b → (∀ x ∈ l, x ≤ b) → l.foldl max a ≤ b
  | [], _, ha, _ => ha
  | x :: l, a, ha, hl => foldl_max_le l (max a x) (Nat.max_le.2 ⟨ha, hl x List.mem_cons_self⟩)
      fun y hy => hl y (List.mem_cons_of_mem _ hy)

/-- The state in which the contexts that a skein held before its OPEN are free. -/
def State.ungranted (s : State) (p : Pkt) : State := s.updFabric fun f => { f with
  grants := f.grants.filter fun g => !(g.src == p.src.toNat && g.skein == p.skein.toNat) }

/-- The contexts that an OPEN is granted. -/
def State.allotted (s : State) (p : Pkt) : Nat :=
  ((List.range 17).filter fun k => poolOk 16384 (s.ungranted p).contextsHeld
    (fun q => ((s.ungranted p).part q).guar.live.rxctx.toNat) p.part.toNat k).foldl max 0

/-- The grant of an OPEN. -/
def State.grantFor (s : State) (p : Pkt) : Granted :=
  { src := p.src.toNat, skein := p.skein.toNat, part := p.part.toNat, count := s.allotted p, done := [], newest := 255 }

/-- The state in which they are held. -/
def State.granting (s : State) (p : Pkt) : State :=
  if s.allotted p = 0 then s.ungranted p
  else (s.ungranted p).updFabric fun f => { f with grants := f.grants ++ [s.grantFor p] }

theorem allotted_le (s : State) (p : Pkt) : s.allotted p ≤ 16 :=
  foldl_max_le _ 0 (Nat.zero_le _) fun _ hx => Nat.le_of_lt_succ (List.mem_range.1 (List.mem_filter.1 hx).1)

theorem granting_effect (s : State) (p : Pkt) : Same 0x400 s (s.granting p) ∧
    (s.granting p).fabric.transit = s.fabric.transit ∧ (s.granting p).fabric.hold = s.fabric.hold ∧
      (s.granting p).fabric.held = s.fabric.held ∧
      (0 < s.allotted p → s.grantFor p ∈ (s.granting p).fabric.grants) := by
  have hfree : Same 0x400 s (s.ungranted p) := State.updFabric_keeps rfl s _ (.refl s)
  unfold State.granting
  split
  · next h => exact ⟨hfree, rfl, rfl, rfl, fun hpos => absurd h (Nat.pos_iff_ne_zero.1 hpos)⟩
  · exact ⟨State.updFabric_keeps rfl _ _ hfree, rfl, rfl, rfl, fun _ =>
      List.mem_append_right _ (List.mem_singleton.2 rfl)⟩

section
variable {s : State} {port : Option Nat} {p : Pkt}

theorem onOpen_away (h : s.turnsAway p.part.toNat p.src.toNat = true) :
    s.onOpen port p = s.replyTo p 0xB stPRIVILEGE [] := if_pos h

theorem onClose_away (h : s.turnsAway p.part.toNat p.src.toNat = true) :
    s.onClose port p = s.replyTo p 0xB stPRIVILEGE [] := if_pos h

section
variable (h : s.turnsAway p.part.toNat p.src.toNat = false)
include h

theorem onOpen_stopped (hact : (s.part p.part.toNat).active = false) : s.onOpen port p = s.strayed :=
  (if_neg (by rw [h]; exact Bool.false_ne_true)).trans (if_pos (by rw [hact]; rfl))

theorem onClose_stopped (hact : (s.part p.part.toNat).active = false) : s.onClose port p = s.strayed :=
  (if_neg (by rw [h]; exact Bool.false_ne_true)).trans (if_pos (by rw [hact]; rfl))

theorem onClose_closes (hact : (s.part p.part.toNat).active = true) : s.onClose port p = s.updFabric fun f => { f with
    grants := f.grants.filter fun g => !(g.src == p.src.toNat && g.skein == p.skein.toNat),
    contexts := f.contexts.filter fun x => x.isReply || !(x.src == p.src.toNat && x.skein == p.skein.toNat) } :=
  (if_neg (by rw [h]; exact Bool.false_ne_true)).trans (if_neg (by rw [hact]; exact Bool.false_ne_true))

/-- An OPEN that is accepted holds the contexts that its GRANT names. -/
theorem onOpen_grants (hact : (s.part p.part.toNat).active = true) : s.onOpen port p =
    (s.granting p).injectHeld ((s.granting p).replyPacket p 0xA 0 (grantPayload (s.allotted p)
      (s.granting p).coreCount)) :=
  (if_neg (by rw [h]; exact Bool.false_ne_true)).trans (if_neg (by rw [hact]; exact Bool.false_ne_true))

end
end

theorem leBytes_add (m n v : Nat) : leBytes (m + n) v = leBytes m v ++ leBytes n (v >>> (8 * m)) := by
  induction m generalizing v with
  | zero => simp [leBytes]
  | succ m ih =>
    rw [Nat.add_right_comm, leBytes, leBytes, ih, ← Nat.shiftRight_add]
    simp [Nat.mul_add, Nat.add_comm]

/-- What stands in a number's bytes. -/
theorem leAt_run (a : List Byte) {o : Nat} (n v : Nat) (c : List Byte) (ha : a.length = o) :
    leAt (a ++ (leBytes n v ++ c)) o n = v % 2 ^ (8 * n) := by
  rw [leAt, takeAt_middle ha (length_leBytes n v), ofLe_leBytes]

theorem grantPayload_fields {n cores : Nat} (hn : n ≤ 16) (hc : cores < 65536) :
    leAt (grantPayload n cores) 0 2 = n ∧ leAt (grantPayload n cores) 2 2 = cores := by
  have hor : n ||| cores <<< 16 = cores * 65536 + n := by
    rw [Nat.or_comm, ← Nat.shiftLeft_add_eq_or_of_lt (by omega), Nat.shiftLeft_eq]
  unfold grantPayload
  rw [hor, show leBytes 4 _ = _ from leBytes_add 2 2 _, List.append_assoc]
  constructor
  · refine (leAt_run [] 2 _ _ rfl).trans ?_
    omega
  · refine (leAt_run (leBytes 2 _) 2 _ _ (length_leBytes ..)).trans ?_
    rw [Nat.shiftRight_eq_div_pow]
    omega

/-- A packet that route_hold may keep back. -/
theorem injectHeld_effect (s : State) (q : Pkt) :
    (s.fabric.hold = false → (s.injectHeld q).fabric.transit = s.fabric.transit ++ [(none, q)]) ∧
      (s.fabric.hold = true → (s.injectHeld q).fabric.transit = s.fabric.transit ∧
        (s.injectHeld q).fabric.held = s.fabric.held ++ [q]) ∧
      (s.injectHeld q).fabric.grants = s.fabric.grants ∧ (s.injectHeld q).fabric.skeins = s.fabric.skeins ∧
      Same 0x400 s (s.injectHeld q) := by
  unfold State.injectHeld
  cases hh : s.fabric.hold with
  | false => exact ⟨fun _ => rfl, fun h => absurd h Bool.false_ne_true, rfl, rfl, State.inject_keeps rfl s q (.refl s)⟩
  | true => exact ⟨fun h => absurd h.symm Bool.false_ne_true, fun _ => ⟨rfl, rfl⟩, rfl, rfl,
    Same.set_fabric rfl (.refl s)⟩

/-- An OPEN that is accepted, answered. -/
theorem onOpen_answers {s : State} {port : Option Nat} {p : Pkt} (h : s.turnsAway p.part.toNat p.src.toNat = false)
    (hact : (s.part p.part.toNat).active = true) : ∃ q n, q.kind = 0xA ∧
      (s.fabric.hold = false → (s.onOpen port p).fabric.transit = s.fabric.transit ++ [(none, q)]) ∧
      (s.fabric.hold = true → (s.onOpen port p).fabric.transit = s.fabric.transit ∧
        (s.onOpen port p).fabric.held = s.fabric.held ++ [q]) ∧
      q.dest = p.src ∧ n ≤ 16 ∧ leAt q.payload 0 2 = n ∧ leAt q.payload 2 2 = s.coreCount ∧
      (0 < n → ∃ g ∈ (s.onOpen port p).fabric.grants, g.src = p.src.toNat ∧ g.skein = p.skein.toNat ∧ g.count = n) ∧
      Same 0x400 s (s.onOpen port p) := by
  have hrun := onOpen_grants (port := port) h hact
  obtain ⟨hsame, htransit, hhold, hheld, hgrant⟩ := granting_effect s p
  have hn := allotted_le s p
  have hcores : (s.granting p).coreCount = s.coreCount := by
    unfold State.coreCount
    rw [hsame.hw_eq rfl]
  have hcount : s.coreCount < 65536 := by
    unfold State.coreCount
    cases s.hw.grade <;> decide
  obtain ⟨h1, h2⟩ := grantPayload_fields hn hcount
  have hg : (s.grantFor p).src = p.src.toNat ∧ (s.grantFor p).skein = p.skein.toNat ∧
      (s.grantFor p).count = s.allotted p := by
    simp only [State.grantFor, and_self]
  rw [hcores] at hrun
  rw [hrun]
  generalize s.granting p = v at hsame htransit hhold hheld hgrant ⊢
  generalize s.grantFor p = g at hg hgrant
  generalize s.allotted p = n at *
  obtain ⟨-, hkind, hdest, -, -, -, hpayload⟩ := replyPacket_fields v p 0xA 0 (grantPayload n s.coreCount)
  generalize v.replyPacket p 0xA 0 (grantPayload n s.coreCount) = q at *
  obtain ⟨hleaves, hwaits, hkept, -, hlast⟩ := injectHeld_effect v q
  refine ⟨q, n, hkind, fun hf => ?_, fun ht => ?_, hdest, hn, ?_, ?_, fun hpos => ⟨g, ?_, hg⟩, hsame.trans hlast⟩
  · rw [hleaves (hhold.trans hf), htransit]
  · obtain ⟨ha, hb⟩ := hwaits (hhold.trans ht)
    exact ⟨ha.trans htransit, by rw [hb, hheld]⟩
  · rw [hpayload, h1]
  · rw [hpayload, h2]
  · rw [hkept]
    exact hgrant hpos

/-! ### Skeins by their number -/

section
variable {s : State} {n : Nat} {x : Skein}

theorem num_of_skein (h : s.skein n = some x) : x.num = n := beq_iff_eq.1 (List.find?_some h :)

/-- A skein updated is found under its number. -/
theorem skein_updSkein (h : s.skein n = some x) {f : Skein → Skein} (hf : ∀ k, (f k).num = k.num) :
    (s.updSkein n f).skein n = some (f x) := by
  have hnum : ((fun k : Skein => k.num == n) ∘ fun k : Skein => if k.num = n then f k else k) = fun k =>
    k.num == n := by
    funext k
    show ((if k.num = n then f k else k).num == n) = (k.num == n)
    split
    · rw [hf]
    · rfl
  show (s.fabric.skeins.map fun k => if k.num = n then f k else k).find? (fun k => k.num == n) = _
  rw [List.find?_map, hnum, show s.fabric.skeins.find? (fun k => k.num == n) = some x from h]
  exact congrArg some (if_pos (num_of_skein h))

/-- Skeins that are none of this number. -/
theorem skein_none_iff : s.skein n = none ↔ ∀ k ∈ s.fabric.skeins, k.num ≠ n := by
  unfold State.skein
  rw [List.find?_eq_none]
  exact forall₂_congr fun k _ => not_congr beq_iff_eq

theorem skein_dropSkein (s : State) (n : Nat) : (s.dropSkein n).skein n = none :=
  skein_none_iff.2 fun _ hk => bne_iff_ne.1 (List.mem_filter.1 hk).2

end

/-- Where nothing waits, or a hold keeps it, nothing is sent. -/
theorem pump_idle {s : State} (h : s.fabric.hold = true ∨ s.fabric.waiting = []) : s.pump = s := by
  cases hh : s.fabric.hold with
  | true => exact if_pos hh
  | false =>
    have hw : s.fabric.waiting = [] := h.resolve_left (by rw [hh]; exact Bool.false_ne_true)
    have hfab : { s.fabric with waiting := [] } = s.fabric := by rw [← hw]
    unfold State.pump State.openWaiting
    rw [if_neg (by rw [hh]; exact Bool.false_ne_true), hw]
    dsimp only [List.foldl_nil]
    rw [hw]
    dsimp only [List.foldl_nil]
    rw [hfab]

/-! ### What a stop leaves of skeins and of the counts of transfers (R295, R483) -/

/-- The fabric without the traffic that a stop takes away. -/
def Fabric.steady (f : Fabric) : Fabric := { f with
  skeins := [], contexts := [], waiting := [], transit := [], held := [] }

/-- No skein comes, and nothing changes of the fabric but the traffic. -/
structure Settles (s t : State) : Prop where
  skeins : ∀ k ∈ t.fabric.skeins, k ∈ s.fabric.skeins
  steady : t.fabric.steady = s.fabric.steady

namespace Settles
variable {s t u : State}

theorem refl (s : State) : Settles s s := ⟨fun _ h => h, rfl⟩

theorem trans (h : Settles s t) (g : Settles t u) : Settles s u :=
  ⟨fun k hk => h.skeins k (g.skeins k hk), g.steady.trans h.steady⟩

/-- What the fabric says apart from the traffic. -/
theorem keeps {γ : Type} (h : Settles s t) (g : Fabric → γ) (hg : ∀ f : Fabric, g f.steady = g f) :
    g t.fabric = g s.fabric := by
  rw [← hg, ← hg s.fabric]
  exact congrArg g h.steady

theorem retired (h : Settles s t) : t.fabric.retired = s.fabric.retired := h.keeps (·.retired) fun _ => rfl
theorem timeouts (h : Settles s t) : t.fabric.timeouts = s.fabric.timeouts := h.keeps (·.timeouts) fun _ => rfl
theorem timeout (h : Settles s t) : t.fabric.timeout = s.fabric.timeout := h.keeps (·.timeout) fun _ => rfl

theorem of_fabric (h : t.fabric = s.fabric) : Settles s t := by
  refine ⟨fun k hk => ?_, ?_⟩
  · rwa [h] at hk
  · rw [h]

theorem of_same {m : Nat} (h : Same m s t) (hm : m.testBit 10 = false) : Settles s t :=
  .of_fabric (h.fabric.resolve_left (by rw [hm]; exact Bool.false_ne_true))

theorem skein {n : Nat} (h : Settles s t) (hn : s.skein n = none) : t.skein n = none :=
  skein_none_iff.2 fun k hk => skein_none_iff.1 hn k (h.skeins k hk)

end Settles

theorem foldl_settles {α : Type} {g : State → α → State} (hg : ∀ s a, Settles s (g s a)) (l : List α) (s : State) :
    Settles s (l.foldl g s) :=
  foldl_keeps (P := fun t => Settles s t) g (fun _ a h => h.trans (hg _ a)) l s (.refl s)

theorem closeSkein_settles (s : State) (k : Skein) : Settles s (s.closeSkein k) := by
  unfold State.closeSkein State.injectHeld
  split <;> exact ⟨fun _ h => (List.mem_filter.1 h).1, rfl⟩

theorem discard_settles (s : State) (p : Nat) : Settles s (s.discard p) := by
  unfold State.discard
  dsimp only
  generalize (s.coresOf p).flatMap (s.openExtents p) ++ _ ++ _ = exts
  have hfree : Same 0x20884C s (exts.foldl (fun s x => s.freeRange x.1 x.2) s) :=
    kept_foldl (fun s (x : Nat × Nat) => s.freeRange x.1 x.2) exts s
      (fun s x h => State.freeRange_keeps rfl s x.1 x.2 h) (Same.refl s)
  have hcores : Same 0x20884C s ((s.coresOf p).foldl (fun s c => s.updCore c Core.stopped)
      ((exts.foldl (fun s x => s.freeRange x.1 x.2) s).freeLedger p)) :=
    kept_foldl _ _ _ (fun s c h => State.updCore_keeps rfl s c _ h) (State.freeLedger_keeps rfl _ p hfree)
  generalize List.foldl (fun (s : State) c => s.updCore c Core.stopped) _ _ = u at hcores ⊢
  refine (Settles.of_same hcores (by decide)).trans ?_
  generalize hv : ({ u with
    coll := { u.coll with runs := u.coll.runs.filter (·.part != p) },
    fabric := { u.fabric with
      waiting := u.fabric.waiting.filter (·.part != p),
      transit := u.fabric.transit.filter fun t => !(t.1.isNone && t.2.owner == some p),
      held := u.fabric.held.filter fun t => t.owner != some p } } : State) = v
  have huv : Settles u v := by
    rw [← hv]
    exact ⟨fun _ h => h, rfl⟩
  have hclosed := foldl_settles (g := fun s k => s.closeSkein k) closeSkein_settles
    (u.fabric.skeins.filter (·.part == p)) v
  generalize (u.fabric.skeins.filter (·.part == p)).foldl (fun s k => s.closeSkein k) v = w at hclosed ⊢
  exact huv.trans (hclosed.trans (.of_fabric rfl))

theorem stopPart_settles (s : State) (p : Nat) (cause : Half) (keep : Bool) : Settles s (s.stopPart p cause keep) := by
  unfold State.stopPart
  split
  · exact .refl s
  · have hclear : Same 0x20804C (s.discard p)
        (if ((s.discard p).part p).layout.live.excl = 0 then ((s.discard p).coresOf p).foldl
          State.clearCore (s.discard p)
          else s.discard p) :=
      kept_ite _ _ _ (kept_foldl _ _ _ (fun s c h => State.clearCore_keeps rfl s c h) (.refl _)) (.refl _)
    dsimp only
    generalize (if ((s.discard p).part p).layout.live.excl = 0 then _ else _) = u at hclear ⊢
    have hend : Same 0x208180 u ((((u.emptyContexts p).queuesOf p HQueue.discard).updPart p fun q =>
        q.stop cause keep).raiseCause p 2) :=
      State.raiseCause_keeps rfl _ _ _ (State.updPart_keeps rfl _ _ _ (State.queuesOf_keeps rfl _ _ _
        (State.emptyContexts_keeps rfl u p (.refl u))))
    exact (discard_settles s p).trans ((Settles.of_same hclear (by decide)).trans (.of_same hend (by decide)))

theorem fault_settles (s : State) (st : Half) (cls kind unit : Nat) (parts : List Nat) (d0 d1 : Nat) :
    Settles s (s.fault st cls kind unit parts d0 d1) := by
  refine Settles.trans (foldl_settles (fun u p => ?_) parts s)
    (.of_same (State.recordFault_keeps (fp := 0x20C000) rfl _ _ _ _ _ _ _ _ (.refl _)) (by decide))
  split
  · exact stopPart_settles ..
  · exact .of_same (State.disarm_keeps (fp := 0x80) rfl u p (.refl u)) (by decide)

/-! ### A mover that is over stays so -/

theorem fault_mover (s : State) (st : Half) (cls kind unit : Nat) (parts : List Nat) (d0 d1 c : Nat)
    (h : (s.core c).mover = none) : ((s.fault st cls kind unit parts d0 d1).core c).mover = none := by
  refine (congrArg Core.mover ((State.recordFault_keeps (fp := 0x20C000) rfl _ _ _ _ _ _ _ _
    (Same.refl _)).core_eq rfl c)).trans ?_
  refine foldl_keeps (P := fun t : State => (t.core c).mover = none) _ (fun t p ht => ?_) parts s h
  split
  · obtain ⟨g, hg⟩ := stopPart_core t p st false c
    rw [hg]
    split
    · rfl
    · exact ht
  · exact (congrArg Core.mover ((State.disarm_keeps (fp := 0x80) rfl t p (.refl t)).core_eq rfl c)).trans ht

theorem complete_mover (s : State) (p c : Nat) (e : Entry) (st flags : Half) (signal : Bool) (d : Nat) :
    ((s.complete p c e st flags signal).core d).mover = (s.core d).mover :=
  complete_keeps_core Core.mover s p c e st flags signal d fun _ _ _ _ _ _ _ => rfl

theorem endMover_mover (s : State) (p c : Nat) (st : Half) (d : Nat) :
    ((s.endMover p c st).core d).mover = if d = c then none else (s.core d).mover := by
  unfold State.endMover
  split
  · next hm =>
    rw [complete_mover, State.core_updCore]
    split
    · next h => rw [if_pos h.symm]
    · next h => rw [if_neg (Ne.symm h)]
  · next hm =>
    split
    · next h => rw [h, hm]
    · rfl

theorem endMover_same (s : State) (p c : Nat) (st : Half) : Same 0x20884C s (s.endMover p c st) := by
  unfold State.endMover
  split
  · exact complete_unsignalled rfl _ _ _ _ _ _ (State.updCore_keeps rfl s c _ (.refl s))
  · exact .refl s

/-- Movers ended one after the other. -/
theorem endMovers_effect (p : Nat) (st : Half) (l : List Nat) (s : State) :
    Same 0x20884C s (l.foldl (fun s c => s.endMover p c st) s) ∧
      ∀ d, (d ∈ l ∨ (s.core d).mover = none) → ((l.foldl (fun s c => s.endMover p c st) s).core d).mover = none := by
  refine ⟨kept_foldl _ _ _ (fun s c h => h.trans (endMover_same s p c st)) (.refl s), fun d => ?_⟩
  induction l generalizing s with
  | nil => exact fun h => h.resolve_left List.not_mem_nil
  | cons c l ih =>
    intro h
    refine ih (s.endMover p c st) ?_
    rw [endMover_mover]
    obtain h | h := h
    · obtain rfl | h := List.mem_cons.1 h
      · exact .inr (if_pos rfl)
      · exact .inl h
    · exact .inr (by split; rfl; exact h)

/-- A mover that has failed goes on at its own core alone. -/
theorem moverAdvance_others {s : State} {c d : Nat} {m : MoverRun} (hm : (s.core c).mover = some m)
    (hst : m.status ≠ stDONE) (hne : c ≠ d) (ecc : Ecc) : (s.moverAdvance c ecc).core d = s.core d := by
  have hset : ∀ x, (s.setMover c x).core d = s.core d := fun x => (State.core_updCore ..).trans (if_neg hne)
  unfold State.moverAdvance
  rw [hm]
  cases s.partOf c with
  | none => rfl
  | some p =>
    dsimp only
    rw [if_pos hst]
    split
    · rfl
    · cases m.phase
      case reading => exact hset _
      case writing => exact hset _
      all_goals rfl

theorem failMover_mover {s : State} {d : Nat} (c n : Nat) {st : Half} (hst : st ≠ stDONE)
    (h : (s.core d).mover = none) : ((s.failMover c n st).core d).mover = none := by
  unfold State.failMover
  dsimp only
  split
  · exact h
  · next m hm =>
    have hne : c ≠ d := by
      rintro rfl
      exact absurd (hm.symm.trans h) (by simp)
    have hfailed : (if m.status = stDONE then st else m.status) ≠ stDONE := by split <;> assumption
    rw [moverAdvance_others (setMover_mover ..) hfailed hne]
    exact (congrArg Core.mover ((State.core_updCore ..).trans (if_neg hne))).trans h

theorem dropWaiting_mover {s : State} {d : Nat} (hit : WaitX → Bool) {st : Half} (hst : st ≠ stDONE)
    (h : (s.core d).mover = none) : ((s.dropWaiting hit st).core d).mover = none :=
  foldl_keeps (P := fun t : State => (t.core d).mover = none) _ (fun _ c ht => failMover_mover c 0 hst ht) _ s h

theorem refuseMove_same (s : State) (p c : Nat) (k : Checked) (st : Half) : Same 0x24884C s (s.refuseMove p c k st) :=
  complete_unsignalled rfl _ _ _ _ _ _ (State.popHead_keeps rfl _ _ (State.dropBackward_keeps rfl s p k (.refl s)))

theorem refuseMove_mover (s : State) (p c : Nat) (k : Checked) (st : Half) (d : Nat) :
    ((s.refuseMove p c k st).core d).mover = (s.core d).mover := by
  refine (complete_mover ..).trans ?_
  have hdrop : (s.dropBackward p k).core d = s.core d :=
    (State.dropBackward_keeps (fp := 0x40000) rfl s p k (.refl s)).core_eq rfl d
  rw [State.popHead, State.core_updCore, hdrop]
  split
  · next h => rw [h, hdrop]
  · rfl

/-! ### Transfers that fail (R283, R295, R306) -/

theorem same_coresFabric (s : State) (cs : Sparse Core) (f : Fabric) :
    Same 0x440 s { s with cores := cs, fabric := f } :=
  Same.set_fabric (s := { s with cores := cs }) rfl (Same.set_cores rfl (.refl s))

/-- The waiting commands of an OPEN that fails are over; its skein is gone. -/
theorem failOpen_effect (s : State) (k : Skein) {st : Half} (hst : st ≠ stDONE) :
    Settles s (s.failOpen k st) ∧ (s.failOpen k st).skein k.num = none ∧ Same 0x248C4C s (s.failOpen k st) ∧
      ∀ d, (s.core d).mover = none → ((s.failOpen k st).core d).mover = none := by
  unfold State.failOpen
  dsimp only
  generalize hu : (s.dropSkein k.num).dropWaiting (fun w => w.part == k.part && w.xfer.dest == k.dest) st = u
  have hsu : Settles s u ∧ u.skein k.num = none ∧ Same 0x440 s u := by
    obtain ⟨cs, w, hframe⟩ :=
      dropWaiting_frame (s.dropSkein k.num) (fun w => w.part == k.part && w.xfer.dest == k.dest) hst
    rw [← hu, hframe]
    exact ⟨⟨fun _ h => (List.mem_filter.1 h).1, rfl⟩, skein_dropSkein s k.num,
      ((State.dropSkein_keeps (fp := 0x400) rfl s k.num (.refl s)).mono rfl).trans (same_coresFabric ..)⟩
  obtain ⟨hset, hnone, hsame⟩ := hsu
  have hrefused : ∀ l : List (Nat × Checked), Same 0x24884C u
    (l.foldl (fun s ck => s.refuseMove k.part ck.1 ck.2 st) u) :=
    fun l => kept_foldl _ _ _ (fun t ck h => h.trans (refuseMove_same t k.part ck.1 ck.2 st)) (.refl u)
  have hend := Settles.of_same (hrefused (s.waitingCores k.part k.dest)) (by decide)
  refine ⟨hset.trans hend, hend.skein hnone, (hsame.mono rfl).trans ((hrefused _).mono rfl), fun d hd => ?_⟩
  refine foldl_keeps (P := fun t : State => (t.core d).mover = none) _ (fun t ck ht => ?_) _ u ?_
  · exact (refuseMove_mover ..).trans ht
  · rw [← hu]
    exact dropWaiting_mover _ hst hd

/-- A transfer that fails is a fault of its partition. -/
theorem failTransfer_faults (s : State) (part : Nat) (core : Option Nat) (st : Half) : ∃ u cls kind unit d0,
    Same 0x20884C s u ∧ s.failTransfer part core st = u.fault st cls kind unit [part] d0 0 := by
  unfold State.failTransfer
  cases core with
  | none => exact ⟨s, 2, 0, 0, 0, .refl s, rfl⟩
  | some c =>
    cases h : (s.core c).mover with
    | none => exact ⟨s, 2, 1, c, 0, .refl s, by dsimp only; rw [h]⟩
    | some m =>
      refine ⟨_, 2, 1, c, 0, complete_unsignalled (z := s) rfl _ part c m.chk.entry st m.flags
        (State.updCore_keeps rfl s c (fun x => { x with mover := none }) (.refl s)), ?_⟩
      dsimp only
      rw [h]
      rfl

/-- A skein that is taken away, its number resting. -/
theorem retireSkein_effect (s : State) (n : Nat) : (s.retireSkein n).skein n = none ∧
    (n, s.power.ticks + 2 * s.fabric.timeout.toNat) ∈ (s.retireSkein n).fabric.retired ∧
      (s.retireSkein n).fabric.timeouts = s.fabric.timeouts ∧ Same 0x400 s (s.retireSkein n) :=
  ⟨skein_dropSkein s n, List.mem_append_right _ (List.mem_singleton.2 rfl), rfl,
    State.retireSkein_keeps rfl s n (.refl s)⟩

/-- What a fault of partition p that ends the skein of number n leaves. -/
theorem fault_retires {s u v : State} {n p : Nat} (hsame : Same 0x248C4C s u) (hsu : Settles s u)
    (hv : Settles ((u.retireSkein n).updFabric fun f => { f with timeouts := f.timeouts + 1 }) v ∧
      Same 0x20884C ((u.retireSkein n).updFabric fun f => { f with timeouts := f.timeouts + 1 }) v)
    (st : Half) (cls kind unit d0 : Nat) :
    ((v.fault st cls kind unit [p] d0 0).part p).active = false ∧ (v.fault st cls kind unit [p] d0 0).skein n = none ∧
      (v.fault st cls kind unit [p] d0 0).fabric.timeouts = s.fabric.timeouts + 1 ∧
      (v.fault st cls kind unit [p] d0 0).links.faultTaken = s.faultsAfter 1 ∧
      (n, s.power.ticks + 2 * s.fabric.timeout.toNat) ∈ (v.fault st cls kind unit [p] d0 0).fabric.retired := by
  obtain ⟨hnone, hrest, -, hretire⟩ := retireSkein_effect u n
  obtain ⟨hset, hvsame⟩ := hv
  have hfault := hset.trans (fault_settles v st cls kind unit [p] d0 0)
  have hall : Same 0x248C4C s v := hsame.trans ((hretire.mono rfl).trans
    ((State.updFabric_keeps rfl _ _ (.refl _)).trans (hvsame.mono rfl)))
  refine ⟨(fault_active ..).trans (if_pos (List.mem_singleton.2 rfl)), hfault.skein hnone,
    hfault.timeouts.trans (congrArg (· + 1) hsu.timeouts), ?_, ?_⟩
  · rw [fault_faultTaken, faultsAfter_congr (s := s) (by rw [hall.fw.resolve_left (by decide)])
      (by rw [hall.links_eq rfl])]
  · rw [hfault.retired]
    rw [hsame.power_eq rfl, hsu.timeout] at hrest
    exact hrest

/-- A context that is freed is gone. -/
theorem freeContext_frees (s : State) (x : RxCtx) : x ∉ (s.freeContext x).fabric.contexts := by
  have hcontexts : (s.freeContext x).fabric.contexts = s.fabric.contexts.filter fun y =>
      !(y.src == x.src && y.skein == x.skein && y.tno == x.tno && y.isReply == x.isReply) := by
    unfold State.freeContext
    dsimp only
    split <;> rfl
  rw [hcontexts]
  intro h
  exact absurd (List.mem_filter.1 h).2 (by simp)

/-- An OPEN without an answer is a traffic fault of its partition, and the movers that wait for it are over. -/
theorem openTimeout_faults {s : State} {n : BitVec 12} {x : Skein} (hx : s.skein n.toNat = some x)
    (ho : x.isOpen = false) (hr : x.retry = false) (ht : x.openSentAt + s.fabric.timeout.toNat ≤ s.power.ticks) :
    ∃ t, exec (.openTimeout n) s = .next t ∧ (t.part x.part).active = false ∧ t.skein n.toNat = none ∧
      t.fabric.timeouts = s.fabric.timeouts + 1 ∧ t.links.faultTaken = s.faultsAfter 1 ∧
      (n.toNat, s.power.ticks + 2 * s.fabric.timeout.toNat) ∈ t.fabric.retired ∧
      ∀ c m, c ∈ s.waitingMovers x → (s.core c).mover = some m → (t.core c).mover = none := by
  generalize hu : (s.waitingMovers x).foldl (fun s c => s.endMover x.part c stTIMEOUT) s = u
  obtain ⟨hended, hover⟩ := endMovers_effect x.part stTIMEOUT (s.waitingMovers x) s
  rw [hu] at hended hover
  obtain ⟨hset, -, hfailed, hstays⟩ := failOpen_effect u x (show stTIMEOUT ≠ stDONE by decide)
  have hrun : ∃ kind unit, exec (.openTimeout n) s = .next ((((u.failOpen x stTIMEOUT).retireSkein n.toNat).updFabric
      fun f => { f with timeouts := f.timeouts + 1 }).fault stTIMEOUT 2 kind unit [x.part] 0 0) := by
    let core := ((s.waitingCores x.part x.dest).map (·.1) ++ s.waitingMovers x).head?
    refine ⟨if core.isSome then 1 else 0, core.getD 0, congrArg Host.Outcome.next ?_⟩
    rw [hx]
    dsimp only
    rw [hu, num_of_skein hx]
    refine if_neg ?_
    rintro (h | h | h)
    · exact Bool.false_ne_true (ho.symm.trans h)
    · exact Bool.false_ne_true (hr.symm.trans h)
    · omega
  obtain ⟨kind, unit, hrun⟩ := hrun
  generalize u.failOpen x stTIMEOUT = v at hset hfailed hstays hrun
  obtain ⟨hact, hnone, hcount, htaken, hrest⟩ := fault_retires (p := x.part) (n := n.toNat)
    ((hended.mono rfl).trans hfailed)
    ((Settles.of_same hended (by decide)).trans hset) ⟨.refl _, .refl _⟩ stTIMEOUT 2 kind unit 0
  refine ⟨_, hrun, hact, hnone, hcount, htaken, hrest, fun c m hc hm => fault_mover _ _ _ _ _ _ _ _ c ?_⟩
  have hretire : Same 0x400 v ((v.retireSkein n.toNat).updFabric fun f => { f with timeouts := f.timeouts + 1 }) :=
    State.updFabric_keeps rfl _ _ (retireSkein_effect v n.toNat).2.2.2
  rw [hretire.core_eq rfl]
  exact hstays c (hover c (.inl hc))

/-- Settles O45: a packet by what its partition says, a timer by what its skein or context says. -/
theorem skeinsAndTheirTimers : Obligations.SkeinsAndTheirTimers := by
  refine ⟨fun k p s hd => ?_, fun n x s hx => ?_, fun src n tno y s hy => ?_⟩
  · have halike := received_alike s k p
    obtain ⟨-, hparts, -⟩ := received_effect s k p
    have htransit := received_flow s k p (·.transit) fun _ => rfl
    have hgrants := received_flow s k p (·.grants) fun _ => rfl
    have hstray := received_flow s k p (·.stray) fun _ => rfl
    have hskeins := received_flow s k p (·.skeins) fun _ => rfl
    have hhold := received_flow s k p (·.hold) fun _ => rfl
    have hheld := received_flow s k p (·.held) fun _ => rfl
    have hwaiting := received_flow s k p (·.waiting) fun _ => rfl
    have hopen : p.isKind 1 3 = true →
        exec (.fabOpen k p) s = .next ((s.received k p).onOpen (some k.val) p) := fun h =>
      (if_pos h).trans (congrArg _ (arrival_delivers State.onOpen hd))
    have hclose : p.isKind 1 4 = true → exec (.fabClose k p) s = .next ((s.received k p).onClose (some k.val) p) :=
      fun h => (if_pos h).trans (congrArg _ (arrival_delivers State.onClose hd))
    have hgrant : p.isKind 2 0xA = true → exec (.grant k p) s = .next ((s.received k p).onGrant (some k.val) p) :=
      fun h => (if_pos h).trans (congrArg _ (arrival_delivers State.onGrant hd))
    generalize s.received k p = u at *
    refine ⟨fun haway c hc => ?_, fun hno hact c hc => ?_, fun hno hact => ⟨fun hk => ?_, fun hk => ?_⟩,
      fun x hk hx hclosed hdest => ?_⟩
    · have haway' := (halike.turnsAway ..).trans haway
      have hrun : exec c s = .next (u.replyTo p 0xB stPRIVILEGE []) := by
        obtain ⟨rfl, hk⟩ | ⟨rfl, hk⟩ := hc
        · exact (hopen hk).trans (congrArg _ (onOpen_away haway'))
        · exact (hclose hk).trans (congrArg _ (onClose_away haway'))
      obtain ⟨hfabric, -⟩ := replyTo_effect u p 0xB stPRIVILEGE []
      obtain ⟨-, hkind, -, -, -, hstatus, -⟩ := replyPacket_fields u p 0xB stPRIVILEGE []
      refine ⟨_, _, hrun, ?_, hkind, hstatus, ?_⟩
      · rw [hfabric, ← htransit]
      · rw [hfabric, ← hgrants]
    · have hno' := (halike.turnsAway ..).trans hno
      have hact' := (halike.active _).trans hact
      have hrun : exec c s = .next u.strayed := by
        obtain ⟨rfl, hk⟩ | ⟨rfl, hk⟩ := hc
        · exact (hopen hk).trans (congrArg _ (onOpen_stopped hno' hact'))
        · exact (hclose hk).trans (congrArg _ (onClose_stopped hno' hact'))
      obtain ⟨hfabric, -⟩ := strayed_effect u
      refine ⟨_, hrun, ?_, ?_, ?_⟩
      · rw [hfabric, ← htransit]
      · rw [hfabric, ← hstray]
      · rw [hfabric, ← hgrants]
    · obtain ⟨q, n, hkind, hleaves, hwaits, hdest, hn, h1, h2, hg, hsame⟩ := onOpen_answers (port := some k.val)
        ((halike.turnsAway ..).trans hno) ((halike.active _).trans hact)
      refine ⟨_, q, n, hopen hk, hkind, fun h => ?_, fun h => ?_, hdest, hn, h1, ?_, hg,
        (hsame.mem_eq rfl).trans halike.mem, (hsame.parts_eq rfl).trans hparts⟩
      · exact (hleaves (hhold.trans h)).trans (congrArg (· ++ _) htransit)
      · obtain ⟨ha, hb⟩ := hwaits (hhold.trans h)
        exact ⟨ha.trans htransit, hb.trans (congrArg (· ++ _) hheld)⟩
      · exact h2.trans halike.coreCount
    · refine ⟨_, (hclose hk).trans (congrArg _ (onClose_closes ((halike.turnsAway ..).trans hno)
        ((halike.active _).trans hact))), fun g => ?_, halike.mem, hparts, halike.cores, hskeins⟩
      show g ∈ u.fabric.grants.filter _ ↔ _
      rw [List.mem_filter, show u.fabric.grants = _ from hgrants, Bool.not_eq_true', Bool.and_eq_false_iff,
        beq_eq_false_iff_ne,
        beq_eq_false_iff_ne, not_and_or]
    · have hx' : u.skein p.skein.toNat = some x :=
        (congrArg (List.find? fun k : Skein => k.num == p.skein.toNat) hskeins).trans hx
      have hnum := num_of_skein hx
      have htake : ¬ (x.isOpen = true ∨ x.dest ≠ p.src.toNat) := by
        rintro (h | h)
        · exact Bool.false_ne_true (hclosed.symm.trans h)
        · exact h hdest
      refine ⟨fun h0 => ?_, fun hne hor => ?_⟩
      · have hrun : u.onGrant (some k.val) p = u.updSkein p.skein.toNat fun k =>
            { k with retry := true, openSentAt := u.power.ticks } := by
          unfold State.onGrant
          rw [hx']
          dsimp only
          rw [if_neg htake, if_pos h0, hnum]
        refine ⟨_, _, (hgrant hk).trans (congrArg _ hrun), skein_updSkein hx' fun _ => rfl, hclosed, rfl, ?_⟩
        show u.power.ticks = _
        rw [halike.power]
      · have hrun : u.onGrant (some k.val) p = u.updSkein p.skein.toNat fun k => { k with
            isOpen := true, retry := false, granted := min (leAt p.payload 0 1) 16, cores := leAt p.payload 2 2,
            idleSince := u.power.ticks } := by
          unfold State.onGrant
          rw [hx']
          dsimp only
          rw [if_neg htake, if_neg hne, hnum]
          exact pump_idle (hor.imp (fun h => hhold.trans h) fun h => hwaiting.trans h)
        exact ⟨_, _, (hgrant hk).trans (congrArg _ hrun), skein_updSkein hx' fun _ => rfl, rfl, rfl, rfl⟩
  · have hnum := num_of_skein hx
    refine ⟨fun hr hh ht => ?_, fun hor => ?_, fun ho hr ht => ?_, fun hor => ?_, fun l tno hl => ⟨fun h0 ht => ?_,
      fun hor => ?_⟩, fun ho hl ht => ?_, fun hor => ?_⟩
    · have hrun : exec (.openRetry n) s = .next ((s.updSkein n.toNat fun k =>
          { k with retry := false, openSentAt := s.power.ticks }).inject (s.openPacket n.toNat x.part x.dest)) := by
        refine congrArg Host.Outcome.next ?_
        rw [hx]
        dsimp only
        rw [if_pos ⟨hr, by rw [hh]; rfl, ht⟩, hnum]
      exact ⟨_, _, _, hrun, skein_updSkein hx fun _ => rfl, rfl, rfl, rfl, rfl, rfl, rfl, rfl⟩
    · refine congrArg Host.Outcome.next ?_
      rw [hx]
      refine if_neg ?_
      rintro ⟨h1, h2, h3⟩
      obtain h | h | h := hor
      · exact Bool.false_ne_true (h.symm.trans h1)
      · rw [h] at h2
        exact Bool.false_ne_true h2
      · omega
    · exact openTimeout_faults hx ho hr ht
    · refine congrArg Host.Outcome.next ?_
      rw [hx]
      exact if_pos hor
    · have hrun : exec (.transferTimeout n tno) s = .next (((s.retireSkein x.num).updFabric fun f =>
          { f with timeouts := f.timeouts + 1 }).failTransfer x.part l.core stTIMEOUT) := by
        refine congrArg Host.Outcome.next ?_
        rw [hx]
        dsimp only
        rw [hl]
        exact if_neg (by omega)
      obtain ⟨v, cls, kind, unit, d0, hsame, hfail⟩ := failTransfer_faults ((s.retireSkein x.num).updFabric fun f =>
        { f with timeouts := f.timeouts + 1 }) x.part l.core stTIMEOUT
      rw [hfail] at hrun
      rw [hnum] at hsame
      exact ⟨_, hrun, fault_retires (.refl s) (.refl s) ⟨.of_same hsame (by decide), hsame⟩ ..⟩
    · refine congrArg Host.Outcome.next ?_
      rw [hx]
      dsimp only
      rw [hl]
      exact if_pos hor
    · have hrun : exec (.skeinIdleClose n) s = .next (s.closeSkein x).pump := by
        refine congrArg Host.Outcome.next ?_
        rw [hx]
        exact if_pos ⟨ho, by rw [hl]; rfl, ht⟩
      refine ⟨hrun, fun hor => ?_⟩
      have hdrop : (s.dropSkein x.num).fabric.hold = s.fabric.hold := rfl
      obtain ⟨hleaves, hwaits, -, hskeins, hlast⟩ := injectHeld_effect (s.dropSkein x.num)
        { buildPacket 1 4 (s.namedPart x.part x.dest) x.num x.dest s.myId 0 0 1 0 0 false [] with owner := some x.part }
      have hnone : (s.closeSkein x).skein n.toNat = none := by
        rw [← hnum, skein_none_iff]
        unfold State.closeSkein
        rw [hskeins]
        exact skein_none_iff.1 (skein_dropSkein s x.num)
      have hidle : (s.closeSkein x).pump = s.closeSkein x := by
        refine pump_idle (hor.symm.imp (fun h => ?_) fun h => ?_)
        · rw [← h]
          unfold State.closeSkein State.injectHeld
          split <;> rfl
        · rw [closeSkein_waiting, h]
      rw [hidle] at hrun
      have hsame : Same 0x400 s (s.closeSkein x) := State.closeSkein_keeps rfl s x (.refl s)
      exact ⟨_, _, hrun, hnone, rfl, rfl, hleaves, hwaits, hsame.mem_eq rfl, hsame.cores_eq rfl, hsame.parts_eq rfl⟩
    · refine congrArg Host.Outcome.next ?_
      rw [hx]
      refine if_neg ?_
      rintro ⟨h1, h2, h3⟩
      obtain h | h | h := hor
      · exact Bool.false_ne_true (h.symm.trans h1)
      · exact h (List.isEmpty_iff.1 h2)
      · omega
  · refine ⟨fun ht => ⟨s.freeContext y, ?_, ?_, ?_, ?_, ?_⟩, fun ht => ?_⟩
    · refine congrArg Host.Outcome.next ?_
      rw [hy]
      exact if_pos ht
    · exact freeContext_frees s y
    · exact (State.freeContext_keeps (fp := 0x400) rfl s y (.refl s)).mem_eq rfl
    · exact (State.freeContext_keeps (fp := 0x400) rfl s y (.refl s)).cores_eq rfl
    · exact (State.freeContext_keeps (fp := 0x400) rfl s y (.refl s)).parts_eq rfl
    · refine congrArg Host.Outcome.next ?_
      rw [hy]
      exact if_neg (Nat.not_le.2 ht)

end Sys2Proof.Machine
end


section
/-! SUPPORT. Proofs/Replies.lean: a NACK that carries the status of success (O46). The commands that wait for the skein
of an OPEN end with the status of its NACK; one that ends with DONE has not failed, and goes on at once: it may send,
and the skein it opens takes the number that has just become free. -/

namespace Sys2Proof.Machine

/-- A descriptor of no element, on this module or on another. -/
def emptyDesc (loc : Nat) : Desc :=
  { loc := loc, fmt := 0, rank := 0, versioned := false, part := 0, key := 0, version := 0, base := 0, twin := 0,
    scale := 0, dims := [], strides := [] }

/-- A COPY of no element with a remote signal. -/
def signalCopy : Checked :=
  { entry := { words := (List.replicate 32 0).set 18 0x10000, startWords := 0, badMagic := false, fromStream := false,
               segClass := 0 },
    descs := [] }

/-- Its mover, which waits for bytes of module 1. -/
def askingMover : MoverRun :=
  { MoverRun.of signalCopy (some (emptyDesc 1)) (some (emptyDesc 8)) with phase := .reading, live := 1 }

/-- The skein to module 1, for which an OPEN is out. -/
def askingSkein : Skein :=
  { num := 0, part := 0, dest := 1, isOpen := false, granted := 0, cores := 0, nextTno := 0, openSentAt := 0,
    retry := false, idleSince := 0, live := [] }

/-- Core 0 of partition 0 waits for that skein with one READ; port 0 is in service. -/
def askingState : State :=
  let s := ((State.reset.updCore 0 fun k => { k with mover := some askingMover }).updPart 0 fun q =>
    { q with layout := ⟨q.layout.sh, { q.layout.live with count := 1 }⟩ }).updLink 0 fun l => { l with state := 5 }
  { s with fabric := { s.fabric with
      skeins := [askingSkein],
      waiting := [{ part := 0, core := some 0, xfer := { dest := 1, isRead := true, runs := [], tally := none } }] } }

/-- The NACK of module 1, with status DONE. -/
def doneNack : Pkt := buildPacket 2 0xB 0 0 0 1 0 0 1 0 stDONE true []

theorem buildPacket_check (cls kind part skein dest src tbytes addr tpackets tno : Nat) (status : Half) (last : Bool)
    (payload : List Byte) :
    (buildPacket cls kind part skein dest src tbytes addr tpackets tno status last payload).check =
      (buildPacket cls kind part skein dest src tbytes addr tpackets tno status last payload).crc := rfl

theorem doneNack_delivers : askingState.Delivers (0 : Fin 6) doneNack :=
  ⟨by decide +kernel, by decide, by decide +kernel, by decide +kernel, buildPacket_check ..⟩

/-- The mover goes on, and opens a skein to the module of its signal: it takes number 0 again. -/
theorem doneNack_reopens :
    (((askingState.received (0 : Fin 6) doneNack).onNack (some (0 : Fin 6).val) doneNack).skein
      doneNack.skein.toNat).isSome =
      true := by decide +kernel

theorem exec_nack {k : Fin 6} {p : Pkt} {s : State} (hk : p.isKind 2 0xB = true) (hd : s.Delivers k p) :
    exec (.nack k p) s = .next ((s.received k p).onNack (some k.val) p) :=
  (if_pos hk).trans (congrArg _ (arrival_delivers State.onNack hd))

/-- Refutes O46: a NACK of an OPEN with status DONE leaves a skein under the number that it names. -/
theorem not_repliesEndTransfers : ¬ Obligations.RepliesEndTransfers := by
  intro h
  have hkind : doneNack.isKind 2 0xB = true := by decide
  obtain ⟨-, -, -, hnack, -⟩ := h 0 doneNack .clean askingState doneNack_delivers
  obtain ⟨t, ht, hnone, -⟩ := hnack askingSkein hkind (by decide +kernel) (by decide) rfl
  have hreopens := doneNack_reopens
  rw [Host.Outcome.next.inj ((exec_nack hkind doneNack_delivers).symm.trans ht), hnone] at hreopens
  exact Bool.false_ne_true hreopens

end Sys2Proof.Machine
end


section
/-! SUPPORT. Proofs/Routing.lean: a packet's turn at the head of its queue (O47). -/

namespace Sys2Proof.Machine

/-! ### The way of a packet (R274, R275) -/

/-- The two states route alike: the same route group, ports and credits, the same partitions and counts of what they
have injected. -/
structure SameWay (s t : State) : Prop where
  route : t.fabric.route = s.fabric.route
  links : t.links = s.links
  used : t.fabric.creditUsed = s.fabric.creditUsed
  parts : t.parts = s.parts
  injected : t.fabric.injected = s.fabric.injected

section
variable {s t : State}

section
variable (h : t.fabric.route = s.fabric.route)
include h

theorem myId_congr : t.myId = s.myId := by
  unfold State.myId
  rw [h]

theorem offsetOn_congr (a c d : Nat) : t.offsetOn a c d = s.offsetOn a c d := by
  unfold State.offsetOn
  rw [h]

theorem offsetTo_congr (a d : Nat) : t.offsetTo a d = s.offsetTo a d := by
  unfold State.offsetTo
  rw [offsetOn_congr h, myId_congr h]

theorem portsToward_congr (d : Nat) : t.portsToward d = s.portsToward d := by
  unfold State.portsToward
  simp only [offsetTo_congr h]

theorem isHere_congr (d : Nat) : t.isHere d = s.isHere d := by
  unfold State.isHere
  simp only [offsetTo_congr h, myId_congr h]

theorem crossedSeam_congr (p : Pkt) (a : Nat) : t.crossedSeam p a = s.crossedSeam p a := by
  unfold State.crossedSeam
  simp only [offsetOn_congr h, myId_congr h, h]

theorem escapeChannel_congr (p : Pkt) (a : Nat) : t.escapeChannel p a = s.escapeChannel p a := by
  unfold State.escapeChannel
  rw [crossedSeam_congr h]

end

section
variable (h : SameWay s t)
include h

theorem SameWay.credits (k lane : Nat) : t.credits k lane = s.credits k lane := by
  unfold State.credits
  rw [h.used]

theorem SameWay.takes (k : Nat) (p : Pkt) (ch : Nat) : t.takes k p ch = s.takes k p ch := by
  unfold State.takes State.portEnabled State.link
  rw [h.credits, h.route, h.links]

theorem SameWay.goesBefore (a b : Nat) : t.goesBefore a b = s.goesBefore a b := by
  unfold State.goesBefore State.injectedBy State.part
  rw [h.parts, h.injected]

end
end

/-! ### A packet that leaves (R263, R267) -/

theorem emit_effect (s : State) (own : Bool) (k : Nat) (p : Pkt) (channel : Nat) (escape : Bool) (waited : Nat) :
    (s.emit own k p channel escape waited).out =
        s.out ++ [.fabric k { p with
          channel := BitVec.ofNat 2 channel, esc := escape, hops := p.hops + 1, owner := none }] ∧
      Same 0x200400 s (s.emit own k p channel escape waited) := by
  refine ⟨?_, State.emit_keeps rfl s own k p channel escape waited (.refl s)⟩
  unfold State.emit
  extract_lets t v q n x
  have hown : Same 0x400 s v := by
    refine kept_ite _ _ _ ?_ (.refl s)
    have ht : Same 0x400 s t := State.sample_keeps rfl _ _ _ _ _ (State.noteLeft_keeps rfl s p (.refl s))
    cases p.owner with
    | none => exact ht
    | some _ => exact State.updFabric_keeps rfl _ _ ht
  have hcount : Same 0x400 s x := State.updCtr_keeps rfl _ _ _ (State.countTx_keeps rfl _ _ _
    (State.takeCredits_keeps rfl _ _ _ _ hown))
  rw [State.send_out, ((sample_same ..).out.resolve_left (by decide)), hcount.out.resolve_left (by decide)]

/-! ### The moves (R278) -/

section
variable {s : State} {own : Bool} {p : Pkt} {waited : Nat}

theorem escapeMove_eq {a : Nat} (ha : ((List.range 3).find? fun a => s.offsetTo a p.dest.toNat != 0) = some a) :
    s.escapeMove own p waited =
      if s.takes (portToward a (s.offsetTo a p.dest.toNat)) p (s.escapeChannel p a) then
        some (s.emit own (portToward a (s.offsetTo a p.dest.toNat)) p (s.escapeChannel p a) true waited)
      else none := by
  unfold State.escapeMove
  rw [ha]
  rfl

/-- The best of some ports for a channel: one with most credits. -/
def State.better (s : State) (lane : Nat) (best : Option Nat) (k : Nat) : Option Nat :=
  match best with
  | some b => if s.credits b lane < s.credits k lane then some k else some b
  | none => some k

theorem foldl_better (s : State) (lane : Nat) (l : List Nat) (b : Nat) :
    ∃ j, l.foldl (s.better lane) (some b) = some j ∧
    (j = b ∨ j ∈ l) ∧ s.credits b lane ≤ s.credits j lane ∧ ∀ i ∈ l, s.credits i lane ≤ s.credits j lane := by
  induction l generalizing b with
  | nil => exact ⟨b, rfl, .inl rfl, Nat.le_refl _, fun _ h => absurd h List.not_mem_nil⟩
  | cons k l ih =>
    by_cases h : s.credits b lane < s.credits k lane
    · obtain ⟨j, hj, hmem, hle, hall⟩ := ih k
      refine ⟨j, ?_, .inr (List.mem_cons.2 hmem), by omega, fun i hi => ?_⟩
      · rw [List.foldl_cons, State.better, if_pos h]
        exact hj
      · obtain rfl | hi := List.mem_cons.1 hi
        · exact hle
        · exact hall i hi
    · obtain ⟨j, hj, hmem, hle, hall⟩ := ih b
      refine ⟨j, ?_, hmem.imp id (List.mem_cons_of_mem _), hle, fun i hi => ?_⟩
      · rw [List.foldl_cons, State.better, if_neg h]
        exact hj
      · obtain rfl | hi := List.mem_cons.1 hi
        · omega
        · exact hall i hi

/-- The adaptive move takes a productive port that can take the packet, with most credits of those. -/
theorem adaptiveMove_takes (h : ∃ j ∈ s.portsToward p.dest.toNat, s.takes j p 2 = true) : ∃ j,
    s.adaptiveMove own p waited = some (s.emit own j p 2 false waited) ∧ j ∈ s.portsToward p.dest.toNat ∧
      s.takes j p 2 = true ∧ ∀ i ∈ s.portsToward p.dest.toNat, s.takes i p 2 = true →
        s.credits i ({ p with channel := 2 } : Pkt).lane ≤ s.credits j ({ p with channel := 2 } : Pkt).lane := by
  generalize hr : (s.portsToward p.dest.toNat).filter (fun k => s.takes k p 2) = ready
  have hmem : ∀ i, i ∈ ready ↔ i ∈ s.portsToward p.dest.toNat ∧ s.takes i p 2 = true := fun i => by
    rw [← hr, List.mem_filter]
  have hrun : s.adaptiveMove own p waited =
      (ready.foldl (s.better ({ p with channel := 2 } : Pkt).lane) none).map fun k =>
        s.emit own k p 2 false waited := by
    rw [← hr]
    rfl
  cases hready : ready with
  | nil =>
    obtain ⟨j, hj⟩ := h
    rw [← hmem, hready] at hj
    exact absurd hj List.not_mem_nil
  | cons b l =>
    obtain ⟨j, hj, hin, hle, hall⟩ := foldl_better s ({ p with channel := 2 } : Pkt).lane l b
    have hjr : j ∈ ready := by
      rw [hready]
      exact hin.elim (fun h => h ▸ List.mem_cons_self) (List.mem_cons_of_mem _)
    refine ⟨j, ?_, ((hmem j).1 hjr).1, ((hmem j).1 hjr).2, fun i hi hti => ?_⟩
    · rw [hrun, hready, List.foldl_cons]
      exact congrArg (Option.map _) hj
    · have hir := (hmem i).2 ⟨hi, hti⟩
      rw [hready] at hir
      obtain rfl | hir := List.mem_cons.1 hir
      · exact hle
      · exact hall i hir

theorem adaptiveMove_none (h : ∀ j ∈ s.portsToward p.dest.toNat, s.takes j p 2 = false) :
    s.adaptiveMove own p waited = none := by
  have hready : (s.portsToward p.dest.toNat).filter (fun k => s.takes k p 2) = [] :=
    List.filter_eq_nil_iff.2 fun j hj ht => Bool.false_ne_true ((h j hj).symm.trans ht)
  unfold State.adaptiveMove
  dsimp only
  rw [hready]
  rfl

/-- Where nothing adaptive takes it, a packet whose patience is over turns to the escape channels. -/
theorem takeTurn_escapes (h : p.esc = true ∨ (∀ j ∈ s.portsToward p.dest.toNat, s.takes j p 2 = false) ∧
    s.fabric.patience.toNat ≤ waited) : s.takeTurn own p waited = s.turnEscape own p waited := by
  unfold State.takeTurn
  cases he : p.esc with
  | true => exact if_pos rfl
  | false =>
    obtain ⟨hno, hw⟩ := h.resolve_left (by rw [he]; exact Bool.false_ne_true)
    rw [if_neg Bool.false_ne_true, adaptiveMove_none hno]
    exact if_neg (Nat.not_lt.2 hw)

theorem takeTurn_waits (he : p.esc = false) (hno : ∀ j ∈ s.portsToward p.dest.toNat, s.takes j p 2 = false)
    (hw : waited < s.fabric.patience.toNat) : s.takeTurn own p waited = .stays s p := by
  unfold State.takeTurn
  rw [he, if_neg Bool.false_ne_true, adaptiveMove_none hno]
  exact if_pos hw

section
variable {a : Nat} (ha : ((List.range 3).find? fun a => s.offsetTo a p.dest.toNat != 0) = some a)
include ha

theorem turnEscape_leaves (h : s.takes (portToward a (s.offsetTo a p.dest.toNat)) p (s.escapeChannel p a) = true) :
    s.turnEscape own p waited = .leaves
      (s.emit own (portToward a (s.offsetTo a p.dest.toNat)) p (s.escapeChannel p a) true waited) := by
  unfold State.turnEscape
  rw [escapeMove_eq ha, if_pos h]

section
variable (h : s.takes (portToward a (s.offsetTo a p.dest.toNat)) p (s.escapeChannel p a) = false)
include h

theorem turnEscape_stays (he : p.esc = true) : s.turnEscape own p waited = .stays s p := by
  unfold State.turnEscape
  rw [escapeMove_eq ha, if_neg (by rw [h]; exact Bool.false_ne_true)]
  exact if_pos he

/-- The port that it turns to counts it. -/
theorem turnEscape_turns (he : p.esc = false) : s.turnEscape own p waited =
    .stays (s.updCtr (portToward a (s.offsetTo a p.dest.toNat)) fun c => { c with escapes := c.escapes + 1 })
      { p with esc := true } := by
  unfold State.turnEscape
  rw [escapeMove_eq ha, if_neg (by rw [h]; exact Bool.false_ne_true)]
  dsimp only
  rw [if_neg (by rw [he]; exact Bool.false_ne_true), ha]

end
end
end

/-! ### A turn (R273, R278, R442) -/

theorem setTransit_effect (s : State) (port : Option Nat) (l : List (Option Nat × Pkt)) :
    (s.setTransit port l).fabric.transit = l ∧ (s.setTransit port l).fabric.patience = s.fabric.patience ∧
      (s.setTransit port l).fabric.hopDiscards = s.fabric.hopDiscards ∧ SameWay s (s.setTransit port l) ∧
      Same 0x400 s (s.setTransit port l) := by
  cases port with
  | none => exact ⟨rfl, rfl, rfl, ⟨rfl, rfl, rfl, rfl, rfl⟩, State.setTransit_keeps rfl s none l (.refl s)⟩
  | some k => exact ⟨rfl, rfl, rfl, ⟨rfl, rfl, rfl, rfl, rfl⟩, State.setTransit_keeps rfl s (some k) l (.refl s)⟩

/-- A packet of its queues taken out of them. -/
def State.lifted (s : State) (port : Option Nat) (p : Pkt) : State :=
  s.setTransit port (s.fabric.transit.erase (port, p))

/-- What a turn leaves of a packet that was in place n. -/
def Turn.settle (n : Nat) (port : Option Nat) : Turn → State
  | .leaves u => u
  | .stays u q => u.staysAt n port q

section
variable {s : State} {port : Option Nat} {p : Pkt} (hin : (port, p) ∈ s.fabric.transit) (hlegal : p.legal = true)
  (hhere : s.isHere p.dest.toNat = false) (hhead : s.atHead port p = true)
include hin hlegal hhere hhead

/-- A packet of the queues for another module, at the head of its own. -/
theorem routePacket_head (ecc : Ecc) (move : State → Turn) : s.routePacket port p ecc move =
    if p.hops = 63 ∧ port.isSome then (s.lifted port p).updFabric fun f => { f with hopDiscards := f.hopDiscards + 1 }
    else if port.isNone && !(s.lifted port p).mayInject p then s
    else (move (s.lifted port p)).settle (s.fabric.transit.idxOf (port, p)) port := by
  have hknown : s.fabric.transit.contains (port, p) = true := List.contains_iff_mem.2 hin
  unfold State.routePacket
  dsimp only
  rw [hknown, hlegal, hhead, hhere]
  cases port with
  | none =>
    change (if _ then _ else if _ then _ else match move (s.lifted none p) with
      | .leaves u => u
      | .stays u q => u.staysAt (s.fabric.transit.idxOf (none, p)) none q) = _
    cases move (s.lifted none p) <;> rfl
  | some k =>
    change (if _ then _ else if _ then _ else match move (s.lifted (some k) p) with
      | .leaves u => u
      | .stays u q => u.staysAt (s.fabric.transit.idxOf (some k, p)) (some k) q) = _
    cases move (s.lifted (some k) p) <;> rfl

end

theorem take_cons_drop_idxOf {α : Type} [BEq α] [LawfulBEq α] {x : α} {l : List α} (h : x ∈ l) :
    (l.erase x).take (l.idxOf x) ++ x :: (l.erase x).drop (l.idxOf x) = l := by
  induction l with
  | nil => exact absurd h List.not_mem_nil
  | cons y l ih =>
    by_cases hy : y = x
    · subst hy
      rw [List.erase_cons_head, List.idxOf_cons_self]
      rfl
    · have hne : ¬ (y == x) = true := fun h => hy (beq_iff_eq.1 h)
      rw [List.erase_cons_tail hne, List.idxOf_cons_ne l hy, List.take_succ_cons, List.drop_succ_cons, List.cons_append,
        ih ((List.mem_cons.1 h).resolve_left fun h => hy h.symm)]

theorem any_erase {α : Type} [BEq α] [LawfulBEq α] {x : α} {l : List α} {f : α → Bool} (h : f x = false) :
    (l.erase x).any f = l.any f := by
  rw [Bool.eq_iff_iff, List.any_eq_true, List.any_eq_true]
  constructor
  · rintro ⟨y, hy, hf⟩
    exact ⟨y, List.mem_of_mem_erase hy, hf⟩
  · rintro ⟨y, hy, hf⟩
    have hne : y ≠ x := by
      rintro rfl
      exact Bool.false_ne_true (h.symm.trans hf)
    exact ⟨y, (List.mem_erase_of_ne hne).2 hy, hf⟩

/-- A packet that stays as it is keeps its place. -/
theorem lifted_staysAt {s : State} {port : Option Nat} {p : Pkt} (h : (port, p) ∈ s.fabric.transit) (q : Pkt) :
    ((s.lifted port p).staysAt (s.fabric.transit.idxOf (port, p)) port p).fabric.transit = s.fabric.transit ∧
      (port, q) ∈ ((s.lifted port p).staysAt (s.fabric.transit.idxOf (port, p)) port q).fabric.transit ∧
      ((s.lifted port p).staysAt (s.fabric.transit.idxOf (port, p)) port q).fabric.transit.length =
        s.fabric.transit.length := by
  have hlift : (s.lifted port p).fabric.transit = s.fabric.transit.erase (port, p) := (setTransit_effect ..).1
  unfold State.staysAt
  rw [(setTransit_effect ..).1, (setTransit_effect ..).1, hlift]
  refine ⟨take_cons_drop_idxOf h, List.mem_append_right _ List.mem_cons_self, ?_⟩
  rw [List.length_append, List.length_cons, Nat.add_succ, ← List.length_append, List.take_append_drop,
    List.length_erase_of_mem h]
  exact Nat.succ_pred_eq_of_pos (List.length_pos_of_mem h)

section
variable {s t : State} (h : SameWay s t)
include h

theorem escapeMove_isSome_congr (own : Bool) (p : Pkt) (waited : Nat) :
    (t.escapeMove own p waited).isSome = (s.escapeMove own p waited).isSome := by
  have hsome : ∀ u : State, (u.escapeMove own p waited).isSome =
      ((List.range 3).find? fun a => u.offsetTo a p.dest.toNat != 0).any fun a =>
        u.takes (portToward a (u.offsetTo a p.dest.toNat)) p (u.escapeChannel p a) := by
    intro u
    unfold State.escapeMove
    cases (List.range 3).find? fun a => u.offsetTo a p.dest.toNat != 0 with
    | none => rfl
    | some a =>
      dsimp only [Option.bind, Option.any]
      cases u.takes (portToward a (u.offsetTo a p.dest.toNat)) p (u.escapeChannel p a) <;> rfl
  rw [hsome, hsome]
  simp only [offsetTo_congr h.route, h.takes, escapeChannel_congr h.route]

theorem SameWay.canLeave (p : Pkt) : t.canLeave p = s.canLeave p := by
  unfold State.canLeave
  simp only [escapeMove_isSome_congr h, portsToward_congr h.route, h.takes]

end

/-- Taking a packet out of its queue changes nobody's turn but its own. -/
theorem lifted_mayInject (s : State) (port : Option Nat) (p : Pkt) : (s.lifted port p).mayInject p = s.mayInject p := by
  obtain ⟨htransit, -, -, hway, -⟩ := setTransit_effect s port (s.fabric.transit.erase (port, p))
  unfold State.mayInject
  cases ho : p.owner with
  | none => rfl
  | some q =>
    dsimp only
    unfold State.lifted
    rw [htransit]
    simp only [hway.canLeave, hway.goesBefore]
    rw [any_erase]
    rw [ho]
    simp

/-- Credits that come back change nothing of the fabric but the credits. -/
theorem returnCredits_fabric {γ : Type} (s : State) (back : List Nat) (g : Fabric → γ)
    (hg : ∀ (f : Fabric) u, g { f with creditUsed := u } = g f) : g (s.returnCredits back).fabric = g s.fabric := by
  unfold State.returnCredits
  split
  · rfl
  · exact foldl_same (fun s : State => g s.fabric) (fun s k => s.setUsed k fun i u => u - back.getD (8 * k + i) 0)
      (fun s k => hg s.fabric _) _ s

theorem returnCredits_same (s : State) (back : List Nat) : Same 0x400 s (s.returnCredits back) :=
  State.returnCredits_keeps rfl s back (.refl s)

section
variable {port : Option (Fin 6)} {p : Pkt} {s : State} (hlen : p.payload.length ≤ 256)
  (hin : (port.map (·.val), p) ∈ s.fabric.transit) (hlegal : p.legal = true) (hhere : s.isHere p.dest.toNat = false)
  (hhead : s.atHead (port.map (·.val)) p = true)
include hlen hin hlegal hhere hhead

/-- PACKET_ROUTE of a packet at the head of its queue, in the state u in which the credits are back. -/
theorem exec_packetRoute (credits : List Nat) (waited : Nat) (ecc : Ecc) :
    exec (.packetRoute port p credits waited ecc) s = .next
      (if p.hops = 63 ∧ port.isSome then
        ((s.returnCredits credits).lifted (port.map (·.val)) p).updFabric fun f =>
          { f with hopDiscards := f.hopDiscards + 1 }
      else if port.isNone && !(s.returnCredits credits).mayInject p then s.returnCredits credits
      else (((s.returnCredits credits).lifted (port.map (·.val)) p).takeTurn port.isNone p waited).settle
        (s.fabric.transit.idxOf (port.map (·.val), p)) (port.map (·.val))) := by
  have htransit := returnCredits_fabric s credits (·.transit) fun _ _ => rfl
  have hroute := returnCredits_fabric s credits (·.route) fun _ _ => rfl
  have hhead' : (s.returnCredits credits).atHead (port.map (·.val)) p = true := by
    unfold State.atHead at hhead ⊢
    rw [htransit]
    exact hhead
  have hturn := routePacket_head (by rw [htransit]; exact hin) hlegal (by rw [isHere_congr hroute]; exact hhere) hhead'
    ecc fun s => s.takeTurn port.isNone p waited
  rw [lifted_mayInject, htransit, Option.isSome_map, Option.isNone_map] at hturn
  exact (if_pos (decide_eq_true hlen)).trans (congrArg _ hturn)

/-- ESCAPE is the turn once the patience is over. -/
theorem exec_escape : exec (.escape port p) s = exec (.packetRoute port p [] s.fabric.patience.toNat .clean) s := by
  rw [exec_packetRoute hlen hin hlegal hhere hhead]
  have hturn := routePacket_head hin hlegal hhere hhead .clean fun s => s.takeTurn port.isNone p s.fabric.patience.toNat
  have hpatience : (s.lifted (port.map (·.val)) p).fabric.patience = s.fabric.patience := (setTransit_effect ..).2.1
  rw [lifted_mayInject, hpatience, Option.isSome_map, Option.isNone_map] at hturn
  exact (if_pos (decide_eq_true hlen)).trans (congrArg _ hturn)

section
variable {credits : List Nat} (hops : port.isSome = true → p.hops ≠ 63)
  (hinject : port = none → (s.returnCredits credits).mayInject p = true)
include hops hinject

/-- A packet that has its turn takes it. -/
theorem packetRoute_turn (waited : Nat) (ecc : Ecc) : exec (.packetRoute port p credits waited ecc) s = .next
    ((((s.returnCredits credits).lifted (port.map (·.val)) p).takeTurn port.isNone p waited).settle
      (s.fabric.transit.idxOf (port.map (·.val), p)) (port.map (·.val))) := by
  rw [exec_packetRoute hlen hin hlegal hhere hhead, if_neg fun h => hops h.2 h.1, if_neg ?_]
  cases port with
  | none =>
    rw [hinject rfl]
    exact Bool.false_ne_true
  | some k => exact Bool.false_ne_true

end

end

/-- The state in which a packet takes its turn routes as the one in which it came. -/
theorem turnState (s : State) (credits : List Nat) (port : Option Nat) (p : Pkt) :
    SameWay (s.returnCredits credits) ((s.returnCredits credits).lifted port p) ∧
      ((s.returnCredits credits).lifted port p).fabric.route = s.fabric.route ∧
      ((s.returnCredits credits).lifted port p).fabric.patience = s.fabric.patience ∧
      Same 0x400 s ((s.returnCredits credits).lifted port p) := by
  obtain ⟨-, hpatience, -, hway, hsame⟩ := setTransit_effect (s.returnCredits credits) port
    ((s.returnCredits credits).fabric.transit.erase (port, p))
  exact ⟨hway, hway.route.trans (returnCredits_fabric s credits (·.route) fun _ _ => rfl),
    hpatience.trans (returnCredits_fabric s credits (·.patience) fun _ _ => rfl),
      (returnCredits_same s credits).trans hsame⟩

section
variable {port : Option (Fin 6)} {p : Pkt} {s : State} {credits : List Nat} {waited : Nat}

/-- The escape move of a packet that nothing adaptive takes, or that stays on the escape channels. -/
theorem turn_escapes {a q : Nat} (ha : ((List.range 3).find? fun a => s.offsetTo a p.dest.toNat != 0) = some a)
    (hq : q = portToward a (s.offsetTo a p.dest.toNat))
    (htakes : (s.returnCredits credits).takes q p (s.escapeChannel p a) = true)
    (hor : p.esc = true ∨ (∀ j ∈ s.portsToward p.dest.toNat, (s.returnCredits credits).takes j p 2 = false) ∧
      s.fabric.patience.toNat ≤ waited) (n : Nat) :
    ∀ t, t = (((s.returnCredits credits).lifted (port.map (·.val)) p).takeTurn port.isNone p waited).settle n
        (port.map (·.val)) →
      t.out = s.out ++ [.fabric q { p with
        channel := if s.crossedSeam p a then 1 else 0, esc := true, hops := p.hops + 1, owner := none }] ∧
      t.mem = s.mem ∧ t.cores = s.cores := by
  obtain ⟨hway, hroute, hpatience, hsame⟩ := turnState s credits (port.map (·.val)) p
  generalize (s.returnCredits credits).lifted (port.map (·.val)) p = v at hway hroute hpatience hsame ⊢
  rintro t rfl
  have ha' : ((List.range 3).find? fun a => v.offsetTo a p.dest.toNat != 0) = some a := by
    simp only [offsetTo_congr hroute]
    exact ha
  have hor' : p.esc = true ∨ (∀ j ∈ v.portsToward p.dest.toNat, v.takes j p 2 = false) ∧
      v.fabric.patience.toNat ≤ waited := by
    simp only [portsToward_congr hroute, hway.takes, hpatience]
    exact hor
  rw [takeTurn_escapes hor', turnEscape_leaves ha' (by
    rw [offsetTo_congr hroute, escapeChannel_congr hroute, hway.takes, ← hq]
    exact htakes), offsetTo_congr hroute, escapeChannel_congr hroute, ← hq]
  obtain ⟨hout, hemit⟩ := emit_effect v port.isNone q p (s.escapeChannel p a) true waited
  have hchannel : BitVec.ofNat 2 (s.escapeChannel p a) = if s.crossedSeam p a then 1 else 0 := by
    unfold State.escapeChannel
    split <;> rfl
  rw [hchannel, hsame.out.resolve_left (by decide)] at hout
  exact ⟨hout, (hemit.mem_eq rfl).trans (hsame.mem_eq rfl), (hemit.cores_eq rfl).trans (hsame.cores_eq rfl)⟩

/-- A packet that turns to the escape channels without a credit there keeps its place on them. -/
theorem turn_turns (hin : (port.map (·.val), p) ∈ s.fabric.transit) {a q : Nat}
    (ha : ((List.range 3).find? fun a => s.offsetTo a p.dest.toNat != 0) = some a)
    (hq : q = portToward a (s.offsetTo a p.dest.toNat))
    (htakes : (s.returnCredits credits).takes q p (s.escapeChannel p a) = false) (he : p.esc = false)
    (hpatience : s.fabric.patience.toNat ≤ waited)
    (hno : ∀ j ∈ s.portsToward p.dest.toNat, (s.returnCredits credits).takes j p 2 = false) :
    ∀ t, t = (((s.returnCredits credits).lifted (port.map (·.val)) p).takeTurn port.isNone p waited).settle
        (s.fabric.transit.idxOf (port.map (·.val), p)) (port.map (·.val)) →
      (port.map (·.val), { p with esc := true }) ∈ t.fabric.transit ∧
      t.fabric.transit.length = s.fabric.transit.length ∧ t.out = s.out ∧ t.mem = s.mem ∧ t.cores = s.cores := by
  obtain ⟨hway, hroute, hpat, hsame⟩ := turnState s credits (port.map (·.val)) p
  have htransit := returnCredits_fabric s credits (·.transit) fun _ _ => rfl
  obtain ⟨-, hmem, hlen⟩ := lifted_staysAt (s := s.returnCredits credits) (by rw [htransit]; exact hin)
    { p with esc := true }
  rw [htransit] at hmem hlen
  generalize (s.returnCredits credits).lifted (port.map (·.val)) p = v at hway hroute hpat hsame hmem hlen ⊢
  rintro t rfl
  have ha' : ((List.range 3).find? fun a => v.offsetTo a p.dest.toNat != 0) = some a := by
    simp only [offsetTo_congr hroute]
    exact ha
  rw [takeTurn_escapes (.inr ⟨by
      simp only [portsToward_congr hroute, hway.takes]
      exact hno, by rw [hpat]; exact hpatience⟩),
    turnEscape_turns ha' (by rw [offsetTo_congr hroute, escapeChannel_congr hroute, hway.takes, ← hq]; exact htakes) he]
  have hrest := ((State.updCtr_keeps rfl v (portToward a (v.offsetTo a p.dest.toNat))
    (fun c => { c with escapes := c.escapes + 1 }) hsame).trans (State.staysAt_keeps rfl _
      (s.fabric.transit.idxOf (port.map (·.val), p)) (port.map (·.val)) { p with esc := true } (.refl _)) :
        Same 0x400 s _)
  refine ⟨?_, ?_, hrest.out.resolve_left (by decide), hrest.mem_eq rfl, hrest.cores_eq rfl⟩
  · refine Eq.mpr (congrArg (_ ∈ ·) ?_) hmem
    exact (setTransit_effect ..).1.trans (setTransit_effect ..).1.symm
  · refine Eq.trans (congrArg List.length ?_) hlen
    exact (setTransit_effect ..).1.trans (setTransit_effect ..).1.symm

/-- A packet that no port takes in its turn keeps its place as it is. -/
theorem turn_stays (hin : (port.map (·.val), p) ∈ s.fabric.transit) {a q : Nat}
    (ha : ((List.range 3).find? fun a => s.offsetTo a p.dest.toNat != 0) = some a)
    (hq : q = portToward a (s.offsetTo a p.dest.toNat))
    (hor : p.esc = true ∧ (s.returnCredits credits).takes q p (s.escapeChannel p a) = false ∨
      p.esc = false ∧ waited < s.fabric.patience.toNat ∧
        ∀ j ∈ s.portsToward p.dest.toNat, (s.returnCredits credits).takes j p 2 = false) :
    ∀ t, t = (((s.returnCredits credits).lifted (port.map (·.val)) p).takeTurn port.isNone p waited).settle
        (s.fabric.transit.idxOf (port.map (·.val), p)) (port.map (·.val)) →
      t.fabric.transit = s.fabric.transit ∧ t.out = s.out ∧ t.mem = s.mem ∧ t.cores = s.cores := by
  obtain ⟨hway, hroute, hpat, hsame⟩ := turnState s credits (port.map (·.val)) p
  have htransit := returnCredits_fabric s credits (·.transit) fun _ _ => rfl
  obtain ⟨hplace, -, -⟩ := lifted_staysAt (s := s.returnCredits credits) (by rw [htransit]; exact hin) p
  rw [htransit] at hplace
  generalize (s.returnCredits credits).lifted (port.map (·.val)) p = v at hway hroute hpat hsame hplace ⊢
  rintro t rfl
  have ha' : ((List.range 3).find? fun a => v.offsetTo a p.dest.toNat != 0) = some a := by
    simp only [offsetTo_congr hroute]
    exact ha
  have hturn : v.takeTurn port.isNone p waited = .stays v p := by
    rcases hor with ⟨he, htakes⟩ | ⟨he, hwait, hno⟩
    · rw [takeTurn_escapes (.inl he)]
      exact turnEscape_stays ha' (by
        rw [offsetTo_congr hroute, escapeChannel_congr hroute, hway.takes, ← hq]
        exact htakes) he
    · refine takeTurn_waits he ?_ (by rw [hpat]; exact hwait)
      simp only [portsToward_congr hroute, hway.takes]
      exact hno
  rw [hturn]
  have hrest := (State.staysAt_keeps rfl _ (s.fabric.transit.idxOf (port.map (·.val), p)) (port.map (·.val)) p hsame :
    Same 0x400 s _)
  exact ⟨hplace, hrest.out.resolve_left (by decide), hrest.mem_eq rfl, hrest.cores_eq rfl⟩

/-- The adaptive move of a packet that is not on the escape channels. -/
theorem turn_adapts (he : p.esc = false)
    (hsome : ∃ j ∈ s.portsToward p.dest.toNat, (s.returnCredits credits).takes j p 2 = true) (n : Nat) :
    ∀ t, t = (((s.returnCredits credits).lifted (port.map (·.val)) p).takeTurn port.isNone p waited).settle n
        (port.map (·.val)) →
      ∃ j, t.out = s.out ++ [.fabric j { p with channel := 2, esc := false, hops := p.hops + 1, owner := none }] ∧
        j ∈ s.portsToward p.dest.toNat ∧ (s.returnCredits credits).takes j p 2 = true ∧
        (∀ i ∈ s.portsToward p.dest.toNat, (s.returnCredits credits).takes i p 2 = true →
          (s.returnCredits credits).credits i ({ p with channel := 2 } : Pkt).lane ≤
            (s.returnCredits credits).credits j ({ p with channel := 2 } : Pkt).lane) ∧
        t.mem = s.mem ∧ t.cores = s.cores := by
  obtain ⟨hway, hroute, -, hsame⟩ := turnState s credits (port.map (·.val)) p
  generalize (s.returnCredits credits).lifted (port.map (·.val)) p = v at hway hroute hsame ⊢
  rintro t rfl
  obtain ⟨j, hmove, hin, htakes, hmost⟩ := adaptiveMove_takes (own := port.isNone) (waited := waited)
    (s := v) (p := p) (by
    simp only [portsToward_congr hroute, hway.takes]
    exact hsome)
  simp only [portsToward_congr hroute, hway.takes, hway.credits] at hin htakes hmost
  have hturn : v.takeTurn port.isNone p waited = .leaves (v.emit port.isNone j p 2 false waited) := by
    unfold State.takeTurn
    rw [he, if_neg Bool.false_ne_true, hmove]
  rw [hturn]
  obtain ⟨hout, hemit⟩ := emit_effect v port.isNone j p 2 false waited
  rw [hsame.out.resolve_left (by decide)] at hout
  exact ⟨j, hout, hin, htakes, hmost, (hemit.mem_eq rfl).trans (hsame.mem_eq rfl),
    (hemit.cores_eq rfl).trans (hsame.cores_eq rfl)⟩

end

theorem returnCredits_nil (s : State) : s.returnCredits [] = s := rfl

/-- A partition that goes before with a packet that can leave keeps another's back (R442). -/
theorem mayInject_kept {s : State} {p x : Pkt} {q r : Nat} (hx : (none, x) ∈ s.fabric.transit) (hq : p.owner = some q)
    (hr : x.owner = some r) (hne : r ≠ q) (hbefore : s.goesBefore r q = true) (hleave : s.canLeave x = true) :
    s.mayInject p = false := by
  unfold State.mayInject
  rw [hq]
  dsimp only
  rw [Bool.not_eq_false', List.any_eq_true]
  refine ⟨_, hx, ?_⟩
  dsimp only
  rw [hr]
  dsimp only
  rw [hbefore, hleave, bne_iff_ne.2 hne]
  rfl

/-- Settles O47: a packet's turn by its moves. -/
theorem packetsAreRouted : Obligations.PacketsAreRouted := by
  rintro port _ p credits waited ecc s u rfl rfl hlen hin hlegal hhere hhead
  have hrun := exec_packetRoute hlen hin hlegal hhere hhead credits waited ecc
  have hescape := exec_escape hlen hin hlegal hhere hhead
  obtain ⟨-, -, -, hsame⟩ := turnState s credits (port.map (·.val)) p
  refine ⟨fun hsome h63 => ?_, hescape, fun hops => ⟨fun hnone x q r hx hq hr hne hbefore
    hleave => ?_, fun hinject a q ha hq => ?_, fun hinject a q ha hq htakes hor => ?_⟩⟩
  · rw [if_pos ⟨h63, hsome⟩] at hrun
    have hrest := (State.updFabric_keeps rfl _ (fun f => { f with hopDiscards := f.hopDiscards + 1 }) hsame :
      Same 0x400 s _)
    refine ⟨_, hrun, ?_, hrest.out.resolve_left (by decide), hrest.mem_eq rfl⟩
    exact congrArg (· + 1) ((setTransit_effect ..).2.2.1.trans (returnCredits_fabric s credits (·.hopDiscards)
      fun _ _ => rfl))
  · have hkept := mayInject_kept (s := s.returnCredits credits) (p := p)
      (by rw [returnCredits_fabric s credits (·.transit) fun _ _ => rfl]; exact hx) hq hr hne hbefore hleave
    rw [if_neg fun h => hops h.2 h.1, hkept, hnone] at hrun
    rw [hnone]
    exact hrun
  · have hturn := packetRoute_turn hlen hin hlegal hhere hhead hops hinject waited ecc
    refine ⟨fun htakes hor => ⟨_, hturn, turn_escapes ha hq htakes hor _ _ rfl⟩,
      fun htakes he hw hno => ⟨_, hturn, turn_turns hin ha hq htakes he hw hno _ rfl⟩,
      fun hor => ⟨_, hturn, turn_stays hin ha hq hor _ rfl⟩, fun he hsome => ?_⟩
    obtain ⟨j, hout, hrest⟩ := turn_adapts he hsome _ _ rfl
    exact ⟨_, j, hturn, hout, hrest⟩
  · rw [← returnCredits_nil s] at hinject
    have hturn := packetRoute_turn hlen hin hlegal hhere hhead hops hinject s.fabric.patience.toNat .clean
    have hleaves := turn_escapes (port := port) (credits := []) (waited := s.fabric.patience.toNat) ha hq
    rw [returnCredits_nil] at hturn hleaves
    rw [hescape]
    exact ⟨_, hturn, hleaves htakes (hor.imp id fun hno => ⟨hno, Nat.le_refl _⟩) _ _ rfl⟩

end Sys2Proof.Machine
end


section
/-! SUPPORT. Proofs/Sched.lean: scheduled packets and maintenance packets as they arrive (O50). -/

namespace Sys2Proof.Machine

/-! ### A scheduled packet at its port (R265, R271, R276, R277) -/

/-- A fault leaves the counts of the fabric. -/
theorem fault_fabric (s : State) (st : Half) (cls kind unit : Nat) (parts : List Nat) (d0 d1 : Nat) {γ : Type}
    (g : Fabric → γ) (hg : ∀ f : Fabric, g f.steady = g f) :
    g (s.fault st cls kind unit parts d0 d1).fabric = g s.fabric := (fault_settles ..).keeps g hg

/-- A scheduled packet counted at its port. -/
def State.schedCounted (s : State) (k : Nat) (p : SPkt) : State := s.countRx k p.flits 0 (min p.channel.toNat 1)

/-- A scheduled packet with a good check, counted as delivered and sampled. -/
def State.schedHanded (s : State) (p : SPkt) : State :=
  (s.updFabric fun f => { f with delivered := f.delivered + 1 }).sample 6 0 none p.bytes

theorem schedCounted_traffic (s : State) (k : Nat) (p : SPkt) : SameTraffic s (s.schedCounted k p) := countRx_traffic ..

theorem schedCounted_alike (s : State) (k : Nat) (p : SPkt) : Alike s (s.schedCounted k p) :=
  .of_fabric (countRx_same ..) (schedCounted_traffic s k p).route

theorem schedHanded_effect (s : State) (p : SPkt) :
    (s.schedHanded p).fabric.delivered = s.fabric.delivered + 1 ∧ (s.schedHanded p).parts = s.parts ∧
      Alike s (s.schedHanded p) := by
  have htraffic := sample_traffic (s.updFabric fun f => { f with delivered := f.delivered + 1 }) 6 0 none p.bytes
  have hsame : Same 0x400 s (s.schedHanded p) := State.sample_keeps rfl _ 6 0 none p.bytes
    (State.updFabric_keeps rfl s _ (.refl s))
  exact ⟨htraffic.delivered, hsame.parts_eq rfl, .of_fabric hsame htraffic.route⟩

theorem joinedParts_congr {s t : State} (h : Alike s t) (k : Nat) : t.joinedParts k = s.joinedParts k := by
  unfold State.joinedParts State.link
  simp only [h.layout, h.place, h.inBox, h.links]

theorem schedEntry_congr {s t : State} (h : Alike s t) (n src : Nat) : t.schedEntry n src = s.schedEntry n src := by
  have hpattern : ∀ q, (t.part q).pattern = (s.part q).pattern := fun q => h.partKeeps q (·.pattern) fun _ _ => rfl
  unfold State.schedEntry
  simp only [hpattern, h.place, h.inBox]

section
variable {s : State} {k : Nat} {p : SPkt} {through : Resv → Bool} {h : State → Nat → Resv → State}

theorem schedArrival_unheard (hs : (s.link k).state ≠ 5) : s.schedArrival k p through h = s := if_pos hs

section
variable (hs : (s.link k).state = 5)
include hs

theorem schedArrival_reserved (hr : 2 ≤ p.channel.toNat ∨ (p.kind ≠ 0xD ∧ p.kind ≠ 0xE)) :
    s.schedArrival k p through h = (s.schedCounted k p).discardPkt :=
  (if_neg (not_not.2 hs)).trans (if_pos hr)

section
variable (hc : p.channel.toNat < 2) (hk : p.kind = 0xD ∨ p.kind = 0xE)
include hc hk

theorem schedArrival_unmatched (he : s.schedEntry p.resv.toNat p.src.toNat = none) :
    s.schedArrival k p through h = (s.schedCounted k p).unmatched k := by
  refine (if_neg (not_not.2 hs)).trans ((if_neg ?_).trans ?_)
  · rintro (h | ⟨hd, he⟩)
    · omega
    · exact hk.elim hd he
  · rw [show (s.countRx k p.flits 0 (min p.channel.toNat 1)).schedEntry p.resv.toNat p.src.toNat = none from
      (schedEntry_congr (schedCounted_alike s k p) ..).trans he]
    rfl

theorem schedArrival_booked {q : Nat} {r : Resv} (he : s.schedEntry p.resv.toNat p.src.toNat = some (q, r)) :
    s.schedArrival k p through h = if through r then (s.schedCounted k p).passSched p r
      else if p.check ≠ p.crc then (s.schedCounted k p).discardPkt
      else h ((s.schedCounted k p).schedHanded p) q r := by
  refine (if_neg (not_not.2 hs)).trans ((if_neg ?_).trans ?_)
  · rintro (h | ⟨hd, he⟩)
    · omega
    · exact hk.elim hd he
  · rw [show (s.countRx k p.flits 0 (min p.channel.toNat 1)).schedEntry p.resv.toNat p.src.toNat = some (q, r) from
      (schedEntry_congr (schedCounted_alike s k p) ..).trans he]
    rfl

end
end
end

/-! ### Passed on, stored, or taken by the hub -/

theorem passSched_leaves {s : State} {p : SPkt} {r : Resv} (hh : p.hops ≠ 63) (h5 : (s.link r.output).state = 5) :
    (s.passSched p r).out =
        s.out ++ [.sched r.output { p with hops := p.hops + 1, channel := BitVec.ofNat 2 r.chOut }] ∧
      Same 0x200400 s (s.passSched p r) := by
  have heq : s.passSched p r = (((s.countTx r.output p.flits).sample r.output 0 none
      ({ p with hops := p.hops + 1, channel := BitVec.ofNat 2 r.chOut } : SPkt).bytes).send
        (.sched r.output { p with hops := p.hops + 1, channel := BitVec.ofNat 2 r.chOut })) :=
    (if_neg hh).trans (if_neg (not_not.2 h5))
  have hcount : Same 0x400 s (s.countTx r.output p.flits) := State.countTx_keeps rfl s _ _ (.refl s)
  refine ⟨?_, State.passSched_keeps rfl s p r (.refl s)⟩
  rw [heq, State.send_out, (sample_same ..).out.resolve_left (by decide), hcount.out.resolve_left (by decide)]

theorem passSched_lost {s : State} {p : SPkt} {r : Resv} (hh : p.hops ≠ 63) (h5 : (s.link r.output).state ≠ 5) :
    s.passSched p r = s := (if_neg hh).trans (if_pos h5)

theorem passSched_far {s : State} {p : SPkt} {r : Resv} (hh : p.hops = 63) :
    s.passSched p r = s.updFabric fun f => { f with hopDiscards := f.hopDiscards + 1 } := if_pos hh

/-- What a SCHED_MOVE does where it is delivered. -/
def State.takeMove (p : SPkt) (landing : Nat) (ecc : Ecc) (s : State) (q : Nat) (_ : Resv) : State :=
  if (s.part q).active then (s.storeIn q landing p.payload ecc).1 else s

/-- What a COLLECTIVE packet does where it is delivered. -/
def State.takePiece (k : Nat) (p : SPkt) (ecc : Ecc) (s : State) (q : Nat) (_ : Resv) : State :=
  if (s.part q).active then s.onCollective k p q ecc else s

/-- The two commands of a scheduled packet come by one way: which entries pass it on, and what its delivery does. -/
theorem exec_sched {k : Fin 6} {p : SPkt} {landing : Nat} {ecc : Ecc} {c : Instr} (s : State)
    (hc : (c = .schedMove k p landing ecc ∧ p.kind ≠ 0xD) ∨ (c = .collective k p ecc ∧ p.kind ≠ 0xE))
    (hlen : p.payload.length ≤ 512) : ∃ through h, exec c s = .next (s.schedArrival k p through h) ∧
      ((p.kind = 0xD ∨ p.kind = 0xE) → ∀ r : Resv, through r = true ↔ r.output < 6 ∧ (p.kind = 0xD → r.input ≠ 6)) ∧
      (p.kind = 0xE → h = State.takeMove p landing ecc) ∧ (p.kind = 0xD → h = State.takePiece k p ecc) := by
  obtain ⟨rfl, hk⟩ | ⟨rfl, hk⟩ := hc
  · refine ⟨_, State.takeMove p landing ecc, if_pos ?_, fun _ r => ?_, fun _ => rfl, fun h => absurd h hk⟩
    · rw [Bool.and_eq_true]
      exact ⟨bne_iff_ne.2 hk, decide_eq_true hlen⟩
    · rw [decide_eq_true_eq]
      exact ⟨fun h => ⟨h, fun hd => absurd hd hk⟩, fun h => h.1⟩
  · refine ⟨_, State.takePiece k p ecc, if_pos ?_, fun hor r => ?_, fun h => absurd h hk, fun _ => rfl⟩
    · rw [Bool.and_eq_true]
      exact ⟨bne_iff_ne.2 hk, decide_eq_true hlen⟩
    · have hd := hor.resolve_right hk
      rw [Bool.and_eq_true, decide_eq_true_eq, decide_eq_true_eq]
      exact ⟨fun h => ⟨h.1, fun _ => h.2⟩, fun h => ⟨h.1, h.2 hd⟩⟩

theorem takeMove_active {p : SPkt} {landing : Nat} {ecc : Ecc} {s : State} {q : Nat} {r : Resv}
    (h : (s.part q).active = true) : s.takeMove p landing ecc q r = (s.storeIn q landing p.payload ecc).1 := if_pos h

theorem storeStatus_done {s : State} {q a n : Nat} (hst : s.accessStatus q a n = stDONE)
    (hheld : meetAny [(addrLocal a, n)] (s.gatherHolds ++ s.atticHolds q) = false) : s.storeStatus q a n = stDONE := by
  unfold State.storeStatus
  rw [if_neg (not_not.2 hst), hheld]
  rfl

theorem storeStatus_refused {s : State} {q a n : Nat} (h : s.accessStatus q a n ≠ stDONE ∨
    meetAny [(addrLocal a, n)] (s.gatherHolds ++ s.atticHolds q) = true) : s.storeStatus q a n ≠ stDONE := by
  unfold State.storeStatus
  by_cases hst : s.accessStatus q a n = stDONE
  · rw [if_neg (not_not.2 hst), h.resolve_left (not_not.2 hst)]
    exact show stSTALE_SHARD ≠ stDONE by decide
  · rwa [if_pos hst]

theorem streamFor_congr {s t : State} (h : t.coll = s.coll) (q k n : Nat) : t.streamFor q k n = s.streamFor q k n := by
  unfold State.streamFor
  rw [h]

/-- A piece of a stream that goes on, for a run that has not begun, is put in its place. -/
theorem onCollective_early {s : State} {k q i j : Nat} {p : SPkt} {ecc : Ecc} {x : CollRun} {y : RxStream}
    (hf : s.streamFor q k p.resv.toNat = some (i, j)) (hx : s.coll.runs[i]? = some x) (hy : x.rx[j]? = some y)
    (hb : x.begun = false) (hl : p.last = false) (hgood : (s.accessErrors [] x.chk.writeExtents ecc).2 = none) :
    (s.onCollective k p q ecc).coll.runs[i]? = some { x with
        rx := x.rx.set j { y with pieces := addPiece y.pieces (p.offset.toNat, p.payload) } } ∧
      Same 0x808 s (s.onCollective k p q ecc) := by
  generalize hz : ({ x with
    rx := x.rx.set j { y with pieces := addPiece y.pieces (p.offset.toNat, p.payload) } } : CollRun) = z
  obtain ⟨hrun, -⟩ := setRun_effect (u := s) (.refl s) hx z
  have hfields : z.rx[j]?.isSome ∧ z.core = x.core ∧ z.resv = x.resv ∧ z.part = x.part ∧ z.due = x.due ∧
      z.chk = x.chk ∧ z.begun = false := by
    subst hz
    refine ⟨?_, rfl, rfl, rfl, rfl, rfl, hb⟩
    rw [List.getElem?_set_self (List.getElem?_eq_some_iff.1 hy).1]
    rfl
  obtain ⟨hrx, hcore, hresv, hpart, hdue, hchk, hzb⟩ := hfields
  have hcheck : (s.setRun i z).checkStream i j p.last = s.setRun i z := by
    unfold State.checkStream
    rw [hrun, hl]
    dsimp only
    obtain ⟨w, hw⟩ := Option.isSome_iff_exists.1 hrx
    rw [hw]
    rfl
  have hstill : (s.setRun i z).stillRun i x = true := by
    unfold State.stillRun
    rw [hrun]
    dsimp only
    rw [hcore, hresv, hpart, hdue]
    simp
  have hmet : ((s.setRun i z).accessErrors [] x.chk.writeExtents ecc).2 = none :=
    (accessErrors_congr rfl ..).trans hgood
  have hsame := accessErrors_same (s.setRun i z) [] x.chk.writeExtents ecc
  have heq : s.onCollective k p q ecc =
      ((s.setRun i z).accessErrors [] x.chk.writeExtents ecc).1.workRun i := by
    unfold State.onCollective
    rw [hf]
    dsimp only
    rw [hx]
    dsimp only
    rw [hy]
    dsimp only
    rw [hz, hcheck, hstill, hmet]
    rfl
  rw [heq]
  generalize ((s.setRun i z).accessErrors [] x.chk.writeExtents ecc).1 = u at hsame
  have hcoll : u.coll = (s.setRun i z).coll := hsame.coll.resolve_left (by decide)
  have hidle : u.workRun i = u := by
    unfold State.workRun
    rw [hcoll, hrun]
    dsimp only
    rw [hzb]
    rfl
  rw [hidle, hcoll]
  exact ⟨hrun, (State.setRun_keeps rfl s i z (.refl s)).trans (hsame.mono rfl)⟩

/-! ### Maintenance packets (R265, R473) -/

/-- What an identity frame leaves of the registers of a port in stage 3. -/
theorem onIdentity_registers {s : State} {k : Nat} (h3 : (s.link k).state = 3) (f : List Byte) :
    ((s.onIdentity k f).link k).state = (if s.judgeFrame k f = .pass then if (s.link k).good + 1 < 3 then 3 else 4
        else if s.judgeFrame k f = .version then 7 else 6) ∧
      ((s.onIdentity k f).link k).good = (if s.judgeFrame k f = .pass then (s.link k).good + 1 else 0) ∧
      ((s.onIdentity k f).link k).neighbourSerial = BitVec.ofNat 64 (leAt f 16 8) := by
  by_cases hv : s.judgeFrame k f = .pass
  · obtain ⟨hgood, hstate, -, hserial⟩ := onIdentity_pass h3 hv
    rw [if_pos hv, if_pos hv]
    exact ⟨hstate, hgood, hserial⟩
  · have hnoted : (s.noted k f).link k = (s.link k).heard s.hw.stepping.protocol f := updLink_link_self ..
    have h3' : ((s.noted k f).link k).state = 3 := by
      rw [hnoted]
      exact h3
    rw [if_neg hv, if_neg hv, onIdentity_stage3 h3, if_neg hv]
    obtain ⟨hgood, hstate, -⟩ := holdPort_enters (v := s.judgeFrame k f) h3' f
    refine ⟨hstate, hgood, ?_⟩
    have hst : (((s.noted k f).updLink k fun l => { l with good := 0 }).link k).state.toNat ≠
        if s.judgeFrame k f = .version then 7 else 6 := by
      rw [updLink_link_self, h3']
      split <;> decide
    unfold State.holdPort
    dsimp only
    rw [if_neg hst, recordFault_link, setPort_link_self, updLink_link_self, hnoted]
    rfl

/-- A maintenance packet counted, delivered and sampled at its port. -/
def State.maintHanded (s : State) (k : Nat) (p : Pkt) : State :=
  ((s.countRx k p.flits 3 (min p.channel.toNat 1)).updFabric fun f =>
    { f with delivered := f.delivered + 1 }).sample 6 3
    (some p.part.toNat) p.bytes

theorem maintHanded_same (s : State) (k : Nat) (p : Pkt) : Same 0x400 s (s.maintHanded k p) :=
  State.sample_keeps rfl _ _ _ _ _ (State.updFabric_keeps rfl _ _ (countRx_same ..))

theorem maintHanded_room (s : State) (k : Nat) (p : Pkt) : SameRoom s (s.maintHanded k p) :=
  (show SameRoom s ((s.countRx k p.flits 3 (min p.channel.toNat 1)).updFabric fun f =>
    { f with delivered := f.delivered + 1 }) from ⟨rfl, rfl, rfl, rfl⟩).trans (sample_room ..)

section
variable {k : Fin 6} {p : Pkt} {s : State} (hlen : p.payload.length ≤ 256)
include hlen

theorem exec_maint : exec (.maint k p) s = .next (s.onMaint k p) := if_pos (decide_eq_true hlen)

theorem exec_maint_unheard (h : (s.link k).state.toNat < 3 ∨ 7 < (s.link k).state.toNat) :
    exec (.maint k p) s = .next s := (exec_maint hlen).trans (congrArg _ (if_pos h))

section
variable (hlo : 3 ≤ (s.link k).state.toNat) (hhi : (s.link k).state.toNat ≤ 7)
include hlo hhi

theorem exec_maint_discards (h : p.check ≠ p.crc ∨ p.cls ≠ 3 ∨ p.kind ≠ 0xC ∨ 2 ≤ p.channel.toNat) :
    exec (.maint k p) s = .next (s.countRx k p.flits 3 (min p.channel.toNat 1)).discardPkt :=
  (exec_maint hlen).trans (congrArg _ ((if_neg (by omega)).trans (if_pos h)))

theorem exec_maint_identity (hcheck : p.check = p.crc) (hcls : p.cls = 3) (hk : p.kind = 0xC)
    (hc : p.channel.toNat < 2) (hl : p.payload.length = 64) (htype : leAt p.payload 0 1 = 1) :
    exec (.maint k p) s = .next ((s.maintHanded k p).onIdentity k p.payload) := by
  refine (exec_maint hlen).trans (congrArg _ ((if_neg (by omega)).trans ((if_neg ?_).trans ?_)))
  · rintro (h | h | h | h)
    · exact h hcheck
    · exact h hcls
    · exact h hk
    · omega
  · show (s.maintHanded k p).onMaintFrame k p.payload = _
    unfold State.onMaintFrame
    rw [hl, htype]
    rfl

end
end

/-- Settles O50: a packet by its port, its kind, its entry and its check. -/
theorem scheduledAndMaintenancePackets : Obligations.ScheduledAndMaintenancePackets := by
  refine ⟨fun k p landing ecc c s hc hlen => ?_, fun k p s hlen => ⟨exec_maint_unheard hlen, fun hlo hhi h => ?_,
    fun h3 hcheck hcls hk hch hl htype => ?_⟩⟩
  · obtain ⟨through, h, hrun, hthrough, hmove, hpiece⟩ := exec_sched s hc hlen
    have halike := schedCounted_alike s k p
    have htraffic := schedCounted_traffic s k p
    have hparts := (countRx_same s k p.flits 0 (min p.channel.toNat 1)).parts_eq rfl
    have hout := (countRx_same s k p.flits 0 (min p.channel.toNat 1)).out.resolve_left (by decide)
    refine ⟨fun hs => by rw [hrun, schedArrival_unheard hs], fun hs hr => ?_, fun hs hch hk => ⟨fun he => ?_,
      fun q r he => ⟨fun hpass => ?_, fun hdel => ?_⟩⟩⟩
    · rw [schedArrival_reserved hs hr] at hrun
      exact ⟨_, hrun, rfl, rfl, rfl, rfl⟩
    · rw [schedArrival_unmatched hs hch hk he] at hrun
      refine ⟨_, hrun, ?_, fun q hq => ?_, ?_⟩
      · exact fault_fabric _ _ _ _ _ _ _ _ (·.schedUnmatched) fun _ => rfl
      · exact (fault_active ..).trans (if_pos (by rw [joinedParts_congr halike]; exact hq))
      · exact (fault_faultTaken ..).trans (halike.faultsAfter 1)
    · rw [schedArrival_booked hs hch hk he, if_pos ((hthrough hk r).2 hpass)] at hrun
      refine ⟨fun hh h5 => ?_, fun hh h5 => ?_, fun hh => ?_⟩
      · obtain ⟨hsent, hsame⟩ := passSched_leaves (s := s.schedCounted k p) hh
          (by rw [State.link, halike.links]; exact h5)
        exact ⟨_, hrun, hsent.trans (congrArg (· ++ _) hout), (hsame.mem_eq rfl).trans halike.mem,
          (hsame.coll.resolve_left (by decide)).trans halike.coll, (hsame.parts_eq rfl).trans hparts⟩
      · rw [passSched_lost hh (by rw [State.link, halike.links]; exact h5)] at hrun
        exact ⟨_, hrun, hout, halike.mem, halike.coll, hparts⟩
      · rw [passSched_far hh] at hrun
        exact ⟨_, hrun, rfl, hout, halike.mem⟩
    · rw [schedArrival_booked hs hch hk he, if_neg fun ht => ?_] at hrun
      · obtain ⟨hcount, hhparts, hhalike⟩ := schedHanded_effect (s.schedCounted k p) p
        have hcount' := hcount.trans (congrArg (· + 1) htraffic.delivered)
        have hhparts' := hhparts.trans hparts
        have hall := halike.trans hhalike
        refine ⟨fun hbad => ?_, fun hgood hE hact => ⟨fun hst hheld => ⟨fun hmet => ?_, fun hmet => ?_⟩, fun hor => ?_⟩,
          fun i j x y hgood hD hact hf hx hy hb hl hmet => ?_⟩
        · rw [if_pos hbad] at hrun
          exact ⟨_, hrun, rfl, rfl, rfl⟩
        all_goals rw [if_neg (not_not.2 hgood)] at hrun
        all_goals generalize (s.schedCounted k p).schedHanded p = u at hrun hcount' hhparts' hall
        · rw [hmove hE, takeMove_active ((hall.active q).trans hact)] at hrun
          obtain ⟨-, hmem, hsame⟩ := storeIn_stored (bs := p.payload) (ecc := ecc)
            ((hall.storeStatus ..).trans (storeStatus_done hst hheld)) ((accessErrors_congr hall.memStat ..).trans hmet)
          refine ⟨_, hrun, ?_, (hsame.parts_eq rfl).trans hhparts', fun a => ?_⟩
          · rw [hsame.fabric.resolve_left (by decide), hcount']
          · rw [hmem, memRead_memPut_run, hall.mem]
        · rw [hmove hE, takeMove_active ((hall.active q).trans hact)] at hrun
          obtain ⟨v, bad, hsame, hfails⟩ := storeIn_fails (bs := p.payload) (ecc := ecc)
            ((hall.storeStatus ..).trans (storeStatus_done hst hheld)) (by rwa [accessErrors_congr hall.memStat])
          rw [hfails] at hrun
          refine ⟨_, hrun, ?_, (fault_active ..).trans (if_pos (List.mem_singleton.2 rfl)), ?_⟩
          · exact (fault_fabric _ _ _ _ _ _ _ _ (·.delivered) fun _ => rfl).trans
              ((congrArg Fabric.delivered (hsame.fabric.resolve_left (by decide))).trans hcount')
          · refine (fault_faultTaken ..).trans ((faultsAfter_congr ?_ ?_ 1).trans (hall.faultsAfter 1))
            · rw [hsame.fw.resolve_left (by decide)]
            · rw [hsame.links_eq rfl]
        · rw [hmove hE, takeMove_active ((hall.active q).trans hact)] at hrun
          obtain ⟨-, hsame⟩ := storeIn_refused (s := u) (q := q) (a := landing) (bs := p.payload) (ecc := ecc) (by
            rw [hall.storeStatus]
            exact storeStatus_refused hor)
          refine ⟨_, hrun, ?_, (hsame.mem_eq rfl).trans hall.mem, (hsame.parts_eq rfl).trans hhparts'⟩
          rw [hsame.fabric.resolve_left (by decide), hcount']
        · have hmeets : (u.accessErrors [] x.chk.writeExtents ecc).2 = none :=
            (accessErrors_congr hall.memStat ..).trans hmet
          obtain ⟨hset, hsame⟩ := onCollective_early ((streamFor_congr hall.coll ..).trans hf)
            (by rw [hall.coll]; exact hx) hy hb hl hmeets
          rw [hpiece hD, State.takePiece, if_pos ((hall.active q).trans hact)] at hrun
          refine ⟨_, _, hrun, (hsame.mem_eq rfl).trans hall.mem, (hsame.parts_eq rfl).trans hhparts', hset, ?_,
            fun l hlj => List.getElem?_set_ne (Ne.symm hlj)⟩
          exact List.getElem?_set_self (List.getElem?_eq_some_iff.1 hy).1
      · obtain ⟨hlt, hin⟩ := (hthrough hk r).1 ht
        rcases hdel with hge | ⟨hD, h6⟩
        · omega
        · exact hin hD h6
  · exact ⟨_, exec_maint_discards hlen hlo hhi h, rfl, rfl, rfl, rfl, rfl⟩
  · have hlo : 3 ≤ (s.link k).state.toNat := by rw [h3]; decide
    have hhi : (s.link k).state.toNat ≤ 7 := by rw [h3]; decide
    have hmaint := maintHanded_same s k p
    have hframe := countFrame_same s k p.payload
    obtain ⟨hstate, hgood, hserial⟩ := onIdentity_registers
      ((congrArg Link.state (hmaint.link_eq rfl k)).trans h3) p.payload
    obtain ⟨hstate', hgood', hserial'⟩ := onIdentity_registers
      ((congrArg Link.state (hframe.link_eq rfl k)).trans h3) p.payload
    rw [judgeFrame_congr (hmaint.links_eq rfl) (maintHanded_room ..), hmaint.link_eq rfl] at hstate hgood
    rw [judgeFrame_congr (hframe.links_eq rfl) (countFrame_room ..), hframe.link_eq rfl] at hstate' hgood'
    exact ⟨_, _, exec_maint_identity hlen hlo hhi hcheck hcls hk hch hl htype, exec_identity hl k s,
      hstate.trans hstate'.symm, hgood.trans hgood'.symm, hserial.trans hserial'.symm⟩

end Sys2Proof.Machine
end


section
/-! SUPPORT. Proofs/Finish.lean: COMMAND_COMPLETE of every engine and of the hub (O29). -/

namespace Sys2Proof.Machine

/-! ### A command that fails (R102, R109, R483) -/

/-- A completion counts a collective, and changes nothing else of the hub. -/
theorem complete_coll (s : State) (p c : Nat) (e : Entry) (st flags : Half) (signal : Bool) :
    (s.complete p c e st flags signal).coll = { s.coll with done := s.coll.done + if e.kind = 6 then 1 else 0 } := by
  unfold State.complete
  extract_lets u v w
  have hu : Same 0x84C0 s u := kept_ite _ _ _ (setTally_same ..) (.refl s)
  have hw : Same 0x20804C v w := kept_ite _ _ _ (State.writeRecord_keeps rfl v c e.kind e.tag st flags
    (.refl v)) (.refl v)
  have hend : Same 0x20804C v (if stopsQueue st then w.stopQueue c e.tag st else w) :=
    kept_ite _ _ _ (State.stopQueue_keeps rfl w c e.tag st hw) hw
  rw [hend.coll.resolve_left (by decide), collDone_coll, hu.coll.resolve_left (by decide)]

/-- A command of a running partition whose failure is a fault of it: the partition stops with the status, one record
is counted, and every tally stays. -/
theorem failCommand_effect {s : State} {p : Nat} (h : (s.part p).active = true) (c : Nat) (e : Entry) (st flags : Half)
    (cls kind unit d0 : Nat) : ∀ t, t = s.failCommand p c e st flags cls kind unit d0 →
      (t.part p).active = false ∧ (t.part p).stopCause = st ∧ t.links.faultTaken = s.faultsAfter 1 ∧
      (∀ d n, t.tallyOf d n = s.tallyOf d n) ∧ t.coll.done = s.coll.done + (if e.kind = 6 then 1 else 0) ∧
      t.coll.eventTaken = s.coll.eventTaken := by
  rintro t rfl
  have hsame : Same 0x20884C s (s.complete p c e st flags false) := complete_unsignalled rfl s p c e st flags (.refl s)
  have htally := complete_unsignalled_tallyOf s p c e st flags
  have hcoll := complete_coll s p c e st flags false
  unfold State.failCommand
  generalize s.complete p c e st flags false = u at hsame htally hcoll
  obtain ⟨hactive, hcause, hfault⟩ := fault_one (s := u) (by rw [hsame.part_eq rfl]; exact h) st cls kind unit d0 0
  obtain ⟨r, l, hf⟩ := fault_coll u st cls kind unit [p] d0 0
  refine ⟨hactive, hcause, hfault.trans (faultsAfter_congr ?_ ?_ 1), fun d n => (fault_tallyOf ..).trans
    (htally d n), ?_,
    ?_⟩
  · rw [hsame.fw.resolve_left (by decide)]
  · rw [hsame.links_eq rfl]
  · rw [hf, hcoll]
  · rw [hf, hcoll]

/-! ### MATMUL and MOVE (R118, R135, R196, R412, R414) -/

section
variable {s : State} {p c : Nat} {r : TensorRun} (hr : (s.core c).tensor = some r)
include hr

theorem finishTensor_failed {a : Nat} (hb : r.bad = some a) : s.finishTensor p c = if r.undrained ≠ [] then s else
    (s.updCore c fun x => { x with tensor := none }).failRead p c r.chk.entry r.flags a := by
  unfold State.finishTensor
  rw [hr]
  dsimp only
  rw [hb]

theorem finishTensor_good (hb : r.bad = none) : s.finishTensor p c =
    if r.stale then
      (s.updCore c fun x => { x with tensor := none }).complete p c r.chk.entry stSTALE_SHARD r.flags false
    else if r.next < r.tiles ∨ r.undrained ≠ [] then s
    else ((s.updCore c fun x => { x with tensor := none }).noteAccum p r.chk).complete p c r.chk.entry stDONE r.flags
      true := by
  unfold State.finishTensor
  rw [hr]
  dsimp only
  rw [hb]

end

/-- The vector engine is free, with the table of an FNLOAD, and its command completes. -/
theorem finishVector_frees {s : State} {c : Nat} {r : EngineRun} (p : Nat) (hr : (s.core c).vector = some r) :
    ∃ x : Core, x.vector = none ∧ x.tallies = (s.core c).tallies ∧
      s.finishVector p c = (s.setCore c x).complete p c r.chk.entry r.status r.flags true := by
  have heq : ∃ f0 f1 : Core → _, s.finishVector p c = (s.updCore c fun x =>
      { x with vector := none, fn0 := f0 x, fn1 := f1 x }).complete p c r.chk.entry r.status r.flags true := by
    unfold State.finishVector
    rw [hr]
    exact ⟨_, _, rfl⟩
  obtain ⟨f0, f1, heq⟩ := heq
  exact ⟨{ s.core c with vector := none, fn0 := f0 (s.core c), fn1 := f1 (s.core c) }, rfl, rfl, heq⟩

/-- What the module where a scheduled MOVE lands answers is the status of the move. -/
theorem landed_eq {m : MoverRun} {landing st : Half} (hop : m.chk.entry.moveOp = 0)
    (hst : st = if m.status = stDONE ∧ m.chk.entry.moveResv ≠ 0 ∧ m.dst.any (·.loc == 8) = true ∧
      landing ∈ [stENGINE_ABSENT, stPRIVILEGE, stCONFIG, stSTALE_SHARD] then landing else m.status) :
    m.landed landing = { m with status := st } := by
  unfold MoverRun.landed
  by_cases h : m.status = stDONE ∧ m.chk.entry.moveResv ≠ 0 ∧ m.dst.any (·.loc == 8) = true ∧
      landing ∈ [stENGINE_ABSENT, stPRIVILEGE, stCONFIG, stSTALE_SHARD]
  · rw [if_pos h] at hst
    obtain ⟨hdone, hresv, hdst, hin⟩ := h
    simp only [List.mem_cons, List.not_mem_nil, or_false] at hin
    rw [if_pos ⟨hdone, hop, hresv, hdst, hin⟩, hst]
  · rw [if_neg h] at hst
    rw [if_neg, hst]
    rintro ⟨hdone, -, hresv, hdst, hin⟩
    refine h ⟨hdone, hresv, hdst, ?_⟩
    simp only [List.mem_cons, List.not_mem_nil, or_false]
    exact hin

theorem landed_phase (m : MoverRun) (landing : Half) : (m.landed landing).phase = m.phase := by
  unfold MoverRun.landed
  split <;> rfl

section
variable {s : State} {p c : Nat} {m : MoverRun} {landing : Half} (hm : (s.core c).mover = some m)
include hm

theorem finishMover_waits (h : m.phase ≠ .done) : s.finishMover p c landing = s := by
  unfold State.finishMover
  rw [hm]
  exact if_pos (by rw [landed_phase]; exact h)

/-- A copy of this core that is done: it completes with its status, without a signal where a hold refused it. -/
theorem finishMover_copy {st : Half} (h : m.phase = .done) (hop : m.chk.entry.moveOp = 0) (hkey : m.gatherKey = none)
    (hl : m.landed landing = { m with status := st }) (hsig : m.chk.entry.remoteSignal = false ∨ st ≠ stDONE) :
    s.finishMover p c landing = (s.updCore c fun x => { x with mover := none }).complete p c m.chk.entry st m.flags
      (st != stSTALE_SHARD) := by
  have hsignal : (m.chk.entry.remoteSignal && (st == stDONE) && (remoteTallyOf m.chk m.dst).isNone) = false := by
    obtain hs | hs := hsig
    · rw [hs]
      rfl
    · rw [beq_eq_false_iff_ne.2 hs, Bool.and_false]
      rfl
  unfold State.finishMover
  rw [hm]
  dsimp only
  rw [hl]
  dsimp only
  rw [if_neg (not_not.2 h), hop]
  rw [hkey]
  dsimp only
  rw [hsignal]
  rfl

end

/-! ### Collectives (R338, R343, R344) -/

/-- A status that does not stop the queue: of a run that is over, every one but those of a miss and of a hold. -/
theorem stopsQueue_status {r : CollRun} (hmiss : r.status ≠ stLEDGER_MISS) (hstale : r.status ≠ stSTALE_SHARD) :
    stopsQueue r.status = false := by
  unfold CollRun.status at *
  by_cases h0 : r.chk.entry.count = 0
  · rw [if_pos h0]
    rfl
  rw [if_neg h0] at hmiss hstale ⊢
  cases hm : r.miss with
  | true =>
    rw [hm] at hmiss
    exact absurd rfl hmiss
  | false =>
    rw [hm, if_neg Bool.false_ne_true] at hstale
    rw [if_neg Bool.false_ne_true]
    cases hs : r.stale with
    | true =>
      rw [hs] at hstale
      exact absurd rfl hstale
    | false =>
      rw [if_neg Bool.false_ne_true]
      split
      · rfl
      · split <;> rfl

/-- The hub without run i, with an event unless its status is DONE, and with the record of the norm that it read. -/
def State.collEnded (s : State) (i : Nat) (r : CollRun) : State :=
  let t := if r.status = stDONE then s.dropRun i
    else (s.dropRun i).collEvent r r.status (r.culprit r.status).1 (r.culprit r.status).2
  match r.record with
  | some b => t.updPart r.part fun q => { q with normRecord := some b }
  | none => t

theorem finishColl_over {s : State} {c n i : Nat} {r : CollRun}
    (hi : (s.coll.runs.findIdx? fun x => x.core == c && x.resv == n && x.over) = some i)
    (hr : s.coll.runs[i]? = some r) : s.finishColl c n =
      if r.status = stLEDGER_MISS then (s.collEnded i r).failCommand r.part c r.chk.entry r.status r.flags 4 5
        r.chk.entry.unit 0
      else (s.collEnded i r).complete r.part c r.chk.entry r.status r.flags (r.status != stSTALE_SHARD) := by
  unfold State.finishColl
  rw [hi]
  dsimp only
  rw [hr]
  rfl

theorem finishColl_idle {s : State} {c n : Nat}
    (h : ∀ r ∈ s.coll.runs, r.core = c → r.resv = n → r.over = false) : s.finishColl c n = s := by
  have hnone : (s.coll.runs.findIdx? fun x => x.core == c && x.resv == n && x.over) = none := by
    rw [List.findIdx?_eq_none_iff]
    intro r hr
    by_cases hc : r.core = c ∧ r.resv = n
    · rw [h r hr hc.1 hc.2, Bool.and_false]
    · rw [not_and_or] at hc
      obtain hc | hc := hc
      · rw [beq_eq_false_iff_ne.2 hc]
        rfl
      · rw [beq_eq_false_iff_ne.2 hc, Bool.and_false]
        rfl
  unfold State.finishColl
  rw [hnone]

theorem collEnded_effect (s : State) (i : Nat) (r : CollRun) :
    (s.collEnded i r).coll.runs = s.coll.runs.eraseIdx i ∧ (s.collEnded i r).coll.done = s.coll.done ∧
      (s.collEnded i r).coll.eventTaken = s.coll.eventTaken + (if r.status = stDONE then 0 else 1) ∧
      (∀ q, ∃ b, (s.collEnded i r).part q = { s.part q with normRecord := b }) ∧ Same 0x880 s (s.collEnded i r) := by
  have hdrop : ∀ t, t = (if r.status = stDONE then s.dropRun i
      else (s.dropRun i).collEvent r r.status (r.culprit r.status).1 (r.culprit r.status).2) →
      t.coll.runs = s.coll.runs.eraseIdx i ∧ t.coll.done = s.coll.done ∧
        t.coll.eventTaken = s.coll.eventTaken + (if r.status = stDONE then 0 else 1) ∧ Same 0x800 s t := by
    rintro t rfl
    have hkeep : Same 0x800 s (s.dropRun i) := State.dropRun_keeps rfl s i (.refl s)
    split
    · exact ⟨rfl, rfl, (BitVec.add_zero _).symm, hkeep⟩
    · exact ⟨rfl, rfl, rfl, State.collEvent_keeps rfl _ _ _ _ _ hkeep⟩
  unfold State.collEnded
  dsimp only
  generalize (if r.status = stDONE then s.dropRun i else _) = t at hdrop
  obtain ⟨hruns, hdone, hevent, hsame⟩ := hdrop t rfl
  have hpart : ∀ q, ∃ b, t.part q = { s.part q with normRecord := b } := fun q => ⟨_, hsame.part_eq rfl q⟩
  cases hrec : r.record with
  | none => exact ⟨hruns, hdone, hevent, hpart, hsame.mono rfl⟩
  | some b =>
    refine ⟨hruns, hdone, hevent, fun q => ?_, State.updPart_keeps rfl t r.part _ (hsame.mono rfl)⟩
    by_cases hq : r.part = q
    · subst hq
      refine ⟨some b, ?_⟩
      rw [State.part_updPart, if_pos rfl, hsame.part_eq rfl]
    · rw [State.part_updPart, if_neg hq]
      exact hpart q

/-- Settles O29: each engine by what it holds, and the hub by the run that is over. -/
theorem commandsComplete : Obligations.CommandsComplete := by
  refine ⟨fun core s p hp => ⟨fun r hr => ⟨fun hb hs hn hu => ?_, fun hb hs => ?_, fun hb hs hor => ?_, fun hb hu => ?_,
    fun hb hu hact => ?_⟩, fun r hr => ?_, fun r hr => ?_, fun m landing hm hph => ?_,
    fun m landing st hm hph hop hkey hst hsig => ?_⟩, fun core n s p hp => ⟨fun h => ?_, fun i r hi hr hkind =>
    ⟨fun hmiss hact => ?_, fun hmiss => ?_⟩⟩⟩
  all_goals rw [exec_commandComplete hp]; dsimp only
  · rw [finishTensor_good hr hb, hs, if_neg Bool.false_ne_true, if_neg]
    rintro (h | h)
    · omega
    · exact h hu
  · rw [finishTensor_good hr hb, hs, if_pos rfl]
  · rw [finishTensor_good hr hb, hs, if_neg Bool.false_ne_true, if_pos hor]
  · obtain ⟨a, ha⟩ := Option.isSome_iff_exists.1 hb
    rw [finishTensor_failed hr ha, if_pos hu]
  · obtain ⟨a, ha⟩ := Option.isSome_iff_exists.1 hb
    rw [finishTensor_failed hr ha, if_neg (not_not.2 hu)]
    have htally : ∀ c n, (s.updCore core fun x => { x with tensor := none }).tallyOf c n =
      s.tallyOf c n := fun c n => by
      unfold State.tallyOf
      rw [State.core_updCore]
      split
      · next h => rw [← h]
      · rfl
    generalize ht : (s.updCore core fun x => { x with tensor := none }).failRead p core r.chk.entry r.flags a = t
    obtain ⟨hactive, hcause, hfault, hall, -⟩ := failCommand_effect
      (s := s.updCore core fun x => { x with tensor := none }) hact core r.chk.entry stECC r.flags 1 (memUnit a).1
      (memUnit a).2 a t ht.symm
    exact ⟨t, rfl, hactive, hcause, hfault, fun c n => (hall c n).trans (htally c n)⟩
  · obtain ⟨x, hx, htallies, heq⟩ := finishVector_frees p hr
    exact ⟨x, hx, htallies, congrArg _ heq⟩
  · unfold State.finishRow
    rw [hr]
  · rw [finishMover_waits hm hph]
  · rw [finishMover_copy hm hph hop hkey (landed_eq hop hst) hsig]
  · rw [finishColl_idle h]
  all_goals
    obtain ⟨hruns, hdone, hevent, hpart, hsame⟩ := collEnded_effect s i r
    rw [finishColl_over hi hr]
    generalize s.collEnded i r = u at hruns hdone hevent hpart hsame
    obtain ⟨b, hb⟩ := hpart r.part
  · obtain ⟨hactive, hcause, hfault, hall, hcount, hevents⟩ := failCommand_effect (s := u) (p := r.part)
      (by rw [hb]; exact hact) core r.chk.entry r.status r.flags 4 5 r.chk.entry.unit 0 _ rfl
    rw [if_pos hmiss]
    refine ⟨_, rfl, hcount.trans ?_, hevents.trans (hevent.trans ?_), hactive, hcause.trans hmiss,
      hfault.trans (faultsAfter_congr ?_ ?_ 1), fun d m => (hall d m).trans (hsame.tallyOf_eq rfl d m)⟩
    · rw [hdone, if_pos hkind]
    · rw [if_neg (by rw [hmiss]; decide)]
    · rw [hsame.fw.resolve_left (by decide)]
    · rw [hsame.links_eq rfl]
  · rw [if_neg hmiss]
    have hcoll := complete_coll u r.part core r.chk.entry r.status r.flags (r.status != stSTALE_SHARD)
    have htally := complete_tallyOf u r.part core r.chk.entry r.status r.flags (r.status != stSTALE_SHARD)
    obtain ⟨x, hx⟩ := complete_part u r.part core r.chk.entry r.status r.flags (r.status != stSTALE_SHARD) p
    obtain ⟨y, hy⟩ := hpart p
    refine ⟨_, rfl, ?_, ?_, ?_, fun hstale => ?_, ?_, fun hor d m => ?_, fun hsig hstale d m hd hm => ?_⟩
    · rw [hcoll, ← hruns]
    · rw [hcoll, if_pos hkind, ← hdone]
    · rw [hcoll, ← hevent]
    · rw [complete_qstate, stopsQueue_status hmiss hstale, if_neg (fun h => Bool.false_ne_true h.2.1),
      hsame.core_eq rfl]
    · rw [hx, hy]
    · rw [htally, if_neg, hsame.tallyOf_eq rfl]
      obtain hs | hs := hor <;> rw [hs] <;> simp
    · rw [htally, hsig, bne_iff_ne.2 hstale, hb, hd, hm, hsame.tallyOf_eq rfl]
      simp

end Sys2Proof.Machine
end


section
/-! SUPPORT. Proofs/Mover.lean: how a MOVE issues, and what its run sees of the state around it. -/

namespace Sys2Proof.Machine

/-! ### What the mover of a core sees (R286, R414) -/

/-- For the mover of core c the two states are the same: memory, the fabric, the free values, the partitions apart from
their schedules, and the other cores with what they hold. -/
structure SameAround (c : Nat) (s t : State) : Prop where
  mem : t.mem = s.mem
  fabric : t.fabric = s.fabric
  free : t.freeCtr = s.freeCtr
  part : ∀ q, ∃ x, t.part q = { s.part q with sched := x }
  core : ∀ d, d ≠ c → t.core d = s.core d
  holds : t.gatherHoldsBut c = s.gatherHoldsBut c

namespace SameAround
variable {c : Nat} {s t u : State}

theorem trans (h : SameAround c s t) (g : SameAround c t u) : SameAround c s u where
  mem := g.mem.trans h.mem
  fabric := g.fabric.trans h.fabric
  free := g.free.trans h.free
  part q := by
    obtain ⟨x, hx⟩ := h.part q
    obtain ⟨y, hy⟩ := g.part q
    exact ⟨y, by rw [hy, hx]⟩
  core d hd := (g.core d hd).trans (h.core d hd)
  holds := g.holds.trans h.holds

/-- What a partition says apart from its schedule. -/
theorem partKeeps {γ : Type} (h : SameAround c s t) (q : Nat) (g : Part → γ)
    (hg : ∀ (r : Part) x, g { r with sched := x } = g r) : g (t.part q) = g (s.part q) := by
  obtain ⟨x, hx⟩ := h.part q
  rw [hx, hg]

theorem layout (h : SameAround c s t) (q : Nat) : (t.part q).layout = (s.part q).layout :=
  h.partKeeps q (·.layout) fun _ _ => rfl

theorem hasShelf (h : SameAround c s t) (q n : Nat) : t.hasShelf q n = s.hasShelf q n := by
  unfold State.hasShelf
  rw [h.layout]

theorem partOf (h : SameAround c s t) (d : Nat) : t.partOf d = s.partOf d := by
  unfold State.partOf State.partOfShelf
  simp only [h.hasShelf]

theorem myId (h : SameAround c s t) : t.myId = s.myId := myId_congr (congrArg Fabric.route h.fabric)

theorem routableTo (h : SameAround c s t) (d : Nat) : t.routableTo d = s.routableTo d := by
  unfold State.routableTo
  rw [h.fabric]

theorem reader (h : SameAround c s t) (st : Sparse Byte) : t.moveReader st = s.moveReader st := by
  unfold State.moveReader
  rw [h.mem, h.myId, h.free]

theorem env (h : SameAround c s t) (d : Nat) (e : Entry) : t.envOf d e = s.envOf d e := by
  have hlatched : ∀ q, (t.part q).latched = (s.part q).latched := fun q => h.partKeeps q (·.latched) fun _ _ => rfl
  unfold State.envOf
  rw [h.partOf]
  cases s.partOf d with
  | none => rfl
  | some q => exact congrArg e.env (hlatched q)

theorem atticHolds (h : SameAround c s t) (q : Nat) : t.atticHolds q = s.atticHolds q := by
  unfold State.atticHolds
  rw [h.partKeeps q (·.attic) fun _ _ => rfl]

theorem heldAgainst (h : SameAround c s t) (d : Nat) (gathers xs : List (Nat × Nat)) :
    t.heldAgainst d gathers xs = s.heldAgainst d gathers xs := by
  unfold State.heldAgainst
  simp only [h.partOf, h.atticHolds]

end SameAround

section
variable {α β : Type} {f : Nat × α → List β} {k : Nat} (hk : ∀ v, f (k, v) = [])
include hk

theorem flatMap_put (m : Sparse α) (v : α) : (Sparse.put m k v).flatMap f = m.flatMap f := by
  induction m with
  | nil =>
    rw [Sparse.put, List.flatMap_cons, hk]
    rfl
  | cons x m ih =>
    obtain ⟨j, w⟩ := x
    rw [Sparse.put]
    split
    · rw [List.flatMap_cons, hk]
      rfl
    · split
      · next h => rw [List.flatMap_cons, List.flatMap_cons, h, hk, hk]
      · rw [List.flatMap_cons, List.flatMap_cons, ih]

theorem flatMap_del (m : Sparse α) : (Sparse.del m k).flatMap f = m.flatMap f := by
  induction m with
  | nil => rfl
  | cons x m ih =>
    obtain ⟨j, w⟩ := x
    rw [Sparse.del]
    split
    · next h =>
      rw [List.flatMap_cons, h, hk, ih]
      rfl
    · rw [List.flatMap_cons, List.flatMap_cons, ih]

/-- What a table's entries but those of key k give, a change of k leaves. -/
theorem flatMap_set [DecidableEq α] (d : α) (m : Sparse α) (v : α) : (Sparse.set d m k v).flatMap f = m.flatMap f := by
  unfold Sparse.set
  split
  · exact flatMap_del hk m
  · exact flatMap_put hk m v

end

/-- A change of core c itself. -/
theorem updCore_around (s : State) (c : Nat) (f : Core → Core) : SameAround c s (s.updCore c f) where
  mem := rfl
  fabric := rfl
  free := rfl
  part q := ⟨_, rfl⟩
  core d hd := by rw [State.core_updCore, if_neg (Ne.symm hd)]
  holds := flatMap_set (fun v => by
    dsimp only
    cases v.mover with
    | none => rfl
    | some m => exact if_pos rfl) Core.reset s.cores _

/-- What leaves the cores, the partitions, memory, the fabric and the free values. -/
theorem SameAround.of_same {c : Nat} {s t : State} (h : Same 0x108 s t) (hfree : t.freeCtr = s.freeCtr) :
    SameAround c s t where
  mem := h.mem_eq rfl
  fabric := h.fabric.resolve_left (by decide)
  free := hfree
  part q := ⟨_, h.part_eq rfl q⟩
  core d _ := h.core_eq rfl d
  holds := by
    unfold State.gatherHoldsBut
    rw [h.cores_eq rfl]

theorem accessErrors_free (s : State) (rs ws : List (Nat × Nat)) (e : Ecc) :
    (s.accessErrors rs ws e).1.freeCtr = s.freeCtr := by
  unfold State.accessErrors
  dsimp only
  rw [foldl_same State.freeCtr State.hbmFail fun _ _ => rfl, foldl_same State.freeCtr State.cellarFail fun _ _ => rfl]
  show State.freeCtr (List.foldl State.hbmCorrect _ _) = _
  rw [foldl_same State.freeCtr State.hbmCorrect fun _ _ => rfl,
    foldl_same State.freeCtr State.cellarCorrect fun _ _ => rfl]

theorem accessErrors_around (c : Nat) (s : State) (rs ws : List (Nat × Nat)) (e : Ecc) :
    SameAround c s (s.accessErrors rs ws e).1 := .of_same ((accessErrors_same ..).mono rfl) (accessErrors_free ..)

/-! ### Taking a MOVE (R132, R385) -/

/-- A MOVE taken off the queue of core c and noted as issued. -/
def State.moveTaken (s : State) (p c : Nat) (e : Entry) : State := (s.popHead c).noteIssued p e

theorem moveTaken_around (s : State) (p c : Nat) (e : Entry) : SameAround c s (s.moveTaken p c e) := by
  have hpop : SameAround c s (s.popHead c) := updCore_around ..
  unfold State.moveTaken State.noteIssued
  split
  · refine { hpop with part := fun q => ?_ }
    rw [State.part_updPart]
    split
    · next h => exact ⟨_, by rw [← h]; rfl⟩
    · exact ⟨_, rfl⟩
  · exact hpop

theorem moveTaken_same (s : State) (p c : Nat) (e : Entry) : Same 0xC0 s (s.moveTaken p c e) :=
  State.noteIssued_keeps rfl _ p e (State.popHead_keeps rfl s c (.refl s))

theorem moveTaken_core (s : State) (p c : Nat) (e : Entry) : (s.moveTaken p c e).core c =
    { s.core c with
      queue := (s.core c).queue.drop 1, head := none, fnChecked := false, limited := false, worked := true } :=
  ((State.noteIssued_keeps (fp := 0x80) rfl (s.popHead c) p e (.refl _)).core_eq rfl c).trans (popHead_core_self s c)

theorem moveTaken_parts {s : State} {e : Entry} (h : e.moveResv = 0) (p c : Nat) :
    (s.moveTaken p c e).parts = s.parts := by
  unfold State.moveTaken State.noteIssued
  rw [if_neg fun hand => hand.2 h]
  rfl

theorem moveTaken_issued {s : State} {e : Entry} (h4 : e.kind = 4) (h : e.moveResv ≠ 0) (p c : Nat) :
    ((s.moveTaken p c e).part p).sched =
      { (s.part p).sched with issued := (s.part p).sched.issued ++ [e.moveResv] } := by
  unfold State.moveTaken State.noteIssued
  rw [if_pos ⟨h4, h⟩, State.part_updPart, if_pos rfl]
  rfl

/-! ### Issue (R157, R281, R284) -/

section
variable {s : State} {p : Nat} {core : Fin 512} {k : Checked}

theorem withSkein_runs (h : s.MayMove p k) (c : Nat) (run : State → State) : s.withSkein p c k run = run s := by
  unfold State.withSkein
  cases hreq : k.requestClass with
  | false => rfl
  | true =>
    rw [if_pos rfl]
    rcases h with h | h | ⟨d, sk, hd, hroute, hsk, hopen, hpresent⟩
    · exact absurd (hreq.symm.trans h) Bool.noConfusion
    · rw [h]
    · rw [hd]
      dsimp only
      rw [hroute, hsk]
      dsimp only
      rw [hopen, hpresent]
      rfl

section
variable (h : s.Issues p core k) (h4 : k.entry.kind = 4)
include h h4

theorem exec_copy {ecc : Ecc} (hop : k.entry.moveOp = 0) :
    exec (.copy core ecc) s = .next (s.withSkein p core k fun s => s.copyIssue p core k ecc) :=
  congrArg Host.Outcome.next (issue_runs h (by rw [h4, hop]; rfl))

theorem exec_larderPush {ecc : Ecc} (hop : k.entry.moveOp = 1) (hlocal : remoteModule k = none) :
    exec (.larderPush core ecc) s = .next (s.larderPush p core k ecc) :=
  congrArg Host.Outcome.next ((issue_runs h (by rw [h4, hop]; rfl)).trans (withSkein_runs (.inr (.inl hlocal)) ..))

theorem exec_larderRead {ecc : Ecc} (hop : k.entry.moveOp = 2) (hlocal : remoteModule k = none) :
    exec (.larderRead core ecc) s = .next (s.larderRead p core k ecc) :=
  congrArg Host.Outcome.next ((issue_runs h (by rw [h4, hop]; rfl)).trans (withSkein_runs (.inr (.inl hlocal)) ..))

theorem exec_larderRelease (hop : k.entry.moveOp = 3) :
    exec (.larderRelease core) s = .next (s.larderRelease p core k) :=
  congrArg Host.Outcome.next (issue_runs h (by rw [h4, hop]; rfl))

end
end

theorem setMover_core (s : State) (c : Nat) (m : MoverRun) (d : Nat) :
    (s.setMover c m).core d = if c = d then { s.core c with mover := some m } else s.core d := State.core_updCore ..

theorem setMover_queue (s : State) (c : Nat) (m : MoverRun) : ((s.setMover c m).core c).queue = (s.core c).queue := by
  rw [setMover_core, if_pos rfl]

/-! ### What a MOVE writes on this module (R414) -/

section
variable {s : State} {p c : Nat} {m : MoverRun} {d : Desc} {ws : List TaggedByte}

/-- Where nothing holds the places, the bytes are stored and the mover is done. -/
theorem moveOut_stores (h8 : d.loc ≠ 8) (hh : d.loc ≠ 4) (hheld : s.heldAgainst c (s.gatherHoldsBut c)
    ((toLocal (ws.map (·.2))).map fun b => (b.1, 1)) = none) : s.moveOut p c m d ws =
      (s.storeBytes (toLocal (ws.map (·.2)))).setMover c { m with phase := .done } := by
  unfold State.moveOut
  rw [if_neg fun h => h8 h.1, if_neg h8, if_neg hh]
  dsimp only
  rw [hheld]

/-- A byte after a MOVE's writes are stored: the last of them that stands there. -/
theorem memRead_moveWrites (s : State) (ws : List TaggedByte) (a : Nat) :
    memRead (s.storeBytes (toLocal (ws.map (·.2)))).mem a =
      ((ws.reverse.find? fun x => addrLocal x.2.1 == a).map (·.2.2)).getD (memRead s.mem a) := by
  rw [storeBytes_mem, memRead_memStore, toLocal, List.map_map, ← List.map_reverse, List.find?_map, Option.map_map]
  rfl

end

end Sys2Proof.Machine
end


section
/-! SUPPORT. Proofs/Larder.lean: the records of a context as a stack (O28). -/

namespace Sys2Proof.Machine

/-! ### A push at issue (R117, R398, R626) -/

/-- A push that finds room: its record stands at the top, not yet readable, and nothing else but contexts changes. -/
theorem pushInto_some {s u : State} {p n cls id len : Nat} (h : s.pushInto p n cls id len = some u) :
    (u.ctx n).records = (s.ctx n).records ++ [{ id := id, offset := (s.ctx n).fill, len := len, readable := false }] ∧
      (u.ctx n).fill = (s.ctx n).fill + len ∧ Same 0x100 s u ∧ u.freeCtr = s.freeCtr := by
  have hsame := State.pushInto_keeps (fp := 0x100) rfl s p n cls id len (.refl s) u h
  unfold State.pushInto at h
  extract_lets q x join quota joined src v at h
  obtain ⟨-, h⟩ := Option.ite_none_left_eq_some.1 h
  obtain ⟨-, h⟩ := Option.ite_none_left_eq_some.1 h
  have hv : v.freeCtr = s.freeCtr := iteInduction (motive := fun t : State => t.freeCtr = s.freeCtr) (fun _ => rfl)
    fun _ => rfl
  rw [← Option.some.inj h]
  rw [← Option.some.inj h] at hsame
  refine ⟨?_, ?_, hsame, hv⟩ <;> rw [State.ctx_setCtx, if_pos rfl]

/-- Without a pattern and outside a pair of contexts a push finds no room past 256 records or past the quota. -/
theorem pushInto_none_iff {s : State} {p n cls id len : Nat} (hpat : (s.part p).pattern = none)
    (hj : (s.ctx n).joined = false) : s.pushInto p n cls id len = none ↔ 256 ≤ (s.ctx n).records.length ∨
      (if (s.ctx n).records.isEmpty then (s.part p).regionLen n else (s.ctx n).quota) < (s.ctx n).fill + len := by
  have hjoins : (s.part p).joins n cls = false := by
    unfold Part.joins
    rw [hpat]
  have hquota : (s.part p).pushQuota n cls = (s.part p).regionLen n := by
    unfold Part.pushQuota
    rw [hpat]
  unfold State.pushInto
  dsimp only
  rw [hjoins, hj, hquota, Bool.and_false, Bool.false_and, if_neg Bool.false_ne_true, ite_self,
    if_neg Bool.false_ne_true,
    Nat.add_zero]
  by_cases hfull : 256 ≤ (s.ctx n).records.length ∨
      (if (s.ctx n).records.isEmpty then (s.part p).regionLen n else (s.ctx n).quota) < (s.ctx n).fill + len
  · exact iff_of_true (if_pos hfull) hfull
  · refine iff_of_false (fun h => ?_) hfull
    exact nomatch (if_neg hfull).symm.trans h

/-- The mover's run of a push, with its place in the stack. -/
def MoverRun.ofPush (k : Checked) (d : Desc) (n i : Nat) : MoverRun :=
  { MoverRun.of k (some d) none with record := some (n, i) }

section
variable {s u : State} {p c n : Nat} {k : Checked} {ecc : Ecc} {d : Desc} (hn : n = k.entry.moveCtx)
  (hd : k.desc 8 = some d)
include hn hd

theorem larderPush_joined (hj : (s.ctx n).joinedTo = true) : s.larderPush p c k ecc =
    s.refuse p c k stLARDER_ORDER := by
  unfold State.larderPush
  dsimp only
  rw [hd, ← hn]
  exact if_pos hj

variable (hj : (s.ctx n).joinedTo = false)
include hj

theorem larderPush_full
    (hu : s.pushInto p n k.entry.segClass k.entry.recordId (ceilDiv d.packedBytes 256 * 256) = none) :
    s.larderPush p c k ecc = (s.popHead c).complete p c k.entry stLARDER_FULL 0 true := by
  unfold State.larderPush
  dsimp only
  rw [hd, ← hn]
  dsimp only
  rw [hj, hu]
  rfl

variable (hu : s.pushInto p n k.entry.segClass k.entry.recordId (ceilDiv d.packedBytes 256 * 256) = some u)
include hu

theorem larderPush_held {counted : Bool} (hheld : s.heldAgainst c s.gatherHolds
    [(u.recordAddr p n (s.ctx n).records.length, d.packedBytes)] = some counted) :
    s.larderPush p c k ecc = (s.noteStale counted).refuse p c k stSTALE_SHARD := by
  unfold State.larderPush
  dsimp only
  rw [hd, ← hn]
  dsimp only
  rw [hj, hu]
  dsimp only
  rw [hheld]
  rfl

theorem larderPush_runs (h8 : d.loc ≠ 8) (h4 : d.loc ≠ 4) (hheld : s.heldAgainst c s.gatherHolds
    [(u.recordAddr p n (s.ctx n).records.length, d.packedBytes)] = none) :
    s.larderPush p c k ecc = (u.moveTaken p c k.entry).pushNow p c (.ofPush k d n (s.ctx n).records.length) d
      (u.recordAddr p n (s.ctx n).records.length) ecc := by
  unfold State.larderPush
  dsimp only
  rw [hd, ← hn]
  dsimp only
  rw [hj, hu]
  dsimp only
  rw [hheld]
  exact (if_neg h8).trans (if_neg h4)

end

/-- A push whose bytes can be read, and whose place nothing holds, writes its record. -/
theorem pushNow_stores {s : State} {p c a : Nat} {m : MoverRun} {d : Desc} {ecc : Ecc} (h8 : d.loc ≠ 8) (h4 : d.loc ≠ 4)
    (hst : m.staging = []) (hgood : (s.accessErrors (d.packedRuns.map fun r => (addrLocal r.1, r.2))
      [(a, (d.packedData (s.moveReader [])).length)] ecc).2 = none)
    (hheld : s.heldAgainst c (s.gatherHoldsBut c) [(a, (d.packedData (s.moveReader [])).length)] = none) :
    ∃ v, SameAround c s v ∧ Same 0x8 s v ∧ s.pushNow p c m d a ecc =
      (v.storeRun a (d.packedData (s.moveReader []))).setMover c { m with phase := .done } := by
  have haround := accessErrors_around c s (d.packedRuns.map fun r => (addrLocal r.1, r.2))
    [(a, (d.packedData (s.moveReader [])).length)] ecc
  refine ⟨_, haround, accessErrors_same .., ?_⟩
  unfold State.pushNow
  dsimp only
  rw [hst, if_neg fun h => h.elim h8 h4, hgood]
  dsimp only
  rw [haround.heldAgainst, haround.holds, hheld]

/-! ### Reads (R118, R153, R505) -/

section
variable {s : State} {p c n : Nat} {k : Checked} {ecc : Ecc} {d : Desc} (hn : n = k.entry.moveCtx)
  (hd : k.desc 12 = some d)
include hn hd

theorem larderRead_none (h : (if (s.ctx n).joinedTo then none else s.findRecord n k.entry.recordId) = none) :
    s.larderRead p c k ecc = s.refuse p c k stLARDER_ORDER := by
  unfold State.larderRead
  dsimp only
  rw [hd, ← hn, h]

variable (hj : (s.ctx n).joinedTo = false) {i : Nat} {r : LRecord} (hi : s.findRecord n k.entry.recordId = some i)
  (hr : (s.ctx n).records[i]? = some r)
include hj hi hr

/-- A read of a record that stands: refused where it is too short, kept back while a host owns a line of it. -/
theorem larderRead_found {mv : List (Nat × Nat × Nat)} (hmv : mv = packedMoves d ((s.part p).regionBase n + r.offset))
    (h8 : d.loc ≠ 8) (h4 : d.loc ≠ 4) : s.larderRead p c k ecc =
      if r.len < d.packedBytes then s.refuse p c k stCONFIG
      else if mv.any fun x => s.lineHeld x.2.1 x.2.2 false then mv.foldl (fun s x => s.recallFor x.2.1 x.2.2 false) s
      else ((s.moveTaken p c k.entry).accessErrors (mv.map fun x => (x.2.1, x.2.2))
        (mv.map fun x => (addrLocal x.1, x.2.2)) ecc).2.elim
          (((s.moveTaken p c k.entry).accessErrors (mv.map fun x => (x.2.1, x.2.2))
            (mv.map fun x => (addrLocal x.1, x.2.2)) ecc).1.moveOut p c
              { MoverRun.of k none (some d) with record := some (n, i) } d (mv.flatMap fun x =>
                tagged 0 x.1 (memBytes ((s.moveTaken p c k.entry).accessErrors (mv.map fun x => (x.2.1, x.2.2))
                  (mv.map fun x => (addrLocal x.1, x.2.2)) ecc).1.mem x.2.1 x.2.2)))
          fun bad => ((s.moveTaken p c k.entry).accessErrors (mv.map fun x => (x.2.1, x.2.2))
            (mv.map fun x => (addrLocal x.1, x.2.2)) ecc).1.failRead p c k.entry 0 bad := by
  have haddr : s.recordAddr p n i = (s.part p).regionBase n + r.offset := by
    unfold State.recordAddr
    rw [hr]
    rfl
  unfold State.larderRead
  dsimp only
  rw [hd, ← hn, hj, if_neg Bool.false_ne_true, hi]
  dsimp only
  have hout : (if d.loc = 8 ∨ d.loc = 4 then [] else mv.map fun x : Nat × Nat × Nat => (addrLocal x.1, x.2.2)) =
      mv.map fun x => (addrLocal x.1, x.2.2) := if_neg fun h => h.elim h8 h4
  unfold State.moveTaken
  rw [hr, haddr, ← hmv, hout]
  generalize ((s.popHead c).noteIssued p k.entry).accessErrors _ _ ecc = met
  obtain ⟨u, bad⟩ := met
  cases bad with
  | none => dsimp only [Option.elim_none, Option.map_some, Option.getD_some]
  | some a => dsimp only [Option.elim_some, Option.map_some, Option.getD_some]

/-- A read whose lines no host owns and whose places nothing holds writes its bytes, and waits for its completion. -/
theorem larderRead_writes {mv : List (Nat × Nat × Nat)} (hmv : mv = packedMoves d ((s.part p).regionBase n + r.offset))
    (h8 : d.loc ≠ 8) (h4 : d.loc ≠ 4) (hlen : d.packedBytes ≤ r.len)
    (hfree : (mv.any fun x => s.lineHeld x.2.1 x.2.2 false) = false)
    (hgood : (s.accessErrors (mv.map fun x => (x.2.1, x.2.2)) (mv.map fun x => (addrLocal x.1, x.2.2)) ecc).2 = none)
    {ws : List TaggedByte} (hws : ws = mv.flatMap fun x => tagged 0 x.1 (memBytes s.mem x.2.1 x.2.2))
    (hheld : s.heldAgainst c (s.gatherHoldsBut c) ((toLocal (ws.map (·.2))).map fun b => (b.1, 1)) = none) :
    ∃ v, SameAround c s v ∧ Same 0xC8 s v ∧ s.larderRead p c k ecc =
      (v.storeBytes (toLocal (ws.map (·.2)))).setMover c
        { MoverRun.of k none (some d) with record := some (n, i) } := by
  have htaken := moveTaken_around s p c k.entry
  have hsame := moveTaken_same s p c k.entry
  have hstat : (s.moveTaken p c k.entry).memStat = s.memStat := hsame.memStat.resolve_left (by decide)
  have haround := htaken.trans (accessErrors_around c (s.moveTaken p c k.entry) (mv.map fun x => (x.2.1, x.2.2))
    (mv.map fun x => (addrLocal x.1, x.2.2)) ecc)
  have herrors := accessErrors_same (s.moveTaken p c k.entry) (mv.map fun x => (x.2.1, x.2.2))
    (mv.map fun x => (addrLocal x.1, x.2.2)) ecc
  rw [larderRead_found hn hd hj hi hr hmv h8 h4, if_neg (Nat.not_lt.2 hlen), hfree, if_neg Bool.false_ne_true]
  rw [← accessErrors_congr hstat] at hgood
  generalize (s.moveTaken p c k.entry).accessErrors _ _ ecc = met at hgood haround herrors ⊢
  obtain ⟨v, bad⟩ := met
  dsimp only at hgood haround herrors ⊢
  rw [hgood, Option.elim_none, haround.mem, ← hws]
  have hboth : Same 0xC8 s v := Same.trans (hsame.mono rfl) (herrors.mono rfl)
  exact ⟨v, haround, hboth, moveOut_stores h8 h4 (by rw [haround.heldAgainst, haround.holds]; exact hheld)⟩

end

/-! ### Completion of a push (R117) -/

/-- A map of the places of a stack that leaves all but the top. -/
theorem map_zipIdx_top {rs : List LRecord} {f : LRecord × Nat → LRecord} (hf : ∀ x, x.2 < rs.length → f x = x.1)
    (r : LRecord) : (rs ++ [r]).zipIdx.map f = rs ++ [f (r, rs.length)] := by
  have hrest : rs.zipIdx.map f = rs := by
    refine Eq.trans (List.map_congr_left fun x hx => hf x ?_) (List.zipIdx_map_fst 0 rs)
    obtain ⟨-, hlt, -⟩ := List.mem_zipIdx hx
    omega
  rw [List.zipIdx_append, List.map_append, hrest, List.zipIdx_singleton, List.map_singleton, Nat.zero_add]

/-- Record i of context n as its push leaves it. -/
def State.settleRecord (s : State) (n i : Nat) (ok : Bool) : State := s.setCtx n { s.ctx n with
  records := (s.ctx n).records.zipIdx.map fun r : LRecord × Nat =>
    if r.2 = i ∧ ok then ({ r.1 with readable := true } : LRecord) else r.1 }

section
variable {s : State} {p c n i : Nat} {m : MoverRun} {landing : Half} (hm : (s.core c).mover = some m)
  (hph : m.phase = .done) (hrec : m.record = some (n, i))
include hm hph hrec

theorem finishMover_push (hop : m.chk.entry.moveOp = 1) (hkey : m.gatherKey = none) :
    ∀ t, t = (s.updCore c fun x => { x with mover := none }) →
    s.finishMover p c landing =
      (if m.chk.entry.remoteSignal && (m.status == stDONE) && (remoteTallyOf m.chk m.dst).isNone then
        (t.settleRecord n i (m.status == stDONE)).addTally m.chk.entry.remoteCore m.chk.entry.remoteTally
          (BitVec.ofNat 32 m.chk.entry.remoteIncrement)
      else t.settleRecord n i (m.status == stDONE)).complete p c m.chk.entry m.status m.flags
        (m.status != stSTALE_SHARD) := by
  rintro t rfl
  have hland : m.landed landing = m := if_neg fun h => by
    rw [hop] at h
    exact absurd h.2.1 (by decide)
  unfold State.finishMover
  rw [hm]
  dsimp only
  rw [hland, if_neg (not_not.2 hph), hop, hrec, hkey]
  rfl

theorem finishMover_release (hop : m.chk.entry.moveOp = 3) : ∀ t, t =
      ((s.updCore c fun x => { x with mover := none }).popRecord n) → s.finishMover p c landing =
      if !s.releasable n i then s else
        (if m.chk.entry.remoteSignal then t.addTally m.chk.entry.remoteCore m.chk.entry.remoteTally
          (BitVec.ofNat 32 m.chk.entry.remoteIncrement) else t).complete p c m.chk.entry stDONE 0 true := by
  rintro t rfl
  have hland : m.landed landing = m := if_neg fun h => by
    rw [hop] at h
    exact absurd h.2.1 (by decide)
  unfold State.finishMover
  rw [hm]
  dsimp only
  rw [hland, if_neg (not_not.2 hph), hop, hrec]
  rfl

end

/-- A signal, if there is one, and a completion leave the contexts and the movers. -/
theorem signalled_effect (t : State) (signal : Prop) [Decidable signal] (c n : Nat) (v : Word) (p d : Nat) (e : Entry)
    (st flags : Half) (b : Bool) : ∀ u, u = (if signal then t.addTally c n v else t).complete p d e st flags b →
      (∀ x, u.ctx x = t.ctx x) ∧ ∀ x, (u.core x).mover = (t.core x).mover := by
  rintro u rfl
  have hsame : Same 0x84C0 t (if signal then t.addTally c n v else t) :=
    kept_ite _ _ _ (State.addTally_keeps rfl t c n v (.refl t)) (.refl t)
  have hmover : ∀ x, ((if signal then t.addTally c n v else t).core x).mover = (t.core x).mover := fun x => by
    split
    · unfold State.addTally
      rw [setTally_core]
      split
      · next h => rw [← h]
      · rfl
    · rfl
  refine ⟨fun x => ?_, fun x => (complete_mover ..).trans (hmover x)⟩
  exact (State.complete_keeps (fp := 0x20CCCC) rfl _ p d e st flags b (hsame.mono rfl)).ctx_eq rfl x

/-- A push of this core that is done frees the mover and makes its record, at the top, readable. -/
theorem finishMover_push_effect {s : State} {p c n : Nat} {m : MoverRun} {landing : Half} {rs : List LRecord}
    {r : LRecord} (hm : (s.core c).mover = some m) (hph : m.phase = .done) (hrec : m.record = some (n, rs.length))
    (hop : m.chk.entry.moveOp = 1) (hkey : m.gatherKey = none) (hst : m.status = stDONE)
    (hctx : (s.ctx n).records = rs ++ [r]) : ((s.finishMover p c landing).core c).mover = none ∧
      ((s.finishMover p c landing).ctx n).records = rs ++ [{ r with readable := true }] := by
  rw [finishMover_push hm hph hrec hop hkey _ rfl]
  obtain ⟨hctxs, hmover⟩ := signalled_effect (((s.updCore c fun x => { x with mover := none }).settleRecord n rs.length
    (m.status == stDONE))) ((m.chk.entry.remoteSignal && (m.status == stDONE) &&
      (remoteTallyOf m.chk m.dst).isNone) = true)
    m.chk.entry.remoteCore m.chk.entry.remoteTally (BitVec.ofNat 32 m.chk.entry.remoteIncrement) p c
      m.chk.entry m.status
    m.flags (m.status != stSTALE_SHARD) _ rfl
  refine ⟨(hmover c).trans ?_, (congrArg Ctx.records (hctxs n)).trans ?_⟩
  · show (((s.updCore c fun x => { x with mover := none }).core c)).mover = none
    rw [State.core_updCore, if_pos rfl]
  · rw [State.settleRecord, State.ctx_setCtx, if_pos rfl]
    show (s.ctx n).records.zipIdx.map _ = _
    rw [hctx, map_zipIdx_top (fun x hx => if_neg fun h => by omega)]
    rw [hst, if_pos ⟨rfl, rfl⟩]

/-! ### Releases (R119, R120) -/

/-- The record at the top is gone, and the fill pointer stands at its offset. -/
theorem popRecord_effect {s : State} {n : Nat} {r : LRecord} (h : (s.ctx n).records.getLast? = some r) :
    ((s.popRecord n).ctx n).records = (s.ctx n).records.dropLast ∧ ((s.popRecord n).ctx n).fill = r.offset := by
  unfold State.popRecord
  dsimp only
  rw [State.ctx_setCtx, if_pos rfl, h]
  exact ⟨rfl, rfl⟩

section
variable {s : State} {p c n : Nat} {k : Checked} (hn : n = k.entry.moveCtx)
include hn

theorem larderRelease_refused (h : (s.ctx n).joinedTo = true ∨ (s.ctx n).records = [] ∨
    ∃ r, (s.ctx n).records.getLast? = some r ∧ r.id ≠ k.entry.recordId) :
    s.larderRelease p c k = s.refuse p c k stLARDER_ORDER := by
  unfold State.larderRelease
  dsimp only
  rw [← hn]
  cases hlast : (s.ctx n).records.getLast? with
  | none => rfl
  | some r =>
    refine if_pos ?_
    rcases h with h | h | ⟨x, hx, hid⟩
    · exact .inl h
    · rw [h] at hlast
      exact nomatch hlast
    · rw [hlast] at hx
      exact .inr (.inl (by rw [Option.some.inj hx]; exact hid))

theorem larderRelease_begins {r : LRecord} (hj : (s.ctx n).joinedTo = false) (hr : (s.ctx n).records.getLast? = some r)
    (hid : r.id = k.entry.recordId) (hfree : s.onRecord 3 n ((s.ctx n).records.length - 1) = false) :
    s.larderRelease p c k = (s.moveTaken p c k.entry).setMover c
      { MoverRun.of k none none with record := some (n, (s.ctx n).records.length - 1) } := by
  unfold State.larderRelease
  dsimp only
  rw [← hn, hr]
  refine if_neg ?_
  rw [hj, hfree]
  rintro (h | h | h)
  · exact Bool.false_ne_true h
  · exact h hid
  · exact Bool.false_ne_true h

end

/-- The end of a release that takes the record at the top away. -/
theorem release_effect {s t u : State} {p c n : Nat} {e : Entry} {r : LRecord}
    (hr : (s.ctx n).records.getLast? = some r) (hctx : t.ctx n = s.ctx n)
    (hu : u = (if e.remoteSignal then (((t.updCore c fun k => { k with mover := none }).popRecord n).addTally
      e.remoteCore e.remoteTally (BitVec.ofNat 32 e.remoteIncrement))
      else (t.updCore c fun k => { k with mover := none }).popRecord n).complete p c e stDONE 0 true) :
    (u.core c).mover = none ∧ (u.ctx n).records = (s.ctx n).records.dropLast ∧ (u.ctx n).fill = r.offset := by
  obtain ⟨hctxs, hmover⟩ := signalled_effect _ (e.remoteSignal = true) e.remoteCore e.remoteTally
    (BitVec.ofNat 32 e.remoteIncrement) p c e stDONE 0 true u hu
  obtain ⟨hrecords, hfill⟩ := popRecord_effect (s := t.updCore c fun k => { k with mover := none }) (n := n) (r := r)
    (by rw [← hr, ← hctx]; rfl)
  refine ⟨(hmover c).trans ?_, (congrArg Ctx.records (hctxs n)).trans (hrecords.trans ?_),
    (congrArg Ctx.fill (hctxs n)).trans hfill⟩
  · rw [(State.popRecord_keeps (fp := 0x100) rfl _ n (.refl _)).core_eq rfl, State.core_updCore, if_pos rfl]
  · rw [← hctx]
    rfl

/-- Settles O28: push, read and release by what the stack of the context holds. -/
theorem larderIsAStack : Obligations.LarderIsAStack := by
  intro core ecc s p k h h4 hlocal n hn
  have hpart : s.partOf core = some p := (ready_iff.1 h.1).1
  refine ⟨fun hj c hc => ?_, fun hj => ⟨fun d len hop hd h8 hh hlen => ⟨fun u a bs hu ha hbs =>
    ⟨fun counted hheld => ?_,
    fun hheld hfree hgood => ?_⟩, fun hu => ?_, fun hpat hjoined => pushInto_none_iff hpat hjoined⟩,
    fun d hop hd h8 hh => ⟨fun hnone => ?_, fun i r mv hi hr hmv => ⟨fun hshort => ?_, fun hlen hheld => ?_,
      fun hlen hheld hgood hplace => ?_⟩⟩, fun hop => ⟨fun r hr hid hfree => ?_, fun hor => ?_⟩⟩⟩
  · rcases hc with ⟨rfl, hop, hd⟩ | ⟨rfl, hop, hd⟩ | ⟨rfl, hop⟩
    · obtain ⟨d, hd⟩ := Option.isSome_iff_exists.1 hd
      rw [exec_larderPush h h4 hop hlocal, larderPush_joined hn hd hj]
      rfl
    · obtain ⟨d, hd⟩ := Option.isSome_iff_exists.1 hd
      rw [exec_larderRead h h4 hop hlocal, larderRead_none hn hd (by rw [hj]; rfl)]
      rfl
    · rw [exec_larderRelease h h4 hop, larderRelease_refused hn (.inl hj)]
      rfl
  · subst hlen ha
    rw [exec_larderPush h h4 hop hlocal, larderPush_held hn hd hj hu hheld]
    rfl
  · subst hlen ha
    obtain ⟨hrecords, hfill, hinto, hcount⟩ := pushInto_some hu
    have hnext := SameAround.trans (.of_same (hinto.mono rfl) hcount) (moveTaken_around u p core k.entry)
    have htaken := moveTaken_same u p core k.entry
    have hstat : (u.moveTaken p core k.entry).memStat = s.memStat :=
      (htaken.memStat.resolve_left (by decide)).trans (hinto.memStat.resolve_left (by decide))
    have hreader := hnext.reader []
    rw [hbs, ← hreader, ← hnext.holds, ← hnext.heldAgainst] at hfree
    rw [hbs, ← hreader, ← accessErrors_congr hstat] at hgood
    rw [← hreader] at hbs
    obtain ⟨v, haround, herrors, heq⟩ := pushNow_stores (p := p) (m := .ofPush k d n (s.ctx n).records.length) h8 hh rfl
      hgood hfree
    rw [← hbs, ← larderPush_runs hn hd hj hu h8 hh hheld] at heq
    generalize u.recordAddr p n (s.ctx n).records.length = a at heq
    have hstored : Same 0x20804C v (v.storeRun a bs) := State.storeRun_keeps rfl v a bs (.refl v)
    have hmem := State.storeRun_mem v a bs
    obtain ⟨tags, hcore⟩ := storeRun_core v a bs core
    generalize v.storeRun a bs = w at heq hstored hmem hcore
    have hset : Same 0x40 w (w.setMover core { MoverRun.ofPush k d n (s.ctx n).records.length with phase := .done }) :=
      State.setMover_keeps rfl w core _ (.refl w)
    have hmover := setMover_mover w core { MoverRun.ofPush k d n (s.ctx n).records.length with phase := .done }
    have hqueue := setMover_queue w core { MoverRun.ofPush k d n (s.ctx n).records.length with phase := .done }
    generalize w.setMover core { MoverRun.ofPush k d n (s.ctx n).records.length with phase := .done } = t
      at heq hset hmover hqueue
    have hctx : t.ctx n = u.ctx n := (hset.ctx_eq rfl n).trans
      ((hstored.ctx_eq rfl n).trans ((herrors.ctx_eq rfl n).trans (htaken.ctx_eq rfl n)))
    have howner : t.partOf core = some p := (partOf_congr ((hset.parts_eq rfl).trans (hstored.parts_eq rfl)) core).trans
      ((haround.partOf core).trans ((hnext.partOf core).trans hpart))
    rw [← hctx] at hrecords hfill
    obtain ⟨hfreed, hreadable⟩ := finishMover_push_effect (p := p) (landing := 0) hmover rfl rfl hop rfl rfl hrecords
    refine ⟨t, _, (exec_larderPush h h4 hop hlocal).trans (congrArg _ heq), hrecords, hfill, ?_, fun hresv => ?_,
      fun x => ?_, exec_commandComplete howner .mover 0, hfreed, hreadable⟩
    · rw [hqueue, hcore, herrors.core_eq rfl, moveTaken_core, hinto.core_eq rfl]
    · exact (hset.parts_eq rfl).trans ((hstored.parts_eq rfl).trans ((herrors.parts_eq rfl).trans
        ((moveTaken_parts hresv p core).trans (hinto.parts_eq rfl))))
    · rw [hset.mem_eq rfl, hmem, memRead_memPut_run, haround.mem, hnext.mem]
  · rw [exec_larderPush h h4 hop hlocal, larderPush_full hn hd hj (hlen ▸ hu)]
  · rw [exec_larderRead h h4 hop hlocal, larderRead_none hn hd (by rw [hj]; exact hnone)]
    rfl
  · rw [exec_larderRead h h4 hop hlocal, larderRead_found hn hd hj hi hr hmv h8 hh, if_pos hshort]
    rfl
  · have hrecall : Same 0x208000 s (mv.foldl (fun s x => s.recallFor x.2.1 x.2.2 false) s) :=
      kept_foldl _ _ _ (fun s x hs => State.recallFor_keeps rfl s _ _ _ hs) (.refl s)
    refine ⟨_, (exec_larderRead h h4 hop hlocal).trans (congrArg _ ?_), hrecall.mem_eq rfl, hrecall.cores_eq rfl,
      hrecall.ctxs.resolve_left (by decide)⟩
    rw [larderRead_found hn hd hj hi hr hmv h8 hh, if_neg (Nat.not_lt.2 hlen), if_pos hheld]
  · obtain ⟨v, haround, hsame, heq⟩ := larderRead_writes hn hd hj hi hr hmv h8 hh hlen hheld hgood rfl hplace
    have hstored := (State.storeBytes_keeps (fp := 0x2080CC) rfl v (toLocal ((mv.flatMap fun x =>
      tagged 0 x.1 (memBytes s.mem x.2.1 x.2.2)).map (·.2))) (hsame.mono rfl))
    refine ⟨_, _, (exec_larderRead h h4 hop hlocal).trans (congrArg _ heq), setMover_mover .., rfl, rfl,
      ?_, fun a => ?_⟩
    · exact hstored.ctxs.resolve_left (by decide)
    · exact (memRead_moveWrites v _ a).trans (by rw [haround.mem])
  · have hbegin := (exec_larderRelease h h4 hop).trans (congrArg _ (larderRelease_begins hn hj hr hid hfree))
    have htaken := moveTaken_same s p core k.entry
    have howner : ((s.moveTaken p core k.entry).setMover core { MoverRun.of k none none with
        record := some (n, (s.ctx n).records.length - 1) }).partOf core = some p :=
      ((moveTaken_around s p core k.entry).partOf core).trans hpart
    have hctx : ((s.moveTaken p core k.entry).setMover core { MoverRun.of k none none with
        record := some (n, (s.ctx n).records.length - 1) }).ctx n = s.ctx n := htaken.ctx_eq rfl n
    have hmover : (((s.moveTaken p core k.entry).setMover core { MoverRun.of k none none with
        record := some (n, (s.ctx n).records.length - 1) }).core core).mover = some _ := setMover_mover ..
    have hfinish := finishMover_release (p := p) (landing := 0) hmover rfl rfl hop _ rfl
    have hcomplete := exec_commandComplete howner .mover 0
    refine ⟨_, hbegin, htaken.ctxs.resolve_left (by decide), htaken.mem_eq rfl, fun hkept => ?_, fun hgoes => ?_⟩
    · rw [hcomplete, hfinish, hkept]
      rfl
    · rw [hgoes] at hfinish
      obtain ⟨hfreed, hrecords, hfill⟩ := release_effect hr hctx hfinish
      exact ⟨_, hcomplete, hrecords, hfill, hfreed⟩
  · rw [exec_larderRelease h h4 hop, larderRelease_refused hn (.inr hor)]
    rfl

end Sys2Proof.Machine
end


section
/-! SUPPORT. Proofs/Cuts.lean: what a MOVE reads from elsewhere is cut into transfers or host packets, of which some
reads leave at least one. -/

namespace Sys2Proof.Machine

theorem ceilDiv_pos {a b : Nat} (ha : 0 < a) (hb : 0 < b) : 0 < ceilDiv a b :=
  Nat.div_pos (by omega) hb

theorem mem_insertNat {l : List Nat} {a k : Nat} : a ∈ insertNat l k ↔ a = k ∨ a ∈ l := by
  induction l with
  | nil => exact Iff.rfl.trans (by simp [insertNat])
  | cons b l ih =>
    rw [insertNat]
    split
    · exact List.mem_cons
    · split
      · next h =>
        rw [h, List.mem_cons]
        exact ⟨.inr, fun hor => hor.elim .inl id⟩
      · rw [List.mem_cons, ih, List.mem_cons]
        exact or_left_comm

theorem mem_foldl_insertNat {l acc : List Nat} {a : Nat} : a ∈ l.foldl insertNat acc ↔ a ∈ l ∨ a ∈ acc := by
  induction l generalizing acc with
  | nil => simp
  | cons b l ih =>
    rw [List.foldl_cons, ih, mem_insertNat, List.mem_cons]
    exact ⟨fun h => h.elim (fun h => .inl (.inr h)) fun h => h.elim (fun h => .inl (.inl h)) .inr,
      fun h => h.elim (fun h => h.elim (fun h => .inr (.inl h)) .inl) fun h => .inr (.inr h)⟩

/-- A list of elements is one of some iteration. -/
theorem byIteration_of_mem {es : List (Nat × Pos × Pos)} {e : Nat × Pos × Pos} (h : e ∈ es) :
    ∃ l ∈ byIteration es, e ∈ l := by
  refine ⟨es.filter (·.1 == e.1), List.mem_map.2 ⟨e.1, ?_, rfl⟩, List.mem_filter.2 ⟨h, beq_self_eq_true _⟩⟩
  exact mem_foldl_insertNat.2 (.inl (List.mem_map.2 ⟨e, h, rfl⟩))

/-- A range of some bytes takes a transfer. -/
theorem readXfers_ne_nil {dest : Nat} {rs : List (Nat × Nat × Nat)} (h : ∃ r ∈ rs, 0 < r.2.2) :
    readXfers dest rs ≠ [] := by
  obtain ⟨r, hr, hpos⟩ := h
  intro hnil
  have hr := List.flatMap_eq_nil_iff.1 hnil r hr
  rw [List.map_eq_nil_iff, List.range_eq_nil] at hr
  have := ceilDiv_pos hpos (show 0 < xferCap by decide)
  omega

theorem hostReads_ne_nil {rs : List (Nat × Nat)} (h : ∃ r ∈ rs, 0 < r.2) : hostReads rs ≠ [] := by
  obtain ⟨r, hr, hpos⟩ := h
  intro hnil
  have hr := List.flatMap_eq_nil_iff.1 hnil r hr
  unfold pageCuts at hr
  rw [if_neg (by omega), List.map_map, List.map_eq_nil_iff, List.range_eq_nil] at hr
  have := ceilDiv_pos (show 0 < r.1 % 256 + r.2 by omega) (show 0 < 256 by decide)
  omega

/-- One piece more, joined to the last where both addresses run on. -/
def joinMove : List (Nat × Nat × Nat) → Nat × Nat × Nat → List (Nat × Nat × Nat)
  | x :: rest, m => if m.1 = x.1 + x.2.2 ∧ m.2.1 = x.2.1 + x.2.2 then (x.1, x.2.1, x.2.2 + m.2.2) :: rest
      else m :: x :: rest
  | [], m => [m]

/-- Joining keeps the count of bytes. -/
theorem joinMove_sum (acc : List (Nat × Nat × Nat)) (m : Nat × Nat × Nat) :
    ((joinMove acc m).map (·.2.2)).sum = (acc.map (·.2.2)).sum + m.2.2 := by
  cases acc with
  | nil => simp [joinMove]
  | cons x rest =>
    by_cases h : m.1 = x.1 + x.2.2 ∧ m.2.1 = x.2.1 + x.2.2
    · rw [joinMove, if_pos h]
      simp only [List.map_cons, List.sum_cons]
      omega
    · rw [joinMove, if_neg h]
      simp only [List.map_cons, List.sum_cons]
      omega

theorem exists_pos_of_sum {α : Type} {f : α → Nat} {l : List α} : (∃ r ∈ l, 0 < f r) ↔ 0 < (l.map f).sum := by
  induction l with
  | nil => simp
  | cons a l ih =>
    rw [List.map_cons, List.sum_cons]
    constructor
    · rintro ⟨r, hr, hpos⟩
      obtain rfl | hr := List.mem_cons.1 hr
      · omega
      · have := ih.1 ⟨r, hr, hpos⟩
        omega
    · intro h
      by_cases ha : 0 < f a
      · exact ⟨a, List.mem_cons_self, ha⟩
      · obtain ⟨r, hr, hpos⟩ := ih.2 (by omega)
        exact ⟨r, List.mem_cons_of_mem _ hr, hpos⟩

/-- Joined pieces of some bytes have some bytes. -/
theorem joinMoves_pos {ms : List (Nat × Nat × Nat)} (h : ∃ m ∈ ms, 0 < m.2.2) : ∃ r ∈ joinMoves ms, 0 < r.2.2 := by
  have hfold : ∀ (ms acc : List (Nat × Nat × Nat)),
      ((ms.foldl joinMove acc).map (·.2.2)).sum = (acc.map (·.2.2)).sum + (ms.map (·.2.2)).sum := by
    intro ms
    induction ms with
    | nil => exact fun _ => rfl
    | cons m ms ih =>
      intro acc
      rw [List.foldl_cons, ih, joinMove_sum, List.map_cons, List.sum_cons, Nat.add_assoc]
  have heq : joinMoves ms = (ms.foldl joinMove []).reverse := by
    refine congrArg List.reverse (congrArg (fun f => ms.foldl f []) (funext fun acc => funext fun m => ?_))
    cases acc <;> rfl
  obtain ⟨r, hr, hpos⟩ := exists_pos_of_sum.2 (show 0 < ((ms.foldl joinMove []).map (·.2.2)).sum by
    rw [hfold, List.map_nil, List.sum_nil, Nat.zero_add]
    exact exists_pos_of_sum.1 h)
  rw [heq]
  exact ⟨r, List.mem_reverse.2 hr, hpos⟩

/-- One single byte more, joined to the last run where it runs on. -/
def joinByte : List (Nat × List Byte) → Nat × Byte → List (Nat × List Byte)
  | (a, bs) :: rest, w => if w.1 = a + bs.length then (a, w.2 :: bs) :: rest else (w.1, [w.2]) :: (a, bs) :: rest
  | [], w => [(w.1, [w.2])]

theorem joinRuns_eq (ws : List (Nat × Byte)) :
    joinRuns ws = (ws.foldl joinByte []).reverse.map fun r => (r.1, r.2.reverse) := by
  refine congrArg (fun l : List (Nat × List Byte) => l.reverse.map fun r => (r.1, r.2.reverse))
    (congrArg (fun f => ws.foldl f []) (funext fun acc => funext fun w => ?_))
  cases acc <;> rfl

theorem joinByte_sum (acc : List (Nat × List Byte)) (w : Nat × Byte) :
    ((joinByte acc w).map (·.2.length)).sum = (acc.map (·.2.length)).sum + 1 := by
  cases acc with
  | nil => simp [joinByte]
  | cons x rest =>
    obtain ⟨a, bs⟩ := x
    by_cases h : w.1 = a + bs.length
    · rw [joinByte, if_pos h]
      simp only [List.map_cons, List.sum_cons, List.length_cons]
      omega
    · rw [joinByte, if_neg h]
      simp only [List.map_cons, List.sum_cons, List.length_cons, List.length_nil]
      omega

/-- The runs that ranges of some bytes cover have some bytes. -/
theorem coverRuns_pos {rs : List (Nat × Nat)} (h : ∃ r ∈ rs, 0 < r.2) : ∃ r ∈ coverRuns rs, 0 < r.2 := by
  have hfold : ∀ (ws : List (Nat × Byte)) (acc : List (Nat × List Byte)),
      ((ws.foldl joinByte acc).map (·.2.length)).sum = (acc.map (·.2.length)).sum + ws.length := by
    intro ws
    induction ws with
    | nil => exact fun _ => rfl
    | cons w ws ih =>
      intro acc
      rw [List.foldl_cons, ih, joinByte_sum, List.length_cons, Nat.add_assoc, Nat.add_comm 1]
  obtain ⟨r, hr, hpos⟩ := h
  have hmem : r.1 ∈ (rs.flatMap fun r => (List.range r.2).map (r.1 + ·)).foldl insertNat [] :=
    mem_foldl_insertNat.2 (.inl (List.mem_flatMap.2 ⟨r, hr, List.mem_map.2 ⟨0, List.mem_range.2 hpos, Nat.add_zero _⟩⟩))
  have heq : coverRuns rs = ((((((rs.flatMap fun r => (List.range r.2).map (r.1 + ·)).foldl insertNat []).map
      fun a => (a, (0 : Byte))).foldl joinByte []).reverse.map fun r => (r.1, r.2.reverse)).map fun r =>
        (r.1, r.2.length)) := congrArg (List.map fun r : Nat × List Byte => (r.1, r.2.length)) (joinRuns_eq _)
  generalize (rs.flatMap fun r => (List.range r.2).map (r.1 + ·)).foldl insertNat [] = as at hmem heq
  have hlen : 0 < as.length := List.length_pos_of_mem hmem
  obtain ⟨x, hx, hxpos⟩ := exists_pos_of_sum.2 (show 0 < (((as.map fun a => (a, (0 : Byte))).foldl joinByte []).map
      (·.2.length)).sum by
    rw [hfold, List.length_map, List.map_nil, List.sum_nil, Nat.zero_add]
    exact hlen)
  rw [heq, List.map_map]
  refine ⟨_, List.mem_map.2 ⟨x, List.mem_reverse.2 hx, rfl⟩, ?_⟩
  show 0 < x.2.reverse.length
  rw [List.length_reverse]
  exact hxpos

/-- An element of a format that is not MX takes whole bytes. -/
theorem elemBits_plain {f : Nat} (h : isMx f = false) : 8 ≤ elemBits f := by
  unfold elemBits
  split
  case h_5 | h_6 | h_7 => exact absurd h (by decide)
  all_goals decide

/-- An element inside its tensor has a byte. -/
theorem elemGlobal_pos {d : Desc} {p : Pos} (h : d.inBounds p = true) : ∃ r ∈ d.elemGlobal p, 0 < r.2 := by
  have hbits : 0 < elemBits d.fmt := by
    unfold elemBits
    split <;> decide
  unfold Desc.elemGlobal
  rw [if_pos h]
  cases hmx : isMx d.fmt with
  | true => exact ⟨_, List.mem_cons_self, ceilDiv_pos (by omega) (by decide)⟩
  | false => exact ⟨_, List.mem_cons_self, Nat.div_pos (elemBits_plain hmx) (by decide)⟩

/-- A COPY of an element inside its source asks another module, or the host, for it. -/
theorem elemReads_pos {es : List (Nat × Pos × Pos)} {sd : Desc} (h : ∃ e ∈ es, sd.inBounds e.2.1 = true) :
    ∃ r ∈ coverRuns (es.flatMap fun e => sd.elemGlobal e.2.1), 0 < r.2 := by
  obtain ⟨e, he, hin⟩ := h
  obtain ⟨r, hr, hpos⟩ := elemGlobal_pos hin
  exact coverRuns_pos ⟨r, List.mem_flatMap.2 ⟨e, he, hr⟩, hpos⟩

end Sys2Proof.Machine
end


section
/-! SUPPORT. Proofs/Copy.lean: COPY and versioned gathers at issue (O27). -/

namespace Sys2Proof.Machine

/-! ### A COPY from this module (R61, R153, R384) -/

/-- The bytes of the destination that a COPY to another module or to the host reads: none where no block is written in
part. -/
def Checked.NoRemoteReads (k : Checked) (dd : Desc) : Prop := dd.loc = 8 ∨ dd.loc = 4 → k.destReads = []

section
variable {s : State} {p c : Nat} {m : MoverRun} {sd dd : Desc} {ecc : Ecc}

/-- A COPY whose source lies here, and that reads nothing elsewhere, is ready at issue. -/
theorem copyFrom_local (h8 : sd.loc ≠ 8) (h4 : sd.loc ≠ 4) (hdest : m.chk.NoRemoteReads dd) :
    (s.popHead c).copyFrom p c m sd dd ecc = (s.moveTaken p c m.chk.entry).copyReady p c m sd dd ecc := by
  have hneed : (if dd.loc = 8 ∨ dd.loc = 4 then m.chk.destReads else []) = [] := by
    split
    · next h => exact hdest h
    · rfl
  have hxs : (if dd.loc = 8 then readXfers (addrModule dd.base.toNat)
      (([] : List (Nat × Nat)).map fun r => (r.1, r.1, r.2)) else []) = [] := ite_self []
  have hjs : (if dd.loc = 4 then hostReads [] else []) = [] := ite_self []
  unfold State.copyFrom
  dsimp only
  rw [if_neg h8, if_neg h4, hneed, hxs, hjs]
  rfl

theorem copyReady_now (h : m.chk.entry.moveResv = 0) : s.copyReady p c m sd dd ecc = s.copyNow p c m sd dd ecc :=
  if_neg (not_not.2 h)

theorem copyReady_scheduled (h : m.chk.entry.moveResv ≠ 0)
    (hocc : ∀ o ∈ (s.part p).sched.occs, o.awaits = true → o.resv.number = m.chk.entry.moveResv → o.core ≠ c) :
    s.copyReady p c m sd dd ecc = s.setMover c { m with phase := .scheduled } := by
  refine (if_pos h).trans (if_neg fun hany => ?_)
  obtain ⟨o, ho, hor⟩ := List.any_eq_true.1 hany
  rw [Bool.and_eq_true, Bool.and_eq_true] at hor
  exact hocc o ho hor.1.1 (beq_iff_eq.1 hor.1.2) (beq_iff_eq.1 hor.2)

/-- Its reads and writes meet no error: it writes what its elements are. -/
theorem copyNow_writes (hst : m.staging = [])
    (hgood : (s.accessErrors (copyReadRanges m.chk sd dd) (copyWriteRanges m.chk dd) ecc).2 = none)
      {w : List TaggedByte × Half}
    (hw : w = copyWrites m.chk sd dd (s.moveReader []) (s.envOf c m.chk.entry)) :
    ∃ v : State, (SameAround c s v ∧ Same 0x8 s v) ∧ s.copyNow p c m sd dd ecc =
      v.freeWord.1.moveOut p c { m with flags := m.flags ||| w.2 } dd w.1 := by
  have haround := accessErrors_around c s (copyReadRanges m.chk sd dd) (copyWriteRanges m.chk dd) ecc
  have hsame := accessErrors_same s (copyReadRanges m.chk sd dd) (copyWriteRanges m.chk dd) ecc
  unfold State.copyNow
  dsimp only
  generalize s.accessErrors (copyReadRanges m.chk sd dd) (copyWriteRanges m.chk dd) ecc = met at hgood haround hsame ⊢
  obtain ⟨v, bad⟩ := met
  dsimp only at hgood haround hsame ⊢
  rw [hgood, hst, haround.reader, haround.env, ← hw]
  exact ⟨v, ⟨haround, hsame⟩, rfl⟩

theorem copyNow_fails (hbad : (s.accessErrors (copyReadRanges m.chk sd dd) (copyWriteRanges m.chk dd) ecc).2 ≠ none) :
    ∃ (v : State) (bad : Nat), Same 0x8 s v ∧ s.copyNow p c m sd dd ecc = v.failMove p c m bad := by
  have hsame := accessErrors_same s (copyReadRanges m.chk sd dd) (copyWriteRanges m.chk dd) ecc
  obtain ⟨bad, hbad⟩ := Option.ne_none_iff_exists'.1 hbad
  unfold State.copyNow
  dsimp only
  generalize s.accessErrors (copyReadRanges m.chk sd dd) (copyWriteRanges m.chk dd) ecc = met at hbad hsame ⊢
  obtain ⟨v, x⟩ := met
  dsimp only at hbad hsame ⊢
  rw [hbad]
  exact ⟨v, bad, hsame, rfl⟩

/-- A MOVE whose own read fails is a fault of its partition. -/
theorem failMove_effect (h : (s.part p).active = true) (c : Nat) (m : MoverRun) (a : Nat) :
    ∀ t, t = s.failMove p c m a → (t.part p).active = false ∧ (t.part p).stopCause = stECC ∧
      t.links.faultTaken = s.faultsAfter 1 := by
  intro t ht
  obtain ⟨hactive, hcause, hfault, -⟩ := failCommand_effect (s := s.updCore c fun x => { x with mover := none }) h c
    m.chk.entry stECC m.flags 1 (memUnit a).1 (memUnit a).2 a t ht
  exact ⟨hactive, hcause, hfault⟩

/-! ### To another module and to the host (R281, R286, R499) -/

theorem moveOut_remote {ws : List TaggedByte} {d : Desc} (h8 : d.loc = 8)
    (hroute : s.routableTo (addrModule d.base.toNat) = true) : ∀ xs,
    xs = writeXfers (addrModule d.base.toNat) ws (remoteTallyOf m.chk (some d)) →
    s.moveOut p c m d ws = (s.setMover c { m with phase := if xs.isEmpty then .done else .writing, live := xs.length
      }).enqueueX p (some c) xs := by
  rintro xs rfl
  unfold State.moveOut
  rw [hroute, if_neg fun h => Bool.false_ne_true h.2, if_pos h8]

end

/-- Transfers change the fabric alone; under the route hold they wait. -/
theorem enqueueX_effect (s : State) (p c : Nat) (xs : List Xfer) : Same 0x400 s (s.enqueueX p (some c) xs) ∧
    (s.fabric.hold = true → (s.enqueueX p (some c) xs).fabric.waiting = s.fabric.waiting ++ xs.map fun x =>
      { part := p, core := some c, xfer := x }) := by
  refine ⟨State.enqueueX_keeps rfl s p (some c) xs (.refl s), fun hhold => ?_⟩
  unfold State.enqueueX
  cases xs with
  | nil => exact (List.append_nil _).symm
  | cons x xs =>
    exact congrArg (fun t : State => t.fabric.waiting) (pump_idle (s := { s with fabric := { s.fabric with
      waiting := s.fabric.waiting ++ (x :: xs).map fun x => ({ part := p, core := some c, xfer := x } : WaitX) } })
        (.inl hhold))

/-- The mover of core c is that of m but for the host requests that it has still to send, and the queue of c is l. -/
def State.Moves (s : State) (c : Nat) (m : MoverRun) (l : List Entry) : Prop :=
  (∃ todo, (s.core c).mover = some { m with hostTodo := todo }) ∧ (s.core c).queue = l

theorem State.Moves.of_same {s t : State} {c : Nat} {m : MoverRun} {l : List Entry} (h : s.Moves c m l)
    (hcore : t.core c = s.core c) : t.Moves c m l := by
  unfold State.Moves
  rw [hcore]
  exact h

theorem setMover_moves (s : State) (c : Nat) (m : MoverRun) : (s.setMover c m).Moves c m (s.core c).queue :=
  ⟨⟨m.hostTodo, setMover_mover s c m⟩, setMover_queue s c m⟩

theorem sendHostJob_moves {s : State} {c : Nat} {m : MoverRun} {l : List Entry} (h : s.Moves c m l) (k d : Nat) :
    (s.sendHostJob k d).Moves c m l := by
  unfold State.sendHostJob
  split
  · exact h
  · next x hx =>
    split
    · next j rest tag _ _ =>
      refine State.Moves.of_same (s := s.updCore d fun y => { y with mover := some { x with hostTodo := rest } }) ?_
        ((State.hostRequest_keeps (fp := 0x208000) rfl _ k j.isRead j.addr j.len j.data (some d)
          (.refl _)).core_eq rfl c)
      by_cases hd : d = c
      · subst hd
        obtain ⟨⟨todo, hm⟩, hq⟩ := h
        have hxm : x = { m with hostTodo := todo } := Option.some.inj (hx.symm.trans hm)
        refine ⟨⟨rest, ?_⟩, ?_⟩
        · rw [State.core_updCore, if_pos rfl, hxm]
        · rw [State.core_updCore, if_pos rfl]
          exact hq
      · exact h.of_same (by rw [State.core_updCore, if_neg hd])
    · exact h

/-- Waiting requests of the movers that are sent leave what else a mover is. -/
theorem pumpHost_moves {s : State} {c : Nat} {m : MoverRun} {l : List Entry} (h : s.Moves c m l) (k : Nat) :
    (s.pumpHost k).Moves c m l := by
  refine foldl_keeps (P := fun t : State => t.Moves c m l) _ (fun t d ht => ?_) _ s h
  split
  · split
    · exact foldl_keeps (P := fun t : State => t.Moves c m l) _ (fun t _ ht => sendHostJob_moves ht k d) _ t ht
    · exact ht
  · exact ht

/-! ### What a COPY keeps of its job (R390, R411, R412, R414) -/

/-- The mover runs the same command from the same source, under the same record and with the same buffer held. -/
structure MoverRun.SameJob (m x : MoverRun) : Prop where
  chk : x.chk = m.chk
  src : x.src = m.src
  key : x.gatherKey = m.gatherKey
  held : x.held = m.held

/-- After t core c runs the job of m, and the records and the count of attics are those of s. -/
structure State.Runs (s t : State) (c : Nat) (m : MoverRun) : Prop where
  mover : ∃ x, (t.core c).mover = some x ∧ m.SameJob x
  attic : t.train.attic = s.train.attic
  records : t.train.records = s.train.records

section
variable {s t : State} {p c n : Nat} {m x : MoverRun} {sd dd : Desc} {ecc : Ecc}

theorem MoverRun.SameJob.refl (m : MoverRun) : m.SameJob m := ⟨rfl, rfl, rfl, rfl⟩

theorem setMover_runs (h : Same 0x2080CC s t) (hx : m.SameJob x) : s.Runs (t.setMover c x) c m := by
  have htrain : t.train = s.train := h.train.resolve_left (by decide)
  exact ⟨⟨x, setMover_mover t c x, hx⟩, congrArg Train.attic htrain, congrArg Train.records htrain⟩

theorem State.Runs.of_same {u : State} (h : s.Runs t c m) (hcore : (u.core c).mover = (t.core c).mover)
    (htrain : u.train = t.train) : s.Runs u c m := by
  obtain ⟨x, hx, hjob⟩ := h.mover
  exact ⟨⟨x, hcore.trans hx, hjob⟩, (congrArg Train.attic htrain).trans h.attic,
    (congrArg Train.records htrain).trans h.records⟩

/-- Wherever the bytes go, the job stays. -/
theorem moveOut_runs (h : Same 0x2080CC s t) (hx : m.SameJob x) (d : Desc) (ws : List TaggedByte) :
    s.Runs (t.moveOut p c x d ws) c m := by
  unfold State.moveOut
  split
  · exact setMover_runs h ⟨hx.chk, hx.src, hx.key, hx.held⟩
  · split
    · refine (setMover_runs (c := c) (x := { x with
        phase := if (writeXfers (addrModule d.base.toNat) ws (remoteTallyOf x.chk (some d))).isEmpty then .done
          else .writing,
        live := (writeXfers (addrModule d.base.toNat) ws (remoteTallyOf x.chk (some d))).length }) h
        ⟨hx.chk, hx.src, hx.key, hx.held⟩).of_same ?_ ?_
      · exact congrArg Core.mover ((enqueueX_effect _ p c _).1.core_eq rfl c)
      · exact (enqueueX_effect _ p c _).1.train.resolve_left (by decide)
    · split
      · dsimp only
        generalize hostWrites (joinRuns (ws.map (·.2))) = js
        generalize hy : ({ x with
          phase := if js.isEmpty then .done else .writing, hostLive := js.length, hostTodo := js } : MoverRun) = y
        have hjob : m.SameJob y := by
          rw [← hy]
          exact ⟨hx.chk, hx.src, hx.key, hx.held⟩
        have hrun := setMover_runs (c := c) h hjob
        have hmoves := setMover_moves t c y
        generalize t.setMover c y = u at hrun hmoves
        obtain ⟨⟨todo, hmover⟩, -⟩ := pumpHost_moves hmoves (t.part p).layout.live.hostPort.toNat
        have hpump : Same 0x208040 u (u.pumpHost (t.part p).layout.live.hostPort.toNat) :=
          State.pumpHost_keeps rfl u _ (.refl u)
        have htrain := hpump.train.resolve_left (by decide)
        exact ⟨⟨_, hmover, ⟨hjob.chk, hjob.src, hjob.key, hjob.held⟩⟩, (congrArg Train.attic htrain).trans hrun.attic,
          (congrArg Train.records htrain).trans hrun.records⟩
      · dsimp only
        split
        · next counted _ =>
          have htrain : (t.noteStale counted).train.attic = t.train.attic ∧
              (t.noteStale counted).train.records = t.train.records := by
            unfold State.noteStale
            split <;> exact ⟨rfl, rfl⟩
          have hbefore : t.train = s.train := h.train.resolve_left (by decide)
          exact ⟨⟨_, setMover_mover .., ⟨hx.chk, hx.src, hx.key, hx.held⟩⟩,
            htrain.1.trans (congrArg Train.attic hbefore), htrain.2.trans (congrArg Train.records hbefore)⟩
        · exact setMover_runs (h.trans ((State.storeBytes_keeps (fp := 0x20804C) rfl t _ (.refl t)).mono rfl))
            ⟨hx.chk, hx.src, hx.key, hx.held⟩

/-- The reads of a scheduled MOVE that meet no error. -/
theorem moveReads_good (hm : (s.core c).mover = some m) (hph : m.phase = .scheduled) (hsrc : m.src = some sd)
    (hdst : m.dst = some dd) (hn : m.chk.entry.moveResv = n)
    (hgood : (s.accessErrors (copyReadRanges m.chk sd dd) (copyWriteRanges m.chk dd) ecc).2 = none) :
    s.moveReads p c n ecc = ((s.accessErrors (copyReadRanges m.chk sd dd) (copyWriteRanges m.chk dd) ecc).1, true) := by
  unfold State.moveReads
  rw [hm]
  dsimp only
  rw [hph, hsrc, hdst]
  dsimp only
  rw [if_pos hn, hgood]

theorem moveBytes_some (hm : (s.core c).mover = some m) (hph : m.phase = .scheduled) (hsrc : m.src = some sd)
    (hdst : m.dst = some dd) (hn : m.chk.entry.moveResv = n) :
    ∃ x, s.moveBytes c n = some x ∧ m.SameJob x.1 := by
  unfold State.moveBytes
  rw [hm]
  dsimp only
  rw [hph, hsrc, hdst]
  dsimp only
  rw [if_pos hn]
  exact ⟨_, rfl, ⟨rfl, hsrc.symm, rfl, rfl⟩⟩

/-- An occurrence that has begun takes the bytes of a scheduled COPY whose reads meet no error; the job stays. -/
theorem feedOcc_runs (h : Same 0x2080CC s t) (hx : m.SameJob x) (hph : x.phase = .scheduled) (hsrc : x.src = some sd)
    (hdst : x.dst = some dd) (hn : x.chk.entry.moveResv = n)
    (hgood : (t.accessErrors (copyReadRanges x.chk sd dd) (copyWriteRanges x.chk dd) ecc).2 = none) :
    s.Runs ((t.setMover c x).feedOcc p c n ecc) c m := by
  have hset := setMover_mover t c x
  have hsame : Same 0x2080CC s (t.setMover c x) := State.setMover_keeps rfl t c x h
  have hrun := setMover_runs (c := c) h hx
  rw [← accessErrors_congr (s := t) (t := t.setMover c x) rfl] at hgood
  generalize t.setMover c x = u at hset hsame hrun hgood
  have hreads := moveReads_good (p := p) hset hph hsrc hdst hn hgood
  have herrors := accessErrors_same u (copyReadRanges x.chk sd dd) (copyWriteRanges x.chk dd) ecc
  generalize (u.accessErrors (copyReadRanges x.chk sd dd) (copyWriteRanges x.chk dd) ecc).1 = v at hreads herrors
  obtain ⟨y, hy, hjob⟩ := moveBytes_some (s := v)
    ((congrArg Core.mover (herrors.core_eq rfl c)).trans hset) hph hsrc hdst
    hn
  unfold State.feedOcc
  rw [hreads]
  dsimp only
  rw [hy]
  split
  · exact State.Runs.of_same (setMover_runs (x := y.1) (hsame.trans (herrors.mono rfl)) ⟨hjob.chk.trans hx.chk,
      hjob.src.trans hx.src, hjob.key.trans hx.key, hjob.held.trans hx.held⟩) rfl rfl
  · exact hrun

/-- A COPY whose reads meet no error keeps its job, whether it writes, waits or feeds an occurrence that has begun. -/
theorem copyReady_runs (h : Same 0x2080CC s t) (hst : m.staging = []) (hsrc : m.src = some sd) (hdst : m.dst = some dd)
    (hgood : (t.accessErrors (copyReadRanges m.chk sd dd) (copyWriteRanges m.chk dd) ecc).2 = none) :
    s.Runs (t.copyReady p c m sd dd ecc) c m := by
  by_cases hresv : m.chk.entry.moveResv = 0
  · obtain ⟨v, ⟨-, hv⟩, heq⟩ := copyNow_writes (p := p) (c := c) hst hgood rfl
    rw [copyReady_now hresv, heq]
    have hfree : Same 0x0 v v.freeWord.1 := State.freeWord_keeps rfl v (.refl v)
    refine moveOut_runs ?_ ?_ dd _
    · exact h.trans (Same.trans (hv.mono rfl) (hfree.mono rfl))
    · exact ⟨rfl, rfl, rfl, rfl⟩
  · have heq : t.copyReady p c m sd dd ecc = (t.setMover c { m with phase := .scheduled }).feedOcc p c
      m.chk.entry.moveResv ecc := if_pos hresv
    rw [heq]
    exact feedOcc_runs h ⟨rfl, rfl, rfl, rfl⟩ rfl hsrc hdst rfl hgood

end

/-! ### Gathers at issue (R411, R412) -/

/-- The state in which a gather's record and the count of attics are noted. -/
def State.gatherNoted (s : State) (p dest : Nat) (k : Checked) (d : Desc) (attic : Bool) : State :=
  let t := if k.entry.recordId / 2 ^ 15 = 0 then
      (s.storeGather p dest k.entry.moveCtx (k.entry.recordId % 2 ^ 15) d.version).getD s else s
  if attic then { t with train := { t.train with attic := t.train.attic + 1 } } else t

/-- The mover's run of a gather from the buffer d. -/
def MoverRun.ofGather (k : Checked) (dest : Nat) (d dd : Desc) : MoverRun :=
  { MoverRun.of k (some d) (some dd) with
    gatherKey := some (dest, k.entry.moveCtx, k.entry.recordId % 2 ^ 15, k.entry.recordId / 2 ^ 15),
    held := (d.allExtents d.elemBytes).map fun x => (addrLocal x.1, x.2) }

section
variable {s : State} {p c dest : Nat} {k : Checked} {sd dd : Desc} {ecc : Ecc} (hs : k.desc 8 = some sd)
  (hd : k.desc 12 = some dd)
include hs hd

theorem copyIssue_plain (hv : sd.versioned = false) : s.copyIssue p c k ecc =
    (s.popHead c).copyFrom p c (.of k (some sd) (some dd)) sd dd ecc := by
  unfold State.copyIssue
  rw [hs, hd]
  dsimp only
  rw [hv]
  rfl

variable (hv : sd.versioned = true) (hdest : dest = s.gatherDest k)
include hv hdest

theorem copyIssue_full (hplan : s.gatherPlan p dest k sd = .full) : s.copyIssue p c k ecc =
    { s with train := { s.train with full := s.train.full + 1 } }.refuse p c k stGATHER_FULL := by
  unfold State.copyIssue
  rw [hs, hd]
  dsimp only
  rw [hv, ← hdest, hplan]
  rfl

theorem copyIssue_stale (hplan : s.gatherPlan p dest k sd = .stale) : s.copyIssue p c k ecc =
    ({ s with train := { s.train with stale := s.train.stale + 1 } }.dropGather p dest k.entry.moveCtx
      (k.entry.recordId % 2 ^ 15)).refuse p c k stSTALE_SHARD := by
  unfold State.copyIssue
  rw [hs, hd]
  dsimp only
  rw [hv, ← hdest, hplan]
  rfl

theorem copyIssue_reads {d : Desc} {attic : Bool} (hplan : s.gatherPlan p dest k sd = .reads d attic) :
    s.copyIssue p c k ecc = ((s.gatherNoted p dest k d attic).popHead c).copyFrom p c
      (.ofGather k dest d dd) d dd ecc := by
  unfold State.copyIssue
  rw [hs, hd]
  dsimp only
  rw [hv, ← hdest, hplan]
  rfl

end

/-- The buffer that a gather reads lies where its descriptor says. -/
theorem gatherPlan_reads {s : State} {p dest : Nat} {k : Checked} {sd d : Desc} {attic : Bool}
    (h : s.gatherPlan p dest k sd = .reads d attic) : d.loc = sd.loc ∧ (k.entry.recordId < 2 ^ 15 → d = sd ∧
      (s.storeGather p dest k.entry.moveCtx (k.entry.recordId % 2 ^ 15) sd.version).isSome = true) := by
  unfold State.gatherPlan at h
  dsimp only at h
  by_cases hlt : k.entry.recordId < 2 ^ 15
  · rw [if_pos hlt] at h
    cases hsome : (s.storeGather p dest k.entry.moveCtx (k.entry.recordId % 2 ^ 15) sd.version).isSome with
    | false =>
      rw [hsome] at h
      exact nomatch h
    | true =>
      rw [hsome, if_pos rfl] at h
      injection h with h _
      exact ⟨by rw [h], fun _ => ⟨h.symm, rfl⟩⟩
  · refine ⟨?_, fun h => absurd h hlt⟩
    rw [if_neg hlt] at h
    cases hg : s.gatherOf p dest k.entry.moveCtx (k.entry.recordId % 2 ^ 15) with
    | none =>
      rw [hg] at h
      exact nomatch h
    | some g =>
      rw [hg] at h
      dsimp only at h
      split at h
      · injection h with h _
        rw [h]
      · split at h
        · injection h with h _
          rw [← h]
          rfl
        · exact nomatch h

theorem refuse_effect (s : State) (p c : Nat) (k : Checked) (st : Half) : ∀ t, t = s.refuse p c k st →
    t.train = s.train ∧ (t.core c).mover = (s.core c).mover ∧ (t.core c).queue = (s.core c).queue.drop 1 ∧
      ∀ d n, t.tallyOf d n = s.tallyOf d n := by
  intro t ht
  have hsame : Same 0x20884C s t := by
    rw [ht]
    exact complete_unsignalled rfl _ p c k.entry st 0 (State.popHead_keeps rfl s c (.refl s))
  refine ⟨hsame.train.resolve_left (by decide), ?_, ?_, fun d n => ?_⟩
  · rw [ht, State.refuse, complete_mover, popHead_core_self]
  · rw [ht, State.refuse, complete_queue, popHead_core_self]
  · rw [ht, State.refuse, complete_unsignalled_tallyOf, popHead_tallyOf]

theorem gatherOf_dropGather (s : State) (p dest ctx gid : Nat) :
    (s.dropGather p dest ctx gid).gatherOf p dest ctx gid = none := by
  refine List.find?_eq_none.2 fun g hg h => ?_
  have hno := (List.mem_filter.1 hg).2
  rw [h] at hno
  exact Bool.false_ne_true hno

theorem gatherOf_congr {s t : State} (h : t.train.records = s.train.records) (p dest ctx gid : Nat) :
    t.gatherOf p dest ctx gid = s.gatherOf p dest ctx gid := by
  unfold State.gatherOf
  rw [h]

theorem gatherNoted_effect (s : State) (p dest : Nat) (k : Checked) (d : Desc) (attic : Bool) :
    (s.gatherNoted p dest k d attic).train.attic = s.train.attic + (if attic then 1 else 0) ∧
      Same 0x40000 s (s.gatherNoted p dest k d attic) ∧
      (k.entry.recordId < 2 ^ 15 →
        (s.storeGather p dest k.entry.moveCtx (k.entry.recordId % 2 ^ 15) d.version).isSome = true →
        (s.gatherNoted p dest k d attic).gatherOf p dest k.entry.moveCtx (k.entry.recordId % 2 ^ 15) =
          some ⟨p, dest, k.entry.moveCtx, k.entry.recordId % 2 ^ 15, d.version⟩) := by
  generalize hgid : k.entry.recordId % 2 ^ 15 = gid
  generalize hnew : ({ part := p, dest := dest, ctx := k.entry.moveCtx, gid := gid, tag := d.version } : Gather) = new
  have hstore : ∀ u, s.storeGather p dest k.entry.moveCtx gid d.version = some u → u.train.attic = s.train.attic ∧
      Same 0x40000 s u ∧ u.train.records = (s.dropGather p dest k.entry.moveCtx gid).train.records ++ [new] := by
    intro u hu
    have hsame := State.storeGather_keeps (fp := 0x40000) rfl s p dest k.entry.moveCtx gid d.version (.refl s) u hu
    obtain ⟨-, hu⟩ := Option.ite_none_left_eq_some.1 hu
    rw [← Option.some.inj hu] at hsame ⊢
    exact ⟨rfl, hsame, by rw [← hnew]⟩
  have hfound : ∀ u : State, u.train.records = (s.dropGather p dest k.entry.moveCtx gid).train.records ++ [new] →
      u.gatherOf p dest k.entry.moveCtx gid = some new := by
    intro u hu
    unfold State.gatherOf
    rw [hu, List.find?_append, show (List.find? _ (s.dropGather p dest k.entry.moveCtx gid).train.records) = none from
      gatherOf_dropGather .., ← hnew]
    simp
  have hnoted : ∀ t, t = (if k.entry.recordId / 2 ^ 15 = 0 then
      (s.storeGather p dest k.entry.moveCtx gid d.version).getD s else s) → t.train.attic = s.train.attic ∧
      Same 0x40000 s t ∧ (k.entry.recordId < 2 ^ 15 →
        (s.storeGather p dest k.entry.moveCtx gid d.version).isSome = true →
        t.train.records = (s.dropGather p dest k.entry.moveCtx gid).train.records ++ [new]) := by
    rintro t rfl
    cases hst : s.storeGather p dest k.entry.moveCtx gid d.version with
    | none =>
      rw [Option.getD_none, ite_self]
      exact ⟨rfl, .refl s, fun _ h => nomatch h⟩
    | some u =>
      obtain ⟨hattic, hsame, hrecords⟩ := hstore u hst
      rw [Option.getD_some]
      split
      · exact ⟨hattic, hsame, fun _ _ => hrecords⟩
      · next hne => exact ⟨rfl, .refl s, fun hlt => absurd (Nat.div_eq_of_lt hlt) hne⟩
  unfold State.gatherNoted
  rw [hgid]
  dsimp only
  generalize (if k.entry.recordId / 2 ^ 15 = 0 then _ else _) = t at hnoted
  obtain ⟨hcount, hsame, hrecords⟩ := hnoted t rfl
  cases attic with
  | false => exact ⟨hcount.trans (BitVec.add_zero _).symm, hsame, fun hlt hsome => hfound t (hrecords hlt hsome)⟩
  | true => exact ⟨congrArg (· + 1) hcount, Same.set_train rfl hsame, fun hlt hsome => hfound _ (hrecords hlt hsome)⟩

section
variable {core : Fin 512} {ecc : Ecc} {s : State} {p : Nat} {k : Checked} {sd dd : Desc} (h : s.Issues p core k)
  (h4 : k.entry.kind = 4) (hop : k.entry.moveOp = 0) (hs : k.desc 8 = some sd) (hd : k.desc 12 = some dd)
  (hmay : s.MayMove p k)
include h h4 hop hs hd hmay

theorem exec_copy_plain (hv : sd.versioned = false) : exec (.copy core ecc) s = .next
    ((s.popHead core).copyFrom p core (.of k (some sd) (some dd)) sd dd ecc) := by
  rw [exec_copy h h4 hop, withSkein_runs hmay, copyIssue_plain hs hd hv]

theorem exec_copy_local (hv : sd.versioned = false) (h8 : sd.loc ≠ 8) (hh : sd.loc ≠ 4) (hdest : k.NoRemoteReads dd) :
    exec (.copy core ecc) s = .next
      ((s.moveTaken p core k.entry).copyReady p core (.of k (some sd) (some dd)) sd dd ecc) := by
  have hm : ∀ m : MoverRun, m.chk = k → (s.popHead core).copyFrom p core m sd dd ecc =
      (s.moveTaken p core k.entry).copyReady p core m sd dd ecc := by
    rintro m rfl
    exact copyFrom_local h8 hh hdest
  rw [exec_copy_plain h h4 hop hs hd hmay hv, hm (.of k (some sd) (some dd)) rfl]

end

/-- The errors that an access meets after the head is taken are those that it meets now. -/
theorem moveTaken_errors (s : State) (p c : Nat) (e : Entry) (rs ws : List (Nat × Nat)) (ecc : Ecc) :
    ((s.moveTaken p c e).accessErrors rs ws ecc).2 = (s.accessErrors rs ws ecc).2 :=
  accessErrors_congr ((moveTaken_same s p c e).memStat.resolve_left (by decide)) rs ws ecc

end Sys2Proof.Machine
end


section
/-! SUPPORT. Proofs/Moves.lean: a COPY by where its source and its destination lie (O27). -/

namespace Sys2Proof.Machine

/-! ### What is read from another module (R60, R286) -/

/-- The elements that a COPY moves from inside its source. -/
def copyInside (k : Checked) (sd dd : Desc) : List (Nat × Pos × Pos) :=
  (copyElems k dd).filter fun e => sd.inBounds e.2.1

/-- The zeros that stand for the elements outside its source. -/
def copyZeros (k : Checked) (sd dd : Desc) : List (Nat × Byte) :=
  ((copyElems k dd).filter fun e => !sd.inBounds e.2.1).flatMap fun e =>
    (List.range (elemBits dd.fmt / 8)).map fun j => (addrLocal (dd.addrOf e.2.2) + j, (0 : Byte))

/-- The READ transfers whose bytes land where they go. -/
def directReads (k : Checked) (sd dd : Desc) : List Xfer :=
  (byIteration (copyInside k sd dd)).flatMap fun es => readXfers (addrModule sd.base.toNat)
    (joinMoves (es.map fun e => (sd.addrOf e.2.1, dd.addrOf e.2.2, elemBits dd.fmt / 8)))

/-- The READ transfers whose bytes are gathered first. -/
def stagedReads (k : Checked) (sd dd : Desc) : List Xfer :=
  (byIteration (copyInside k sd dd)).flatMap fun es => readXfers (addrModule sd.base.toNat)
    ((coverRuns (es.flatMap fun e => sd.elemGlobal e.2.1)).map fun r => (r.1, r.1, r.2))

theorem flatMap_byIteration_ne_nil {β : Type} {es : List (Nat × Pos × Pos)} (hne : es ≠ [])
    {f : List (Nat × Pos × Pos) → List β} (hf : ∀ l e, e ∈ l → e ∈ es → f l ≠ []) :
    (byIteration es).flatMap f ≠ [] := by
  obtain ⟨e, he⟩ := List.exists_mem_of_ne_nil es hne
  obtain ⟨l, hl, hel⟩ := byIteration_of_mem he
  exact fun hnil => hf l e hel he (List.flatMap_eq_nil_iff.1 hnil l hl)

section
variable {k : Checked} {sd dd : Desc} (hne : copyInside k sd dd ≠ [])
include hne

theorem directReads_ne_nil (hmx : isMx dd.fmt = false) : directReads k sd dd ≠ [] :=
  flatMap_byIteration_ne_nil hne fun _ _ he _ => readXfers_ne_nil (joinMoves_pos
    ⟨_, List.mem_map.2 ⟨_, he, rfl⟩, Nat.div_pos (elemBits_plain hmx) (by decide)⟩)

theorem stagedReads_ne_nil : stagedReads k sd dd ≠ [] := by
  refine flatMap_byIteration_ne_nil hne fun l e he hin => readXfers_ne_nil ?_
  obtain ⟨r, hr, hpos⟩ := elemReads_pos ⟨e, he, (List.mem_filter.1 hin).2⟩
  exact ⟨_, List.mem_map.2 ⟨r, hr, rfl⟩, hpos⟩

theorem copyHostReads_ne_nil : hostReads (coverRuns ((copyElems k dd).flatMap fun e => sd.elemGlobal e.2.1)) ≠ [] := by
  obtain ⟨e, he⟩ := List.exists_mem_of_ne_nil _ hne
  obtain ⟨he, hin⟩ := List.mem_filter.1 he
  exact hostReads_ne_nil (elemReads_pos ⟨e, he, hin⟩)

end

/-- A byte of no element outside the source is not among the zeros. -/
theorem copyZeros_apart {k : Checked} {sd dd : Desc} {n : Nat} (hn : ∀ e ∈ copyElems k dd, sd.inBounds e.2.1 = false →
    n < addrLocal (dd.addrOf e.2.2) ∨ addrLocal (dd.addrOf e.2.2) + elemBits dd.fmt / 8 ≤ n) :
    ∀ w ∈ copyZeros k sd dd, w.1 ≠ n := by
  intro w hw
  obtain ⟨e, he, hw⟩ := List.mem_flatMap.1 hw
  obtain ⟨he, hout⟩ := List.mem_filter.1 he
  obtain ⟨j, hj, rfl⟩ := List.mem_map.1 hw
  have hlt := List.mem_range.1 hj
  have hor := hn e he (by simpa using hout)
  dsimp only
  omega

/-- The mover of core c begins to read from another module: its transfers are asked for. -/
def State.readsFrom (s : State) (p c : Nat) (m : MoverRun) (xs : List Xfer) : State :=
  (s.setMover c { m with phase := if xs.isEmpty then .done else .reading, live := xs.length }).enqueueX p (some c) xs

theorem landsDirect_plain {k : Checked} {sd dd : Desc} (h : landsDirect k sd dd = true) : isMx dd.fmt = false := by
  unfold landsDirect at h
  simp only [Bool.and_eq_true, Bool.not_eq_true'] at h
  exact h.1.1.1.2

section
variable {s : State} {m : MoverRun} {p c : Nat} {sd dd : Desc} {ecc : Ecc}

theorem copyFrom_remote (h8 : sd.loc = 8) (hd4 : dd.loc ≠ 4) : (s.popHead c).copyFrom p c m sd dd ecc =
    if landsDirect m.chk sd dd then ((s.moveTaken p c m.chk.entry).storeBytes (copyZeros m.chk sd dd)).readsFrom p c m
      (directReads m.chk sd dd)
    else (s.moveTaken p c m.chk.entry).copyReads p c m sd dd (stagedReads m.chk sd dd) [] ecc := by
  unfold State.copyFrom
  dsimp only
  rw [if_pos h8, if_neg hd4]
  rfl

theorem copyFrom_host (hh : sd.loc = 4) (hd8 : dd.loc ≠ 8) (hd4 : dd.loc ≠ 4) :
    (s.popHead c).copyFrom p c m sd dd ecc = (s.moveTaken p c m.chk.entry).copyReads p c m sd dd []
      (hostReads (coverRuns ((copyElems m.chk dd).flatMap fun e => sd.elemGlobal e.2.1))) ecc := by
  have h8 : sd.loc ≠ 8 := by rw [hh]; decide
  unfold State.copyFrom
  dsimp only
  rw [if_neg h8, if_pos hh, if_neg hd8, if_neg hd4, List.append_nil]
  rfl

/-- What a mover that begins to read from another module is. -/
theorem readsFrom_effect (s : State) (p c : Nat) (m : MoverRun) {xs : List Xfer} (hne : xs ≠ []) :
    ∀ t, t = s.readsFrom p c m xs → t.mem = s.mem ∧ (t.core c).queue = (s.core c).queue ∧
      ∃ x, (t.core c).mover = some x ∧ x.chk = m.chk ∧ x.phase = .reading ∧ 0 < x.live ∧ x.hostLive = m.hostLive := by
  intro t ht
  have hempty : (if xs.isEmpty then MovePhase.done else .reading) = .reading := by
    rw [List.isEmpty_eq_false_iff.2 hne]
    rfl
  unfold State.readsFrom at ht
  rw [hempty] at ht
  have hsame := (enqueueX_effect (s.setMover c { m with phase := .reading, live := xs.length }) p c xs).1
  rw [← ht] at hsame
  exact ⟨hsame.mem_eq rfl, (congrArg Core.queue (hsame.core_eq rfl c)).trans (setMover_queue ..), _,
    (congrArg Core.mover (hsame.core_eq rfl c)).trans (setMover_mover ..), rfl, rfl, List.length_pos_iff.2 hne, rfl⟩

theorem copyReads_remote (s : State) (p c : Nat) {m : MoverRun} (hm : m.hostLive = 0 ∧ m.hostTodo = []) (sd dd : Desc)
    {xs : List Xfer} (hne : xs ≠ []) (ecc : Ecc) : s.copyReads p c m sd dd xs [] ecc = s.readsFrom p c m xs := by
  obtain ⟨hlive, htodo⟩ := hm
  unfold State.copyReads State.readsFrom
  rw [List.isEmpty_eq_false_iff.2 hne]
  cases m
  dsimp only at hlive htodo
  rw [hlive, htodo]
  rfl

theorem copyReads_host (s : State) (p c : Nat) (m : MoverRun) (sd dd : Desc) {js : List HostJob} (hne : js ≠ [])
    (ecc : Ecc) : ∀ t, t = s.copyReads p c m sd dd [] js ecc → t.mem = s.mem ∧ (t.core c).queue = (s.core c).queue ∧
      ∃ x, (t.core c).mover = some x ∧ x.chk = m.chk ∧ x.phase = .reading ∧ x.live = 0 ∧ 0 < x.hostLive := by
  intro t ht
  have hjs : js.isEmpty = false := List.isEmpty_eq_false_iff.2 hne
  have hmoves := setMover_moves s c { m with phase := .reading, live := 0, hostLive := js.length, hostTodo := js }
  have heq : t = (s.setMover c { m with phase := .reading, live := 0, hostLive := js.length, hostTodo := js }).pumpHost
      (s.part p).layout.live.hostPort.toNat := by
    rw [ht, State.copyReads, hjs]
    rfl
  obtain ⟨⟨todo, hmover⟩, hqueue⟩ := pumpHost_moves hmoves (s.part p).layout.live.hostPort.toNat
  rw [← heq] at hmover hqueue
  refine ⟨?_, hqueue, _, hmover, rfl, rfl, rfl, List.length_pos_iff.2 hne⟩
  rw [heq]
  exact (State.pumpHost_keeps (fp := 0x208040) rfl _ _ (.refl _)).mem_eq rfl

end

section
variable {core : Fin 512} {ecc : Ecc} {s : State} {p : Nat} {k : Checked} {sd dd : Desc} (h : s.Issues p core k)
  (h4 : k.entry.kind = 4) (hop : k.entry.moveOp = 0) (hs : k.desc 8 = some sd) (hd : k.desc 12 = some dd)
include h h4 hop hs hd

/-! ### A source on this module -/

section
variable (hv : sd.versioned = false) (h8 : sd.loc ≠ 8) (hh : sd.loc ≠ 4) (hmay : s.MayMove p k)
  (hdest : k.NoRemoteReads dd)
include hv h8 hh hmay hdest

/-- A COPY without a reservation writes what its elements are. -/
theorem copy_writes {w : List TaggedByte × Half} (hw : w = copyWrites k sd dd (s.moveReader []) (s.envOf core k.entry))
    (hresv : k.entry.moveResv = 0)
    (hgood : (s.accessErrors (copyReadRanges k sd dd) (copyWriteRanges k dd) ecc).2 = none) :
    ∃ (v : State) (m : MoverRun), SameAround core s { v with freeCtr := s.freeCtr } ∧ v.parts = s.parts ∧
      (v.core core).queue = (s.core core).queue.drop 1 ∧ m.chk = k ∧ m.status = stDONE ∧
      exec (.copy core ecc) s = .next (v.moveOut p core m dd w.1) := by
  have hrun := exec_copy_local (ecc := ecc) h h4 hop hs hd hmay hv h8 hh hdest
  have htaken := moveTaken_around s p core k.entry
  have hqueue : ((s.moveTaken p core k.entry).core core).queue = (s.core core).queue.drop 1 := by rw [moveTaken_core]
  have hparts := moveTaken_parts hresv p core (s := s)
  rw [copyReady_now hresv] at hrun
  rw [← moveTaken_errors s p core k.entry] at hgood
  rw [← htaken.reader, ← htaken.env] at hw
  generalize s.moveTaken p core k.entry = u at hrun htaken hqueue hparts hgood hw
  obtain ⟨v, ⟨haround, hsame⟩, heq⟩ := copyNow_writes (p := p) (c := core) (m := .of k (some sd) (some dd)) rfl hgood hw
  rw [heq] at hrun
  have hall := htaken.trans haround
  exact ⟨v.freeWord.1, _, ⟨hall.mem, hall.fabric, rfl, hall.part, hall.core, hall.holds⟩,
    (hsame.parts_eq rfl).trans hparts, (congrArg Core.queue (hsame.core_eq rfl core)).trans hqueue, rfl, rfl, hrun⟩

/-- Into this module: the bytes are stored where nothing holds their places. -/
theorem copy_stores {w : List TaggedByte × Half} (hw : w = copyWrites k sd dd (s.moveReader []) (s.envOf core k.entry))
    (hresv : k.entry.moveResv = 0) (hd8 : dd.loc ≠ 8) (hd4 : dd.loc ≠ 4)
    (hgood : (s.accessErrors (copyReadRanges k sd dd) (copyWriteRanges k dd) ecc).2 = none)
    (hheld : s.heldAgainst core (s.gatherHoldsBut core) ((toLocal (w.1.map (·.2))).map fun b => (b.1, 1)) = none) :
    ∃ t m, exec (.copy core ecc) s = .next t ∧ (t.core core).mover = some m ∧ m.chk = k ∧
      m.phase = .done ∧ m.status = stDONE ∧ (t.core core).queue = (s.core core).queue.drop 1 ∧ t.parts = s.parts ∧
      (∀ n, memRead t.mem n = ((w.1.reverse.find? fun x => addrLocal x.2.1 == n).map (·.2.2)).getD (memRead s.mem n)) ∧
      ∀ c, c ≠ core.val → (t.core c).queue = (s.core c).queue ∧ (t.core c).mover = (s.core c).mover := by
  obtain ⟨v, m, haround, hparts, hqueue, hchk, hstatus, hrun⟩ := copy_writes h h4 hop hs hd hv h8 hh hmay hdest hw hresv
    hgood
  have hheld' : v.heldAgainst core (v.gatherHoldsBut core) ((toLocal (w.1.map (·.2))).map fun b =>
    (b.1, 1)) = none := by
    have hsee := haround.heldAgainst core (s.gatherHoldsBut core) ((toLocal (w.1.map (·.2))).map fun b => (b.1, 1))
    rw [← haround.holds] at hsee hheld
    exact hsee.trans hheld
  rw [moveOut_stores hd8 hd4 hheld'] at hrun
  refine ⟨_, _, hrun, setMover_mover .., hchk, rfl, hstatus, ?_, ?_, fun n => ?_, fun c hc => ?_⟩
  · obtain ⟨g, hg⟩ := storeBytes_core v (toLocal (w.1.map (·.2))) core
    rw [setMover_queue, hg]
    exact hqueue
  · exact ((State.storeBytes_keeps (fp := 0x20804C) rfl v _ (.refl v)).parts_eq rfl).trans hparts
  · exact (memRead_moveWrites v w.1 n).trans (congrArg (fun x => Option.getD _ (memRead x n)) haround.mem)
  · have hkeep : (v.core c) = s.core c := haround.core c hc
    obtain ⟨g, hg⟩ := storeBytes_core v (toLocal (w.1.map (·.2))) c
    rw [setMover_core, if_neg (Ne.symm hc), hg, hkeep]
    exact ⟨rfl, rfl⟩

/-- A read of its own that fails is a fault of the partition. -/
theorem copy_fails (hresv : k.entry.moveResv = 0)
    (hbad : (s.accessErrors (copyReadRanges k sd dd) (copyWriteRanges k dd) ecc).2 ≠ none) :
    ∃ t, exec (.copy core ecc) s = .next t ∧ (t.part p).active = false ∧ (t.part p).stopCause = stECC ∧
      t.links.faultTaken = s.faultsAfter 1 := by
  obtain ⟨-, -, hact, -⟩ := ready_iff.1 h.1
  have hrun := exec_copy_local (ecc := ecc) h h4 hop hs hd hmay hv h8 hh hdest
  have htaken := moveTaken_same s p core k.entry
  have hparts := moveTaken_parts hresv p core (s := s)
  rw [copyReady_now hresv] at hrun
  rw [← moveTaken_errors s p core k.entry] at hbad
  generalize s.moveTaken p core k.entry = u at hrun htaken hparts hbad
  obtain ⟨v, bad, hsame, heq⟩ := copyNow_fails (p := p) (c := core) (m := .of k (some sd) (some dd)) hbad
  rw [heq] at hrun
  have hpart : (v.part p).active = true := by
    have hvp : v.parts = s.parts := (hsame.parts_eq rfl).trans hparts
    rw [show v.part p = s.part p by unfold State.part; rw [hvp]]
    exact hact
  have hlinks : v.links = s.links := (hsame.links_eq rfl).trans (htaken.links_eq rfl)
  have hfw : v.fw = s.fw := (hsame.fw.resolve_left (by decide)).trans (htaken.fw.resolve_left (by decide))
  obtain ⟨hstop, hcause, hfault⟩ := failMove_effect hpart core (.of k (some sd) (some dd)) bad _ rfl
  exact ⟨_, hrun, hstop, hcause, hfault.trans (faultsAfter_congr (congrArg Firmware.paused hfw)
    (congrArg Links.faultTaken hlinks) 1)⟩

/-- With a reservation whose occurrence has not begun it waits. -/
theorem copy_waits (hresv : k.entry.moveResv ≠ 0)
    (hocc : ∀ o ∈ (s.part p).sched.occs, o.awaits = true → o.resv.number = k.entry.moveResv → o.core ≠ core.val) :
    ∃ t m, exec (.copy core ecc) s = .next t ∧ (t.core core).mover = some m ∧ m.chk = k ∧
      m.phase = .scheduled ∧ (t.part p).sched.issued = (s.part p).sched.issued ++ [k.entry.moveResv] ∧
        t.mem = s.mem := by
  have hrun := exec_copy_local (ecc := ecc) h h4 hop hs hd hmay hv h8 hh hdest
  have htaken := moveTaken_same s p core k.entry
  have hsched := moveTaken_issued h4 hresv p core (s := s)
  generalize s.moveTaken p core k.entry = u at hrun htaken hsched
  rw [copyReady_scheduled hresv (by rw [hsched]; exact hocc)] at hrun
  exact ⟨_, _, hrun, setMover_mover .., rfl, rfl, congrArg Sched.issued hsched, htaken.mem_eq rfl⟩

/-- To another module go as many transfers as carry the elements; under the route hold they wait. -/
theorem copy_sends (hresv : k.entry.moveResv = 0) (hd8 : dd.loc = 8)
    (hroute : s.routableTo (addrModule dd.base.toNat) = true)
    (hgood : (s.accessErrors (copyReadRanges k sd dd) (copyWriteRanges k dd) ecc).2 = none) {xs : List Xfer}
    (hxs : xs = writeXfers (addrModule dd.base.toNat)
      (copyWrites k sd dd (s.moveReader []) (s.envOf core k.entry)).1 (remoteTallyOf k (some dd))) :
    ∃ t m, exec (.copy core ecc) s = .next t ∧ (t.core core).mover = some m ∧ m.chk = k ∧ m.live = xs.length ∧
      m.phase = (if xs = [] then .done else .writing) ∧ t.mem = s.mem ∧
      (t.core core).queue = (s.core core).queue.drop 1 ∧
      (s.fabric.hold = true → t.fabric.waiting = s.fabric.waiting ++ xs.map fun x =>
        { part := p, core := some core.val, xfer := x }) := by
  obtain ⟨v, m, haround, hparts, hqueue, hchk, hstatus, hrun⟩ :=
    copy_writes h h4 hop hs hd hv h8 hh hmay hdest rfl hresv
    hgood
  have hroutes : v.routableTo (addrModule dd.base.toNat) = true := (haround.routableTo _).trans hroute
  rw [moveOut_remote hd8 hroutes xs (by rw [hchk]; exact hxs)] at hrun
  obtain ⟨hsame, hwait⟩ := enqueueX_effect (v.setMover core { m with
    phase := if xs.isEmpty then .done else .writing, live := xs.length }) p core xs
  refine ⟨_, _, hrun, (congrArg Core.mover (hsame.core_eq rfl core)).trans (setMover_mover ..), hchk, rfl, ?_,
    (hsame.mem_eq rfl).trans haround.mem, ?_, fun hhold => ?_⟩
  · cases xs <;> rfl
  · exact (congrArg Core.queue (hsame.core_eq rfl core)).trans ((setMover_queue ..).trans hqueue)
  · have hfabric : v.fabric = s.fabric := haround.fabric
    exact (hwait ((congrArg Fabric.hold hfabric).trans hhold)).trans
      (congrArg (fun f : Fabric => f.waiting ++ _) hfabric)

end

/-! ### A source on another module, or with the host (R60, R286, R499) -/

section
variable (hv : sd.versioned = false) (hmay : s.MayMove p k) (hd4 : dd.loc ≠ 4) (hne : copyInside k sd dd ≠ [])
include hv hmay hd4 hne

/-- From another module the elements are read first; where they land directly, zeros are stored for those outside the
source. -/
theorem copy_readsRemote (h8 : sd.loc = 8) : ∃ t m, exec (.copy core ecc) s = .next t ∧ (t.core core).mover = some m ∧
    m.chk = k ∧ m.phase = .reading ∧ 0 < m.live ∧ m.hostLive = 0 ∧ (t.core core).queue = (s.core core).queue.drop 1 ∧
    (landsDirect k sd dd = false → t.mem = s.mem) ∧
    (landsDirect k sd dd = true → ∀ n, (∀ e ∈ copyElems k dd, sd.inBounds e.2.1 = false →
      n < addrLocal (dd.addrOf e.2.2) ∨ addrLocal (dd.addrOf e.2.2) + elemBits dd.fmt / 8 ≤ n) →
      memRead t.mem n = memRead s.mem n) := by
  have hrun := exec_copy_plain (ecc := ecc) h h4 hop hs hd hmay hv
  have hqueue : ((s.moveTaken p core k.entry).core core).queue = (s.core core).queue.drop 1 := by rw [moveTaken_core]
  have hmem : (s.moveTaken p core k.entry).mem = s.mem := (moveTaken_same ..).mem_eq rfl
  have hm : (MoverRun.of k (some sd) (some dd)).chk = k ∧ (MoverRun.of k (some sd) (some dd)).hostLive = 0 ∧
    (MoverRun.of k (some sd) (some dd)).hostTodo = [] := ⟨rfl, rfl, rfl⟩
  generalize MoverRun.of k (some sd) (some dd) = m at hrun hm
  obtain ⟨rfl, hhost⟩ := hm
  rw [copyFrom_remote h8 hd4] at hrun
  generalize s.moveTaken p core m.chk.entry = u at hrun hqueue hmem
  cases hlands : landsDirect m.chk sd dd with
  | true =>
    rw [hlands, if_pos rfl] at hrun
    obtain ⟨htmem, htqueue, x, hx, hchk, hphase, hlive, hxhost⟩ := readsFrom_effect
      (u.storeBytes (copyZeros m.chk sd dd)) p core m (directReads_ne_nil hne (landsDirect_plain hlands)) _ rfl
    refine ⟨_, x, hrun, hx, hchk, hphase, hlive, hxhost.trans hhost.1, ?_, fun hf => Bool.noConfusion hf,
      fun _ n hn => ?_⟩
    · obtain ⟨g, hg⟩ := storeBytes_core u (copyZeros m.chk sd dd) core
      rw [htqueue, hg]
      exact hqueue
    · rw [htmem, storeBytes_outside (copyZeros_apart hn), hmem]
  | false =>
    rw [hlands, if_neg Bool.false_ne_true, copyReads_remote u p core hhost sd dd (stagedReads_ne_nil hne)] at hrun
    obtain ⟨htmem, htqueue, x, hx, hchk, hphase, hlive, hxhost⟩ := readsFrom_effect u p core m
      (stagedReads_ne_nil hne) _ rfl
    exact ⟨_, x, hrun, hx, hchk, hphase, hlive, hxhost.trans hhost.1, htqueue.trans hqueue,
      fun _ => htmem.trans hmem, fun ht => Bool.noConfusion ht⟩

/-- From the host the elements are read first. -/
theorem copy_readsHost (hh : sd.loc = 4) (hd8 : dd.loc ≠ 8) : ∃ t m, exec (.copy core ecc) s = .next t ∧
    (t.core core).mover = some m ∧ m.chk = k ∧ m.phase = .reading ∧ m.live = 0 ∧ 0 < m.hostLive ∧ t.mem = s.mem ∧
    (t.core core).queue = (s.core core).queue.drop 1 := by
  have hrun := exec_copy_plain (ecc := ecc) h h4 hop hs hd hmay hv
  have hqueue : ((s.moveTaken p core k.entry).core core).queue = (s.core core).queue.drop 1 := by rw [moveTaken_core]
  have hmem : (s.moveTaken p core k.entry).mem = s.mem := (moveTaken_same ..).mem_eq rfl
  have hm : (MoverRun.of k (some sd) (some dd)).chk = k := rfl
  generalize MoverRun.of k (some sd) (some dd) = m at hrun hm
  subst hm
  rw [copyFrom_host hh hd8 hd4] at hrun
  generalize s.moveTaken p core m.chk.entry = u at hrun hqueue hmem
  obtain ⟨htmem, htqueue, x, hx, hchk, hphase, hlive, hhost⟩ := copyReads_host u p core m sd dd
    (copyHostReads_ne_nil hne) ecc _ rfl
  exact ⟨_, x, hrun, hx, hchk, hphase, hlive, hhost, htmem.trans hmem, htqueue.trans hqueue⟩

end
end

/-! ### The skein (R281, R283, R284) -/

section
variable {core : Fin 512} {ecc : Ecc} {s : State} {p d : Nat} {k : Checked} (h : s.Issues p core k)
  (h4 : k.entry.kind = 4) (hop : k.entry.moveOp = 0) (hreq : k.requestClass = true) (hmod : remoteModule k = some d)
  (hroute : s.routable k = true)
include h h4 hop hreq hmod hroute

theorem copy_asks (hnone : s.skeinTo p d = none) : exec (.copy core ecc) s = .next (s.openSkein p d) := by
  rw [exec_copy h h4 hop]
  unfold State.withSkein
  rw [hreq, if_pos rfl, hmod]
  dsimp only
  rw [hroute, hnone]
  rfl

theorem copy_awaitsSkein {sk : Skein} (hsk : s.skeinTo p d = some sk) (hclosed : sk.isOpen = false) :
    exec (.copy core ecc) s = .next s := by
  rw [exec_copy h h4 hop]
  unfold State.withSkein
  rw [hreq, if_pos rfl, hmod]
  dsimp only
  rw [hroute, hsk]
  dsimp only
  rw [hclosed]
  rfl

end

/-! ### Gathers (R409 to R412) -/

section
variable {core : Fin 512} {ecc : Ecc} {s : State} {p dest gid : Nat} {k : Checked} {sd dd : Desc}
  (h : s.Issues p core k) (h4 : k.entry.kind = 4) (hop : k.entry.moveOp = 0) (hs : k.desc 8 = some sd)
  (hd : k.desc 12 = some dd) (hv : sd.versioned = true) (hmay : s.MayMove p k) (hdest : dest = s.gatherDest k)
include h h4 hop hs hd hv hmay hdest

theorem copy_gatherFull (hplan : s.gatherPlan p dest k sd = .full) : ∃ t, exec (.copy core ecc) s = .next t ∧
    t.train.full = s.train.full + 1 ∧ t.train.records = s.train.records ∧ (t.core core).mover = (s.core core).mover ∧
    (t.core core).queue = (s.core core).queue.drop 1 ∧ ∀ c n, t.tallyOf c n = s.tallyOf c n := by
  rw [exec_copy h h4 hop, withSkein_runs hmay, copyIssue_full hs hd hv hdest hplan]
  obtain ⟨htrain, hmover, hqueue, htally⟩ := refuse_effect
    { s with train := { s.train with full := s.train.full + 1 } } p core k stGATHER_FULL _ rfl
  exact ⟨_, rfl, congrArg Train.full htrain, (congrArg Train.records htrain :), hmover, hqueue, htally⟩

theorem copy_gatherStale (hgid : gid = k.entry.recordId % 2 ^ 15) (hplan : s.gatherPlan p dest k sd = .stale) :
    ∃ t, exec (.copy core ecc) s = .next t ∧
    t.train.stale = s.train.stale + 1 ∧ t.gatherOf p dest k.entry.moveCtx gid = none ∧
    (t.core core).mover = (s.core core).mover ∧ (t.core core).queue = (s.core core).queue.drop 1 ∧
    ∀ c n, t.tallyOf c n = s.tallyOf c n := by
  rw [exec_copy h h4 hop, withSkein_runs hmay, copyIssue_stale hs hd hv hdest hplan, ← hgid]
  have hgone := gatherOf_dropGather { s with train := { s.train with stale := s.train.stale + 1 } } p dest
    k.entry.moveCtx gid
  obtain ⟨htrain, hmover, hqueue, htally⟩ := refuse_effect
    (({ s with train := { s.train with stale := s.train.stale + 1 } } : State).dropGather p dest k.entry.moveCtx gid)
    p core k stSTALE_SHARD _ rfl
  exact ⟨_, rfl, congrArg Train.stale htrain, (gatherOf_congr (congrArg Train.records htrain) ..).trans hgone, hmover,
    hqueue, htally⟩

/-- A gather runs from the buffer that its record chooses, and holds it. -/
theorem copy_gathers (h8 : sd.loc ≠ 8) (hh : sd.loc ≠ 4) (hreads : k.NoRemoteReads dd)
    (hgid : gid = k.entry.recordId % 2 ^ 15) {d : Desc} {attic : Bool}
    (hplan : s.gatherPlan p dest k sd = .reads d attic)
    (hgood : (s.accessErrors (copyReadRanges k d dd) (copyWriteRanges k dd) ecc).2 = none) :
    ∃ t m, exec (.copy core ecc) s = .next t ∧ (t.core core).mover = some m ∧ m.chk = k ∧ m.src = some d ∧
      m.gatherKey = some (dest, k.entry.moveCtx, gid, k.entry.recordId / 2 ^ 15) ∧
      m.held = (d.allExtents d.elemBytes).map (fun x => (addrLocal x.1, x.2)) ∧
      t.train.attic = s.train.attic + (if attic then 1 else 0) ∧
      (k.entry.recordId < 2 ^ 15 → t.gatherOf p dest k.entry.moveCtx gid =
        some { part := p, dest := dest, ctx := k.entry.moveCtx, gid := gid, tag := d.version }) := by
  obtain ⟨hloc, hforward⟩ := gatherPlan_reads hplan
  obtain ⟨hattic, hsame, hnew⟩ := gatherNoted_effect s p dest k d attic
  have hm : ∀ m : MoverRun, m.chk = k → ((s.gatherNoted p dest k d attic).popHead core).copyFrom p core m d dd ecc =
      ((s.gatherNoted p dest k d attic).moveTaken p core k.entry).copyReady p core m d dd ecc := by
    rintro m rfl
    exact copyFrom_local (hloc ▸ h8) (hloc ▸ hh) hreads
  rw [exec_copy h h4 hop, withSkein_runs hmay, copyIssue_reads hs hd hv hdest hplan, hm _ rfl]
  have hstat : ((s.gatherNoted p dest k d attic).moveTaken p core k.entry).memStat = s.memStat :=
    ((moveTaken_same _ p core k.entry).memStat.resolve_left (by decide)).trans (hsame.memStat.resolve_left (by decide))
  rw [← accessErrors_congr hstat] at hgood
  obtain ⟨⟨x, hx, hjob⟩, hcount, hrecords⟩ := copyReady_runs (p := p) (m := .ofGather k dest d dd)
    (sd := d) (dd := dd) ((moveTaken_same (s.gatherNoted p dest k d attic) p core k.entry).mono rfl) rfl rfl rfl hgood
  refine ⟨_, x, rfl, hx, hjob.chk, hjob.src, ?_, hjob.held, hcount.trans hattic, fun hlt => ?_⟩
  · rw [hgid]
    exact hjob.key
  · obtain ⟨rfl, hsome⟩ := hforward hlt
    rw [hgid]
    exact (gatherOf_congr hrecords ..).trans (hnew hlt hsome)

end

/-- Settles O27: a COPY by where its source and its destination lie, and a gather by its plan. -/
theorem copyMovesElements : Obligations.CopyMovesElements := by
  refine ⟨fun core ecc s p k sd dd h h4 hop hs hd hv h8 hh hmay hdest w hw => ?_,
    fun core ecc s p k d h h4 hop hreq hmod hroute => ?_,
    fun core ecc s p k sd dd h h4 hop hs hd hv hmay _ hd8 hd4 inb hinb hne => ?_,
    fun core ecc s p k sd dd h h4 hop hs hd hv h8 hh hmay hdest dest gid hdst hgid => ?_⟩
  · subst hw
    exact ⟨fun hresv hd8 hd4 hgood hheld => copy_stores h h4 hop hs hd hv h8 hh hmay hdest rfl hresv hd8
      hd4 hgood hheld,
      fun hresv hbad => copy_fails h h4 hop hs hd hv h8 hh hmay hdest hresv hbad,
      fun hresv hocc => copy_waits h h4 hop hs hd hv h8 hh hmay hdest hresv hocc,
      fun hresv hd8 hroute hgood _ hxs => copy_sends h h4 hop hs hd hv h8 hh hmay hdest hresv hd8 hroute hgood hxs⟩
  · exact ⟨fun hnone => copy_asks h h4 hop hreq hmod hroute hnone,
      fun _ hsk hclosed => copy_awaitsSkein h h4 hop hreq hmod hroute hsk hclosed⟩
  · subst hinb
    exact ⟨fun h8 => copy_readsRemote h h4 hop hs hd hv hmay hd4 hne h8,
      fun hh => copy_readsHost h h4 hop hs hd hv hmay hd4 hne hh hd8⟩
  · exact ⟨fun hplan => copy_gatherFull h h4 hop hs hd hv hmay hdst hplan,
      fun hplan => copy_gatherStale h h4 hop hs hd hv hmay hdst hgid hplan,
      fun _ _ hplan hgood => copy_gathers h h4 hop hs hd hv hmay hdst h8 hh hdest hgid hplan hgood⟩

end Sys2Proof.Machine
end


section
/-! SUPPORT. Proofs/Boundary.lean: a boundary at which a collective cannot read its source (O31). Its run leaves the
hub with the fault of its partition, and what has come for the run at its place is worked off all the same: by then that
is the run of another partition, where a lead differs from its command. That partition stops too, before its own
pattern has gone on. -/

namespace Sys2Proof.Machine

/-- An ALL_GATHER of one element, which lies at address 0 of HBM. -/
def gatherCommand : Checked :=
  { entry := { words := (((List.replicate 32 0).set 0 0x60000000).set 5 8 |>.set 7 1).set 8 0x80000000, startWords := 0,
               badMagic := false, fromStream := false, segClass := 0 },
    descs := [(0, emptyDesc 0)] }

/-- Its run in partition p, under reservation 1, which waits for its occurrence. -/
def gatherRun (p : Nat) : CollRun :=
  { core := 0, part := p, chk := gatherCommand, resv := 1, n := 1, pos := 0, ring := true, due := none, forced := none,
    weight := 0, scan := 0, nfElem := 0, begun := false, started := false, included := false, late := false, own := [],
    raw := [], rx := [], tx := [], credit := [], left := none, right := none, todo := 0, finals := [], nfOwn := none,
    nfSeen := none, dropSeen := false, mask := 0, quar := 0, total := 0, flags := 0, record := none, stale := false,
    miss := false, wrong := none, judged := none }

/-- The run of partition 1, which has begun: a segment stands before it whose lead is all zeros. -/
def strayRun : CollRun :=
  { gatherRun 1 with begun := true, due := some 0, rx := [⟨0, 0, [(0, 0)], [(0, List.replicate 32 0)], 0, true⟩] }

/-- The reservation of an ALL_GATHER at the first stitch of a step. -/
def gatherResv : Resv :=
  { number := 1, kind := 0xD, cond := 0, m := 0, queue := 0, t := 0, o := 0, span := 0, input := 6, output := 0,
    chIn := 0, chOut := 0, core := 0, flits := 0, bytes := 0 }

/-- A pattern of steps of one stitch that books some reservations and nothing else. -/
def barePattern (rs : List Resv) : Pattern :=
  { base := 0, bytes := 0, iface := 0, patternId := 0, tag := 0, stages := 0, stageIndex := 0, shelves := 0, micro := 0,
    maxLong := 0, prologue := 0, stepStitches := 1, bubble := 0, slipLag := 0, class0 := 0, class1 := 0, streams := [],
    resvs := rs, queues := [], plan := [], points := [], power := [], quotas := [] }

/-- Partition 0 starts the ALL_GATHER at the next boundary; partition 1 comes to pattern stitch 1. -/
def twoPatterns : State :=
  let s := (State.reset.updPart 0 fun q => { q with
    pattern := some (barePattern [gatherResv]), patState := .running, state := .draining,
    sched := { q.sched with begun := 1, nextStep := 1 } }).updPart 1 fun q => { q with
    pattern := some (barePattern []), patState := .running, state := .running, sched := { q.sched with next := 1 } }
  { s with coll := { s.coll with runs := [gatherRun 0, strayRun] }, power := { s.power with boot := .ready } }

/-- The burst at address 0 cannot be corrected. -/
def badBurst : Ecc := { Ecc.clean with hbmBad := [0] }

/-- The pattern stitch of partition p after a command. -/
def pstitchAfter (c : Instr) (s : State) (p : Nat) : Option Nat :=
  match exec c s with
  | .next t => some (t.part p).sched.pstitch
  | _ => none

/-- Partition 1 stays at pattern stitch 0. -/
theorem twoPatterns_stays : pstitchAfter (.stitchBoundary badBurst []) twoPatterns 1 = some 0 := by decide +kernel

/-- Refutes O31: the fault of one partition's collective stops another partition, whose pattern does not advance. -/
theorem not_stitchBoundaries : ¬ Obligations.StitchBoundaries := by
  intro h
  obtain ⟨-, hclocked⟩ := h badBurst [] twoPatterns
  obtain ⟨t, ht, -, -, -, hparts, -⟩ := hclocked (by decide)
  obtain ⟨-, hadvance⟩ := hparts 1 (by decide) (barePattern []) rfl rfl rfl
  obtain ⟨hstitch, -⟩ := hadvance fun x hx => nomatch hx
  have hstays := twoPatterns_stays
  rw [pstitchAfter, ht] at hstays
  exact absurd (hstitch.symm.trans (Option.some.inj hstays)) (by decide)

end Sys2Proof.Machine
end


section
/-! SUPPORT. Proofs/Slices.lean: the start of a pattern, and the markers that hold slices together (O32). -/

namespace Sys2Proof.Machine

/-! ### A pattern that has just begun (R379, R430) -/

/-- A running partition at pattern stitch 0, whose occurrences under way are those of cores that ok names. -/
structure Part.Begun (q : Part) (l : Shadowed Layout) (ok : Nat → Prop) : Prop where
  layout : q.layout = l
  armed : q.armed = none
  patState : q.patState = .running
  state : q.state = .running
  drainStep : q.drainStep = none
  pstitch : q.sched.pstitch = 0
  occs : ∀ o ∈ q.sched.occs, ok o.core

/-- No mover works for core c. -/
def State.NoMover (s : State) (c : Nat) : Prop := (s.core c).mover = none

/-- In s the pattern of p has begun as in u, with the cores of u: it has no collective, and no mover works for its
occurrences. -/
structure State.Begun (u s : State) (p : Nat) : Prop where
  cores : s.cores = u.cores
  runs : ∀ r ∈ s.coll.runs, r.part ≠ p
  part : (s.part p).Begun (u.part p).layout u.NoMover

namespace State.Begun
variable {u s t : State} {p m : Nat}

theorem same (h : u.Begun s p) (w : Same m s t) (hc : m.testBit 6 = false) (hp : m.testBit 7 = false)
    (hr : m.testBit 11 = false) : u.Begun t p where
  cores := (w.cores_eq hc).trans h.cores
  runs := by
    rw [w.coll.resolve_left (by simp [hr])]
    exact h.runs
  part := by
    rw [w.part_eq hp]
    exact h.part

theorem updPart (h : u.Begun s p) {f : Part → Part} (hf : (f (s.part p)).Begun (u.part p).layout u.NoMover) :
    u.Begun (s.updPart p f) p where
  cores := h.cores
  runs := h.runs
  part := by
    rw [State.part_updPart, if_pos rfl]
    exact hf

theorem noMover (h : u.Begun s p) {c : Nat} (hc : u.NoMover c) : (s.core c).mover = none := by
  unfold State.core
  rw [h.cores]
  exact hc

theorem resvCore (h : u.Begun s p) (r : Resv) : s.resvCore p r = u.resvCore p r := by
  unfold State.resvCore
  rw [h.part.layout]

theorem active (h : u.Begun s p) : (s.part p).active = true := by
  unfold Part.active
  rw [h.part.state]
  rfl

/-! ### Its occurrences (R383, R390) -/

/-- The occurrence of a MOVE for which no mover works starts without bytes. -/
theorem startMove (h : u.Begun s p) {r : Resv} (hr : u.NoMover (u.resvCore p r)) (q : Nat) (ecc : Ecc) :
    u.Begun (s.startMove p q r ecc) p := by
  have hnone : (s.core (s.resvCore p r)).mover = none := by
    rw [h.resvCore]
    exact h.noMover hr
  have hreads : s.moveReads p (s.resvCore p r) r.number ecc = (s, true) := by
    unfold State.moveReads
    rw [hnone]
  have hbytes : s.moveBytes (s.resvCore p r) r.number = none := by
    unfold State.moveBytes
    rw [hnone]
  unfold State.startMove
  dsimp only
  rw [hreads]
  dsimp only
  rw [hbytes, if_neg (by decide)]
  dsimp only
  refine h.updPart ?_
  refine { h.part with occs := fun o ho => ?_ }
  rcases List.mem_append.1 ho with ho | ho
  · exact h.part.occs o ho
  · rw [List.mem_singleton.1 ho]
    dsimp only
    rw [h.resvCore]
    exact hr

theorem startColl (h : u.Begun s p) (q : Nat) (r : Resv) (ecc : Ecc) : s.startColl p q r ecc = s := by
  have hnone : (s.coll.runs.findIdx? fun x => x.part == p && x.resv == r.number && x.due.isNone) = none := by
    refine List.findIdx?_eq_none_iff.2 fun x hx => ?_
    rw [beq_false_of_ne (h.runs x hx)]
    rfl
  unfold State.startColl
  rw [hnone]

theorem startOccurrences (h : u.Begun s p) {pat : Pattern} (hpat : ∀ r ∈ pat.resvs, u.NoMover (u.resvCore p r))
    (q : Nat) (ecc : Ecc) : u.Begun (s.startOccurrences p pat q ecc) p := by
  unfold State.startOccurrences
  refine foldl_keeps (P := fun t : State => u.Begun t p) _ (fun t r ht => ?_) _ _ ?_
  · split
    · rw [ht.startColl]
      exact ht
    · exact ht
  · refine List.foldlRecOn (motive := fun t : State => u.Begun t p) _ _ h fun t ht r hr => ?_
    split
    · obtain ⟨_, -, hr⟩ := List.mem_flatMap.1 (List.mem_filter.1 hr).1
      exact ht.startMove (hpat r (List.mem_filter.1 hr).1) q ecc
    · exact ht

/-! ### Its first stitch (R382, R391, R392) -/

theorem noteStitch (h : u.Begun s p) : u.Begun (s.noteStitch p) p := by
  unfold State.noteStitch
  refine h.updPart ?_
  exact { h.part with }

theorem slipStitch (h : u.Begun s p) (x : HoldAt) : u.Begun (s.slipStitch p x) p := by
  have hslip := h.updPart (f := fun q => { q with sched := { q.sched with
    slips := q.sched.slips + 1, slipTotal := q.sched.slipTotal + 1, stepSlips := q.sched.stepSlips + 1,
    slipNow := true,
    govSlips := if x.isLocal && x.cause == stSLEW then q.sched.govSlips + 1 else q.sched.govSlips } }) { h.part with }
  exact ⟨hslip.cores, hslip.runs, hslip.part⟩

theorem setPart (h : u.Begun s p) {q : Part} (hq : q.Begun (u.part p).layout u.NoMover) : u.Begun (s.setPart p q) p :=
  ⟨h.cores, h.runs, by
    rw [State.part_setPart, if_pos rfl]
    exact hq⟩

/-- A step may start; there is no drain point to reach. -/
theorem stepStart (h : u.Begun s p) (pat : Pattern) : u.Begun (s.stepStart p pat) p := by
  unfold State.stepStart
  dsimp only
  generalize hq : (if (s.part p).sched.begun = 0 then _ else _) = q
  have hbegun : q.Begun (u.part p).layout u.NoMover := by
    rw [← hq]
    split <;> exact { h.part with }
  split
  · exact h
  · split
    · next hdrain => exact absurd (hbegun.drainStep.symm.trans hdrain.1) nofun
    · split
      · exact h
      · exact h.setPart { hbegun with }

theorem patternStitch (h : u.Begun s p) (hnext : (s.part p).sched.next = 0) {pat : Pattern}
    (hpat : ∀ r ∈ pat.resvs, u.NoMover (u.resvCore p r)) (ecc : Ecc) : u.Begun (s.patternStitch p pat ecc) p := by
  unfold State.patternStitch
  dsimp only
  split
  · exact (h.slipStitch _).noteStitch
  · exact (((h.updPart (f := fun q => { q with sched := { q.sched with
      pstitch := q.sched.next, next := q.sched.next + 1, slipNow := false, govSlips := 0 } })
      { h.part with pstitch := hnext }).stepStart pat).startOccurrences hpat _ ecc).noteStitch

/-! ### What it sends (R390) -/

theorem moveSent (h : u.Begun s p) {o : Occ} (ho : u.NoMover o.core) : s.moveSent p o = s := by
  unfold State.moveSent
  rw [h.noMover ho]

theorem sendOcc (h : u.Begun s p) {o : Occ} (ho : u.NoMover o.core) :
    u.Begun (s.sendOcc p o).1 p ∧ (s.sendOcc p o).2.core = o.core := by
  unfold State.sendOcc
  split
  · exact ⟨h, rfl⟩
  · refine ⟨?_, rfl⟩
    dsimp only
    generalize hr : List.foldl _ (s, o.sent) _ = r
    have hsent : u.Begun r.1 p := by
      rw [← hr]
      refine foldl_keeps (P := fun a : State × Nat => u.Begun a.1 p) _ (fun a n ha => ?_) _ _ h
      dsimp only
      split
      · exact ha.same (State.sendSched_keeps (fp := 0x200400) rfl _ _ _ _ _ _ _ _ (.refl _)) rfl rfl rfl
      · exact ha
    split
    · rw [hsent.moveSent ho]
      exact hsent
    · exact hsent

theorem sendOccs (h : u.Begun s p) : u.Begun (s.sendOccs p) p := by
  unfold State.sendOccs
  dsimp only
  have hsent : ∀ l : List Occ, (∀ o ∈ l, u.NoMover o.core) → ∀ a : State × List Occ, u.Begun a.1 p →
      (∀ o ∈ a.2, u.NoMover o.core) → u.Begun (l.foldl (fun (a : State × List Occ) o =>
        ((a.1.sendOcc p o).1, a.2 ++ [(a.1.sendOcc p o).2])) a).1 p ∧
      ∀ o ∈ (l.foldl (fun (a : State × List Occ) o =>
        ((a.1.sendOcc p o).1, a.2 ++ [(a.1.sendOcc p o).2])) a).2, u.NoMover o.core := by
    intro l
    induction l with
    | nil => exact fun _ a ha hl => ⟨ha, hl⟩
    | cons o l ih =>
      intro hol a ha hl
      obtain ⟨ho, hol⟩ := List.forall_mem_cons.1 hol
      obtain ⟨hstep, hcore⟩ := ha.sendOcc ho
      refine ih hol _ hstep fun x hx => ?_
      rcases List.mem_append.1 hx with hx | hx
      · exact hl x hx
      · rw [List.mem_singleton.1 hx, hcore]
        exact ho
  obtain ⟨hbegun, hcores⟩ := hsent _ h.part.occs (s, []) h nofun
  exact hbegun.updPart { hbegun.part with occs := fun o ho => hcores o (List.mem_filter.1 ho).1 }

theorem sendPart (h : u.Begun s p) : u.Begun (s.sendPart p) p := by
  unfold State.sendPart
  dsimp only
  refine foldl_keeps (P := fun t : State => u.Begun t p) _ (fun t i ht => ?_) _ _ ?_
  · split
    · next r hr => rwa [if_neg (ht.runs r (List.mem_of_getElem? hr))]
    · exact ht
  · split
    · exact h.sendOccs
    · exact h

end State.Begun

/-! ### PATTERN_START (R379, R426, R430, R615) -/

/-- The partition stopped, if it ran, and started again with an empty timeline. -/
def State.patternOpened (s : State) (p : Nat) : State :=
  ((s.stopPart p stDONE true).startPart p).updPart p fun q => { q with
    patState := .running, armed := none, normRecord := none, excluded := 0,
    sched := { Sched.reset with manifests := q.sched.manifests, nextStep := q.sched.nextStep,
                                holds := q.sched.holds, governed := q.sched.governed,
                                slipTotal := q.sched.slipTotal } }

section
variable {s t : State} {p : Nat}

theorem stopPart_layout (s : State) (p : Nat) (cause : Half) (keep : Bool) :
    ((s.stopPart p cause keep).part p).layout = (s.part p).layout := by
  rw [stopPart_part]
  split <;> rfl

/-- A start leaves movers and collectives. -/
theorem startPart_kept (s : State) (p c : Nat) : ((s.startPart p).core c).mover = (s.core c).mover ∧
    (s.startPart p).coll.runs = s.coll.runs := by
  unfold State.startPart
  dsimp only
  have hupd : ∀ (t : State) (d : Nat) (f : Core → Core), (∀ k, (f k).mover = k.mover) →
      ((t.core c).mover = (s.core c).mover ∧ t.coll.runs = s.coll.runs) →
      ((t.updCore d f).core c).mover = (s.core c).mover ∧ (t.updCore d f).coll.runs = s.coll.runs := by
    intro t d f hf ht
    refine ⟨?_, ht.2⟩
    rw [State.core_updCore]
    split
    · next h => rw [hf, h, ht.1]
    · exact ht.1
  have hsame : ∀ {m : Nat} {t u : State}, Same m t u → m.testBit 6 = false → m.testBit 11 = false →
      ((t.core c).mover = (s.core c).mover ∧ t.coll.runs = s.coll.runs) →
      (u.core c).mover = (s.core c).mover ∧ u.coll.runs = s.coll.runs := by
    intro m t u w hc hr ht
    rw [w.core_eq hc, w.coll.resolve_left (by simp [hr])]
    exact ht
  refine hsame (m := 0x8080) (State.updPart_keeps rfl _ p _ (kept_foldl _ _ _ (fun s k h =>
    kept_foldl _ _ _ (fun s i h =>
    kept_ite _ _ _ (State.updQueue_keeps rfl s k i _ h) h) h) (.refl _))) rfl rfl ?_
  refine foldl_keeps (P := fun t : State => (t.core c).mover = (s.core c).mover ∧ t.coll.runs = s.coll.runs) _
    (fun t d ht => ?_) _ _ ?_
  · exact hupd t d _ (fun _ => rfl) ht
  refine foldl_keeps (P := fun t : State => (t.core c).mover = (s.core c).mover ∧ t.coll.runs = s.coll.runs) _
    (fun t d ht => ?_) _ s ⟨rfl, rfl⟩
  refine hupd _ d _ (fun _ => rfl) ?_
  refine hsame (m := 0x208004) (State.zeroRange_keeps rfl _ _ _ (State.zeroRange_keeps rfl _ _ _ (.refl _))) rfl rfl ?_
  exact hupd t d _ (fun _ => rfl) ht

theorem patternOpened_same (s : State) (p : Nat) : Same 0x248DCC s (s.patternOpened p) :=
  State.updPart_keeps rfl _ p _ (State.startPart_keeps rfl _ p (State.stopPart_keeps rfl s p stDONE true (.refl s)))

theorem patternOpened_runs (s : State) (p : Nat) : (s.patternOpened p).coll.runs =
    if (s.part p).active then s.coll.runs.filter (·.part != p) else s.coll.runs := by
  obtain ⟨l, hl⟩ := stopPart_coll s p stDONE true
  unfold State.patternOpened
  generalize s.stopPart p stDONE true = u at hl ⊢
  have hkept := (startPart_kept u p 0).2
  generalize u.startPart p = v at hkept ⊢
  exact hkept.trans (congrArg Coll.runs hl)

/-- No mover works for a core of a partition that ran, or for one that had none. -/
theorem patternOpened_mover {c : Nat} (h : (s.core c).mover = none ∨ ((s.part p).active = true ∧ c ∈ s.coresOf p)) :
    (s.patternOpened p).NoMover c := by
  obtain ⟨g, hg⟩ := stopPart_core s p stDONE true c
  unfold State.NoMover State.patternOpened
  generalize s.stopPart p stDONE true = u at hg ⊢
  have hkept := (startPart_kept u p c).1
  generalize u.startPart p = v at hkept ⊢
  refine hkept.trans ?_
  rw [hg]
  split
  · rfl
  · next hno => exact h.resolve_right hno

theorem patternOpened_part (s : State) (p : Nat) (ok : Nat → Prop) :
    ((s.patternOpened p).part p).Begun (s.part p).layout ok ∧ ((s.patternOpened p).part p).sched.next = 0 := by
  have hpart := (startPart_effect (s.stopPart p stDONE true) p).1 p
  rw [if_pos rfl] at hpart
  have hlayout := stopPart_layout s p stDONE true
  unfold State.patternOpened
  generalize s.stopPart p stDONE true = u at hpart hlayout ⊢
  generalize u.startPart p = v at hpart ⊢
  rw [State.part_updPart, if_pos rfl, hpart]
  exact ⟨⟨hlayout, rfl, rfl, rfl, rfl, rfl, nofun⟩, rfl⟩

/-- The crossings to a core depend on the locks and the grade. -/
theorem Same.coreOpen_eq {m : Nat} (h : Same m s t) (hl : m.testBit 5 = false)
    (hb : (m.testBit 0 || m.testBit 1) = false) (c : Nat) : t.coreOpen c = s.coreOpen c := by
  unfold State.coreOpen State.crosses
  rw [h.locked.resolve_left (by simp [hl]), h.hw_eq hb]

/-- A fetcher stands in every core that has a stream and that can be reached. -/
theorem startFetchers_core (s : State) (p : Nat) (pat : Pattern) (c : Nat) :
    ((s.startFetchers p pat).core c).mover = (s.core c).mover ∧
      ∀ x ∈ pat.streams, s.coreOpen (8 * (s.part p).layout.live.first.toNat + x.1) = true →
        c = 8 * (s.part p).layout.live.first.toNat + x.1 → ((s.startFetchers p pat).core c).fetch.isSome = true := by
  unfold State.startFetchers
  refine ⟨foldl_same (fun t : State => (t.core c).mover) _ (fun t x => ?_) _ s, fun x hx hopen hc => ?_⟩
  · rw [State.core_updCore]
    split
    · next h => rw [h]
    · rfl
  · refine foldl_reaches (P := fun t : State => t.part p = s.part p → (t.core c).fetch.isSome = true) (a := x)
      (fun t ht => ?_) (fun t y ht hpart => ?_) (List.mem_filter.2 ⟨hx, hopen⟩) s
      ((kept_foldl (m := 0x40) _ _ _ (fun t x h => State.updCore_keeps rfl t _ _ h) (.refl s)).part_eq rfl p)
    · have hpart : t.part p = s.part p := ht
      rw [State.core_updCore, hpart, if_pos hc.symm]
      rfl
    · rw [State.core_updCore]
      split
      · rfl
      · exact ht hpart

/-- An armed partition that may start, at its start stitch. -/
theorem patternStart_starts {pat : Pattern} (hpat : (s.part p).pattern = some pat)
    (harmed : (s.part p).patState = .armed)
    (hnow : (s.part p).armed = some s.tb.count.toNat) (hmay : s.mayStart = true)
    (hstate : (s.part p).state = .stopped ∨ (s.part p).state = .running) (ecc : Ecc) : s.patternStart p ecc =
      (((s.patternOpened p).startFetchers p pat).patternStitch p pat ecc).sendPart p := by
  have hgo : ¬ ((s.part p).patState ≠ .armed ∨ (s.part p).armed ≠ some s.tb.count.toNat) := by
    rw [harmed, hnow]
    simp
  have hallow : ¬ ((!s.mayStart) = true ∨ (s.part p).state = .zeroing ∨ (s.part p).state = .absent) := by
    rw [hmay]
    rcases hstate with h | h <;> rw [h] <;> decide
  unfold State.patternStart
  dsimp only
  rw [hpat]
  dsimp only
  rw [if_neg hgo, if_neg hallow]
  rfl

/-- After it the pattern has begun, with a fetcher for every stream. -/
theorem patternStart_begun {pat : Pattern} (hpat : (s.part p).pattern = some pat)
    (harmed : (s.part p).patState = .armed)
    (hnow : (s.part p).armed = some s.tb.count.toNat) (hmay : s.mayStart = true)
    (hstate : (s.part p).state = .stopped ∨ (s.part p).state = .running) (hruns : ∀ r ∈ s.coll.runs, r.part ≠ p)
    (hmovers : ∀ r ∈ pat.resvs, (s.core (s.resvCore p r)).mover = none ∨
      ((s.part p).state = .running ∧ s.resvCore p r ∈ s.coresOf p)) (ecc : Ecc) :
    ((s.patternOpened p).startFetchers p pat).Begun (s.patternStart p ecc) p := by
  rw [patternStart_starts hpat harmed hnow hmay hstate]
  obtain ⟨hbegun, hnext⟩ := patternOpened_part s p ((s.patternOpened p).startFetchers p pat).NoMover
  have hopened : ∀ r ∈ (s.patternOpened p).coll.runs, r.part ≠ p := by
    rw [patternOpened_runs]
    split
    · exact fun r hr => hruns r (List.mem_filter.1 hr).1
    · exact hruns
  have hidle : ∀ r ∈ pat.resvs, (s.patternOpened p).NoMover (s.resvCore p r) := fun r hr =>
    patternOpened_mover ((hmovers r hr).imp_right fun ⟨hrun, hc⟩ => ⟨by rw [Part.active, hrun]; rfl, hc⟩)
  have hlayout := hbegun.layout
  generalize s.patternOpened p = u at hbegun hnext hopened hidle hlayout ⊢
  have hsame : Same 0x40 u (u.startFetchers p pat) := State.startFetchers_keeps rfl u p pat (.refl u)
  have hmover : ∀ c, ((u.startFetchers p pat).core c).mover = (u.core c).mover :=
    fun c => (startFetchers_core u p pat c).1
  have hpart : (u.startFetchers p pat).part p = u.part p := hsame.part_eq rfl p
  generalize u.startFetchers p pat = v at hbegun hsame hmover hpart ⊢
  have hv : v.Begun v p := ⟨rfl, by rw [hsame.coll.resolve_left (by decide)]; exact hopened, by
    rw [hpart, hlayout]
    exact hbegun⟩
  refine (hv.patternStitch (by rw [hpart]; exact hnext) (fun r hr => ?_) ecc).sendPart
  have hcore : v.resvCore p r = s.resvCore p r := by
    unfold State.resvCore
    rw [hpart, hlayout]
  rw [hcore]
  exact (hmover _).trans (hidle r hr)

theorem patternStart_fetches {pat : Pattern} (hbegun : ((s.patternOpened p).startFetchers p pat).Begun t p)
    {x : Nat × Nat × Nat} (hx : x ∈ pat.streams)
    (hopen : s.coreOpen (8 * (s.part p).layout.live.first.toNat + x.1) = true) :
    (t.core (8 * (s.part p).layout.live.first.toNat + x.1)).fetch.isSome = true := by
  have hlayout := (patternOpened_part s p fun _ => True).1.layout
  have hreach := (startFetchers_core (s.patternOpened p) p pat (8 * (s.part p).layout.live.first.toNat + x.1)).2 x hx
  rw [hlayout, (patternOpened_same s p).coreOpen_eq rfl rfl] at hreach
  unfold State.core at hreach ⊢
  rw [hbegun.cores]
  exact hreach hopen rfl

end

end Sys2Proof.Machine
end


section
/-! SUPPORT. Proofs/Markers.lean: what a marker does to the one slice that its link joins (O32). -/

namespace Sys2Proof.Machine

/-! ### A start that does not come (R379, R615) -/

section
variable {s : State} {p : Nat} {pat : Pattern} (hpattern : (s.part p).pattern = some pat)
include hpattern

theorem patternStart_waits (hno : (s.part p).patState ≠ .armed ∨ (s.part p).armed ≠ some s.tb.count.toNat) (ecc : Ecc) :
    s.patternStart p ecc = s := by
  unfold State.patternStart
  dsimp only
  rw [hpattern]
  exact if_pos hno

theorem patternStart_refused (harmed : (s.part p).patState = .armed) (hnow : (s.part p).armed = some s.tb.count.toNat)
    (hno : s.mayStart = false ∨ (s.part p).state = .zeroing ∨ (s.part p).state = .absent) (ecc : Ecc) :
    s.patternStart p ecc = s.updPart p fun q => { q with
      armed := none, patState := .loaded, sched := q.sched.cleared,
      regs := { q.regs with startStatus := stCONFIG } } := by
  have hgo : ¬ ((s.part p).patState ≠ .armed ∨ (s.part p).armed ≠ some s.tb.count.toNat) :=
    fun h => h.elim (· harmed) (· hnow)
  unfold State.patternStart
  dsimp only
  rw [hpattern]
  exact (if_neg hgo).trans (if_pos (hno.imp_left (Bool.not_eq_true' _).mpr))

end

/-! ### Comparison (R381, R450) -/

section
variable {s : State} {m : Marker} {p : Nat} {e : SliceMark} (hstate : (s.part p).state = .running)
  (hpat : (s.part p).patState = .running) (hslices : m.slices = [e])
include hstate

theorem running_active : (s.part p).active = true := by
  unfold Part.active
  rw [hstate]
  rfl

include hpat hslices

theorem compareMark_agrees (htag : e.tag = (s.part p).place.live.tag)
    (hown : ∀ own, s.pstitchAt p m.count.toNat = some own → e.state ≠ 1 ∧ e.pstitch.toNat = own) :
    s.compareMark m p = s := by
  have hfind : m.slices.find? (·.tag == (s.part p).place.live.tag) = some e := by
    rw [hslices]
    exact List.find?_cons_of_pos (beq_iff_eq.2 htag)
  unfold State.compareMark
  dsimp only
  rw [running_active hstate, hpat, hfind]
  refine (if_neg (by decide)).trans (if_neg ?_)
  cases hstitch : s.pstitchAt p m.count.toNat with
  | none => exact Bool.false_ne_true
  | some own =>
    obtain ⟨h1, h2⟩ := hown own hstitch
    rw [Option.any_some, beq_false_of_ne h1, Bool.false_or, bne_iff_ne, not_not]
    exact h2

theorem compareMark_differs (h : e.tag ≠ (s.part p).place.live.tag ∨
    ∃ own, s.pstitchAt p m.count.toNat = some own ∧ (e.state = 1 ∨ e.pstitch.toNat ≠ own)) :
    s.compareMark m p = s.outOfStep p := by
  unfold State.compareMark
  dsimp only
  rw [running_active hstate, hpat, hslices]
  refine (if_neg (by decide)).trans ?_
  by_cases htag : e.tag = (s.part p).place.live.tag
  · obtain ⟨own, hown, hbad⟩ := h.resolve_left (not_not.2 htag)
    rw [List.find?_cons_of_pos (p := fun x : SliceMark => x.tag == _) (beq_iff_eq.2 htag)]
    refine if_pos ?_
    rw [hown]
    refine Bool.or_eq_true_iff.2 (hbad.imp beq_iff_eq.2 bne_iff_ne.2)
  · rw [List.find?_cons_of_neg (p := fun x : SliceMark => x.tag == _) (by simpa using htag)]
    exact if_pos hstate

end

/-! ### Holds (R387, R389) -/

section
variable {s : State} {k p : Nat} {h : HoldMark} (hpat : (s.part p).patState = .running)
  (htag : h.tag = (s.part p).place.live.tag)
include hpat htag

theorem receiveHold_unknown (hslip : (s.part p).sched.isSlip h.target.toNat = false) :
    ¬ ((!(s.part p).patterned) = true ∨ (s.part p).place.live.tag ≠ h.tag ∨
      (s.part p).sched.isSlip h.target.toNat = true) := by
  unfold Part.patterned
  rw [hpat, hslip, htag]
  simp

omit hpat htag in
theorem receiveHold_known (hslip : (s.part p).sched.isSlip h.target.toNat = true) : s.receiveHold k h p = s := by
  unfold State.receiveHold
  exact if_pos (.inr (.inr hslip))

theorem receiveHold_late (hslip : (s.part p).sched.isSlip h.target.toNat = false)
    (hlate : h.target.toNat ≤ s.tb.count.toNat) :
    s.receiveHold k h p = { s with tb := { s.tb with holdsLate := s.tb.holdsLate + 1 } }.outOfStep p := by
  unfold State.receiveHold
  exact (if_neg (receiveHold_unknown hpat htag hslip)).trans (if_pos hlate)

/-- A hold for a stitch still to come is kept. -/
theorem receiveHold_kept (hslip : (s.part p).sched.isSlip h.target.toNat = false)
    (hahead : s.tb.count.toNat < h.target.toNat) : ∃ x : HoldAt, x.target = h.target.toNat ∧
      (s.receiveHold k h p).part p = { s.part p with sched := (s.part p).sched.addHold x } := by
  refine ⟨{ target := h.target.toNat, cause := s.holdCause k h, isLocal := false, resv := 0, core := 0xFFFF }, rfl, ?_⟩
  unfold State.receiveHold
  refine (congrArg (fun t : State => t.part p) ((if_neg (receiveHold_unknown hpat htag hslip)).trans
    (if_neg (by omega)))).trans ?_
  rw [(State.sendAll_keeps (fp := 0x200000) rfl _ _ (.refl _)).part_eq rfl, State.part_updPart, if_pos rfl]

end

theorem addHold_new {d : Sched} {x : HoldAt} (h : d.isSlip x.target = false) :
    (d.addHold x).isSlip x.target = true ∧ (d.addHold x).holds.length = d.holds.length + 1 := by
  have heq : d.addHold x = { d with holds := d.holds ++ [x] } := if_pos (by rw [h]; rfl)
  rw [heq]
  refine ⟨?_, List.length_append⟩
  unfold Sched.isSlip
  rw [List.any_append, List.any_cons, beq_self_eq_true, Bool.true_or, Bool.or_true]

/-! ### A marker for one slice (R480) -/

section
variable {k : Fin 6} {m : Marker} {s : State} {p : Nat} {e : SliceMark} (hlink : (s.link k).state = 5)
  (hsum : m.crc = m.sum) (hrole : s.tb.role ≠ 0 ∨ s.tb.parent.toNat ≠ k.val) (hjoin : s.joinedParts k = [p])
  (hslices : m.slices = [e])
include hlink hsum hrole hjoin hslices

/-- Off the parent's port the slice is compared, and the holds are taken over. -/
theorem exec_marker_one (hholds : m.holds.length ≤ 32) : exec (.stitchMarker k m 0) s = .next
    (m.holds.foldl (fun t h => t.receiveHold k h p) ((s.keepMark k m).compareMark m p)) := by
  obtain ⟨n, htb⟩ := takeMarker_tb s k m
  have hone : s.takeMarker k m = m.holds.foldl (fun t h => t.receiveHold k h p) ((s.keepMark k m).compareMark m p) := by
    unfold State.takeMarker
    rw [hjoin]
    rfl
  have hother : ¬ ((s.takeMarker k m).tb.role = 0 ∧ (s.takeMarker k m).tb.parent.toNat = k.val) := by
    rw [htb]
    exact fun ⟨h1, h2⟩ => hrole.elim (· h1) (· h2)
  rw [exec_stitchMarker (by rw [hslices]; exact Nat.le_of_ble_eq_true rfl) hholds, if_neg (not_not.2 hlink),
    if_neg (not_not.2 hsum),
    if_neg hother, hone]

variable (hpat : (s.part p).patState = .running) (hstate : (s.part p).state = .running)
include hpat hstate

/-- A marker without holds. -/
theorem exec_marker_compares (hholds : m.holds = []) :
    (e.tag = (s.part p).place.live.tag →
      (∀ own, s.pstitchAt p m.count.toNat = some own → e.state ≠ 1 ∧ e.pstitch.toNat = own) →
      exec (.stitchMarker k m 0) s = .next (s.keepMark k m)) ∧
    ((e.tag ≠ (s.part p).place.live.tag ∨
        ∃ own, s.pstitchAt p m.count.toNat = some own ∧ (e.state = 1 ∨ e.pstitch.toNat ≠ own)) →
      ∃ t, exec (.stitchMarker k m 0) s = .next t ∧ (t.part p).active = false ∧
        (t.part p).stopCause = stOUT_OF_STEP) := by
  have hrun := exec_marker_one hlink hsum hrole hjoin hslices (by rw [hholds]; decide)
  rw [hholds, List.foldl_nil] at hrun
  refine ⟨fun htag hown => ?_, fun hdiffers => ?_⟩
  · rw [hrun, compareMark_agrees (s := s.keepMark k m) hstate hpat hslices htag hown]
  · rw [compareMark_differs (s := s.keepMark k m) hstate hpat hslices hdiffers] at hrun
    obtain ⟨hstop, hcause, -⟩ := fault_one (s := s.keepMark k m) (running_active (s := s.keepMark k m) hstate)
      stOUT_OF_STEP 5 0 0 0 0
    exact ⟨_, hrun, hstop, hcause⟩

/-- A marker with one hold, of a slice in step. -/
theorem exec_marker_holds {h : HoldMark} (hholds : m.holds = [h]) (htag : e.tag = (s.part p).place.live.tag)
    (hown : ∀ own, s.pstitchAt p m.count.toNat = some own → e.state ≠ 1 ∧ e.pstitch.toNat = own)
    (hhtag : h.tag = (s.part p).place.live.tag) :
    ((s.part p).sched.isSlip h.target.toNat = true → exec (.stitchMarker k m 0) s = .next (s.keepMark k m)) ∧
    ((s.part p).sched.isSlip h.target.toNat = false → s.tb.count.toNat < h.target.toNat →
      ∃ t, exec (.stitchMarker k m 0) s = .next t ∧ (t.part p).sched.isSlip h.target.toNat = true ∧
      (t.part p).sched.holds.length = (s.part p).sched.holds.length + 1 ∧ (t.part p).state = .running) ∧
    ((s.part p).sched.isSlip h.target.toNat = false → h.target.toNat ≤ s.tb.count.toNat → ∃ t,
      exec (.stitchMarker k m 0) s = .next t ∧
      (t.part p).active = false ∧ t.tb.holdsLate = s.tb.holdsLate + 1) := by
  have hrun := exec_marker_one hlink hsum hrole hjoin hslices (by rw [hholds]; exact Nat.le_of_ble_eq_true rfl)
  rw [hholds, List.foldl_cons, List.foldl_nil, compareMark_agrees (s := s.keepMark k m) hstate hpat hslices htag hown]
    at hrun
  refine ⟨fun hslip => ?_, fun hslip hahead => ⟨_, hrun, ?_⟩, fun hslip hlate => ⟨_, hrun, ?_⟩⟩
  · rw [hrun, receiveHold_known (s := s.keepMark k m) hslip]
  · obtain ⟨x, hx, hpart⟩ := receiveHold_kept (s := s.keepMark k m) (k := k) hpat hhtag hslip hahead
    rw [hpart, ← hx]
    rw [← hx] at hslip
    obtain ⟨hnew, hlen⟩ := addHold_new hslip
    exact ⟨hnew, hlen, hstate⟩
  · rw [receiveHold_late (s := s.keepMark k m) hpat hhtag hslip hlate]
    generalize hu : ({ s.keepMark k m with tb := _ } : State) = u
    refine ⟨?_, ?_⟩
    · rw [State.outOfStep, fault_active, if_pos (List.mem_singleton.2 rfl)]
    · rw [outOfStep_tb, ← hu]
      rfl

end

/-- Settles O32: PATTERN_START by its three cases, a marker by its entry of the slice and its hold. -/
theorem slicesStartAndHoldTogether : Obligations.SlicesStartAndHoldTogether := by
  refine ⟨fun p ecc s pat hpattern => ⟨fun hno => ?_, fun harmed hnow hno => ?_,
    fun harmed hnow hmay hstate hruns hmovers => ?_⟩,
    fun k m s p hlink hsum hrole hjoin hpat hstate => ⟨fun e hslices hholds => ?_,
      fun h e hholds hslices htag he hown hhtag => ?_⟩⟩
  · exact congrArg Host.Outcome.next (patternStart_waits hpattern hno ecc)
  · refine ⟨_, congrArg Host.Outcome.next (patternStart_refused hpattern harmed hnow hno ecc), ?_⟩
    rw [State.part_updPart, if_pos rfl]
    exact ⟨rfl, rfl, rfl, rfl, rfl, rfl⟩
  · have hbegun := patternStart_begun hpattern harmed hnow hmay hstate hruns hmovers ecc
    exact ⟨_, rfl, hbegun.part.armed, hbegun.part.patState, hbegun.active, hbegun.part.pstitch,
      fun x hx hopen => patternStart_fetches hbegun hx hopen⟩
  · exact exec_marker_compares hlink hsum hrole hjoin hslices hpat hstate hholds
  · exact exec_marker_holds hlink hsum hrole hjoin hslices hpat hstate hholds htag
      (fun own hstitch => ⟨by rw [he]; decide, hown own hstitch⟩) hhtag

end Sys2Proof.Machine
end
